-- ==== Sys2Proof/Word.lean ====
section
/-! DEFINITION. The word types of the machine. -/

namespace Sys2Proof

/-- A byte of memory. -/
abbrev Byte := BitVec 8

/-- A scalar register's word. -/
abbrev Word := BitVec 64

/-- The words of the Philox generator and of single-precision values. -/
abbrev Word32 := BitVec 32

end Sys2Proof
end

