-- ==== Sys2Proof/Syntax.lean ====
section
/-! DEFINITION. The syntax: one constructor of `Instr` per row of spec/opcode_table.json, and the data that events carry. -/

namespace Sys2Proof

/-- The two vector slots (R177): each drives its own unit. -/
inductive VUnit where
  | a
  | b
deriving DecidableEq, Repr

/-- The slots of a bundle, in the order of R35. -/
inductive Slot where
  | s
  | v (u : VUnit)
  | m
  | ld
  | st
  | cp
  | sy
deriving DecidableEq, Repr

/-- The 32-bit header of a bundle (R36). -/
structure Header where
  scope : BitVec 3
  safe : Bool
  switch : Bool
  gend : Bool
  present : BitVec 8
  idle : BitVec 16
deriving DecidableEq, Repr

/-- A feeder's target share (R249). -/
inductive FeedTarget where
  | a
  | b
deriving DecidableEq, Repr

/-- What a patrol visit finds at its word or line (R335). -/
inductive Found where
  | clean
  | corrected
  | uncorrectable (sym : BitVec 7)
deriving DecidableEq, Repr

/-- A spare slot as firmware chooses it for the sparing sequence (R403), and whether the geode is moved aside for a test (R441). -/
structure SpareSlot where
  slot : BitVec 5
  forTest : Bool := false
deriving DecidableEq, Repr

/-- What the power controller measured over an epoch (R412, R421): energy in microjoules of each logical geode, of the memory,
fabric and bulk-engine traffic of each partition's tasks, of each partition's scheduler work (R378) and of the overhead account,
the energy charged for pre-emptions and ballast per partition, and temperatures of each geode. -/
structure EpochReport where
  geodeEnergy : List Nat
  traffic : List Nat
  scheduler : List Nat
  overhead : Nat
  preempt : List Nat
  ballast : List Nat
  temps : List (BitVec 8)
deriving DecidableEq, Repr

/-- A signed envelope (R437). -/
structure Envelope where
  header : List (BitVec 8)
  sigRsa : List (BitVec 8)
  sigSlh : List (BitVec 8)
  payload : List (BitVec 8)
deriving DecidableEq, Repr

/-- The content of a test package as applied by galena (R441, R442): the slot it is applied to, the TREV and LHASH that it names
and, pattern by pattern, the expected signature and the one the slot gave. -/
structure ScanTest where
  die : Bool
  slot : BitVec 5
  trev : BitVec 4
  lhash : BitVec 64
  patterns : List (BitVec 64 × BitVec 64)
deriving DecidableEq, Repr

/-- The request types of the fabric that are supported (R443). -/
inductive FabricOp where
  | read (n : Nat)
  | write (bytes : List (BitVec 8))
  | atomic (op : BitVec 4) (ty : BitVec 5) (mode : BitVec 3) (opd cmp : BitVec 64)
  | mirror (bytes : List (BitVec 8)) (poison : Bool)
deriving DecidableEq, Repr

/-- An inbound fabric request (R449). -/
structure FabricRequest where
  lode : BitVec 16
  pa : Nat
  op : FabricOp
deriving DecidableEq, Repr

/-- An inbound PCIe request (R454): the requester, its virtual address, and the bytes of a write or the length of a read. -/
structure PcieRequest where
  requester : BitVec 16
  va : BitVec 64
  write : Option (List (BitVec 8))
  len : Nat
deriving DecidableEq, Repr

/-- What a host core asks of a physical address (R303, R320, R453): a store of one aligned 8-byte word, a store of other bytes, or a
load. -/
inductive HostOp where
  | word (v : BitVec 64)
  | store (bytes : List (BitVec 8))
  | load (n : Nat)
deriving DecidableEq, Repr

/-- An access of a host core (R453). -/
structure HostAccess where
  core : Nat
  op : HostOp
deriving DecidableEq, Repr

/-- A frame on the management port (R455). -/
inductive MgmtFrame where
  | envelope (e : Envelope)
  | attest (nonce : BitVec 384)
  | telemetry (addr : Nat)
deriving DecidableEq, Repr

/-- One constructor per row of spec/opcode_table.json. Operations of a slot carry their guard field `g`
([55:52], bit 3 the negate bit; [25:22] in SY) and their operand fields as R44 lays them out; `u` says which vector slot,
`st` whether an address-register operation stands in ST. Micro-operations carry the fields of R203. Events of the
hardware carry what comes from outside the machine. -/
inductive Instr where
  /-- ADD, S slot 0x01 (R121): sum. -/
  | add (g : BitVec 4) (d a b : BitVec 6)
  /-- SUB, S slot 0x02 (R121): difference. -/
  | sub (g : BitVec 4) (d a b : BitVec 6)
  /-- MUL, S slot 0x03 (R121): low product. -/
  | mul (g : BitVec 4) (d a b : BitVec 6)
  /-- MULH, S slot 0x04 (R121): signed high product. -/
  | mulh (g : BitVec 4) (d a b : BitVec 6)
  /-- MULHN, S slot 0x05 (R121): unsigned high product. -/
  | mulhn (g : BitVec 4) (d a b : BitVec 6)
  /-- DIV, S slot 0x06 (R122): signed quotient. -/
  | div (g : BitVec 4) (d a b : BitVec 6)
  /-- DIVN, S slot 0x07 (R122): unsigned quotient. -/
  | divn (g : BitVec 4) (d a b : BitVec 6)
  /-- REM, S slot 0x08 (R122): signed remainder. -/
  | rem (g : BitVec 4) (d a b : BitVec 6)
  /-- REMN, S slot 0x09 (R122): unsigned remainder. -/
  | remn (g : BitVec 4) (d a b : BitVec 6)
  /-- AND, S slot 0x0A (R121): bitwise AND. -/
  | and (g : BitVec 4) (d a b : BitVec 6)
  /-- OR, S slot 0x0B (R121): bitwise OR. -/
  | or (g : BitVec 4) (d a b : BitVec 6)
  /-- XOR, S slot 0x0C (R121): bitwise XOR. -/
  | xor (g : BitVec 4) (d a b : BitVec 6)
  /-- SHL, S slot 0x0D (R121): shift left. -/
  | shl (g : BitVec 4) (d a b : BitVec 6)
  /-- SHR, S slot 0x0E (R121): logical shift right. -/
  | shr (g : BitVec 4) (d a b : BitVec 6)
  /-- SRA, S slot 0x0F (R121): arithmetic shift right. -/
  | sra (g : BitVec 4) (d a b : BitVec 6)
  /-- ROT, S slot 0x10 (R121): rotate right. -/
  | rot (g : BitVec 4) (d a b : BitVec 6)
  /-- MIN, S slot 0x11 (R121): signed minimum. -/
  | min (g : BitVec 4) (d a b : BitVec 6)
  /-- MAX, S slot 0x12 (R121): signed maximum. -/
  | max (g : BitVec 4) (d a b : BitVec 6)
  /-- MINN, S slot 0x13 (R121): unsigned minimum. -/
  | minn (g : BitVec 4) (d a b : BitVec 6)
  /-- MAXN, S slot 0x14 (R121): unsigned maximum. -/
  | maxn (g : BitVec 4) (d a b : BitVec 6)
  /-- SEL, S slot 0x15 (R124): select by a guard. -/
  | sel (g : BitVec 4) (d a b : BitVec 6) (gs : BitVec 3) (ng : BitVec 1)
  /-- ADD128, S slot 0x16 (R123): 128-bit sum of register pairs. -/
  | add128 (g : BitVec 4) (d a b : BitVec 6)
  /-- ADDI, S slot 0x20 (R125): immediate form. -/
  | addi (g : BitVec 4) (d a : BitVec 6) (imm : BitVec 34)
  /-- ANDI, S slot 0x21 (R125): immediate form. -/
  | andi (g : BitVec 4) (d a : BitVec 6) (imm : BitVec 34)
  /-- ORI, S slot 0x22 (R125): immediate form. -/
  | ori (g : BitVec 4) (d a : BitVec 6) (imm : BitVec 34)
  /-- XORI, S slot 0x23 (R125): immediate form. -/
  | xori (g : BitVec 4) (d a : BitVec 6) (imm : BitVec 34)
  /-- SHLI, S slot 0x24 (R125): immediate shift. -/
  | shli (g : BitVec 4) (d a k : BitVec 6)
  /-- SHRI, S slot 0x25 (R125): immediate shift. -/
  | shri (g : BitVec 4) (d a k : BitVec 6)
  /-- SRAI, S slot 0x26 (R125): immediate shift. -/
  | srai (g : BitVec 4) (d a k : BitVec 6)
  /-- LI, S slot 0x27 (R125): load immediate. -/
  | li (g : BitVec 4) (d : BitVec 6) (imm : BitVec 34)
  /-- LIH, S slot 0x28 (R125): load high immediate. -/
  | lih (g : BitVec 4) (d : BitVec 6) (imm : BitVec 34)
  /-- MULI, S slot 0x29 (R125): multiply by immediate. -/
  | muli (g : BitVec 4) (d a : BitVec 6) (imm : BitVec 34)
  /-- CLZ, S slot 0x30 (R126): bit operation. -/
  | clz (g : BitVec 4) (d a : BitVec 6)
  /-- CTZ, S slot 0x31 (R126): bit operation. -/
  | ctz (g : BitVec 4) (d a : BitVec 6)
  /-- POPC, S slot 0x32 (R126): bit operation. -/
  | popc (g : BitVec 4) (d a : BitVec 6)
  /-- BINT3, S slot 0x33 (R126): bit operation. -/
  | bint3 (g : BitVec 4) (d a : BitVec 6)
  /-- BDINT3, S slot 0x34 (R126): bit operation. -/
  | bdint3 (g : BitVec 4) (d a : BitVec 6)
  /-- BINT2, S slot 0x35 (R126): bit operation. -/
  | bint2 (g : BitVec 4) (d a : BitVec 6)
  /-- BDINT2, S slot 0x36 (R126): bit operation. -/
  | bdint2 (g : BitVec 4) (d a : BitVec 6)
  /-- BREV, S slot 0x37 (R126): bit operation. -/
  | brev (g : BitVec 4) (d a : BitVec 6)
  /-- SEXT, S slot 0x38 (R126): extend from width w. -/
  | sext (g : BitVec 4) (d a w : BitVec 6)
  /-- ZEXT, S slot 0x39 (R126): extend from width w. -/
  | zext (g : BitVec 4) (d a w : BitVec 6)
  /-- CMP_EQ, S slot 0x40 (R127): compare into a guard. -/
  | cmpEq (g : BitVec 4) (gd : BitVec 3) (a b : BitVec 6)
  /-- CMP_NE, S slot 0x41 (R127): compare into a guard. -/
  | cmpNe (g : BitVec 4) (gd : BitVec 3) (a b : BitVec 6)
  /-- CMP_LT, S slot 0x42 (R127): compare into a guard. -/
  | cmpLt (g : BitVec 4) (gd : BitVec 3) (a b : BitVec 6)
  /-- CMP_LTN, S slot 0x43 (R127): compare into a guard. -/
  | cmpLtn (g : BitVec 4) (gd : BitVec 3) (a b : BitVec 6)
  /-- CMP_LE, S slot 0x44 (R127): compare into a guard. -/
  | cmpLe (g : BitVec 4) (gd : BitVec 3) (a b : BitVec 6)
  /-- CMP_LEN, S slot 0x45 (R127): compare into a guard. -/
  | cmpLen (g : BitVec 4) (gd : BitVec 3) (a b : BitVec 6)
  /-- CMPI_EQ, S slot 0x46 (R127): compare with immediate into a guard. -/
  | cmpiEq (g : BitVec 4) (gd : BitVec 3) (a : BitVec 6) (imm : BitVec 34)
  /-- CMPI_LT, S slot 0x47 (R127): compare with immediate into a guard. -/
  | cmpiLt (g : BitVec 4) (gd : BitVec 3) (a : BitVec 6) (imm : BitVec 34)
  /-- GAND, S slot 0x48 (R128): guard AND. -/
  | gand (g : BitVec 4) (gd ga gb : BitVec 3)
  /-- GOR, S slot 0x49 (R128): guard OR. -/
  | gor (g : BitVec 4) (gd ga gb : BitVec 3)
  /-- GNOT, S slot 0x4A (R128): guard NOT. -/
  | gnot (g : BitVec 4) (gd ga : BitVec 3)
  /-- BR, S slot 0x50 (R131): branch. -/
  | br (g : BitVec 4) (off : BitVec 34)
  /-- BRS, S slot 0x51 (R131): branch to a register plus offset. -/
  | brs (g : BitVec 4) (a : BitVec 6) (off : BitVec 34)
  /-- CALL, S slot 0x52 (R131): branch with link. -/
  | call (g : BitVec 4) (l : BitVec 6) (off : BitVec 34)
  /-- RET, S slot 0x53 (R131): branch to a register. -/
  | ret (g : BitVec 4) (a : BitVec 6)
  /-- LOOP, S slot 0x54 (R136): open a loop, count from a register. -/
  | loop (g : BitVec 4) (st : BitVec 2) (ro : BitVec 1) (a : BitVec 6) (e : BitVec 16)
  /-- LOOPI, S slot 0x55 (R136): open a loop, literal count. -/
  | loopi (g : BitVec 4) (st : BitVec 2) (ro : BitVec 1) (e : BitVec 16) (cnt : BitVec 18)
  /-- LEXIT, S slot 0x56 (R131): leave a loop. -/
  | lexit (g : BitVec 4) (off : BitVec 34)
  /-- BRB, S slot 0x57 (R131): branch to the other bank. -/
  | brb (g : BitVec 4) (l : BitVec 6) (o : BitVec 13)
  /-- HALT, S slot 0x58 (R133): stop the facet. -/
  | halt (g : BitVec 4)
  /-- YIELD, S slot 0x59 (R134): give up the turn. -/
  | yield (g : BitVec 4)
  /-- RDID, S slot 0x60 (R141): read an identifier. -/
  | rdid (g : BitVec 4) (d : BitVec 6) (imm : BitVec 34)
  /-- RDSYS, S slot 0x61 (R142): read a system register. -/
  | rdsys (g : BitVec 4) (d : BitVec 6) (ix : BitVec 12)
  /-- WRSYS, S slot 0x62 (R142): write a system register. -/
  | wrsys (g : BitVec 4) (a : BitVec 6) (ix : BitVec 12)
  /-- SYS, S slot 0x63 (R145): ask for a service. -/
  | sys (g : BitVec 4) (imm : BitVec 34)
  /-- TRAPI, S slot 0x64 (R145): raise a program trap. -/
  | trapi (g : BitVec 4) (imm : BitVec 34)
  /-- ERET, S slot 0x65 (R392): return from the handler. -/
  | eret (g : BitVec 4)
  /-- IFENCE, S slot 0x66 (R117): wait for the facet's ifetches. -/
  | ifence (g : BitVec 4)
  /-- EVPOP, S slot 0x67 (R147): take the oldest record. -/
  | evpop (g : BitVec 4) (d : BitVec 6)
  /-- RDTIME, S slot 0x68 (R149): read the time base. -/
  | rdtime (g : BitVec 4) (d : BitVec 6)
  /-- RDCYC, S slot 0x69 (R149): read the logical cycle. -/
  | rdcyc (g : BitVec 4) (d : BitVec 6)
  /-- SETEST, S slot 0x6A (R148): set the remaining-time estimate. -/
  | setest (g : BitVec 4) (a : BitVec 6) (ix : BitVec 8)
  /-- FLAGS_RD, S slot 0x6B (R150): read the sticky flags. -/
  | flagsRd (g : BitVec 4) (d : BitVec 6)
  /-- FLAGS_CLR, S slot 0x6C (R150): clear sticky flags. -/
  | flagsClr (g : BitVec 4) (k : BitVec 6)
  /-- WFE, S slot 0x6D (R147): wait for n records. -/
  | wfe (g : BitVec 4) (n : BitVec 7)
  /-- MOV_GS, S slot 0x70 (R105): guard to scalar. -/
  | movGs (g : BitVec 4) (d : BitVec 6) (gk : BitVec 3)
  /-- MOV_SG, S slot 0x71 (R105): scalar to guard. -/
  | movSg (g : BitVec 4) (gd : BitVec 3) (a : BitVec 6)
  /-- MOV_SV, S slot 0x72 (R105): scalar to vector lane. -/
  | movSv (g : BitVec 4) (d : BitVec 9) (a : BitVec 6) (lane : BitVec 4)
  /-- MOV_SX, S slot 0x73 (R105): scalar to address. -/
  | movSx (g : BitVec 4) (d : BitVec 5) (a : BitVec 6)
  /-- MOV_SQ, S slot 0x74 (R105): scalar to matrix parameter. -/
  | movSq (g : BitVec 4) (d : BitVec 3) (a : BitVec 6)
  /-- MOV_SD, S slot 0x75 (R105): scalar to descriptor. -/
  | movSd (g d : BitVec 4) (a : BitVec 6)
  /-- FADD, VA/VB slot 0x01 (R156): vector floating-point. -/
  | fadd (u : VUnit) (g : BitVec 4) (d a b : BitVec 9) (m : BitVec 4) (t : BitVec 5)
  /-- FSUB, VA/VB slot 0x02 (R156): vector floating-point. -/
  | fsub (u : VUnit) (g : BitVec 4) (d a b : BitVec 9) (m : BitVec 4) (t : BitVec 5)
  /-- FMUL, VA/VB slot 0x03 (R156): vector floating-point. -/
  | fmul (u : VUnit) (g : BitVec 4) (d a b : BitVec 9) (m : BitVec 4) (t : BitVec 5)
  /-- FMIN, VA/VB slot 0x07 (R158): vector floating-point. -/
  | fmin (u : VUnit) (g : BitVec 4) (d a b : BitVec 9) (m : BitVec 4) (t : BitVec 5)
  /-- FMAX, VA/VB slot 0x08 (R158): vector floating-point. -/
  | fmax (u : VUnit) (g : BitVec 4) (d a b : BitVec 9) (m : BitVec 4) (t : BitVec 5)
  /-- FDIV, VA/VB slot 0x0B (R156): vector floating-point. -/
  | fdiv (u : VUnit) (g : BitVec 4) (d a b : BitVec 9) (m : BitVec 4) (t : BitVec 5)
  /-- FSCALE, VA/VB slot 0x13 (R159): vector floating-point. -/
  | fscale (u : VUnit) (g : BitVec 4) (d a b : BitVec 9) (m : BitVec 4) (t : BitVec 5)
  /-- FMA, VA/VB slot 0x04 (R156): fused multiply-add family. -/
  | fma (u : VUnit) (g : BitVec 4) (d a b c : BitVec 9) (m : BitVec 4) (t : BitVec 5)
  /-- FMS, VA/VB slot 0x05 (R156): fused multiply-add family. -/
  | fms (u : VUnit) (g : BitVec 4) (d a b c : BitVec 9) (m : BitVec 4) (t : BitVec 5)
  /-- FNMA, VA/VB slot 0x06 (R156): fused multiply-add family. -/
  | fnma (u : VUnit) (g : BitVec 4) (d a b c : BitVec 9) (m : BitVec 4) (t : BitVec 5)
  /-- FABS, VA/VB slot 0x09 (R158): vector floating-point, one operand. -/
  | fabs (u : VUnit) (g : BitVec 4) (d a : BitVec 9) (m : BitVec 4) (t : BitVec 5)
  /-- FNEG, VA/VB slot 0x0A (R158): vector floating-point, one operand. -/
  | fneg (u : VUnit) (g : BitVec 4) (d a : BitVec 9) (m : BitVec 4) (t : BitVec 5)
  /-- FSQRT, VA/VB slot 0x0C (R156): vector floating-point, one operand. -/
  | fsqrt (u : VUnit) (g : BitVec 4) (d a : BitVec 9) (m : BitVec 4) (t : BitVec 5)
  /-- FRCP, VA/VB slot 0x0D (R156): vector floating-point, one operand. -/
  | frcp (u : VUnit) (g : BitVec 4) (d a : BitVec 9) (m : BitVec 4) (t : BitVec 5)
  /-- FRSQ, VA/VB slot 0x0E (R156): vector floating-point, one operand. -/
  | frsq (u : VUnit) (g : BitVec 4) (d a : BitVec 9) (m : BitVec 4) (t : BitVec 5)
  /-- FEXP2, VA/VB slot 0x0F (R156): vector floating-point, one operand. -/
  | fexp2 (u : VUnit) (g : BitVec 4) (d a : BitVec 9) (m : BitVec 4) (t : BitVec 5)
  /-- FLOG2, VA/VB slot 0x10 (R156): vector floating-point, one operand. -/
  | flog2 (u : VUnit) (g : BitVec 4) (d a : BitVec 9) (m : BitVec 4) (t : BitVec 5)
  /-- FCVT, VA/VB slot 0x11 (R161): convert between floating-point types. -/
  | fcvt (u : VUnit) (g : BitVec 4) (d a : BitVec 9) (st : BitVec 5) (part : BitVec 9) (m : BitVec 4) (t : BitVec 5)
  /-- FROUND, VA/VB slot 0x12 (R161): explicit final rounding. -/
  | fround (u : VUnit) (g : BitVec 4) (d a : BitVec 9) (st : BitVec 5) (part : BitVec 9) (m : BitVec 4) (t : BitVec 5) (md : BitVec 3)
  /-- FCLASS, VA/VB slot 0x14 (R162): classify into a mask. -/
  | fclass (u : VUnit) (g md : BitVec 4) (a cls : BitVec 9) (m : BitVec 4) (t : BitVec 5) (q : BitVec 3)
  /-- FCMP, VA/VB slot 0x15 (R163): compare into a mask. -/
  | fcmp (u : VUnit) (g md : BitVec 4) (a b : BitVec 9) (m : BitVec 4) (t : BitVec 5) (cond : BitVec 3)
  /-- FRED_ADD, VA/VB slot 0x16 (R164): tree reduction. -/
  | fredAdd (u : VUnit) (g : BitVec 4) (d a : BitVec 9) (m : BitVec 4) (t : BitVec 5)
  /-- FRED_MAX, VA/VB slot 0x17 (R164): tree reduction. -/
  | fredMax (u : VUnit) (g : BitVec 4) (d a : BitVec 9) (m : BitVec 4) (t : BitVec 5)
  /-- FRED_MIN, VA/VB slot 0x18 (R164): tree reduction. -/
  | fredMin (u : VUnit) (g : BitVec 4) (d a : BitVec 9) (m : BitVec 4) (t : BitVec 5)
  /-- BSCALE, VA/VB slot 0x19 (R166): block scales. -/
  | bscale (u : VUnit) (g : BitVec 4) (d a : BitVec 9) (m : BitVec 4) (t : BitVec 5) (sb : BitVec 3)
  /-- IADD, VA/VB slot 0x20 (R168): vector integer. -/
  | iadd (u : VUnit) (g : BitVec 4) (d a b : BitVec 9) (m : BitVec 4) (t : BitVec 5)
  /-- ISUB, VA/VB slot 0x21 (R168): vector integer. -/
  | isub (u : VUnit) (g : BitVec 4) (d a b : BitVec 9) (m : BitVec 4) (t : BitVec 5)
  /-- IMUL, VA/VB slot 0x22 (R168): vector integer. -/
  | imul (u : VUnit) (g : BitVec 4) (d a b : BitVec 9) (m : BitVec 4) (t : BitVec 5)
  /-- IMULH, VA/VB slot 0x23 (R168): vector integer. -/
  | imulh (u : VUnit) (g : BitVec 4) (d a b : BitVec 9) (m : BitVec 4) (t : BitVec 5)
  /-- IAND, VA/VB slot 0x24 (R168): vector integer. -/
  | iand (u : VUnit) (g : BitVec 4) (d a b : BitVec 9) (m : BitVec 4) (t : BitVec 5)
  /-- IOR, VA/VB slot 0x25 (R168): vector integer. -/
  | ior (u : VUnit) (g : BitVec 4) (d a b : BitVec 9) (m : BitVec 4) (t : BitVec 5)
  /-- IXOR, VA/VB slot 0x26 (R168): vector integer. -/
  | ixor (u : VUnit) (g : BitVec 4) (d a b : BitVec 9) (m : BitVec 4) (t : BitVec 5)
  /-- ISHL, VA/VB slot 0x27 (R168): vector integer. -/
  | ishl (u : VUnit) (g : BitVec 4) (d a b : BitVec 9) (m : BitVec 4) (t : BitVec 5)
  /-- ISHR, VA/VB slot 0x28 (R168): vector integer. -/
  | ishr (u : VUnit) (g : BitVec 4) (d a b : BitVec 9) (m : BitVec 4) (t : BitVec 5)
  /-- ISRA, VA/VB slot 0x29 (R168): vector integer. -/
  | isra (u : VUnit) (g : BitVec 4) (d a b : BitVec 9) (m : BitVec 4) (t : BitVec 5)
  /-- IMIN, VA/VB slot 0x2A (R168): vector integer. -/
  | imin (u : VUnit) (g : BitVec 4) (d a b : BitVec 9) (m : BitVec 4) (t : BitVec 5)
  /-- IMAX, VA/VB slot 0x2B (R168): vector integer. -/
  | imax (u : VUnit) (g : BitVec 4) (d a b : BitVec 9) (m : BitVec 4) (t : BitVec 5)
  /-- IADDS, VA/VB slot 0x2D (R168): vector integer. -/
  | iadds (u : VUnit) (g : BitVec 4) (d a b : BitVec 9) (m : BitVec 4) (t : BitVec 5)
  /-- ISUBS, VA/VB slot 0x2E (R168): vector integer. -/
  | isubs (u : VUnit) (g : BitVec 4) (d a b : BitVec 9) (m : BitVec 4) (t : BitVec 5)
  /-- IABS, VA/VB slot 0x2C (R168): vector integer, one operand. -/
  | iabs (u : VUnit) (g : BitVec 4) (d a : BitVec 9) (m : BitVec 4) (t : BitVec 5)
  /-- ICLZ, VA/VB slot 0x30 (R168): vector integer, one operand. -/
  | iclz (u : VUnit) (g : BitVec 4) (d a : BitVec 9) (m : BitVec 4) (t : BitVec 5)
  /-- IPOPC, VA/VB slot 0x31 (R168): vector integer, one operand. -/
  | ipopc (u : VUnit) (g : BitVec 4) (d a : BitVec 9) (m : BitVec 4) (t : BitVec 5)
  /-- IBINT3, VA/VB slot 0x32 (R168): vector integer, one operand. -/
  | ibint3 (u : VUnit) (g : BitVec 4) (d a : BitVec 9) (m : BitVec 4) (t : BitVec 5)
  /-- ICMP, VA/VB slot 0x2F (R163): integer compare into a mask. -/
  | icmp (u : VUnit) (g md : BitVec 4) (a b : BitVec 9) (m : BitVec 4) (t : BitVec 5) (cond : BitVec 3)
  /-- IRED_ADD, VA/VB slot 0x33 (R165): exact integer sum. -/
  | iredAdd (u : VUnit) (g : BitVec 4) (d a : BitVec 9) (m : BitVec 4) (t : BitVec 5)
  /-- IADD128, VA/VB slot 0x34 (R169): 128-bit vector sum. -/
  | iadd128 (u : VUnit) (g : BitVec 4) (d a b : BitVec 9) (m : BitVec 4) (t : BitVec 5)
  /-- ICVT, VA/VB slot 0x35 (R161): convert from integers. -/
  | icvt (u : VUnit) (g : BitVec 4) (d a : BitVec 9) (st : BitVec 5) (part : BitVec 9) (m : BitVec 4) (t : BitVec 5) (sb : BitVec 3)
  /-- VSEL, VA/VB slot 0x40 (R172): select by mask. -/
  | vsel (u : VUnit) (g : BitVec 4) (d a b : BitVec 9) (m : BitVec 4) (t : BitVec 5)
  /-- VPERM, VA/VB slot 0x41 (R172): permute. -/
  | vperm (u : VUnit) (g : BitVec 4) (d a b : BitVec 9) (m : BitVec 4) (t : BitVec 5)
  /-- VZIP, VA/VB slot 0x43 (R172): interleave. -/
  | vzip (u : VUnit) (g : BitVec 4) (d a b : BitVec 9) (m : BitVec 4) (t : BitVec 5) (sb : BitVec 3)
  /-- VUNZIP, VA/VB slot 0x44 (R172): de-interleave. -/
  | vunzip (u : VUnit) (g : BitVec 4) (d a b : BitVec 9) (m : BitVec 4) (t : BitVec 5) (sb : BitVec 3)
  /-- VREV, VA/VB slot 0x46 (R172): move elements. -/
  | vrev (u : VUnit) (g : BitVec 4) (d a : BitVec 9) (m : BitVec 4) (t : BitVec 5)
  /-- VCOMPRESS, VA/VB slot 0x47 (R172): move elements. -/
  | vcompress (u : VUnit) (g : BitVec 4) (d a : BitVec 9) (m : BitVec 4) (t : BitVec 5)
  /-- VEXPAND, VA/VB slot 0x48 (R172): move elements. -/
  | vexpand (u : VUnit) (g : BitVec 4) (d a : BitVec 9) (m : BitVec 4) (t : BitVec 5)
  /-- VBCAST, VA/VB slot 0x42 (R173): broadcast an element. -/
  | vbcast (u : VUnit) (g : BitVec 4) (d a : BitVec 9) (imm : BitVec 18) (m : BitVec 4) (t : BitVec 5)
  /-- VSLIDE, VA/VB slot 0x45 (R173): slide elements. -/
  | vslide (u : VUnit) (g : BitVec 4) (d a : BitVec 9) (imm : BitVec 18) (m : BitVec 4) (t : BitVec 5)
  /-- VIOTA, VA/VB slot 0x49 (R173): running count. -/
  | viota (u : VUnit) (g : BitVec 4) (d : BitVec 9) (imm : BitVec 18) (m : BitVec 4) (t : BitVec 5)
  /-- VMOVI, VA/VB slot 0x4A (R173): constant. -/
  | vmovi (u : VUnit) (g : BitVec 4) (d : BitVec 9) (imm : BitVec 18) (m : BitVec 4) (t : BitVec 5)
  /-- MAND, VA/VB slot 0x50 (R174): mask logic. -/
  | mand (u : VUnit) (g md ma mb : BitVec 4)
  /-- MOR, VA/VB slot 0x51 (R174): mask logic. -/
  | mor (u : VUnit) (g md ma mb : BitVec 4)
  /-- MXOR, VA/VB slot 0x52 (R174): mask logic. -/
  | mxor (u : VUnit) (g md ma mb : BitVec 4)
  /-- MNOT, VA/VB slot 0x53 (R174): mask complement. -/
  | mnot (u : VUnit) (g md ma : BitVec 4)
  /-- MPOPC, VA/VB slot 0x54 (R174): count of a mask. -/
  | mpopc (u : VUnit) (g : BitVec 4) (d : BitVec 9) (ms m : BitVec 4) (t : BitVec 5)
  /-- MFIRST, VA/VB slot 0x55 (R174): first of a mask. -/
  | mfirst (u : VUnit) (g : BitVec 4) (d : BitVec 9) (ms m : BitVec 4) (t : BitVec 5)
  /-- VRNG, VA/VB slot 0x60 (R175): Philox4x32-10. -/
  | vrng (u : VUnit) (g : BitVec 4) (d a b : BitVec 9) (m : BitVec 4) (t : BitVec 5)
  /-- VRNG_F, VA/VB slot 0x61 (R176): n32 to f32 in [0,1). -/
  | vrngF (u : VUnit) (g : BitVec 4) (d a : BitVec 9) (m : BitVec 4) (t : BitVec 5)
  /-- MOV_VS, VA/VB slot 0x70 (R105): vector lane to scalar. -/
  | movVs (u : VUnit) (g : BitVec 4) (d : BitVec 6) (a : BitVec 9) (lane : BitVec 4)
  /-- MOV_MG, VA/VB slot 0x71 (R105): uniform mask to guard. -/
  | movMg (u : VUnit) (g : BitVec 4) (gd : BitVec 3) (ms mg : BitVec 4)
  /-- MOV_VX, VA/VB slot 0x72 (R105): vector lane to address. -/
  | movVx (u : VUnit) (g : BitVec 4) (d : BitVec 5) (a : BitVec 9) (lane : BitVec 5)
  /-- MCALL, M slot 0x01 (R195): invoke a routine. -/
  | mcall (g : BitVec 4) (ix sn : BitVec 6) (imm : BitVec 34)
  /-- MPARAMI, M slot 0x02 (R196): set a parameter. -/
  | mparami (g : BitVec 4) (k : BitVec 3) (imm : BitVec 31)
  /-- MZERO, M slot 0x03 (R197): zero columns. -/
  | mzero (g : BitVec 4) (sn : BitVec 6) (col : BitVec 9)
  /-- MDRAIN_V, M slot 0x04 (R198): drain a row to a vector. -/
  | mdrainV (g : BitVec 4) (d : BitVec 9) (row : BitVec 7) (col : BitVec 9) (z : BitVec 1)
  /-- MDRAIN_P, M slot 0x05 (R199): drain a tile to scratchpad. -/
  | mdrainP (g : BitVec 4) (sn : BitVec 6) (mode : BitVec 3) (fmt : BitVec 5) (col : BitVec 9) (row rows : BitVec 7) (z : BitVec 1)
  /-- MWAIT, M slot 0x06 (R200): wait for items. -/
  | mwait (g k : BitVec 4)
  /-- MUCODE_LD, M slot 0x07 (R201): load micro-words. -/
  | mucodeLd (g : BitVec 4) (ix : BitVec 6) (words : BitVec 10) (off : BitVec 20)
  /-- MWIT, M slot 0x08 (R202): witness mode. -/
  | mwit (g : BitVec 4) (on : BitVec 1)
  /-- MFLUSH, M slot 0x09 (R202): discard FIFO bytes. -/
  | mflush (g : BitVec 4)
  /-- MSTAT, M slot 0x0A (R202): write the status record. -/
  | mstat (g : BitVec 4) (c : BitVec 1) (off : BitVec 20)
  /-- LD_S, LD slot 0x01 (R224): scalar load. -/
  | ldS (g : BitVec 4) (d : BitVec 6) (xb : BitVec 5) (off : BitVec 22) (sx : BitVec 1) (sz : BitVec 2)
  /-- LD_V, LD slot 0x02 (R225): contiguous vector load. -/
  | ldV (g : BitVec 4) (d : BitVec 9) (xb : BitVec 5) (off : BitVec 22) (m : BitVec 4) (t : BitVec 5)
  /-- LD_VS, LD slot 0x03 (R225): strided vector load. -/
  | ldVs (g : BitVec 4) (d : BitVec 9) (xb : BitVec 5) (off : BitVec 22) (m : BitVec 4) (t : BitVec 5)
  /-- LD_VG, LD slot 0x04 (R225): gather. -/
  | ldVg (g : BitVec 4) (d : BitVec 9) (xb : BitVec 5) (vi : BitVec 9) (m : BitVec 4) (t : BitVec 5)
  /-- LD_M, LD slot 0x05 (R226): mask load. -/
  | ldM (g md : BitVec 4) (xb : BitVec 5) (off : BitVec 22)
  /-- LDH_S, LD slot 0x06 (R318): scalar load through a handle. -/
  | ldhS (g : BitVec 4) (d : BitVec 6) (h xo : BitVec 5) (imm : BitVec 17) (sx : BitVec 1) (sz : BitVec 2)
  /-- LDH_V, LD slot 0x07 (R318): vector load through a handle. -/
  | ldhV (g : BitVec 4) (d : BitVec 9) (h xo : BitVec 5) (imm : BitVec 17) (m : BitVec 4) (t : BitVec 5)
  /-- VFILL, LD slot 0x08 (R103): load a register image. -/
  | vfill (g : BitVec 4) (d : BitVec 9) (xb : BitVec 5) (off : BitVec 22)
  /-- TRANSLATE, LD slot 0x09 (R310): make a handle. -/
  | translate (g : BitVec 4) (a : BitVec 6) (h : BitVec 5) (rw : BitVec 2)
  /-- HDROP, LD slot 0x0A (R310): drop a handle. -/
  | hdrop (g : BitVec 4) (h : BitVec 5)
  /-- RECV, LD slot 0x0B (R243): take a ring message. -/
  | recv (g : BitVec 4) (d : BitVec 9) (rank : BitVec 4) (facet : BitVec 2) (lane : BitVec 3) (dir : BitVec 1)
  /-- MOV_XS, LD slot 0x0C (R105): address to scalar. -/
  | movXs (g : BitVec 4) (d : BitVec 6) (a : BitVec 5)
  /-- LD_Q, LD slot 0x0D (R228): load a narrow format and widen. -/
  | ldQ (g : BitVec 4) (d : BitVec 9) (xb : BitVec 5) (off : BitVec 22) (m : BitVec 4) (t : BitVec 5) (mf : BitVec 4)
  /-- XADD, LD or ST slot 0x30 (R220): address sum. -/
  | xadd (inSt : Bool) (g : BitVec 4) (d a b : BitVec 5)
  /-- XADDI, LD or ST slot 0x31 (R220): address plus immediate. -/
  | xaddi (inSt : Bool) (g : BitVec 4) (d a : BitVec 5) (imm : BitVec 22)
  /-- XLI, LD or ST slot 0x32 (R220): address immediate. -/
  | xli (inSt : Bool) (g : BitVec 4) (d : BitVec 5) (imm : BitVec 22)
  /-- XSUB, LD or ST slot 0x33 (R220): address difference. -/
  | xsub (inSt : Bool) (g : BitVec 4) (d a b : BitVec 5)
  /-- ST_S, ST slot 0x01 (R231): scalar store. -/
  | stS (g : BitVec 4) (a : BitVec 6) (xb : BitVec 5) (off : BitVec 22) (t : BitVec 5) (mode : BitVec 3) (sz : BitVec 2)
  /-- ST_V, ST slot 0x02 (R230): contiguous vector store. -/
  | stV (g : BitVec 4) (a : BitVec 9) (xb : BitVec 5) (off : BitVec 22) (m : BitVec 4) (t : BitVec 5) (mode : BitVec 3) (src : BitVec 4)
  /-- ST_VS, ST slot 0x03 (R230): strided vector store. -/
  | stVs (g : BitVec 4) (a : BitVec 9) (xb : BitVec 5) (off : BitVec 22) (m : BitVec 4) (t : BitVec 5) (mode : BitVec 3) (src : BitVec 4)
  /-- ST_VX, ST slot 0x04 (R230): scatter. -/
  | stVx (g : BitVec 4) (a : BitVec 9) (xb : BitVec 5) (vi : BitVec 9) (m : BitVec 4) (t : BitVec 5) (mode : BitVec 3) (src : BitVec 4)
  /-- ST_M, ST slot 0x05 (R231): mask store. -/
  | stM (g ms : BitVec 4) (xb : BitVec 5) (off : BitVec 22)
  /-- STH_S, ST slot 0x06 (R318): scalar store through a handle. -/
  | sthS (g : BitVec 4) (a : BitVec 6) (h xo : BitVec 5) (imm : BitVec 17) (t : BitVec 5) (mode : BitVec 3) (sz : BitVec 2)
  /-- STH_V, ST slot 0x07 (R318): vector store through a handle. -/
  | sthV (g : BitVec 4) (a : BitVec 9) (h xo : BitVec 5) (imm : BitVec 17) (m : BitVec 4) (t : BitVec 5) (mode : BitVec 3) (src : BitVec 4)
  /-- VSPILL, ST slot 0x08 (R103): store a register image. -/
  | vspill (g : BitVec 4) (a : BitVec 9) (xb : BitVec 5) (off : BitVec 22)
  /-- SEND, ST slot 0x09 (R243): inject a ring message. -/
  | send (g : BitVec 4) (a : BitVec 9) (rank : BitVec 4) (facet : BitVec 2) (lane : BitVec 3) (dir : BitVec 1)
  /-- AMO_P, ST slot 0x0A (R232): scratchpad atomic. -/
  | amoP (g : BitVec 4) (d : BitVec 6) (xb : BitVec 5) (off : BitVec 22) (t : BitVec 5) (mode : BitVec 3) (op : BitVec 4)
  /-- AMO_H, ST slot 0x0B (R318): atomic through a handle. -/
  | amoH (g : BitVec 4) (d : BitVec 6) (h xo : BitVec 5) (imm : BitVec 17) (t : BitVec 5) (mode : BitVec 3) (op : BitVec 4)
  /-- SIGW, ST slot 0x0C (R318): signal write. -/
  | sigw (g : BitVec 4) (a : BitVec 6) (h xo : BitVec 5) (imm : BitVec 17)
  /-- FEED, CP slot 0x01 (R256): append to a FIFO share. -/
  | feed (g da db : BitVec 4) (ty : BitVec 5) (sm : BitVec 3) (kind tgt : BitVec 2) (cm : BitVec 20)
  /-- LCOPY, CP slot 0x02 (R260): copy within scratchpad. -/
  | lcopy (g da db : BitVec 4) (cm : BitVec 20)
  /-- BULK_SET, CP slot 0x03 (R262): write staging words. -/
  | bulkSet (g da db : BitVec 4) (pos : BitVec 2)
  /-- BULK_GO, CP slot 0x04 (R262): send a bulk command. -/
  | bulkGo (g en : BitVec 4) (cm : BitVec 20)
  /-- BULK_CANCEL, CP slot 0x05 (R265): cancel a bulk command. -/
  | bulkCancel (g en : BitVec 4) (tag : BitVec 16)
  /-- WIN_OPEN, CP slot 0x06 (R259): open a band. -/
  | winOpen (g da db : BitVec 4) (band : BitVec 3) (rr fill : BitVec 8) (cm : BitVec 20)
  /-- WIN_ADV, CP slot 0x07 (R259): advance a band. -/
  | winAdv (g : BitVec 4) (band : BitVec 3) (k : BitVec 8) (cm : BitVec 20)
  /-- WIN_CLOSE, CP slot 0x08 (R259): close a band. -/
  | winClose (g : BitVec 4) (band : BitVec 3) (cm : BitVec 20)
  /-- IFETCH, CP slot 0x09 (R261): fill the inactive bank. -/
  | ifetch (g da : BitVec 4) (words : BitVec 14) (cm : BitVec 20)
  /-- CRC_RD, CP slot 0x0A (R255): read a CRC accumulator. -/
  | crcRd (g : BitVec 4) (rst : BitVec 1) (ac : BitVec 2) (tag : BitVec 16)
  /-- BAR_ARR, SY slot 0x01 (R271): arrive at a barrier. -/
  | barArr (g : BitVec 4) (xb : BitVec 5) (inn out : BitVec 8)
  /-- BAR_WAIT, SY slot 0x02 (R271): wait at a barrier. -/
  | barWait (g : BitVec 4) (xb : BitVec 5) (sg : BitVec 6)
  /-- WAIT, SY slot 0x03 (R272): wait for engine operations. -/
  | wait (g cls : BitVec 4) (k : BitVec 6)
  /-- DRAIN, SY slot 0x04 (R288): wait for accesses to perform. -/
  | drain (g : BitVec 4)
  /-- PBAR, SY slot 0x05 (R304): persist barrier. -/
  | pbar (g : BitVec 4)
  /-- TSYNC, SY slot 0x06 (R240): meet and set the ring base. -/
  | tsync (g : BitVec 4) (mask : BitVec 16)
  /-- YADD, SY slot 0x07 (R274): check-file arithmetic. -/
  | yadd (g : BitVec 4) (yd : BitVec 2) (ak : BitVec 1) (a : BitVec 6) (bk : BitVec 2) (b : BitVec 11)
  /-- YSUB, SY slot 0x08 (R274): check-file arithmetic. -/
  | ysub (g : BitVec 4) (yd : BitVec 2) (ak : BitVec 1) (a : BitVec 6) (bk : BitVec 2) (b : BitVec 11)
  /-- YAND, SY slot 0x09 (R274): check-file arithmetic. -/
  | yand (g : BitVec 4) (yd : BitVec 2) (ak : BitVec 1) (a : BitVec 6) (bk : BitVec 2) (b : BitVec 11)
  /-- YXOR, SY slot 0x0A (R274): check-file arithmetic. -/
  | yxor (g : BitVec 4) (yd : BitVec 2) (ak : BitVec 1) (a : BitVec 6) (bk : BitVec 2) (b : BitVec 11)
  /-- YCMP, SY slot 0x0B (R275): check-file compare. -/
  | ycmp (g : BitVec 4) (yd : BitVec 2) (ak : BitVec 1) (a : BitVec 6) (bk : BitVec 1) (b : BitVec 6) (cond : BitVec 3)
  /-- CHK_Y, SY slot 0x0C (R276): compare check registers. -/
  | chkY (g : BitVec 4) (ya yb : BitVec 2)
  /-- CHK_V, SY slot 0x0D (R276): compare vector registers. -/
  | chkV (g : BitVec 4) (a b : BitVec 9) (m : BitVec 4)
  /-- CHK_S, SY slot 0x0E (R276): compare check and scalar. -/
  | chkS (g : BitVec 4) (ya : BitVec 2) (a : BitVec 6)
  /-- NOP, micro-operation 0x0 (R204): does nothing. -/
  | nop
  /-- POP_A, micro-operation 0x1 (R204): next A tile to staging. -/
  | popA
  /-- POP_B, micro-operation 0x2 (R204): next B tile to staging. -/
  | popB
  /-- PASS, micro-operation 0x3 (R204): dense pass. -/
  | pass (ovr : BitVec 1)
  /-- PASS_SP, micro-operation 0x4 (R204): sparse pass. -/
  | passSp (ovr : BitVec 1)
  /-- ACC, micro-operation 0x5 (R204): adds one column range into another. -/
  | acc (val : BitVec 16) (src : BitVec 2)
  /-- ZERO, micro-operation 0x6 (R204): zeros the current columns. -/
  | zero
  /-- SHIFT, micro-operation 0x7 (R204): moves the current column. -/
  | shift (val : BitVec 16) (src : BitVec 2)
  /-- MICRO_LOOP, micro-operation 0x8 (R204): loop counter step. -/
  | microLoop (tgt : BitVec 10) (ctr : BitVec 1) (val : BitVec 16) (src : BitVec 2)
  /-- JUMP, micro-operation 0x9 (R204): continues at the target. -/
  | jump (tgt : BitVec 10)
  /-- END, micro-operation 0xA (R204): ends the invocation. -/
  | microEnd
  /-- SCALE, micro-operation 0xB (R204): multiplies by a power of two. -/
  | scale (val : BitVec 16) (src : BitVec 2)
  /-- WIT, micro-operation 0xC (R204): witnesses the next pass. -/
  | wit
  /-- SYNC, micro-operation 0xD (R204): posts a matrix record. -/
  | sync (val : BitVec 16) (src : BitVec 2)
  /-- BUNDLE_ISSUE (R32: the running facet of `core` issues its next bundle, or is held, or traps). -/
  | bundleIssue (core : Nat)
  /-- BUNDLE_COMMIT (R379: the bundle in the issue latch of `core`'s running facet commits). -/
  | bundleCommit (core : Nat)
  /-- RESULT_LANDING (R49: the results of a facet that are at their bound and present land). -/
  | resultLanding (core facet : Nat)
  /-- TIMING_ERROR_REPLAY (R380: a stage of `core` met a timing error). -/
  | timingErrorReplay (core : Nat)
  /-- WATCHDOG_EXPIRY (R396: a facet stayed blocked for LIMIT microseconds). -/
  | watchdogExpiry (core facet : Nat)
  /-- QUANTUM_EXPIRY (R374: the selector looks at the count Q). -/
  | quantumExpiry (core : Nat)
  /-- FACET_SWITCH (R374: the selector selects the next ready facet). -/
  | facetSwitch (core : Nat)
  /-- MATRIX_ITEM_RUN (R191: the matrix unit of `core` takes its next step). -/
  | matrixItemRun (core : Nat)
  /-- BALLAST_PASS (R418: the ballast unit begins (or abandons) a ballast pass). -/
  | ballastPass (geode : Nat) (on : Bool)
  /-- TSYNC_MEETING_COMPLETE (R240: a meeting is complete). -/
  | tsyncMeetingComplete (geode launch : Nat) (mask : BitVec 16)
  /-- ENGINE_OPERATION_COMPLETE (R250: the oldest operation of the facet completes). -/
  | engineOperationComplete (core facet : Nat)
  /-- COMPLETION_RECORD_POST (R253: the record of a completed operation enters the event queue). -/
  | completionRecordPost (core facet : Nat)
  /-- FIFO_APPEND (R256: a feeder appends bytes). -/
  | fifoAppend (core : Nat) (tgt : FeedTarget)
  /-- BAND_ROW_ARRIVAL (R259: the band's next fetched row is written to its slot). -/
  | bandRowArrival (core band : Nat)
  /-- BULK_ENGINE_TAKE_COMMAND (R263: engine `e` takes a command or moves its next row). -/
  | bulkEngineTakeCommand (e : Nat)
  /-- HOST_BULK_GO (R266: host software writes CTRL with GO). -/
  | hostBulkGo (e : Nat) (v : BitVec 64)
  /-- ENGINE_COUNTDOWN (R264: engine `e` makes its next countdown). -/
  | engineCountdown (e : Nat)
  /-- RING_MESSAGE_ARRIVAL (R243: a message enters its destination stop's buffer). -/
  | ringMessageArrival (geode id : Nat)
  /-- ACCESS_PERFORM_AT_HOME (R281: an outstanding access performs). -/
  | accessPerformAtHome (id : Nat)
  /-- WALK_END (R310: the walk of a pending handle ends). -/
  | walkEnd (core facet hn : Nat)
  /-- INVAL_GO (R322: a write of INVAL_CMD with GO). -/
  | invalGo (v : BitVec 64)
  /-- INVAL_COMPLETE (R322: the request's accesses have performed). -/
  | invalComplete
  /-- REFRESH (R329: an interval elapses (`due`) or the channel is looked at, with or without waiting requests). -/
  | refresh (vein chan : Nat) (due waiting : Bool)
  /-- PATROL_VISIT (R335: the patrol visits its next word). -/
  | patrolVisit (vein : Nat) (f : Found)
  /-- DURABLE_PATROL_VISIT (R349: the durable patrol visits its next line). -/
  | durablePatrolVisit (f : Found)
  /-- LOGCNT_POP (R336: POP of the log of vein `unit`, or of the durable tier (8)). -/
  | logcntPop (unit : Nat)
  /-- WRITE_QUEUE_TO_MEDIA (R342: the oldest entry goes to the media). -/
  | writeQueueToMedia
  /-- SEAL_CONFIRM (R343: the controller confirms the oldest seal request). -/
  | sealConfirm
  /-- HPBAR_GO (R344: host software writes HPBAR.GO). -/
  | hpbarGo
  /-- HOLDUP_TEST (R347: the hold-up domain is tested). -/
  | holdupTest (ok : Bool)
  /-- POWER_GOOD_DEASSERT (R346: the board drops power-good; whether the drain completed). -/
  | powerGoodDeassert (drained : Bool)
  /-- POWER_GOOD_ASSERT (R456: power-good rises; the bring-up step that fails, if any, and the hold-up test of step 4). -/
  | powerGoodAssert (fails : Option Nat) (holdup : Bool)
  /-- MIRROR_ENABLE (R352: EN of range `k` is written from 0 to 1). -/
  | mirrorEnable (k : Nat)
  /-- MIRROR_DISABLE (R352: EN of range `k` is written from 1 to 0). -/
  | mirrorDisable (k : Nat)
  /-- MIRROR_SYNC_COMPLETE (R352: the first copy of range `k` ends). -/
  | mirrorSyncComplete (k : Nat)
  /-- MIRROR_WRITE_ACK (R351: the partner accepts the oldest mirror write of range `k`). -/
  | mirrorWriteAck (k : Nat)
  /-- MIRROR_PARTNER_UNREACHABLE (R352: the fabric reports the partner unreachable). -/
  | mirrorPartnerUnreachable (k : Nat)
  /-- MIRROR_REPAIR (R353: a word is found uncorrectable; the partner's word, if it can be read). -/
  | mirrorRepair (k word : Nat) (partner : Option (BitVec 256))
  /-- MAP (R358: CTL.MAP). -/
  | map (slot : Nat)
  /-- UNMAP (R358: CTL.UNMAP). -/
  | unmap (slot : Nat)
  /-- UNMAP_COMPLETE (R358: the unmap ends). -/
  | unmapComplete (slot : Nat)
  /-- KILL (R358: CTL.KILL). -/
  | kill (slot : Nat)
  /-- PACKET_START (R363: the slot starts its next pending packet). -/
  | packetStart (slot : Nat)
  /-- LAUNCH_DISPATCH (R367: the scheduler places the launch of the slot where it can). -/
  | launchDispatch (slot : Nat)
  /-- WAIT_PACKET_SATISFIED (R362: the wait packet of the slot is looked at). -/
  | waitPacketSatisfied (slot : Nat)
  /-- PACKET_COMPLETION (R371: the packet of the slot completes). -/
  | packetCompletion (slot : Nat)
  /-- TOKEN_REFILL (R365: a millisecond passes for partition `p`). -/
  | tokenRefill (p : Nat)
  /-- PREEMPTION_POLICY (R397: the scheduler chooses an action). -/
  | preemptionPolicy (slot geode : Nat)
  /-- GEODE_FREEZE (R399: galena freezes a geode). -/
  | geodeFreeze (geode : Nat) (reason : BitVec 2)
  /-- FOSSIL_WRITE_COMPLETE (R401: the stream of fossil `k` ends). -/
  | fossilWriteComplete (k : Nat)
  /-- FOSSIL_RESTORE (R402: fossil `k` is restored). -/
  | fossilRestore (k : Nat)
  /-- CHECKPOINT_REQUEST (R404: a checkpoint of the slot's launch is asked for). -/
  | checkpointRequest (slot : Nat)
  /-- CHECKPOINT_SAVE (R404: every facet is held; the launch is recorded). -/
  | checkpointSave (slot : Nat)
  /-- CHECKPOINT_TIMEOUT (R407: CKLIM has passed). -/
  | checkpointTimeout (slot : Nat)
  /-- RESUME (R395: PARKf.RESUME). -/
  | resume (core facet : Nat)
  /-- ENTER (R395: PARKf.ENTER). -/
  | enter (core facet : Nat)
  /-- PARKREQ (R395: PARKf.PARKREQ). -/
  | parkreq (core facet : Nat)
  /-- GEODE_MAP_WRITE (R18: a write of GEODE_MAP_n). -/
  | geodeMapWrite (n : Nat) (v : BitVec 32) (fw : Bool)
  /-- LODE_ID_WRITE (R465: a write of LODE_ID). -/
  | lodeIdWrite (v : BitVec 64) (fw : Bool)
  /-- SPARING_SEQUENCE (R403: firmware replaces a failing geode). -/
  | sparingSequence (geode : Nat) (spare : Option SpareSlot)
  /-- EPOCH_END (R412: a 100 microsecond epoch ends). -/
  | epochEnd (r : EpochReport)
  /-- FREQUENCY_STEP (R410: one step towards the target code). -/
  | frequencyStep (geode : Nat)
  /-- TEMPERATURE_CRITICAL (R411: a sensor reading at or above TCRIT). -/
  | temperatureCritical (geode : Nat) (temp : BitVec 8)
  /-- CURRENT_REPORT (R417: the regulators report their currents, geode by geode). -/
  | currentReport (amps : List Nat) (other : Nat)
  /-- ACTIVITY_WINDOW (R418: a window of 256 wall cycles ends; `later` array wall cycles of the passes that have started fall after it). -/
  | activityWindow (geode later : Nat)
  /-- EXTCTL_GO (R439: a write of EXTCTL with GO). -/
  | extctlGo (v : BitVec 64) (fw : Bool)
  /-- ATTESTATION_REPORT (R440: a report is written to a buffer). -/
  | attestationReport (nonce : BitVec 384) (pa : Nat)
  /-- ENVELOPE_RECEIVE (R437: an envelope arrives). -/
  | envelopeReceive (e : Envelope) (mgmt : Bool)
  /-- MANIFEST_REPLACE (R436: firmware replaces the manifest by the digests that the accepted manifest's payload lists). -/
  | manifestReplace (digests : List (BitVec 384)) (svn : BitVec 16) (payload : List (BitVec 8))
  /-- IN_FIELD_TEST (R441: galena applies a test package). -/
  | inFieldTest (t : ScanTest)
  /-- PORT_TRAIN (R443: a port trains). -/
  | portTrain (k lanes gbps : Nat)
  /-- FLIT_CRC_ERROR (R445: a flit with a bad CRC arrives on port `k`). -/
  | flitCrcError (k : Nat)
  /-- FABRIC_REQUEST_ARRIVAL (R449: an inbound request). -/
  | fabricRequestArrival (r : FabricRequest)
  /-- FABRIC_TIMEOUT (R450: a remote access stayed unanswered for 2 ms). -/
  | fabricTimeout (id : Nat)
  /-- PCIE_INBOUND_REQUEST (R454: an inbound PCIe request). -/
  | pcieInboundRequest (r : PcieRequest)
  /-- MANAGEMENT_FRAME (R455: a frame on the management port). -/
  | managementFrame (f : MgmtFrame)
  /-- REGISTER_WRITE (R320: a host core's access, to a device register or, under R303, to memory; `fw` says that signed firmware
  makes it). -/
  | registerWrite (addr : Nat) (v : HostAccess) (fw : Bool)
  /-- LOCAL_FEEDER_COMMAND_START (R116: the local feeder starts its next command). -/
  | localFeederCommandStart (core : Nat)
  /-- FABRIC_ERROR (R450: a store to another lode failed). -/
  | fabricError (lode : BitVec 16) (cause : BitVec 4)
  /-- WAKE_PIN (R28: the wake pin changes). -/
  | wakePin (level : Bool)
  /-- PCIE_LINK_TRAIN (R454: the root port trains). -/
  | pcieLinkTrain (lanes gts : Nat)
deriving DecidableEq, Repr

end Sys2Proof
end

