-- ==== Sys2Proof/WellFormed.lean ====
section
/-! DEFINITION. Well-formedness: the limits that each instruction's entry sets on its own fields (R45, R46, R47, R52, R155). -/

namespace Sys2Proof

/-- R45: a vector name is below 384. -/
def vName (v : BitVec 9) : Bool := decide (v.toNat < 384)

/-- R52, R97: two vector names lie in different banks. -/
def bankOk (a b : BitVec 9) : Bool := a.toNat % 2 != b.toNat % 2

/-- Set F of R154: f32, f16, bf16, f8e4, f8e5. -/
def tyF (t : BitVec 5) : Bool := decide (1 ≤ t.toNat ∧ t.toNat ≤ 5)

/-- Set I of R154: the signed types of 8 to 64 bits and the unsigned types. -/
def tyI (t : BitVec 5) : Bool := decide (17 ≤ t.toNat ∧ t.toNat ≤ 20 ∨ 24 ≤ t.toNat ∧ t.toNat ≤ 27)

/-- Set A of R154: F, I, untyped and e8m0. -/
def tyA (t : BitVec 5) : Bool := tyF t || tyI t || t == 0 || t == 9

/-- The types of `ld.vg` (R223). -/
def tyG (t : BitVec 5) : Bool := t == 1 || t == 19 || t == 26 || t == 20 || t == 27

/-- Element width in bytes (R152). -/
def tyBytes (t : BitVec 5) : Nat :=
  match t.toNat with
  | 20 => 8 | 27 => 8
  | 1 => 4 | 19 => 4 | 26 => 4
  | 2 => 2 | 3 => 2 | 18 => 2 | 25 => 2
  | _ => 1

/-- Number of elements of a vector register (R152). -/
def elems (t : BitVec 5) : Nat := 128 / tyBytes t

/-- R160: the part is below the ratio of the widths, and 0 where they are equal. -/
def partOk (st t : BitVec 5) (part : BitVec 9) : Bool :=
  decide (part.toNat < max (tyBytes st / tyBytes t) (max (tyBytes t / tyBytes st) 1))

/-- R47: rounding-mode codes 0 to 4. -/
def modeOk (m : BitVec 3) : Bool := decide (m.toNat ≤ 4)

/-- R154: the shift of `vslide` runs from -(n - 1) to n - 1. -/
def slideOk (k : BitVec 18) (t : BitVec 5) : Bool := decide (k.toInt.natAbs < elems t)

/-- R173: the bits of the constant of `vmovi` that must be zero. -/
def moviOk (k : BitVec 18) (t : BitVec 5) : Bool :=
  tyI t || t == 1 || (t == 2 || t == 3) && decide (k.toNat < 2 ^ 16)
    || (t == 4 || t == 5 || t == 9 || t == 0) && decide (k.toNat < 2 ^ 8)

/-- R227: the memory formats of `ld.q` and the destination types each accepts. -/
def ldqOk (mf : BitVec 4) (t : BitVec 5) : Bool :=
  match mf.toNat with
  | 1 => t == 1 | 2 => t == 1
  | 3 => t == 2 || t == 3 || t == 1 | 4 => t == 2 || t == 3 || t == 1 | 5 => t == 2 || t == 3 || t == 1
  | 6 => t == 1 | 7 => t == 1
  | 8 => t == 17 || t == 18 || t == 19 | 9 => t == 18 || t == 19
  | 10 => t == 25 || t == 26 | 11 => t == 19 | 12 => t == 26
  | _ => false

/-- R229: the source type of a store: SRC, or the format's own type. -/
def stSrc (t : BitVec 5) (src : BitVec 4) : BitVec 5 := if src == 0 then t else src.zeroExtend 5

/-- R229: the source element width of a store. -/
def stWidth (t : BitVec 5) (src : BitVec 4) : Nat := tyBytes (stSrc t src)

/-- R229: the accepted combinations of format, SRC and mode of a vector store; `contig` for `st.v` and `sth.v`. -/
def stvOk (contig : Bool) (t : BitVec 5) (mode : BitVec 3) (src m : BitVec 4) (vs : BitVec 9) : Bool :=
  let fsrc := decide (1 ≤ src.toNat ∧ src.toNat ≤ 5)
  if t == 0 || t == 9 then src == 0 && mode == 0
  else if tyI t then src == 0 && mode == 0 || fsrc && modeOk mode
  else if tyF t then (src == 0 || fsrc) && modeOk mode
  else if t == 16 || t == 6 then contig && fsrc && modeOk mode
  else if t == 7 || t == 8 then contig && fsrc && modeOk mode && m == 0 && vs.toNat % 2 == 0
  else false

/-- R231: type and mode of a scalar store, and its size when it stores a floating-point format. -/
def stsOk (t : BitVec 5) (mode : BitVec 3) (sz : BitVec 2) : Bool :=
  t == 0 && mode == 0 || tyF t && modeOk mode && 2 ^ sz.toNat == tyBytes t

/-- R232: the accepted pairings of an atomic's operation and type, its mode, and the even register of `cas`. -/
def amoOk (t : BitVec 5) (mode : BitVec 3) (op : BitVec 4) (d : BitVec 6) : Bool :=
  let word := t == 19 || t == 20 || t == 26 || t == 27
  match op.toNat with
  | 0 => word && mode == 0
  | 1 => (t == 19 || t == 20) && mode == 0
  | 2 => (t == 19 || t == 20) && mode == 0
  | 3 => (t == 26 || t == 27) && mode == 0
  | 4 => (t == 26 || t == 27) && mode == 0
  | 5 => (word || t == 1) && mode == 0
  | 6 => (word || t == 1) && mode == 0 && d.toNat % 2 == 0
  | 7 => t == 1 && modeOk mode
  | 8 => t == 1 && mode == 0
  | _ => false

/-- R194: a column operand is a multiple of 16. -/
def colOk (c : BitVec 9) : Bool := c.toNat % 16 == 0

/-- R256: KIND 3 and TARGET 2 and 3 are illegal; KIND 0 and 1 have TYPE and SMODE zero. -/
def feedOk (kind tgt : BitVec 2) (ty : BitVec 5) (sm : BitVec 3) : Bool :=
  kind != 3 && tgt.toNat ≤ 1 && (kind == 2 || ty == 0 && sm == 0)

/-- R274: an A operand that names a check register has its upper four bits zero. -/
def yaOk (ak : BitVec 1) (a : BitVec 6) : Bool := ak == 1 || decide (a.toNat < 4)

/-- R274: the B operand by its kind: y register, s register or immediate. -/
def ybOk (bk : BitVec 2) (b : BitVec 11) : Bool :=
  match bk.toNat with
  | 0 => b.toNat % 32 == 0 && decide (b.toNat / 32 < 4)
  | 1 => b.toNat % 32 == 0
  | 2 => true
  | _ => false

/-- R142, R388: an index that `rdsys` may name. -/
def sysReadable (ix : Nat) : Bool := decide (ix ≤ 2 ∨ 0x10 ≤ ix ∧ ix ≤ 0x14 ∨ 0x40 ≤ ix ∧ ix ≤ 0x4B)

/-- R142, R143, R388: an index that `wrsys` may name. FSTATE has RW fields (DEDUCED, log entry 18). -/
def sysWritable (ix : Nat) : Bool := decide (ix = 0 ∨ ix = 0x10 ∨ ix = 0x11 ∨ ix = 0x14 ∨ 0x40 ≤ ix ∧ ix ≤ 0x4B)


/-- The operand limits that the decode check of R52 applies to an instruction's own fields, bank rule apart. -/
def Instr.fieldsOk : Instr → Bool
  | .add128 _ d a b => d.toNat % 2 == 0 && a.toNat % 2 == 0 && b.toNat % 2 == 0
  | .sext _ _ _ w => w.toNat != 0
  | .zext _ _ _ w => w.toNat != 0
  | .cmpEq _ gd _ _ => gd.toNat != 0
  | .cmpNe _ gd _ _ => gd.toNat != 0
  | .cmpLt _ gd _ _ => gd.toNat != 0
  | .cmpLtn _ gd _ _ => gd.toNat != 0
  | .cmpLe _ gd _ _ => gd.toNat != 0
  | .cmpLen _ gd _ _ => gd.toNat != 0
  | .cmpiEq _ gd _ _ => gd.toNat != 0
  | .cmpiLt _ gd _ _ => gd.toNat != 0
  | .gand _ gd _ _ => gd.toNat != 0
  | .gor _ gd _ _ => gd.toNat != 0
  | .gnot _ gd _ => gd.toNat != 0
  | .loop _ st ro _ _ => ro == 1 || st == 0
  | .loopi _ st ro _ _ => ro == 1 || st == 0
  | .rdid _ _ imm => decide (imm.toNat < 8)
  | .rdsys _ _ ix => sysReadable ix.toNat
  | .wrsys _ _ ix => sysWritable ix.toNat
  | .evpop _ d => d.toNat % 2 == 0
  | .wfe _ n => decide (1 ≤ n.toNat ∧ n.toNat ≤ 64)
  | .movSg _ gd _ => gd.toNat != 0
  | .movSv _ d _ _ => vName d
  | .fadd _ _ d a b _ t => vName d && vName a && vName b && tyF t
  | .fsub _ _ d a b _ t => vName d && vName a && vName b && tyF t
  | .fmul _ _ d a b _ t => vName d && vName a && vName b && tyF t
  | .fmin _ _ d a b _ t => vName d && vName a && vName b && tyF t
  | .fmax _ _ d a b _ t => vName d && vName a && vName b && tyF t
  | .fdiv _ _ d a b _ t => vName d && vName a && vName b && tyF t
  | .fscale _ _ d a b _ t => vName d && vName a && vName b && tyF t
  | .fma _ _ d a b c _ t => vName d && vName a && vName b && vName c && tyF t
  | .fms _ _ d a b c _ t => vName d && vName a && vName b && vName c && tyF t
  | .fnma _ _ d a b c _ t => vName d && vName a && vName b && vName c && tyF t
  | .fabs _ _ d a _ t => vName d && vName a && tyF t
  | .fneg _ _ d a _ t => vName d && vName a && tyF t
  | .fsqrt _ _ d a _ t => vName d && vName a && tyF t
  | .frcp _ _ d a _ t => vName d && vName a && tyF t
  | .frsq _ _ d a _ t => vName d && vName a && tyF t
  | .fexp2 _ _ d a _ t => vName d && vName a && tyF t
  | .flog2 _ _ d a _ t => vName d && vName a && tyF t
  | .fcvt _ _ d a st part _ t => vName d && vName a && tyF t && tyF st && partOk st t part
  | .fround _ _ d a st part _ t md => vName d && vName a && (tyF t || tyI t) && tyF st && partOk st t part && modeOk md
  | .fclass _ _ md a _ _ t q => md.toNat != 0 && vName a && tyF t && decide (q.toNat ≤ 2)
  | .fcmp _ _ md a b _ t _ => md.toNat != 0 && vName a && vName b && tyF t
  | .fredAdd _ _ d a _ t => vName d && vName a && tyF t
  | .fredMax _ _ d a _ t => vName d && vName a && tyF t
  | .fredMin _ _ d a _ t => vName d && vName a && tyF t
  | .bscale _ _ d a _ t sb => vName d && vName a && tyF t && decide (sb.toNat ≤ 1)
  | .iadd _ _ d a b _ t => vName d && vName a && vName b && tyI t
  | .isub _ _ d a b _ t => vName d && vName a && vName b && tyI t
  | .imul _ _ d a b _ t => vName d && vName a && vName b && tyI t
  | .imulh _ _ d a b _ t => vName d && vName a && vName b && tyI t
  | .iand _ _ d a b _ t => vName d && vName a && vName b && tyI t
  | .ior _ _ d a b _ t => vName d && vName a && vName b && tyI t
  | .ixor _ _ d a b _ t => vName d && vName a && vName b && tyI t
  | .ishl _ _ d a b _ t => vName d && vName a && vName b && tyI t
  | .ishr _ _ d a b _ t => vName d && vName a && vName b && tyI t
  | .isra _ _ d a b _ t => vName d && vName a && vName b && tyI t
  | .imin _ _ d a b _ t => vName d && vName a && vName b && tyI t
  | .imax _ _ d a b _ t => vName d && vName a && vName b && tyI t
  | .iadds _ _ d a b _ t => vName d && vName a && vName b && tyI t
  | .isubs _ _ d a b _ t => vName d && vName a && vName b && tyI t
  | .iabs _ _ d a _ t => vName d && vName a && tyI t
  | .iclz _ _ d a _ t => vName d && vName a && tyI t
  | .ipopc _ _ d a _ t => vName d && vName a && tyI t
  | .ibint3 _ _ d a _ t => vName d && vName a && tyI t
  | .icmp _ _ md a b _ t cond => md.toNat != 0 && vName a && vName b && tyI t && decide (cond.toNat ≤ 5)
  | .iredAdd _ _ d a _ t => vName d && vName a && tyI t
  | .iadd128 _ _ d a b _ t => vName d && vName a && vName b && t == 27
  | .icvt _ _ d a st part _ t sb => vName d && vName a && (tyF t && sb == 0 || tyI t && decide (sb.toNat ≤ 1)) && tyI st && partOk st t part
  | .vsel _ _ d a b _ t => vName d && vName a && vName b && tyA t
  | .vperm _ _ d a b _ t => vName d && vName a && vName b && tyA t
  | .vzip _ _ d a b _ t sb => vName d && vName a && vName b && tyA t && decide (sb.toNat ≤ 1)
  | .vunzip _ _ d a b _ t sb => vName d && vName a && vName b && tyA t && decide (sb.toNat ≤ 1)
  | .vrev _ _ d a _ t => vName d && vName a && tyA t
  | .vcompress _ _ d a _ t => vName d && vName a && tyA t
  | .vexpand _ _ d a _ t => vName d && vName a && tyA t
  | .vbcast _ _ d a imm _ t => vName d && vName a && tyA t && decide (imm.toNat < elems t)
  | .vslide _ _ d a imm _ t => vName d && vName a && tyA t && slideOk imm t
  | .viota _ _ d _ _ t => vName d && tyI t
  | .vmovi _ _ d imm _ t => vName d && tyA t && moviOk imm t
  | .mand _ _ md _ _ => md.toNat != 0
  | .mor _ _ md _ _ => md.toNat != 0
  | .mxor _ _ md _ _ => md.toNat != 0
  | .mnot _ _ md _ => md.toNat != 0
  | .mpopc _ _ d _ _ t => vName d && tyI t
  | .mfirst _ _ d _ _ t => vName d && tyI t
  | .vrng _ _ d a b _ t => vName d && vName a && vName b && t == 26
  | .vrngF _ _ d a _ t => vName d && vName a && t == 1
  | .movVs _ _ _ a _ => vName a
  | .movMg _ _ gd _ _ => gd.toNat != 0
  | .movVx _ _ _ a _ => vName a
  | .mzero _ _ col => colOk col
  | .mdrainV _ d _ col _ => vName d && colOk col
  | .mdrainP _ _ _ _ col _ _ _ => colOk col
  | .mucodeLd _ _ _ off => off.toNat % 16 == 0
  | .mstat _ _ off => off.toNat % 16 == 0
  | .ldV _ d _ _ _ t => vName d && tyA t
  | .ldVs _ d _ _ _ t => vName d && tyA t
  | .ldVg _ d _ vi _ t => vName d && vName vi && tyG t
  | .ldM _ md _ _ => md.toNat != 0
  | .ldhV _ d _ _ _ _ t => vName d && tyA t
  | .vfill _ d _ off => vName d && off.toNat % 32 == 0
  | .translate _ _ _ rw => rw != 0
  | .recv _ d _ _ _ _ => vName d
  | .ldQ _ d _ _ _ t mf => vName d && ldqOk mf t
  | .stS _ _ _ _ t mode sz => stsOk t mode sz
  | .stV _ a _ _ m t mode src => vName a && stvOk true t mode src m a
  | .stVs _ a _ _ m t mode src => vName a && stvOk false t mode src m a
  | .stVx _ a _ vi m t mode src => vName a && vName vi && stvOk false t mode src m a && decide (4 ≤ stWidth t src)
  | .sthS _ _ _ _ _ t mode sz => stsOk t mode sz
  | .sthV _ a _ _ _ m t mode src => vName a && stvOk true t mode src m a
  | .vspill _ a _ off => vName a && off.toNat % 32 == 0
  | .send _ a _ _ _ _ => vName a
  | .amoP _ d _ _ t mode op => amoOk t mode op d
  | .amoH _ d _ _ _ t mode op => amoOk t mode op d
  | .feed _ _ _ ty sm kind tgt _ => feedOk kind tgt ty sm
  | .bulkSet _ _ _ pos => pos != 3
  | .winOpen _ _ _ _ rr fill _ => decide (1 ≤ rr.toNat) && decide (1 ≤ fill.toNat) && decide (fill.toNat ≤ rr.toNat)
  | .ifetch _ _ words _ => decide (words.toNat < 8192)
  | .wait _ cls _ => decide (cls.toNat ≤ 12)
  | .yadd _ _ ak a bk b => yaOk ak a && ybOk bk b
  | .ysub _ _ ak a bk b => yaOk ak a && ybOk bk b
  | .yand _ _ ak a bk b => yaOk ak a && ybOk bk b
  | .yxor _ _ ak a bk b => yaOk ak a && ybOk bk b
  | .ycmp _ _ ak a bk b cond => yaOk ak a && yaOk bk b && decide (cond.toNat ≤ 5)
  | .chkV _ a b _ => vName a && vName b
  | _ => true

/-- R52, R97: src1 and src2 of one vector instruction lie in different banks. -/
def Instr.banksOk : Instr → Bool
  | .fadd _ _ _ a b _ _ => bankOk a b
  | .fsub _ _ _ a b _ _ => bankOk a b
  | .fmul _ _ _ a b _ _ => bankOk a b
  | .fmin _ _ _ a b _ _ => bankOk a b
  | .fmax _ _ _ a b _ _ => bankOk a b
  | .fdiv _ _ _ a b _ _ => bankOk a b
  | .fscale _ _ _ a b _ _ => bankOk a b
  | .fma _ _ _ a b _ _ _ => bankOk a b
  | .fms _ _ _ a b _ _ _ => bankOk a b
  | .fnma _ _ _ a b _ _ _ => bankOk a b
  | .fcmp _ _ _ a b _ _ _ => bankOk a b
  | .iadd _ _ _ a b _ _ => bankOk a b
  | .isub _ _ _ a b _ _ => bankOk a b
  | .imul _ _ _ a b _ _ => bankOk a b
  | .imulh _ _ _ a b _ _ => bankOk a b
  | .iand _ _ _ a b _ _ => bankOk a b
  | .ior _ _ _ a b _ _ => bankOk a b
  | .ixor _ _ _ a b _ _ => bankOk a b
  | .ishl _ _ _ a b _ _ => bankOk a b
  | .ishr _ _ _ a b _ _ => bankOk a b
  | .isra _ _ _ a b _ _ => bankOk a b
  | .imin _ _ _ a b _ _ => bankOk a b
  | .imax _ _ _ a b _ _ => bankOk a b
  | .iadds _ _ _ a b _ _ => bankOk a b
  | .isubs _ _ _ a b _ _ => bankOk a b
  | .icmp _ _ _ a b _ _ _ => bankOk a b
  | .iadd128 _ _ _ a b _ _ => bankOk a b
  | .vsel _ _ _ a b _ _ => bankOk a b
  | .vperm _ _ _ a b _ _ => bankOk a b
  | .vzip _ _ _ a b _ _ _ => bankOk a b
  | .vunzip _ _ _ a b _ _ _ => bankOk a b
  | .vrng _ _ _ a b _ _ => bankOk a b
  | _ => true

/-- An instruction whose own fields break no limit of its entry. -/
def Instr.wf (i : Instr) : Bool := i.fieldsOk && i.banksOk

end Sys2Proof
end

