-- ==== Sys2Proof/Decode.lean ====
section
/-! DEFINITION. Decoding and encoding: slot words (R43, R44, R55), micro-words (R203), headers (R36) and stored bundles
(R40, R41). Every function is total; what is no instruction is refused by the name of its fate (R52). -/

namespace Sys2Proof

/-- Field of `n` bits at bit `lo` of a word. -/
def fld (w lo n : Nat) : Nat := w / 2 ^ lo % 2 ^ n

/-- The same field as a bit vector. -/
def fb (w lo n : Nat) : BitVec n := BitVec.ofNat n (w / 2 ^ lo)

/-- A word built of an opcode at its place and of fields (value, lowest bit), every other bit zero. -/
def word (base : Nat) (fs : List (Nat × Nat)) : Nat := fs.foldl (fun a f => a + f.1 * 2 ^ f.2) base

/-- The fates of a slot word or header that is no instruction (R52). -/
inductive DecodeErr where
  | illegal
  | undefinedOpcode
  | bankConflict
deriving DecidableEq, Repr


/-- The S slot: the opcode map of R55 and the field places of R44 and of each entry. `none`: not assigned. -/
def readS (w : Nat) : Option Instr :=
  match fld w 56 8 with
  | 0x01 => some (.add (fb w 52 4) (fb w 46 6) (fb w 40 6) (fb w 34 6))
  | 0x02 => some (.sub (fb w 52 4) (fb w 46 6) (fb w 40 6) (fb w 34 6))
  | 0x03 => some (.mul (fb w 52 4) (fb w 46 6) (fb w 40 6) (fb w 34 6))
  | 0x04 => some (.mulh (fb w 52 4) (fb w 46 6) (fb w 40 6) (fb w 34 6))
  | 0x05 => some (.mulhn (fb w 52 4) (fb w 46 6) (fb w 40 6) (fb w 34 6))
  | 0x06 => some (.div (fb w 52 4) (fb w 46 6) (fb w 40 6) (fb w 34 6))
  | 0x07 => some (.divn (fb w 52 4) (fb w 46 6) (fb w 40 6) (fb w 34 6))
  | 0x08 => some (.rem (fb w 52 4) (fb w 46 6) (fb w 40 6) (fb w 34 6))
  | 0x09 => some (.remn (fb w 52 4) (fb w 46 6) (fb w 40 6) (fb w 34 6))
  | 0x0A => some (.and (fb w 52 4) (fb w 46 6) (fb w 40 6) (fb w 34 6))
  | 0x0B => some (.or (fb w 52 4) (fb w 46 6) (fb w 40 6) (fb w 34 6))
  | 0x0C => some (.xor (fb w 52 4) (fb w 46 6) (fb w 40 6) (fb w 34 6))
  | 0x0D => some (.shl (fb w 52 4) (fb w 46 6) (fb w 40 6) (fb w 34 6))
  | 0x0E => some (.shr (fb w 52 4) (fb w 46 6) (fb w 40 6) (fb w 34 6))
  | 0x0F => some (.sra (fb w 52 4) (fb w 46 6) (fb w 40 6) (fb w 34 6))
  | 0x10 => some (.rot (fb w 52 4) (fb w 46 6) (fb w 40 6) (fb w 34 6))
  | 0x11 => some (.min (fb w 52 4) (fb w 46 6) (fb w 40 6) (fb w 34 6))
  | 0x12 => some (.max (fb w 52 4) (fb w 46 6) (fb w 40 6) (fb w 34 6))
  | 0x13 => some (.minn (fb w 52 4) (fb w 46 6) (fb w 40 6) (fb w 34 6))
  | 0x14 => some (.maxn (fb w 52 4) (fb w 46 6) (fb w 40 6) (fb w 34 6))
  | 0x15 => some (.sel (fb w 52 4) (fb w 46 6) (fb w 40 6) (fb w 34 6) (fb w 31 3) (fb w 30 1))
  | 0x16 => some (.add128 (fb w 52 4) (fb w 46 6) (fb w 40 6) (fb w 34 6))
  | 0x20 => some (.addi (fb w 52 4) (fb w 46 6) (fb w 40 6) (fb w 0 34))
  | 0x21 => some (.andi (fb w 52 4) (fb w 46 6) (fb w 40 6) (fb w 0 34))
  | 0x22 => some (.ori (fb w 52 4) (fb w 46 6) (fb w 40 6) (fb w 0 34))
  | 0x23 => some (.xori (fb w 52 4) (fb w 46 6) (fb w 40 6) (fb w 0 34))
  | 0x24 => some (.shli (fb w 52 4) (fb w 46 6) (fb w 40 6) (fb w 0 6))
  | 0x25 => some (.shri (fb w 52 4) (fb w 46 6) (fb w 40 6) (fb w 0 6))
  | 0x26 => some (.srai (fb w 52 4) (fb w 46 6) (fb w 40 6) (fb w 0 6))
  | 0x27 => some (.li (fb w 52 4) (fb w 46 6) (fb w 0 34))
  | 0x28 => some (.lih (fb w 52 4) (fb w 46 6) (fb w 0 34))
  | 0x29 => some (.muli (fb w 52 4) (fb w 46 6) (fb w 40 6) (fb w 0 34))
  | 0x30 => some (.clz (fb w 52 4) (fb w 46 6) (fb w 40 6))
  | 0x31 => some (.ctz (fb w 52 4) (fb w 46 6) (fb w 40 6))
  | 0x32 => some (.popc (fb w 52 4) (fb w 46 6) (fb w 40 6))
  | 0x33 => some (.bint3 (fb w 52 4) (fb w 46 6) (fb w 40 6))
  | 0x34 => some (.bdint3 (fb w 52 4) (fb w 46 6) (fb w 40 6))
  | 0x35 => some (.bint2 (fb w 52 4) (fb w 46 6) (fb w 40 6))
  | 0x36 => some (.bdint2 (fb w 52 4) (fb w 46 6) (fb w 40 6))
  | 0x37 => some (.brev (fb w 52 4) (fb w 46 6) (fb w 40 6))
  | 0x38 => some (.sext (fb w 52 4) (fb w 46 6) (fb w 40 6) (fb w 34 6))
  | 0x39 => some (.zext (fb w 52 4) (fb w 46 6) (fb w 40 6) (fb w 34 6))
  | 0x40 => some (.cmpEq (fb w 52 4) (fb w 49 3) (fb w 40 6) (fb w 34 6))
  | 0x41 => some (.cmpNe (fb w 52 4) (fb w 49 3) (fb w 40 6) (fb w 34 6))
  | 0x42 => some (.cmpLt (fb w 52 4) (fb w 49 3) (fb w 40 6) (fb w 34 6))
  | 0x43 => some (.cmpLtn (fb w 52 4) (fb w 49 3) (fb w 40 6) (fb w 34 6))
  | 0x44 => some (.cmpLe (fb w 52 4) (fb w 49 3) (fb w 40 6) (fb w 34 6))
  | 0x45 => some (.cmpLen (fb w 52 4) (fb w 49 3) (fb w 40 6) (fb w 34 6))
  | 0x46 => some (.cmpiEq (fb w 52 4) (fb w 49 3) (fb w 40 6) (fb w 0 34))
  | 0x47 => some (.cmpiLt (fb w 52 4) (fb w 49 3) (fb w 40 6) (fb w 0 34))
  | 0x48 => some (.gand (fb w 52 4) (fb w 49 3) (fb w 43 3) (fb w 37 3))
  | 0x49 => some (.gor (fb w 52 4) (fb w 49 3) (fb w 43 3) (fb w 37 3))
  | 0x4A => some (.gnot (fb w 52 4) (fb w 49 3) (fb w 43 3))
  | 0x50 => some (.br (fb w 52 4) (fb w 0 34))
  | 0x51 => some (.brs (fb w 52 4) (fb w 40 6) (fb w 0 34))
  | 0x52 => some (.call (fb w 52 4) (fb w 46 6) (fb w 0 34))
  | 0x53 => some (.ret (fb w 52 4) (fb w 40 6))
  | 0x54 => some (.loop (fb w 52 4) (fb w 47 2) (fb w 46 1) (fb w 40 6) (fb w 18 16))
  | 0x55 => some (.loopi (fb w 52 4) (fb w 47 2) (fb w 46 1) (fb w 18 16) (fb w 0 18))
  | 0x56 => some (.lexit (fb w 52 4) (fb w 0 34))
  | 0x57 => some (.brb (fb w 52 4) (fb w 46 6) (fb w 0 13))
  | 0x58 => some (.halt (fb w 52 4))
  | 0x59 => some (.yield (fb w 52 4))
  | 0x60 => some (.rdid (fb w 52 4) (fb w 46 6) (fb w 0 34))
  | 0x61 => some (.rdsys (fb w 52 4) (fb w 46 6) (fb w 0 12))
  | 0x62 => some (.wrsys (fb w 52 4) (fb w 40 6) (fb w 0 12))
  | 0x63 => some (.sys (fb w 52 4) (fb w 0 34))
  | 0x64 => some (.trapi (fb w 52 4) (fb w 0 34))
  | 0x65 => some (.eret (fb w 52 4))
  | 0x66 => some (.ifence (fb w 52 4))
  | 0x67 => some (.evpop (fb w 52 4) (fb w 46 6))
  | 0x68 => some (.rdtime (fb w 52 4) (fb w 46 6))
  | 0x69 => some (.rdcyc (fb w 52 4) (fb w 46 6))
  | 0x6A => some (.setest (fb w 52 4) (fb w 40 6) (fb w 0 8))
  | 0x6B => some (.flagsRd (fb w 52 4) (fb w 46 6))
  | 0x6C => some (.flagsClr (fb w 52 4) (fb w 0 6))
  | 0x6D => some (.wfe (fb w 52 4) (fb w 0 7))
  | 0x70 => some (.movGs (fb w 52 4) (fb w 43 6) (fb w 34 3))
  | 0x71 => some (.movSg (fb w 52 4) (fb w 43 3) (fb w 34 6))
  | 0x72 => some (.movSv (fb w 52 4) (fb w 43 9) (fb w 34 6) (fb w 16 4))
  | 0x73 => some (.movSx (fb w 52 4) (fb w 43 5) (fb w 34 6))
  | 0x74 => some (.movSq (fb w 52 4) (fb w 43 3) (fb w 34 6))
  | 0x75 => some (.movSd (fb w 52 4) (fb w 43 4) (fb w 34 6))
  | _ => none

/-- The VA/VB slot: the opcode map of R55 and the field places of R44 and of each entry. `none`: not assigned. -/
def readV (u : VUnit) (w : Nat) : Option Instr :=
  match fld w 56 8 with
  | 0x01 => some (.fadd u (fb w 52 4) (fb w 43 9) (fb w 34 9) (fb w 25 9) (fb w 12 4) (fb w 7 5))
  | 0x02 => some (.fsub u (fb w 52 4) (fb w 43 9) (fb w 34 9) (fb w 25 9) (fb w 12 4) (fb w 7 5))
  | 0x03 => some (.fmul u (fb w 52 4) (fb w 43 9) (fb w 34 9) (fb w 25 9) (fb w 12 4) (fb w 7 5))
  | 0x07 => some (.fmin u (fb w 52 4) (fb w 43 9) (fb w 34 9) (fb w 25 9) (fb w 12 4) (fb w 7 5))
  | 0x08 => some (.fmax u (fb w 52 4) (fb w 43 9) (fb w 34 9) (fb w 25 9) (fb w 12 4) (fb w 7 5))
  | 0x0B => some (.fdiv u (fb w 52 4) (fb w 43 9) (fb w 34 9) (fb w 25 9) (fb w 12 4) (fb w 7 5))
  | 0x13 => some (.fscale u (fb w 52 4) (fb w 43 9) (fb w 34 9) (fb w 25 9) (fb w 12 4) (fb w 7 5))
  | 0x04 => some (.fma u (fb w 52 4) (fb w 43 9) (fb w 34 9) (fb w 25 9) (fb w 16 9) (fb w 12 4) (fb w 7 5))
  | 0x05 => some (.fms u (fb w 52 4) (fb w 43 9) (fb w 34 9) (fb w 25 9) (fb w 16 9) (fb w 12 4) (fb w 7 5))
  | 0x06 => some (.fnma u (fb w 52 4) (fb w 43 9) (fb w 34 9) (fb w 25 9) (fb w 16 9) (fb w 12 4) (fb w 7 5))
  | 0x09 => some (.fabs u (fb w 52 4) (fb w 43 9) (fb w 34 9) (fb w 12 4) (fb w 7 5))
  | 0x0A => some (.fneg u (fb w 52 4) (fb w 43 9) (fb w 34 9) (fb w 12 4) (fb w 7 5))
  | 0x0C => some (.fsqrt u (fb w 52 4) (fb w 43 9) (fb w 34 9) (fb w 12 4) (fb w 7 5))
  | 0x0D => some (.frcp u (fb w 52 4) (fb w 43 9) (fb w 34 9) (fb w 12 4) (fb w 7 5))
  | 0x0E => some (.frsq u (fb w 52 4) (fb w 43 9) (fb w 34 9) (fb w 12 4) (fb w 7 5))
  | 0x0F => some (.fexp2 u (fb w 52 4) (fb w 43 9) (fb w 34 9) (fb w 12 4) (fb w 7 5))
  | 0x10 => some (.flog2 u (fb w 52 4) (fb w 43 9) (fb w 34 9) (fb w 12 4) (fb w 7 5))
  | 0x11 => some (.fcvt u (fb w 52 4) (fb w 43 9) (fb w 34 9) (fb w 25 5) (fb w 16 9) (fb w 12 4) (fb w 7 5))
  | 0x12 => some (.fround u (fb w 52 4) (fb w 43 9) (fb w 34 9) (fb w 25 5) (fb w 16 9) (fb w 12 4) (fb w 7 5) (fb w 4 3))
  | 0x14 => some (.fclass u (fb w 52 4) (fb w 43 4) (fb w 34 9) (fb w 16 9) (fb w 12 4) (fb w 7 5) (fb w 4 3))
  | 0x15 => some (.fcmp u (fb w 52 4) (fb w 43 4) (fb w 34 9) (fb w 25 9) (fb w 12 4) (fb w 7 5) (fb w 4 3))
  | 0x16 => some (.fredAdd u (fb w 52 4) (fb w 43 9) (fb w 34 9) (fb w 12 4) (fb w 7 5))
  | 0x17 => some (.fredMax u (fb w 52 4) (fb w 43 9) (fb w 34 9) (fb w 12 4) (fb w 7 5))
  | 0x18 => some (.fredMin u (fb w 52 4) (fb w 43 9) (fb w 34 9) (fb w 12 4) (fb w 7 5))
  | 0x19 => some (.bscale u (fb w 52 4) (fb w 43 9) (fb w 34 9) (fb w 12 4) (fb w 7 5) (fb w 4 3))
  | 0x20 => some (.iadd u (fb w 52 4) (fb w 43 9) (fb w 34 9) (fb w 25 9) (fb w 12 4) (fb w 7 5))
  | 0x21 => some (.isub u (fb w 52 4) (fb w 43 9) (fb w 34 9) (fb w 25 9) (fb w 12 4) (fb w 7 5))
  | 0x22 => some (.imul u (fb w 52 4) (fb w 43 9) (fb w 34 9) (fb w 25 9) (fb w 12 4) (fb w 7 5))
  | 0x23 => some (.imulh u (fb w 52 4) (fb w 43 9) (fb w 34 9) (fb w 25 9) (fb w 12 4) (fb w 7 5))
  | 0x24 => some (.iand u (fb w 52 4) (fb w 43 9) (fb w 34 9) (fb w 25 9) (fb w 12 4) (fb w 7 5))
  | 0x25 => some (.ior u (fb w 52 4) (fb w 43 9) (fb w 34 9) (fb w 25 9) (fb w 12 4) (fb w 7 5))
  | 0x26 => some (.ixor u (fb w 52 4) (fb w 43 9) (fb w 34 9) (fb w 25 9) (fb w 12 4) (fb w 7 5))
  | 0x27 => some (.ishl u (fb w 52 4) (fb w 43 9) (fb w 34 9) (fb w 25 9) (fb w 12 4) (fb w 7 5))
  | 0x28 => some (.ishr u (fb w 52 4) (fb w 43 9) (fb w 34 9) (fb w 25 9) (fb w 12 4) (fb w 7 5))
  | 0x29 => some (.isra u (fb w 52 4) (fb w 43 9) (fb w 34 9) (fb w 25 9) (fb w 12 4) (fb w 7 5))
  | 0x2A => some (.imin u (fb w 52 4) (fb w 43 9) (fb w 34 9) (fb w 25 9) (fb w 12 4) (fb w 7 5))
  | 0x2B => some (.imax u (fb w 52 4) (fb w 43 9) (fb w 34 9) (fb w 25 9) (fb w 12 4) (fb w 7 5))
  | 0x2D => some (.iadds u (fb w 52 4) (fb w 43 9) (fb w 34 9) (fb w 25 9) (fb w 12 4) (fb w 7 5))
  | 0x2E => some (.isubs u (fb w 52 4) (fb w 43 9) (fb w 34 9) (fb w 25 9) (fb w 12 4) (fb w 7 5))
  | 0x2C => some (.iabs u (fb w 52 4) (fb w 43 9) (fb w 34 9) (fb w 12 4) (fb w 7 5))
  | 0x30 => some (.iclz u (fb w 52 4) (fb w 43 9) (fb w 34 9) (fb w 12 4) (fb w 7 5))
  | 0x31 => some (.ipopc u (fb w 52 4) (fb w 43 9) (fb w 34 9) (fb w 12 4) (fb w 7 5))
  | 0x32 => some (.ibint3 u (fb w 52 4) (fb w 43 9) (fb w 34 9) (fb w 12 4) (fb w 7 5))
  | 0x2F => some (.icmp u (fb w 52 4) (fb w 43 4) (fb w 34 9) (fb w 25 9) (fb w 12 4) (fb w 7 5) (fb w 4 3))
  | 0x33 => some (.iredAdd u (fb w 52 4) (fb w 43 9) (fb w 34 9) (fb w 12 4) (fb w 7 5))
  | 0x34 => some (.iadd128 u (fb w 52 4) (fb w 43 9) (fb w 34 9) (fb w 25 9) (fb w 12 4) (fb w 7 5))
  | 0x35 => some (.icvt u (fb w 52 4) (fb w 43 9) (fb w 34 9) (fb w 25 5) (fb w 16 9) (fb w 12 4) (fb w 7 5) (fb w 4 3))
  | 0x40 => some (.vsel u (fb w 52 4) (fb w 43 9) (fb w 34 9) (fb w 25 9) (fb w 12 4) (fb w 7 5))
  | 0x41 => some (.vperm u (fb w 52 4) (fb w 43 9) (fb w 34 9) (fb w 25 9) (fb w 12 4) (fb w 7 5))
  | 0x43 => some (.vzip u (fb w 52 4) (fb w 43 9) (fb w 34 9) (fb w 25 9) (fb w 12 4) (fb w 7 5) (fb w 4 3))
  | 0x44 => some (.vunzip u (fb w 52 4) (fb w 43 9) (fb w 34 9) (fb w 25 9) (fb w 12 4) (fb w 7 5) (fb w 4 3))
  | 0x46 => some (.vrev u (fb w 52 4) (fb w 43 9) (fb w 34 9) (fb w 12 4) (fb w 7 5))
  | 0x47 => some (.vcompress u (fb w 52 4) (fb w 43 9) (fb w 34 9) (fb w 12 4) (fb w 7 5))
  | 0x48 => some (.vexpand u (fb w 52 4) (fb w 43 9) (fb w 34 9) (fb w 12 4) (fb w 7 5))
  | 0x42 => some (.vbcast u (fb w 52 4) (fb w 43 9) (fb w 34 9) (fb w 16 18) (fb w 12 4) (fb w 7 5))
  | 0x45 => some (.vslide u (fb w 52 4) (fb w 43 9) (fb w 34 9) (fb w 16 18) (fb w 12 4) (fb w 7 5))
  | 0x49 => some (.viota u (fb w 52 4) (fb w 43 9) (fb w 16 18) (fb w 12 4) (fb w 7 5))
  | 0x4A => some (.vmovi u (fb w 52 4) (fb w 43 9) (fb w 16 18) (fb w 12 4) (fb w 7 5))
  | 0x50 => some (.mand u (fb w 52 4) (fb w 43 4) (fb w 34 4) (fb w 25 4))
  | 0x51 => some (.mor u (fb w 52 4) (fb w 43 4) (fb w 34 4) (fb w 25 4))
  | 0x52 => some (.mxor u (fb w 52 4) (fb w 43 4) (fb w 34 4) (fb w 25 4))
  | 0x53 => some (.mnot u (fb w 52 4) (fb w 43 4) (fb w 34 4))
  | 0x54 => some (.mpopc u (fb w 52 4) (fb w 43 9) (fb w 34 4) (fb w 12 4) (fb w 7 5))
  | 0x55 => some (.mfirst u (fb w 52 4) (fb w 43 9) (fb w 34 4) (fb w 12 4) (fb w 7 5))
  | 0x60 => some (.vrng u (fb w 52 4) (fb w 43 9) (fb w 34 9) (fb w 25 9) (fb w 12 4) (fb w 7 5))
  | 0x61 => some (.vrngF u (fb w 52 4) (fb w 43 9) (fb w 34 9) (fb w 12 4) (fb w 7 5))
  | 0x70 => some (.movVs u (fb w 52 4) (fb w 43 6) (fb w 34 9) (fb w 16 4))
  | 0x71 => some (.movMg u (fb w 52 4) (fb w 43 3) (fb w 34 4) (fb w 16 4))
  | 0x72 => some (.movVx u (fb w 52 4) (fb w 43 5) (fb w 34 9) (fb w 16 5))
  | _ => none

/-- The M slot: the opcode map of R55 and the field places of R44 and of each entry. `none`: not assigned. -/
def readM (w : Nat) : Option Instr :=
  match fld w 56 8 with
  | 0x01 => some (.mcall (fb w 52 4) (fb w 46 6) (fb w 34 6) (fb w 0 34))
  | 0x02 => some (.mparami (fb w 52 4) (fb w 31 3) (fb w 0 31))
  | 0x03 => some (.mzero (fb w 52 4) (fb w 34 6) (fb w 0 9))
  | 0x04 => some (.mdrainV (fb w 52 4) (fb w 25 9) (fb w 18 7) (fb w 9 9) (fb w 0 1))
  | 0x05 => some (.mdrainP (fb w 52 4) (fb w 34 6) (fb w 31 3) (fb w 26 5) (fb w 17 9) (fb w 10 7) (fb w 3 7) (fb w 2 1))
  | 0x06 => some (.mwait (fb w 52 4) (fb w 0 4))
  | 0x07 => some (.mucodeLd (fb w 52 4) (fb w 46 6) (fb w 24 10) (fb w 0 20))
  | 0x08 => some (.mwit (fb w 52 4) (fb w 0 1))
  | 0x09 => some (.mflush (fb w 52 4))
  | 0x0A => some (.mstat (fb w 52 4) (fb w 20 1) (fb w 0 20))
  | _ => none

/-- The LD slot: the opcode map of R55 and the field places of R44 and of each entry. `none`: not assigned. -/
def readLd (w : Nat) : Option Instr :=
  match fld w 56 8 with
  | 0x01 => some (.ldS (fb w 52 4) (fb w 43 6) (fb w 38 5) (fb w 16 22) (fb w 2 1) (fb w 0 2))
  | 0x02 => some (.ldV (fb w 52 4) (fb w 43 9) (fb w 38 5) (fb w 16 22) (fb w 12 4) (fb w 7 5))
  | 0x03 => some (.ldVs (fb w 52 4) (fb w 43 9) (fb w 38 5) (fb w 16 22) (fb w 12 4) (fb w 7 5))
  | 0x04 => some (.ldVg (fb w 52 4) (fb w 43 9) (fb w 38 5) (fb w 29 9) (fb w 12 4) (fb w 7 5))
  | 0x05 => some (.ldM (fb w 52 4) (fb w 43 4) (fb w 38 5) (fb w 16 22))
  | 0x06 => some (.ldhS (fb w 52 4) (fb w 43 6) (fb w 38 5) (fb w 33 5) (fb w 16 17) (fb w 2 1) (fb w 0 2))
  | 0x07 => some (.ldhV (fb w 52 4) (fb w 43 9) (fb w 38 5) (fb w 33 5) (fb w 16 17) (fb w 12 4) (fb w 7 5))
  | 0x08 => some (.vfill (fb w 52 4) (fb w 43 9) (fb w 38 5) (fb w 16 22))
  | 0x09 => some (.translate (fb w 52 4) (fb w 43 6) (fb w 38 5) (fb w 0 2))
  | 0x0A => some (.hdrop (fb w 52 4) (fb w 38 5))
  | 0x0B => some (.recv (fb w 52 4) (fb w 43 9) (fb w 34 4) (fb w 32 2) (fb w 29 3) (fb w 28 1))
  | 0x0C => some (.movXs (fb w 52 4) (fb w 43 6) (fb w 34 5))
  | 0x0D => some (.ldQ (fb w 52 4) (fb w 43 9) (fb w 38 5) (fb w 16 22) (fb w 12 4) (fb w 7 5) (fb w 0 4))
  | 0x30 => some (.xadd false (fb w 52 4) (fb w 43 5) (fb w 38 5) (fb w 33 5))
  | 0x31 => some (.xaddi false (fb w 52 4) (fb w 43 5) (fb w 38 5) (fb w 16 22))
  | 0x32 => some (.xli false (fb w 52 4) (fb w 43 5) (fb w 16 22))
  | 0x33 => some (.xsub false (fb w 52 4) (fb w 43 5) (fb w 38 5) (fb w 33 5))
  | _ => none

/-- The ST slot: the opcode map of R55 and the field places of R44 and of each entry. `none`: not assigned. -/
def readSt (w : Nat) : Option Instr :=
  match fld w 56 8 with
  | 0x30 => some (.xadd true (fb w 52 4) (fb w 43 5) (fb w 38 5) (fb w 33 5))
  | 0x31 => some (.xaddi true (fb w 52 4) (fb w 43 5) (fb w 38 5) (fb w 16 22))
  | 0x32 => some (.xli true (fb w 52 4) (fb w 43 5) (fb w 16 22))
  | 0x33 => some (.xsub true (fb w 52 4) (fb w 43 5) (fb w 38 5) (fb w 33 5))
  | 0x01 => some (.stS (fb w 52 4) (fb w 43 6) (fb w 38 5) (fb w 16 22) (fb w 7 5) (fb w 4 3) (fb w 0 2))
  | 0x02 => some (.stV (fb w 52 4) (fb w 43 9) (fb w 38 5) (fb w 16 22) (fb w 12 4) (fb w 7 5) (fb w 4 3) (fb w 0 4))
  | 0x03 => some (.stVs (fb w 52 4) (fb w 43 9) (fb w 38 5) (fb w 16 22) (fb w 12 4) (fb w 7 5) (fb w 4 3) (fb w 0 4))
  | 0x04 => some (.stVx (fb w 52 4) (fb w 43 9) (fb w 38 5) (fb w 29 9) (fb w 12 4) (fb w 7 5) (fb w 4 3) (fb w 0 4))
  | 0x05 => some (.stM (fb w 52 4) (fb w 43 4) (fb w 38 5) (fb w 16 22))
  | 0x06 => some (.sthS (fb w 52 4) (fb w 43 6) (fb w 38 5) (fb w 33 5) (fb w 16 17) (fb w 7 5) (fb w 4 3) (fb w 0 2))
  | 0x07 => some (.sthV (fb w 52 4) (fb w 43 9) (fb w 38 5) (fb w 33 5) (fb w 16 17) (fb w 12 4) (fb w 7 5) (fb w 4 3) (fb w 0 4))
  | 0x08 => some (.vspill (fb w 52 4) (fb w 43 9) (fb w 38 5) (fb w 16 22))
  | 0x09 => some (.send (fb w 52 4) (fb w 43 9) (fb w 34 4) (fb w 32 2) (fb w 29 3) (fb w 28 1))
  | 0x0A => some (.amoP (fb w 52 4) (fb w 43 6) (fb w 38 5) (fb w 16 22) (fb w 7 5) (fb w 4 3) (fb w 0 4))
  | 0x0B => some (.amoH (fb w 52 4) (fb w 43 6) (fb w 38 5) (fb w 33 5) (fb w 16 17) (fb w 7 5) (fb w 4 3) (fb w 0 4))
  | 0x0C => some (.sigw (fb w 52 4) (fb w 43 6) (fb w 38 5) (fb w 33 5) (fb w 16 17))
  | _ => none

/-- The CP slot: the opcode map of R55 and the field places of R44 and of each entry. `none`: not assigned. -/
def readCp (w : Nat) : Option Instr :=
  match fld w 56 8 with
  | 0x01 => some (.feed (fb w 52 4) (fb w 48 4) (fb w 44 4) (fb w 24 5) (fb w 29 3) (fb w 22 2) (fb w 20 2) (fb w 0 20))
  | 0x02 => some (.lcopy (fb w 52 4) (fb w 48 4) (fb w 44 4) (fb w 0 20))
  | 0x03 => some (.bulkSet (fb w 52 4) (fb w 48 4) (fb w 44 4) (fb w 0 2))
  | 0x04 => some (.bulkGo (fb w 52 4) (fb w 20 4) (fb w 0 20))
  | 0x05 => some (.bulkCancel (fb w 52 4) (fb w 20 4) (fb w 0 16))
  | 0x06 => some (.winOpen (fb w 52 4) (fb w 48 4) (fb w 44 4) (fb w 20 3) (fb w 23 8) (fb w 31 8) (fb w 0 20))
  | 0x07 => some (.winAdv (fb w 52 4) (fb w 20 3) (fb w 23 8) (fb w 0 20))
  | 0x08 => some (.winClose (fb w 52 4) (fb w 20 3) (fb w 0 20))
  | 0x09 => some (.ifetch (fb w 52 4) (fb w 48 4) (fb w 20 14) (fb w 0 20))
  | 0x0A => some (.crcRd (fb w 52 4) (fb w 20 1) (fb w 18 2) (fb w 0 16))
  | _ => none

/-- The SY slot: the opcode map of R55 and the field places of R44 and of each entry. `none`: not assigned. -/
def readSy (w : Nat) : Option Instr :=
  match fld w 26 6 with
  | 0x01 => some (.barArr (fb w 22 4) (fb w 17 5) (fb w 9 8) (fb w 1 8))
  | 0x02 => some (.barWait (fb w 22 4) (fb w 17 5) (fb w 11 6))
  | 0x03 => some (.wait (fb w 22 4) (fb w 18 4) (fb w 12 6))
  | 0x04 => some (.drain (fb w 22 4))
  | 0x05 => some (.pbar (fb w 22 4))
  | 0x06 => some (.tsync (fb w 22 4) (fb w 6 16))
  | 0x07 => some (.yadd (fb w 22 4) (fb w 20 2) (fb w 19 1) (fb w 13 6) (fb w 11 2) (fb w 0 11))
  | 0x08 => some (.ysub (fb w 22 4) (fb w 20 2) (fb w 19 1) (fb w 13 6) (fb w 11 2) (fb w 0 11))
  | 0x09 => some (.yand (fb w 22 4) (fb w 20 2) (fb w 19 1) (fb w 13 6) (fb w 11 2) (fb w 0 11))
  | 0x0A => some (.yxor (fb w 22 4) (fb w 20 2) (fb w 19 1) (fb w 13 6) (fb w 11 2) (fb w 0 11))
  | 0x0B => some (.ycmp (fb w 22 4) (fb w 20 2) (fb w 19 1) (fb w 13 6) (fb w 12 1) (fb w 6 6) (fb w 3 3))
  | 0x0C => some (.chkY (fb w 22 4) (fb w 20 2) (fb w 18 2))
  | 0x0D => some (.chkV (fb w 22 4) (fb w 13 9) (fb w 4 9) (fb w 0 4))
  | 0x0E => some (.chkS (fb w 22 4) (fb w 20 2) (fb w 14 6))
  | _ => none

/-- R203, R204: a micro-word. `none` for OP 0xE and 0xF. -/
def readMicro (w : Nat) : Option Instr :=
  match fld w 124 4 with
  | 0x0 => some (.nop)
  | 0x1 => some (.popA)
  | 0x2 => some (.popB)
  | 0x3 => some (.pass (fb w 88 1))
  | 0x4 => some (.passSp (fb w 88 1))
  | 0x5 => some (.acc (fb w 96 16) (fb w 94 2))
  | 0x6 => some (.zero)
  | 0x7 => some (.shift (fb w 96 16) (fb w 94 2))
  | 0x8 => some (.microLoop (fb w 114 10) (fb w 112 1) (fb w 96 16) (fb w 94 2))
  | 0x9 => some (.jump (fb w 114 10))
  | 0xA => some (.microEnd)
  | 0xB => some (.scale (fb w 96 16) (fb w 94 2))
  | 0xC => some (.wit)
  | 0xD => some (.sync (fb w 96 16) (fb w 94 2))
  | _ => none

/-- Words of the S slot: opcode and fields at their places. -/
def encS : Instr → Option Nat
  | .add g d a b => some (word 0x100000000000000 [(g.toNat, 52), (d.toNat, 46), (a.toNat, 40), (b.toNat, 34)])
  | .sub g d a b => some (word 0x200000000000000 [(g.toNat, 52), (d.toNat, 46), (a.toNat, 40), (b.toNat, 34)])
  | .mul g d a b => some (word 0x300000000000000 [(g.toNat, 52), (d.toNat, 46), (a.toNat, 40), (b.toNat, 34)])
  | .mulh g d a b => some (word 0x400000000000000 [(g.toNat, 52), (d.toNat, 46), (a.toNat, 40), (b.toNat, 34)])
  | .mulhn g d a b => some (word 0x500000000000000 [(g.toNat, 52), (d.toNat, 46), (a.toNat, 40), (b.toNat, 34)])
  | .div g d a b => some (word 0x600000000000000 [(g.toNat, 52), (d.toNat, 46), (a.toNat, 40), (b.toNat, 34)])
  | .divn g d a b => some (word 0x700000000000000 [(g.toNat, 52), (d.toNat, 46), (a.toNat, 40), (b.toNat, 34)])
  | .rem g d a b => some (word 0x800000000000000 [(g.toNat, 52), (d.toNat, 46), (a.toNat, 40), (b.toNat, 34)])
  | .remn g d a b => some (word 0x900000000000000 [(g.toNat, 52), (d.toNat, 46), (a.toNat, 40), (b.toNat, 34)])
  | .and g d a b => some (word 0xA00000000000000 [(g.toNat, 52), (d.toNat, 46), (a.toNat, 40), (b.toNat, 34)])
  | .or g d a b => some (word 0xB00000000000000 [(g.toNat, 52), (d.toNat, 46), (a.toNat, 40), (b.toNat, 34)])
  | .xor g d a b => some (word 0xC00000000000000 [(g.toNat, 52), (d.toNat, 46), (a.toNat, 40), (b.toNat, 34)])
  | .shl g d a b => some (word 0xD00000000000000 [(g.toNat, 52), (d.toNat, 46), (a.toNat, 40), (b.toNat, 34)])
  | .shr g d a b => some (word 0xE00000000000000 [(g.toNat, 52), (d.toNat, 46), (a.toNat, 40), (b.toNat, 34)])
  | .sra g d a b => some (word 0xF00000000000000 [(g.toNat, 52), (d.toNat, 46), (a.toNat, 40), (b.toNat, 34)])
  | .rot g d a b => some (word 0x1000000000000000 [(g.toNat, 52), (d.toNat, 46), (a.toNat, 40), (b.toNat, 34)])
  | .min g d a b => some (word 0x1100000000000000 [(g.toNat, 52), (d.toNat, 46), (a.toNat, 40), (b.toNat, 34)])
  | .max g d a b => some (word 0x1200000000000000 [(g.toNat, 52), (d.toNat, 46), (a.toNat, 40), (b.toNat, 34)])
  | .minn g d a b => some (word 0x1300000000000000 [(g.toNat, 52), (d.toNat, 46), (a.toNat, 40), (b.toNat, 34)])
  | .maxn g d a b => some (word 0x1400000000000000 [(g.toNat, 52), (d.toNat, 46), (a.toNat, 40), (b.toNat, 34)])
  | .sel g d a b gs ng => some (word 0x1500000000000000 [(g.toNat, 52), (d.toNat, 46), (a.toNat, 40), (b.toNat, 34), (gs.toNat, 31), (ng.toNat, 30)])
  | .add128 g d a b => some (word 0x1600000000000000 [(g.toNat, 52), (d.toNat, 46), (a.toNat, 40), (b.toNat, 34)])
  | .addi g d a imm => some (word 0x2000000000000000 [(g.toNat, 52), (d.toNat, 46), (a.toNat, 40), (imm.toNat, 0)])
  | .andi g d a imm => some (word 0x2100000000000000 [(g.toNat, 52), (d.toNat, 46), (a.toNat, 40), (imm.toNat, 0)])
  | .ori g d a imm => some (word 0x2200000000000000 [(g.toNat, 52), (d.toNat, 46), (a.toNat, 40), (imm.toNat, 0)])
  | .xori g d a imm => some (word 0x2300000000000000 [(g.toNat, 52), (d.toNat, 46), (a.toNat, 40), (imm.toNat, 0)])
  | .shli g d a k => some (word 0x2400000000000000 [(g.toNat, 52), (d.toNat, 46), (a.toNat, 40), (k.toNat, 0)])
  | .shri g d a k => some (word 0x2500000000000000 [(g.toNat, 52), (d.toNat, 46), (a.toNat, 40), (k.toNat, 0)])
  | .srai g d a k => some (word 0x2600000000000000 [(g.toNat, 52), (d.toNat, 46), (a.toNat, 40), (k.toNat, 0)])
  | .li g d imm => some (word 0x2700000000000000 [(g.toNat, 52), (d.toNat, 46), (imm.toNat, 0)])
  | .lih g d imm => some (word 0x2800000000000000 [(g.toNat, 52), (d.toNat, 46), (imm.toNat, 0)])
  | .muli g d a imm => some (word 0x2900000000000000 [(g.toNat, 52), (d.toNat, 46), (a.toNat, 40), (imm.toNat, 0)])
  | .clz g d a => some (word 0x3000000000000000 [(g.toNat, 52), (d.toNat, 46), (a.toNat, 40)])
  | .ctz g d a => some (word 0x3100000000000000 [(g.toNat, 52), (d.toNat, 46), (a.toNat, 40)])
  | .popc g d a => some (word 0x3200000000000000 [(g.toNat, 52), (d.toNat, 46), (a.toNat, 40)])
  | .bint3 g d a => some (word 0x3300000000000000 [(g.toNat, 52), (d.toNat, 46), (a.toNat, 40)])
  | .bdint3 g d a => some (word 0x3400000000000000 [(g.toNat, 52), (d.toNat, 46), (a.toNat, 40)])
  | .bint2 g d a => some (word 0x3500000000000000 [(g.toNat, 52), (d.toNat, 46), (a.toNat, 40)])
  | .bdint2 g d a => some (word 0x3600000000000000 [(g.toNat, 52), (d.toNat, 46), (a.toNat, 40)])
  | .brev g d a => some (word 0x3700000000000000 [(g.toNat, 52), (d.toNat, 46), (a.toNat, 40)])
  | .sext g d a w => some (word 0x3800000000000000 [(g.toNat, 52), (d.toNat, 46), (a.toNat, 40), (w.toNat, 34)])
  | .zext g d a w => some (word 0x3900000000000000 [(g.toNat, 52), (d.toNat, 46), (a.toNat, 40), (w.toNat, 34)])
  | .cmpEq g gd a b => some (word 0x4000000000000000 [(g.toNat, 52), (gd.toNat, 49), (a.toNat, 40), (b.toNat, 34)])
  | .cmpNe g gd a b => some (word 0x4100000000000000 [(g.toNat, 52), (gd.toNat, 49), (a.toNat, 40), (b.toNat, 34)])
  | .cmpLt g gd a b => some (word 0x4200000000000000 [(g.toNat, 52), (gd.toNat, 49), (a.toNat, 40), (b.toNat, 34)])
  | .cmpLtn g gd a b => some (word 0x4300000000000000 [(g.toNat, 52), (gd.toNat, 49), (a.toNat, 40), (b.toNat, 34)])
  | .cmpLe g gd a b => some (word 0x4400000000000000 [(g.toNat, 52), (gd.toNat, 49), (a.toNat, 40), (b.toNat, 34)])
  | .cmpLen g gd a b => some (word 0x4500000000000000 [(g.toNat, 52), (gd.toNat, 49), (a.toNat, 40), (b.toNat, 34)])
  | .cmpiEq g gd a imm => some (word 0x4600000000000000 [(g.toNat, 52), (gd.toNat, 49), (a.toNat, 40), (imm.toNat, 0)])
  | .cmpiLt g gd a imm => some (word 0x4700000000000000 [(g.toNat, 52), (gd.toNat, 49), (a.toNat, 40), (imm.toNat, 0)])
  | .gand g gd ga gb => some (word 0x4800000000000000 [(g.toNat, 52), (gd.toNat, 49), (ga.toNat, 43), (gb.toNat, 37)])
  | .gor g gd ga gb => some (word 0x4900000000000000 [(g.toNat, 52), (gd.toNat, 49), (ga.toNat, 43), (gb.toNat, 37)])
  | .gnot g gd ga => some (word 0x4A00000000000000 [(g.toNat, 52), (gd.toNat, 49), (ga.toNat, 43)])
  | .br g off => some (word 0x5000000000000000 [(g.toNat, 52), (off.toNat, 0)])
  | .brs g a off => some (word 0x5100000000000000 [(g.toNat, 52), (a.toNat, 40), (off.toNat, 0)])
  | .call g l off => some (word 0x5200000000000000 [(g.toNat, 52), (l.toNat, 46), (off.toNat, 0)])
  | .ret g a => some (word 0x5300000000000000 [(g.toNat, 52), (a.toNat, 40)])
  | .loop g st ro a e => some (word 0x5400000000000000 [(g.toNat, 52), (st.toNat, 47), (ro.toNat, 46), (a.toNat, 40), (e.toNat, 18)])
  | .loopi g st ro e cnt => some (word 0x5500000000000000 [(g.toNat, 52), (st.toNat, 47), (ro.toNat, 46), (e.toNat, 18), (cnt.toNat, 0)])
  | .lexit g off => some (word 0x5600000000000000 [(g.toNat, 52), (off.toNat, 0)])
  | .brb g l o => some (word 0x5700000000000000 [(g.toNat, 52), (l.toNat, 46), (o.toNat, 0)])
  | .halt g => some (word 0x5800000000000000 [(g.toNat, 52)])
  | .yield g => some (word 0x5900000000000000 [(g.toNat, 52)])
  | .rdid g d imm => some (word 0x6000000000000000 [(g.toNat, 52), (d.toNat, 46), (imm.toNat, 0)])
  | .rdsys g d ix => some (word 0x6100000000000000 [(g.toNat, 52), (d.toNat, 46), (ix.toNat, 0)])
  | .wrsys g a ix => some (word 0x6200000000000000 [(g.toNat, 52), (a.toNat, 40), (ix.toNat, 0)])
  | .sys g imm => some (word 0x6300000000000000 [(g.toNat, 52), (imm.toNat, 0)])
  | .trapi g imm => some (word 0x6400000000000000 [(g.toNat, 52), (imm.toNat, 0)])
  | .eret g => some (word 0x6500000000000000 [(g.toNat, 52)])
  | .ifence g => some (word 0x6600000000000000 [(g.toNat, 52)])
  | .evpop g d => some (word 0x6700000000000000 [(g.toNat, 52), (d.toNat, 46)])
  | .rdtime g d => some (word 0x6800000000000000 [(g.toNat, 52), (d.toNat, 46)])
  | .rdcyc g d => some (word 0x6900000000000000 [(g.toNat, 52), (d.toNat, 46)])
  | .setest g a ix => some (word 0x6A00000000000000 [(g.toNat, 52), (a.toNat, 40), (ix.toNat, 0)])
  | .flagsRd g d => some (word 0x6B00000000000000 [(g.toNat, 52), (d.toNat, 46)])
  | .flagsClr g k => some (word 0x6C00000000000000 [(g.toNat, 52), (k.toNat, 0)])
  | .wfe g n => some (word 0x6D00000000000000 [(g.toNat, 52), (n.toNat, 0)])
  | .movGs g d gk => some (word 0x7000000000000000 [(g.toNat, 52), (d.toNat, 43), (gk.toNat, 34)])
  | .movSg g gd a => some (word 0x7100000000000000 [(g.toNat, 52), (gd.toNat, 43), (a.toNat, 34)])
  | .movSv g d a lane => some (word 0x7200000000000000 [(g.toNat, 52), (d.toNat, 43), (a.toNat, 34), (lane.toNat, 16)])
  | .movSx g d a => some (word 0x7300000000000000 [(g.toNat, 52), (d.toNat, 43), (a.toNat, 34)])
  | .movSq g d a => some (word 0x7400000000000000 [(g.toNat, 52), (d.toNat, 43), (a.toNat, 34)])
  | .movSd g d a => some (word 0x7500000000000000 [(g.toNat, 52), (d.toNat, 43), (a.toNat, 34)])
  | _ => none

/-- Words of the VA/VB slot: opcode and fields at their places. -/
def encV : Instr → Option Nat
  | .fadd _ g d a b m t => some (word 0x100000000000000 [(g.toNat, 52), (d.toNat, 43), (a.toNat, 34), (b.toNat, 25), (m.toNat, 12), (t.toNat, 7)])
  | .fsub _ g d a b m t => some (word 0x200000000000000 [(g.toNat, 52), (d.toNat, 43), (a.toNat, 34), (b.toNat, 25), (m.toNat, 12), (t.toNat, 7)])
  | .fmul _ g d a b m t => some (word 0x300000000000000 [(g.toNat, 52), (d.toNat, 43), (a.toNat, 34), (b.toNat, 25), (m.toNat, 12), (t.toNat, 7)])
  | .fmin _ g d a b m t => some (word 0x700000000000000 [(g.toNat, 52), (d.toNat, 43), (a.toNat, 34), (b.toNat, 25), (m.toNat, 12), (t.toNat, 7)])
  | .fmax _ g d a b m t => some (word 0x800000000000000 [(g.toNat, 52), (d.toNat, 43), (a.toNat, 34), (b.toNat, 25), (m.toNat, 12), (t.toNat, 7)])
  | .fdiv _ g d a b m t => some (word 0xB00000000000000 [(g.toNat, 52), (d.toNat, 43), (a.toNat, 34), (b.toNat, 25), (m.toNat, 12), (t.toNat, 7)])
  | .fscale _ g d a b m t => some (word 0x1300000000000000 [(g.toNat, 52), (d.toNat, 43), (a.toNat, 34), (b.toNat, 25), (m.toNat, 12), (t.toNat, 7)])
  | .fma _ g d a b c m t => some (word 0x400000000000000 [(g.toNat, 52), (d.toNat, 43), (a.toNat, 34), (b.toNat, 25), (c.toNat, 16), (m.toNat, 12), (t.toNat, 7)])
  | .fms _ g d a b c m t => some (word 0x500000000000000 [(g.toNat, 52), (d.toNat, 43), (a.toNat, 34), (b.toNat, 25), (c.toNat, 16), (m.toNat, 12), (t.toNat, 7)])
  | .fnma _ g d a b c m t => some (word 0x600000000000000 [(g.toNat, 52), (d.toNat, 43), (a.toNat, 34), (b.toNat, 25), (c.toNat, 16), (m.toNat, 12), (t.toNat, 7)])
  | .fabs _ g d a m t => some (word 0x900000000000000 [(g.toNat, 52), (d.toNat, 43), (a.toNat, 34), (m.toNat, 12), (t.toNat, 7)])
  | .fneg _ g d a m t => some (word 0xA00000000000000 [(g.toNat, 52), (d.toNat, 43), (a.toNat, 34), (m.toNat, 12), (t.toNat, 7)])
  | .fsqrt _ g d a m t => some (word 0xC00000000000000 [(g.toNat, 52), (d.toNat, 43), (a.toNat, 34), (m.toNat, 12), (t.toNat, 7)])
  | .frcp _ g d a m t => some (word 0xD00000000000000 [(g.toNat, 52), (d.toNat, 43), (a.toNat, 34), (m.toNat, 12), (t.toNat, 7)])
  | .frsq _ g d a m t => some (word 0xE00000000000000 [(g.toNat, 52), (d.toNat, 43), (a.toNat, 34), (m.toNat, 12), (t.toNat, 7)])
  | .fexp2 _ g d a m t => some (word 0xF00000000000000 [(g.toNat, 52), (d.toNat, 43), (a.toNat, 34), (m.toNat, 12), (t.toNat, 7)])
  | .flog2 _ g d a m t => some (word 0x1000000000000000 [(g.toNat, 52), (d.toNat, 43), (a.toNat, 34), (m.toNat, 12), (t.toNat, 7)])
  | .fcvt _ g d a st part m t => some (word 0x1100000000000000 [(g.toNat, 52), (d.toNat, 43), (a.toNat, 34), (st.toNat, 25), (part.toNat, 16), (m.toNat, 12), (t.toNat, 7)])
  | .fround _ g d a st part m t md => some (word 0x1200000000000000 [(g.toNat, 52), (d.toNat, 43), (a.toNat, 34), (st.toNat, 25), (part.toNat, 16), (m.toNat, 12), (t.toNat, 7), (md.toNat, 4)])
  | .fclass _ g md a cls m t q => some (word 0x1400000000000000 [(g.toNat, 52), (md.toNat, 43), (a.toNat, 34), (cls.toNat, 16), (m.toNat, 12), (t.toNat, 7), (q.toNat, 4)])
  | .fcmp _ g md a b m t cond => some (word 0x1500000000000000 [(g.toNat, 52), (md.toNat, 43), (a.toNat, 34), (b.toNat, 25), (m.toNat, 12), (t.toNat, 7), (cond.toNat, 4)])
  | .fredAdd _ g d a m t => some (word 0x1600000000000000 [(g.toNat, 52), (d.toNat, 43), (a.toNat, 34), (m.toNat, 12), (t.toNat, 7)])
  | .fredMax _ g d a m t => some (word 0x1700000000000000 [(g.toNat, 52), (d.toNat, 43), (a.toNat, 34), (m.toNat, 12), (t.toNat, 7)])
  | .fredMin _ g d a m t => some (word 0x1800000000000000 [(g.toNat, 52), (d.toNat, 43), (a.toNat, 34), (m.toNat, 12), (t.toNat, 7)])
  | .bscale _ g d a m t sb => some (word 0x1900000000000000 [(g.toNat, 52), (d.toNat, 43), (a.toNat, 34), (m.toNat, 12), (t.toNat, 7), (sb.toNat, 4)])
  | .iadd _ g d a b m t => some (word 0x2000000000000000 [(g.toNat, 52), (d.toNat, 43), (a.toNat, 34), (b.toNat, 25), (m.toNat, 12), (t.toNat, 7)])
  | .isub _ g d a b m t => some (word 0x2100000000000000 [(g.toNat, 52), (d.toNat, 43), (a.toNat, 34), (b.toNat, 25), (m.toNat, 12), (t.toNat, 7)])
  | .imul _ g d a b m t => some (word 0x2200000000000000 [(g.toNat, 52), (d.toNat, 43), (a.toNat, 34), (b.toNat, 25), (m.toNat, 12), (t.toNat, 7)])
  | .imulh _ g d a b m t => some (word 0x2300000000000000 [(g.toNat, 52), (d.toNat, 43), (a.toNat, 34), (b.toNat, 25), (m.toNat, 12), (t.toNat, 7)])
  | .iand _ g d a b m t => some (word 0x2400000000000000 [(g.toNat, 52), (d.toNat, 43), (a.toNat, 34), (b.toNat, 25), (m.toNat, 12), (t.toNat, 7)])
  | .ior _ g d a b m t => some (word 0x2500000000000000 [(g.toNat, 52), (d.toNat, 43), (a.toNat, 34), (b.toNat, 25), (m.toNat, 12), (t.toNat, 7)])
  | .ixor _ g d a b m t => some (word 0x2600000000000000 [(g.toNat, 52), (d.toNat, 43), (a.toNat, 34), (b.toNat, 25), (m.toNat, 12), (t.toNat, 7)])
  | .ishl _ g d a b m t => some (word 0x2700000000000000 [(g.toNat, 52), (d.toNat, 43), (a.toNat, 34), (b.toNat, 25), (m.toNat, 12), (t.toNat, 7)])
  | .ishr _ g d a b m t => some (word 0x2800000000000000 [(g.toNat, 52), (d.toNat, 43), (a.toNat, 34), (b.toNat, 25), (m.toNat, 12), (t.toNat, 7)])
  | .isra _ g d a b m t => some (word 0x2900000000000000 [(g.toNat, 52), (d.toNat, 43), (a.toNat, 34), (b.toNat, 25), (m.toNat, 12), (t.toNat, 7)])
  | .imin _ g d a b m t => some (word 0x2A00000000000000 [(g.toNat, 52), (d.toNat, 43), (a.toNat, 34), (b.toNat, 25), (m.toNat, 12), (t.toNat, 7)])
  | .imax _ g d a b m t => some (word 0x2B00000000000000 [(g.toNat, 52), (d.toNat, 43), (a.toNat, 34), (b.toNat, 25), (m.toNat, 12), (t.toNat, 7)])
  | .iadds _ g d a b m t => some (word 0x2D00000000000000 [(g.toNat, 52), (d.toNat, 43), (a.toNat, 34), (b.toNat, 25), (m.toNat, 12), (t.toNat, 7)])
  | .isubs _ g d a b m t => some (word 0x2E00000000000000 [(g.toNat, 52), (d.toNat, 43), (a.toNat, 34), (b.toNat, 25), (m.toNat, 12), (t.toNat, 7)])
  | .iabs _ g d a m t => some (word 0x2C00000000000000 [(g.toNat, 52), (d.toNat, 43), (a.toNat, 34), (m.toNat, 12), (t.toNat, 7)])
  | .iclz _ g d a m t => some (word 0x3000000000000000 [(g.toNat, 52), (d.toNat, 43), (a.toNat, 34), (m.toNat, 12), (t.toNat, 7)])
  | .ipopc _ g d a m t => some (word 0x3100000000000000 [(g.toNat, 52), (d.toNat, 43), (a.toNat, 34), (m.toNat, 12), (t.toNat, 7)])
  | .ibint3 _ g d a m t => some (word 0x3200000000000000 [(g.toNat, 52), (d.toNat, 43), (a.toNat, 34), (m.toNat, 12), (t.toNat, 7)])
  | .icmp _ g md a b m t cond => some (word 0x2F00000000000000 [(g.toNat, 52), (md.toNat, 43), (a.toNat, 34), (b.toNat, 25), (m.toNat, 12), (t.toNat, 7), (cond.toNat, 4)])
  | .iredAdd _ g d a m t => some (word 0x3300000000000000 [(g.toNat, 52), (d.toNat, 43), (a.toNat, 34), (m.toNat, 12), (t.toNat, 7)])
  | .iadd128 _ g d a b m t => some (word 0x3400000000000000 [(g.toNat, 52), (d.toNat, 43), (a.toNat, 34), (b.toNat, 25), (m.toNat, 12), (t.toNat, 7)])
  | .icvt _ g d a st part m t sb => some (word 0x3500000000000000 [(g.toNat, 52), (d.toNat, 43), (a.toNat, 34), (st.toNat, 25), (part.toNat, 16), (m.toNat, 12), (t.toNat, 7), (sb.toNat, 4)])
  | .vsel _ g d a b m t => some (word 0x4000000000000000 [(g.toNat, 52), (d.toNat, 43), (a.toNat, 34), (b.toNat, 25), (m.toNat, 12), (t.toNat, 7)])
  | .vperm _ g d a b m t => some (word 0x4100000000000000 [(g.toNat, 52), (d.toNat, 43), (a.toNat, 34), (b.toNat, 25), (m.toNat, 12), (t.toNat, 7)])
  | .vzip _ g d a b m t sb => some (word 0x4300000000000000 [(g.toNat, 52), (d.toNat, 43), (a.toNat, 34), (b.toNat, 25), (m.toNat, 12), (t.toNat, 7), (sb.toNat, 4)])
  | .vunzip _ g d a b m t sb => some (word 0x4400000000000000 [(g.toNat, 52), (d.toNat, 43), (a.toNat, 34), (b.toNat, 25), (m.toNat, 12), (t.toNat, 7), (sb.toNat, 4)])
  | .vrev _ g d a m t => some (word 0x4600000000000000 [(g.toNat, 52), (d.toNat, 43), (a.toNat, 34), (m.toNat, 12), (t.toNat, 7)])
  | .vcompress _ g d a m t => some (word 0x4700000000000000 [(g.toNat, 52), (d.toNat, 43), (a.toNat, 34), (m.toNat, 12), (t.toNat, 7)])
  | .vexpand _ g d a m t => some (word 0x4800000000000000 [(g.toNat, 52), (d.toNat, 43), (a.toNat, 34), (m.toNat, 12), (t.toNat, 7)])
  | .vbcast _ g d a imm m t => some (word 0x4200000000000000 [(g.toNat, 52), (d.toNat, 43), (a.toNat, 34), (imm.toNat, 16), (m.toNat, 12), (t.toNat, 7)])
  | .vslide _ g d a imm m t => some (word 0x4500000000000000 [(g.toNat, 52), (d.toNat, 43), (a.toNat, 34), (imm.toNat, 16), (m.toNat, 12), (t.toNat, 7)])
  | .viota _ g d imm m t => some (word 0x4900000000000000 [(g.toNat, 52), (d.toNat, 43), (imm.toNat, 16), (m.toNat, 12), (t.toNat, 7)])
  | .vmovi _ g d imm m t => some (word 0x4A00000000000000 [(g.toNat, 52), (d.toNat, 43), (imm.toNat, 16), (m.toNat, 12), (t.toNat, 7)])
  | .mand _ g md ma mb => some (word 0x5000000000000000 [(g.toNat, 52), (md.toNat, 43), (ma.toNat, 34), (mb.toNat, 25)])
  | .mor _ g md ma mb => some (word 0x5100000000000000 [(g.toNat, 52), (md.toNat, 43), (ma.toNat, 34), (mb.toNat, 25)])
  | .mxor _ g md ma mb => some (word 0x5200000000000000 [(g.toNat, 52), (md.toNat, 43), (ma.toNat, 34), (mb.toNat, 25)])
  | .mnot _ g md ma => some (word 0x5300000000000000 [(g.toNat, 52), (md.toNat, 43), (ma.toNat, 34)])
  | .mpopc _ g d ms m t => some (word 0x5400000000000000 [(g.toNat, 52), (d.toNat, 43), (ms.toNat, 34), (m.toNat, 12), (t.toNat, 7)])
  | .mfirst _ g d ms m t => some (word 0x5500000000000000 [(g.toNat, 52), (d.toNat, 43), (ms.toNat, 34), (m.toNat, 12), (t.toNat, 7)])
  | .vrng _ g d a b m t => some (word 0x6000000000000000 [(g.toNat, 52), (d.toNat, 43), (a.toNat, 34), (b.toNat, 25), (m.toNat, 12), (t.toNat, 7)])
  | .vrngF _ g d a m t => some (word 0x6100000000000000 [(g.toNat, 52), (d.toNat, 43), (a.toNat, 34), (m.toNat, 12), (t.toNat, 7)])
  | .movVs _ g d a lane => some (word 0x7000000000000000 [(g.toNat, 52), (d.toNat, 43), (a.toNat, 34), (lane.toNat, 16)])
  | .movMg _ g gd ms mg => some (word 0x7100000000000000 [(g.toNat, 52), (gd.toNat, 43), (ms.toNat, 34), (mg.toNat, 16)])
  | .movVx _ g d a lane => some (word 0x7200000000000000 [(g.toNat, 52), (d.toNat, 43), (a.toNat, 34), (lane.toNat, 16)])
  | _ => none

/-- Words of the M slot: opcode and fields at their places. -/
def encM : Instr → Option Nat
  | .mcall g ix sn imm => some (word 0x100000000000000 [(g.toNat, 52), (ix.toNat, 46), (sn.toNat, 34), (imm.toNat, 0)])
  | .mparami g k imm => some (word 0x200000000000000 [(g.toNat, 52), (k.toNat, 31), (imm.toNat, 0)])
  | .mzero g sn col => some (word 0x300000000000000 [(g.toNat, 52), (sn.toNat, 34), (col.toNat, 0)])
  | .mdrainV g d row col z => some (word 0x400000000000000 [(g.toNat, 52), (d.toNat, 25), (row.toNat, 18), (col.toNat, 9), (z.toNat, 0)])
  | .mdrainP g sn mode fmt col row rows z => some (word 0x500000000000000 [(g.toNat, 52), (sn.toNat, 34), (mode.toNat, 31), (fmt.toNat, 26), (col.toNat, 17), (row.toNat, 10), (rows.toNat, 3), (z.toNat, 2)])
  | .mwait g k => some (word 0x600000000000000 [(g.toNat, 52), (k.toNat, 0)])
  | .mucodeLd g ix words off => some (word 0x700000000000000 [(g.toNat, 52), (ix.toNat, 46), (words.toNat, 24), (off.toNat, 0)])
  | .mwit g on => some (word 0x800000000000000 [(g.toNat, 52), (on.toNat, 0)])
  | .mflush g => some (word 0x900000000000000 [(g.toNat, 52)])
  | .mstat g c off => some (word 0xA00000000000000 [(g.toNat, 52), (c.toNat, 20), (off.toNat, 0)])
  | _ => none

/-- Words of the LD slot: opcode and fields at their places. -/
def encLd : Instr → Option Nat
  | .ldS g d xb off sx sz => some (word 0x100000000000000 [(g.toNat, 52), (d.toNat, 43), (xb.toNat, 38), (off.toNat, 16), (sx.toNat, 2), (sz.toNat, 0)])
  | .ldV g d xb off m t => some (word 0x200000000000000 [(g.toNat, 52), (d.toNat, 43), (xb.toNat, 38), (off.toNat, 16), (m.toNat, 12), (t.toNat, 7)])
  | .ldVs g d xb off m t => some (word 0x300000000000000 [(g.toNat, 52), (d.toNat, 43), (xb.toNat, 38), (off.toNat, 16), (m.toNat, 12), (t.toNat, 7)])
  | .ldVg g d xb vi m t => some (word 0x400000000000000 [(g.toNat, 52), (d.toNat, 43), (xb.toNat, 38), (vi.toNat, 29), (m.toNat, 12), (t.toNat, 7)])
  | .ldM g md xb off => some (word 0x500000000000000 [(g.toNat, 52), (md.toNat, 43), (xb.toNat, 38), (off.toNat, 16)])
  | .ldhS g d h xo imm sx sz => some (word 0x600000000000000 [(g.toNat, 52), (d.toNat, 43), (h.toNat, 38), (xo.toNat, 33), (imm.toNat, 16), (sx.toNat, 2), (sz.toNat, 0)])
  | .ldhV g d h xo imm m t => some (word 0x700000000000000 [(g.toNat, 52), (d.toNat, 43), (h.toNat, 38), (xo.toNat, 33), (imm.toNat, 16), (m.toNat, 12), (t.toNat, 7)])
  | .vfill g d xb off => some (word 0x800000000000000 [(g.toNat, 52), (d.toNat, 43), (xb.toNat, 38), (off.toNat, 16)])
  | .translate g a h rw => some (word 0x900000000000000 [(g.toNat, 52), (a.toNat, 43), (h.toNat, 38), (rw.toNat, 0)])
  | .hdrop g h => some (word 0xA00000000000000 [(g.toNat, 52), (h.toNat, 38)])
  | .recv g d rank facet lane dir => some (word 0xB00000000000000 [(g.toNat, 52), (d.toNat, 43), (rank.toNat, 34), (facet.toNat, 32), (lane.toNat, 29), (dir.toNat, 28)])
  | .movXs g d a => some (word 0xC00000000000000 [(g.toNat, 52), (d.toNat, 43), (a.toNat, 34)])
  | .ldQ g d xb off m t mf => some (word 0xD00000000000000 [(g.toNat, 52), (d.toNat, 43), (xb.toNat, 38), (off.toNat, 16), (m.toNat, 12), (t.toNat, 7), (mf.toNat, 0)])
  | .xadd _ g d a b => some (word 0x3000000000000000 [(g.toNat, 52), (d.toNat, 43), (a.toNat, 38), (b.toNat, 33)])
  | .xaddi _ g d a imm => some (word 0x3100000000000000 [(g.toNat, 52), (d.toNat, 43), (a.toNat, 38), (imm.toNat, 16)])
  | .xli _ g d imm => some (word 0x3200000000000000 [(g.toNat, 52), (d.toNat, 43), (imm.toNat, 16)])
  | .xsub _ g d a b => some (word 0x3300000000000000 [(g.toNat, 52), (d.toNat, 43), (a.toNat, 38), (b.toNat, 33)])
  | _ => none

/-- Words of the ST slot: opcode and fields at their places. -/
def encSt : Instr → Option Nat
  | .xadd _ g d a b => some (word 0x3000000000000000 [(g.toNat, 52), (d.toNat, 43), (a.toNat, 38), (b.toNat, 33)])
  | .xaddi _ g d a imm => some (word 0x3100000000000000 [(g.toNat, 52), (d.toNat, 43), (a.toNat, 38), (imm.toNat, 16)])
  | .xli _ g d imm => some (word 0x3200000000000000 [(g.toNat, 52), (d.toNat, 43), (imm.toNat, 16)])
  | .xsub _ g d a b => some (word 0x3300000000000000 [(g.toNat, 52), (d.toNat, 43), (a.toNat, 38), (b.toNat, 33)])
  | .stS g a xb off t mode sz => some (word 0x100000000000000 [(g.toNat, 52), (a.toNat, 43), (xb.toNat, 38), (off.toNat, 16), (t.toNat, 7), (mode.toNat, 4), (sz.toNat, 0)])
  | .stV g a xb off m t mode src => some (word 0x200000000000000 [(g.toNat, 52), (a.toNat, 43), (xb.toNat, 38), (off.toNat, 16), (m.toNat, 12), (t.toNat, 7), (mode.toNat, 4), (src.toNat, 0)])
  | .stVs g a xb off m t mode src => some (word 0x300000000000000 [(g.toNat, 52), (a.toNat, 43), (xb.toNat, 38), (off.toNat, 16), (m.toNat, 12), (t.toNat, 7), (mode.toNat, 4), (src.toNat, 0)])
  | .stVx g a xb vi m t mode src => some (word 0x400000000000000 [(g.toNat, 52), (a.toNat, 43), (xb.toNat, 38), (vi.toNat, 29), (m.toNat, 12), (t.toNat, 7), (mode.toNat, 4), (src.toNat, 0)])
  | .stM g ms xb off => some (word 0x500000000000000 [(g.toNat, 52), (ms.toNat, 43), (xb.toNat, 38), (off.toNat, 16)])
  | .sthS g a h xo imm t mode sz => some (word 0x600000000000000 [(g.toNat, 52), (a.toNat, 43), (h.toNat, 38), (xo.toNat, 33), (imm.toNat, 16), (t.toNat, 7), (mode.toNat, 4), (sz.toNat, 0)])
  | .sthV g a h xo imm m t mode src => some (word 0x700000000000000 [(g.toNat, 52), (a.toNat, 43), (h.toNat, 38), (xo.toNat, 33), (imm.toNat, 16), (m.toNat, 12), (t.toNat, 7), (mode.toNat, 4), (src.toNat, 0)])
  | .vspill g a xb off => some (word 0x800000000000000 [(g.toNat, 52), (a.toNat, 43), (xb.toNat, 38), (off.toNat, 16)])
  | .send g a rank facet lane dir => some (word 0x900000000000000 [(g.toNat, 52), (a.toNat, 43), (rank.toNat, 34), (facet.toNat, 32), (lane.toNat, 29), (dir.toNat, 28)])
  | .amoP g d xb off t mode op => some (word 0xA00000000000000 [(g.toNat, 52), (d.toNat, 43), (xb.toNat, 38), (off.toNat, 16), (t.toNat, 7), (mode.toNat, 4), (op.toNat, 0)])
  | .amoH g d h xo imm t mode op => some (word 0xB00000000000000 [(g.toNat, 52), (d.toNat, 43), (h.toNat, 38), (xo.toNat, 33), (imm.toNat, 16), (t.toNat, 7), (mode.toNat, 4), (op.toNat, 0)])
  | .sigw g a h xo imm => some (word 0xC00000000000000 [(g.toNat, 52), (a.toNat, 43), (h.toNat, 38), (xo.toNat, 33), (imm.toNat, 16)])
  | _ => none

/-- Words of the CP slot: opcode and fields at their places. -/
def encCp : Instr → Option Nat
  | .feed g da db ty sm kind tgt cm => some (word 0x100000000000000 [(g.toNat, 52), (da.toNat, 48), (db.toNat, 44), (sm.toNat, 29), (ty.toNat, 24), (kind.toNat, 22), (tgt.toNat, 20), (cm.toNat, 0)])
  | .lcopy g da db cm => some (word 0x200000000000000 [(g.toNat, 52), (da.toNat, 48), (db.toNat, 44), (cm.toNat, 0)])
  | .bulkSet g da db pos => some (word 0x300000000000000 [(g.toNat, 52), (da.toNat, 48), (db.toNat, 44), (pos.toNat, 0)])
  | .bulkGo g en cm => some (word 0x400000000000000 [(g.toNat, 52), (en.toNat, 20), (cm.toNat, 0)])
  | .bulkCancel g en tag => some (word 0x500000000000000 [(g.toNat, 52), (en.toNat, 20), (tag.toNat, 0)])
  | .winOpen g da db band rr fill cm => some (word 0x600000000000000 [(g.toNat, 52), (da.toNat, 48), (db.toNat, 44), (fill.toNat, 31), (rr.toNat, 23), (band.toNat, 20), (cm.toNat, 0)])
  | .winAdv g band k cm => some (word 0x700000000000000 [(g.toNat, 52), (k.toNat, 23), (band.toNat, 20), (cm.toNat, 0)])
  | .winClose g band cm => some (word 0x800000000000000 [(g.toNat, 52), (band.toNat, 20), (cm.toNat, 0)])
  | .ifetch g da words cm => some (word 0x900000000000000 [(g.toNat, 52), (da.toNat, 48), (words.toNat, 20), (cm.toNat, 0)])
  | .crcRd g rst ac tag => some (word 0xA00000000000000 [(g.toNat, 52), (rst.toNat, 20), (ac.toNat, 18), (tag.toNat, 0)])
  | _ => none

/-- Words of the SY slot: opcode and fields at their places. -/
def encSy : Instr → Option Nat
  | .barArr g xb inn out => some (word 0x4000000 [(g.toNat, 22), (xb.toNat, 17), (inn.toNat, 9), (out.toNat, 1)])
  | .barWait g xb sg => some (word 0x8000000 [(g.toNat, 22), (xb.toNat, 17), (sg.toNat, 11)])
  | .wait g cls k => some (word 0xC000000 [(g.toNat, 22), (cls.toNat, 18), (k.toNat, 12)])
  | .drain g => some (word 0x10000000 [(g.toNat, 22)])
  | .pbar g => some (word 0x14000000 [(g.toNat, 22)])
  | .tsync g mask => some (word 0x18000000 [(g.toNat, 22), (mask.toNat, 6)])
  | .yadd g yd ak a bk b => some (word 0x1C000000 [(g.toNat, 22), (yd.toNat, 20), (ak.toNat, 19), (a.toNat, 13), (bk.toNat, 11), (b.toNat, 0)])
  | .ysub g yd ak a bk b => some (word 0x20000000 [(g.toNat, 22), (yd.toNat, 20), (ak.toNat, 19), (a.toNat, 13), (bk.toNat, 11), (b.toNat, 0)])
  | .yand g yd ak a bk b => some (word 0x24000000 [(g.toNat, 22), (yd.toNat, 20), (ak.toNat, 19), (a.toNat, 13), (bk.toNat, 11), (b.toNat, 0)])
  | .yxor g yd ak a bk b => some (word 0x28000000 [(g.toNat, 22), (yd.toNat, 20), (ak.toNat, 19), (a.toNat, 13), (bk.toNat, 11), (b.toNat, 0)])
  | .ycmp g yd ak a bk b cond => some (word 0x2C000000 [(g.toNat, 22), (yd.toNat, 20), (ak.toNat, 19), (a.toNat, 13), (bk.toNat, 12), (b.toNat, 6), (cond.toNat, 3)])
  | .chkY g ya yb => some (word 0x30000000 [(g.toNat, 22), (ya.toNat, 20), (yb.toNat, 18)])
  | .chkV g a b m => some (word 0x34000000 [(g.toNat, 22), (a.toNat, 13), (b.toNat, 4), (m.toNat, 0)])
  | .chkS g ya a => some (word 0x38000000 [(g.toNat, 22), (ya.toNat, 20), (a.toNat, 14)])
  | _ => none

/-- Micro-words (R203, R204). -/
def encMicro : Instr → Option Nat
  | .nop => some (word 0x0 [])
  | .popA => some (word 0x10000000000000000000000000000000 [])
  | .popB => some (word 0x20000000000000000000000000000000 [])
  | .pass ovr => some (word 0x30000000000000000000000000000000 [(ovr.toNat, 88)])
  | .passSp ovr => some (word 0x40000000000000000000000000000000 [(ovr.toNat, 88)])
  | .acc val src => some (word 0x50000000000000000000000000000000 [(val.toNat, 96), (src.toNat, 94)])
  | .zero => some (word 0x60000000000000000000000000000000 [])
  | .shift val src => some (word 0x70000000000000000000000000000000 [(val.toNat, 96), (src.toNat, 94)])
  | .microLoop tgt ctr val src => some (word 0x80000000000000000000000000000000 [(tgt.toNat, 114), (ctr.toNat, 112), (val.toNat, 96), (src.toNat, 94)])
  | .jump tgt => some (word 0x90000000000000000000000000000000 [(tgt.toNat, 114)])
  | .microEnd => some (word 0xA0000000000000000000000000000000 [])
  | .scale val src => some (word 0xB0000000000000000000000000000000 [(val.toNat, 96), (src.toNat, 94)])
  | .wit => some (word 0xC0000000000000000000000000000000 [])
  | .sync val src => some (word 0xD0000000000000000000000000000000 [(val.toNat, 96), (src.toNat, 94)])
  | _ => none

/-- The slot an instruction stands in; `none` for micro-operations and events. -/
def Instr.slot? : Instr → Option Slot
  | .add .. => some .s
  | .sub .. => some .s
  | .mul .. => some .s
  | .mulh .. => some .s
  | .mulhn .. => some .s
  | .div .. => some .s
  | .divn .. => some .s
  | .rem .. => some .s
  | .remn .. => some .s
  | .and .. => some .s
  | .or .. => some .s
  | .xor .. => some .s
  | .shl .. => some .s
  | .shr .. => some .s
  | .sra .. => some .s
  | .rot .. => some .s
  | .min .. => some .s
  | .max .. => some .s
  | .minn .. => some .s
  | .maxn .. => some .s
  | .sel .. => some .s
  | .add128 .. => some .s
  | .addi .. => some .s
  | .andi .. => some .s
  | .ori .. => some .s
  | .xori .. => some .s
  | .shli .. => some .s
  | .shri .. => some .s
  | .srai .. => some .s
  | .li .. => some .s
  | .lih .. => some .s
  | .muli .. => some .s
  | .clz .. => some .s
  | .ctz .. => some .s
  | .popc .. => some .s
  | .bint3 .. => some .s
  | .bdint3 .. => some .s
  | .bint2 .. => some .s
  | .bdint2 .. => some .s
  | .brev .. => some .s
  | .sext .. => some .s
  | .zext .. => some .s
  | .cmpEq .. => some .s
  | .cmpNe .. => some .s
  | .cmpLt .. => some .s
  | .cmpLtn .. => some .s
  | .cmpLe .. => some .s
  | .cmpLen .. => some .s
  | .cmpiEq .. => some .s
  | .cmpiLt .. => some .s
  | .gand .. => some .s
  | .gor .. => some .s
  | .gnot .. => some .s
  | .br .. => some .s
  | .brs .. => some .s
  | .call .. => some .s
  | .ret .. => some .s
  | .loop .. => some .s
  | .loopi .. => some .s
  | .lexit .. => some .s
  | .brb .. => some .s
  | .halt .. => some .s
  | .yield .. => some .s
  | .rdid .. => some .s
  | .rdsys .. => some .s
  | .wrsys .. => some .s
  | .sys .. => some .s
  | .trapi .. => some .s
  | .eret .. => some .s
  | .ifence .. => some .s
  | .evpop .. => some .s
  | .rdtime .. => some .s
  | .rdcyc .. => some .s
  | .setest .. => some .s
  | .flagsRd .. => some .s
  | .flagsClr .. => some .s
  | .wfe .. => some .s
  | .movGs .. => some .s
  | .movSg .. => some .s
  | .movSv .. => some .s
  | .movSx .. => some .s
  | .movSq .. => some .s
  | .movSd .. => some .s
  | .fadd u _ _ _ _ _ _ => some (.v u)
  | .fsub u _ _ _ _ _ _ => some (.v u)
  | .fmul u _ _ _ _ _ _ => some (.v u)
  | .fmin u _ _ _ _ _ _ => some (.v u)
  | .fmax u _ _ _ _ _ _ => some (.v u)
  | .fdiv u _ _ _ _ _ _ => some (.v u)
  | .fscale u _ _ _ _ _ _ => some (.v u)
  | .fma u _ _ _ _ _ _ _ => some (.v u)
  | .fms u _ _ _ _ _ _ _ => some (.v u)
  | .fnma u _ _ _ _ _ _ _ => some (.v u)
  | .fabs u _ _ _ _ _ => some (.v u)
  | .fneg u _ _ _ _ _ => some (.v u)
  | .fsqrt u _ _ _ _ _ => some (.v u)
  | .frcp u _ _ _ _ _ => some (.v u)
  | .frsq u _ _ _ _ _ => some (.v u)
  | .fexp2 u _ _ _ _ _ => some (.v u)
  | .flog2 u _ _ _ _ _ => some (.v u)
  | .fcvt u _ _ _ _ _ _ _ => some (.v u)
  | .fround u _ _ _ _ _ _ _ _ => some (.v u)
  | .fclass u _ _ _ _ _ _ _ => some (.v u)
  | .fcmp u _ _ _ _ _ _ _ => some (.v u)
  | .fredAdd u _ _ _ _ _ => some (.v u)
  | .fredMax u _ _ _ _ _ => some (.v u)
  | .fredMin u _ _ _ _ _ => some (.v u)
  | .bscale u _ _ _ _ _ _ => some (.v u)
  | .iadd u _ _ _ _ _ _ => some (.v u)
  | .isub u _ _ _ _ _ _ => some (.v u)
  | .imul u _ _ _ _ _ _ => some (.v u)
  | .imulh u _ _ _ _ _ _ => some (.v u)
  | .iand u _ _ _ _ _ _ => some (.v u)
  | .ior u _ _ _ _ _ _ => some (.v u)
  | .ixor u _ _ _ _ _ _ => some (.v u)
  | .ishl u _ _ _ _ _ _ => some (.v u)
  | .ishr u _ _ _ _ _ _ => some (.v u)
  | .isra u _ _ _ _ _ _ => some (.v u)
  | .imin u _ _ _ _ _ _ => some (.v u)
  | .imax u _ _ _ _ _ _ => some (.v u)
  | .iadds u _ _ _ _ _ _ => some (.v u)
  | .isubs u _ _ _ _ _ _ => some (.v u)
  | .iabs u _ _ _ _ _ => some (.v u)
  | .iclz u _ _ _ _ _ => some (.v u)
  | .ipopc u _ _ _ _ _ => some (.v u)
  | .ibint3 u _ _ _ _ _ => some (.v u)
  | .icmp u _ _ _ _ _ _ _ => some (.v u)
  | .iredAdd u _ _ _ _ _ => some (.v u)
  | .iadd128 u _ _ _ _ _ _ => some (.v u)
  | .icvt u _ _ _ _ _ _ _ _ => some (.v u)
  | .vsel u _ _ _ _ _ _ => some (.v u)
  | .vperm u _ _ _ _ _ _ => some (.v u)
  | .vzip u _ _ _ _ _ _ _ => some (.v u)
  | .vunzip u _ _ _ _ _ _ _ => some (.v u)
  | .vrev u _ _ _ _ _ => some (.v u)
  | .vcompress u _ _ _ _ _ => some (.v u)
  | .vexpand u _ _ _ _ _ => some (.v u)
  | .vbcast u _ _ _ _ _ _ => some (.v u)
  | .vslide u _ _ _ _ _ _ => some (.v u)
  | .viota u _ _ _ _ _ => some (.v u)
  | .vmovi u _ _ _ _ _ => some (.v u)
  | .mand u _ _ _ _ => some (.v u)
  | .mor u _ _ _ _ => some (.v u)
  | .mxor u _ _ _ _ => some (.v u)
  | .mnot u _ _ _ => some (.v u)
  | .mpopc u _ _ _ _ _ => some (.v u)
  | .mfirst u _ _ _ _ _ => some (.v u)
  | .vrng u _ _ _ _ _ _ => some (.v u)
  | .vrngF u _ _ _ _ _ => some (.v u)
  | .movVs u _ _ _ _ => some (.v u)
  | .movMg u _ _ _ _ => some (.v u)
  | .movVx u _ _ _ _ => some (.v u)
  | .mcall .. => some .m
  | .mparami .. => some .m
  | .mzero .. => some .m
  | .mdrainV .. => some .m
  | .mdrainP .. => some .m
  | .mwait .. => some .m
  | .mucodeLd .. => some .m
  | .mwit .. => some .m
  | .mflush .. => some .m
  | .mstat .. => some .m
  | .ldS .. => some .ld
  | .ldV .. => some .ld
  | .ldVs .. => some .ld
  | .ldVg .. => some .ld
  | .ldM .. => some .ld
  | .ldhS .. => some .ld
  | .ldhV .. => some .ld
  | .vfill .. => some .ld
  | .translate .. => some .ld
  | .hdrop .. => some .ld
  | .recv .. => some .ld
  | .movXs .. => some .ld
  | .ldQ .. => some .ld
  | .xadd inSt _ _ _ _ => some (if inSt then .st else .ld)
  | .xaddi inSt _ _ _ _ => some (if inSt then .st else .ld)
  | .xli inSt _ _ _ => some (if inSt then .st else .ld)
  | .xsub inSt _ _ _ _ => some (if inSt then .st else .ld)
  | .stS .. => some .st
  | .stV .. => some .st
  | .stVs .. => some .st
  | .stVx .. => some .st
  | .stM .. => some .st
  | .sthS .. => some .st
  | .sthV .. => some .st
  | .vspill .. => some .st
  | .send .. => some .st
  | .amoP .. => some .st
  | .amoH .. => some .st
  | .sigw .. => some .st
  | .feed .. => some .cp
  | .lcopy .. => some .cp
  | .bulkSet .. => some .cp
  | .bulkGo .. => some .cp
  | .bulkCancel .. => some .cp
  | .winOpen .. => some .cp
  | .winAdv .. => some .cp
  | .winClose .. => some .cp
  | .ifetch .. => some .cp
  | .crcRd .. => some .cp
  | .barArr .. => some .sy
  | .barWait .. => some .sy
  | .wait .. => some .sy
  | .drain .. => some .sy
  | .pbar .. => some .sy
  | .tsync .. => some .sy
  | .yadd .. => some .sy
  | .ysub .. => some .sy
  | .yand .. => some .sy
  | .yxor .. => some .sy
  | .ycmp .. => some .sy
  | .chkY .. => some .sy
  | .chkV .. => some .sy
  | .chkS .. => some .sy
  | _ => none

/-- The word of an instruction: its opcode and its fields at their places, every other bit zero. `none` for an
event, which has no encoding. -/
def encode (i : Instr) : Option Nat :=
  match i.slot? with
  | some .s => encS i
  | some (.v _) => encV i
  | some .m => encM i
  | some .ld => encLd i
  | some .st => encSt i
  | some .cp => encCp i
  | some .sy => encSy i
  | none => encMicro i

/-- The guard field of a slot operation (R43); 0 for what has none. -/
def Instr.guard : Instr → BitVec 4
  | .add g _ _ _ => g
  | .sub g _ _ _ => g
  | .mul g _ _ _ => g
  | .mulh g _ _ _ => g
  | .mulhn g _ _ _ => g
  | .div g _ _ _ => g
  | .divn g _ _ _ => g
  | .rem g _ _ _ => g
  | .remn g _ _ _ => g
  | .and g _ _ _ => g
  | .or g _ _ _ => g
  | .xor g _ _ _ => g
  | .shl g _ _ _ => g
  | .shr g _ _ _ => g
  | .sra g _ _ _ => g
  | .rot g _ _ _ => g
  | .min g _ _ _ => g
  | .max g _ _ _ => g
  | .minn g _ _ _ => g
  | .maxn g _ _ _ => g
  | .sel g _ _ _ _ _ => g
  | .add128 g _ _ _ => g
  | .addi g _ _ _ => g
  | .andi g _ _ _ => g
  | .ori g _ _ _ => g
  | .xori g _ _ _ => g
  | .shli g _ _ _ => g
  | .shri g _ _ _ => g
  | .srai g _ _ _ => g
  | .li g _ _ => g
  | .lih g _ _ => g
  | .muli g _ _ _ => g
  | .clz g _ _ => g
  | .ctz g _ _ => g
  | .popc g _ _ => g
  | .bint3 g _ _ => g
  | .bdint3 g _ _ => g
  | .bint2 g _ _ => g
  | .bdint2 g _ _ => g
  | .brev g _ _ => g
  | .sext g _ _ _ => g
  | .zext g _ _ _ => g
  | .cmpEq g _ _ _ => g
  | .cmpNe g _ _ _ => g
  | .cmpLt g _ _ _ => g
  | .cmpLtn g _ _ _ => g
  | .cmpLe g _ _ _ => g
  | .cmpLen g _ _ _ => g
  | .cmpiEq g _ _ _ => g
  | .cmpiLt g _ _ _ => g
  | .gand g _ _ _ => g
  | .gor g _ _ _ => g
  | .gnot g _ _ => g
  | .br g _ => g
  | .brs g _ _ => g
  | .call g _ _ => g
  | .ret g _ => g
  | .loop g _ _ _ _ => g
  | .loopi g _ _ _ _ => g
  | .lexit g _ => g
  | .brb g _ _ => g
  | .halt g => g
  | .yield g => g
  | .rdid g _ _ => g
  | .rdsys g _ _ => g
  | .wrsys g _ _ => g
  | .sys g _ => g
  | .trapi g _ => g
  | .eret g => g
  | .ifence g => g
  | .evpop g _ => g
  | .rdtime g _ => g
  | .rdcyc g _ => g
  | .setest g _ _ => g
  | .flagsRd g _ => g
  | .flagsClr g _ => g
  | .wfe g _ => g
  | .movGs g _ _ => g
  | .movSg g _ _ => g
  | .movSv g _ _ _ => g
  | .movSx g _ _ => g
  | .movSq g _ _ => g
  | .movSd g _ _ => g
  | .fadd _ g _ _ _ _ _ => g
  | .fsub _ g _ _ _ _ _ => g
  | .fmul _ g _ _ _ _ _ => g
  | .fmin _ g _ _ _ _ _ => g
  | .fmax _ g _ _ _ _ _ => g
  | .fdiv _ g _ _ _ _ _ => g
  | .fscale _ g _ _ _ _ _ => g
  | .fma _ g _ _ _ _ _ _ => g
  | .fms _ g _ _ _ _ _ _ => g
  | .fnma _ g _ _ _ _ _ _ => g
  | .fabs _ g _ _ _ _ => g
  | .fneg _ g _ _ _ _ => g
  | .fsqrt _ g _ _ _ _ => g
  | .frcp _ g _ _ _ _ => g
  | .frsq _ g _ _ _ _ => g
  | .fexp2 _ g _ _ _ _ => g
  | .flog2 _ g _ _ _ _ => g
  | .fcvt _ g _ _ _ _ _ _ => g
  | .fround _ g _ _ _ _ _ _ _ => g
  | .fclass _ g _ _ _ _ _ _ => g
  | .fcmp _ g _ _ _ _ _ _ => g
  | .fredAdd _ g _ _ _ _ => g
  | .fredMax _ g _ _ _ _ => g
  | .fredMin _ g _ _ _ _ => g
  | .bscale _ g _ _ _ _ _ => g
  | .iadd _ g _ _ _ _ _ => g
  | .isub _ g _ _ _ _ _ => g
  | .imul _ g _ _ _ _ _ => g
  | .imulh _ g _ _ _ _ _ => g
  | .iand _ g _ _ _ _ _ => g
  | .ior _ g _ _ _ _ _ => g
  | .ixor _ g _ _ _ _ _ => g
  | .ishl _ g _ _ _ _ _ => g
  | .ishr _ g _ _ _ _ _ => g
  | .isra _ g _ _ _ _ _ => g
  | .imin _ g _ _ _ _ _ => g
  | .imax _ g _ _ _ _ _ => g
  | .iadds _ g _ _ _ _ _ => g
  | .isubs _ g _ _ _ _ _ => g
  | .iabs _ g _ _ _ _ => g
  | .iclz _ g _ _ _ _ => g
  | .ipopc _ g _ _ _ _ => g
  | .ibint3 _ g _ _ _ _ => g
  | .icmp _ g _ _ _ _ _ _ => g
  | .iredAdd _ g _ _ _ _ => g
  | .iadd128 _ g _ _ _ _ _ => g
  | .icvt _ g _ _ _ _ _ _ _ => g
  | .vsel _ g _ _ _ _ _ => g
  | .vperm _ g _ _ _ _ _ => g
  | .vzip _ g _ _ _ _ _ _ => g
  | .vunzip _ g _ _ _ _ _ _ => g
  | .vrev _ g _ _ _ _ => g
  | .vcompress _ g _ _ _ _ => g
  | .vexpand _ g _ _ _ _ => g
  | .vbcast _ g _ _ _ _ _ => g
  | .vslide _ g _ _ _ _ _ => g
  | .viota _ g _ _ _ _ => g
  | .vmovi _ g _ _ _ _ => g
  | .mand _ g _ _ _ => g
  | .mor _ g _ _ _ => g
  | .mxor _ g _ _ _ => g
  | .mnot _ g _ _ => g
  | .mpopc _ g _ _ _ _ => g
  | .mfirst _ g _ _ _ _ => g
  | .vrng _ g _ _ _ _ _ => g
  | .vrngF _ g _ _ _ _ => g
  | .movVs _ g _ _ _ => g
  | .movMg _ g _ _ _ => g
  | .movVx _ g _ _ _ => g
  | .mcall g _ _ _ => g
  | .mparami g _ _ => g
  | .mzero g _ _ => g
  | .mdrainV g _ _ _ _ => g
  | .mdrainP g _ _ _ _ _ _ _ => g
  | .mwait g _ => g
  | .mucodeLd g _ _ _ => g
  | .mwit g _ => g
  | .mflush g => g
  | .mstat g _ _ => g
  | .ldS g _ _ _ _ _ => g
  | .ldV g _ _ _ _ _ => g
  | .ldVs g _ _ _ _ _ => g
  | .ldVg g _ _ _ _ _ => g
  | .ldM g _ _ _ => g
  | .ldhS g _ _ _ _ _ _ => g
  | .ldhV g _ _ _ _ _ _ => g
  | .vfill g _ _ _ => g
  | .translate g _ _ _ => g
  | .hdrop g _ => g
  | .recv g _ _ _ _ _ => g
  | .movXs g _ _ => g
  | .ldQ g _ _ _ _ _ _ => g
  | .xadd _ g _ _ _ => g
  | .xaddi _ g _ _ _ => g
  | .xli _ g _ _ => g
  | .xsub _ g _ _ _ => g
  | .stS g _ _ _ _ _ _ => g
  | .stV g _ _ _ _ _ _ _ => g
  | .stVs g _ _ _ _ _ _ _ => g
  | .stVx g _ _ _ _ _ _ _ => g
  | .stM g _ _ _ => g
  | .sthS g _ _ _ _ _ _ _ => g
  | .sthV g _ _ _ _ _ _ _ _ => g
  | .vspill g _ _ _ => g
  | .send g _ _ _ _ _ => g
  | .amoP g _ _ _ _ _ _ => g
  | .amoH g _ _ _ _ _ _ _ => g
  | .sigw g _ _ _ _ => g
  | .feed g _ _ _ _ _ _ _ => g
  | .lcopy g _ _ _ => g
  | .bulkSet g _ _ _ => g
  | .bulkGo g _ _ => g
  | .bulkCancel g _ _ => g
  | .winOpen g _ _ _ _ _ _ => g
  | .winAdv g _ _ _ => g
  | .winClose g _ _ => g
  | .ifetch g _ _ _ => g
  | .crcRd g _ _ _ => g
  | .barArr g _ _ _ => g
  | .barWait g _ _ => g
  | .wait g _ _ => g
  | .drain g => g
  | .pbar g => g
  | .tsync g _ => g
  | .yadd g _ _ _ _ _ => g
  | .ysub g _ _ _ _ _ => g
  | .yand g _ _ _ _ _ => g
  | .yxor g _ _ _ _ _ => g
  | .ycmp g _ _ _ _ _ _ => g
  | .chkY g _ _ => g
  | .chkV g _ _ _ => g
  | .chkS g _ _ => g
  | _ => 0

/-- The instruction whose fields a slot word holds, by the slot's opcode map. -/
def readSlot (k : Slot) (w : Nat) : Option Instr :=
  match k with
  | .s => readS w
  | .v u => readV u w
  | .m => readM w
  | .ld => readLd w
  | .st => readSt w
  | .cp => readCp w
  | .sy => readSy w

/-- Bit where a slot word's opcode begins (R43). -/
def opLo : Slot → Nat
  | .sy => 26
  | _ => 56

/-- R52 for one present slot word: all zero is a no-operation (`ok none`); opcode 0 with any other bit is illegal; an
unassigned opcode is undefined; a bit outside the instruction's fields or a field outside its limits is illegal; a bank
conflict is told apart. -/
def decodeSlot (k : Slot) (w : Nat) : Except DecodeErr (Option Instr) :=
  if w == 0 then .ok none
  else if w / 2 ^ opLo k == 0 then .error .illegal
  else
    match readSlot k w with
    | none => .error .undefinedOpcode
    | some i =>
      if encode i != some w || !i.fieldsOk then .error .illegal
      else if !i.banksOk then .error .bankConflict
      else .ok (some i)

/-- R203, R206: a micro-word; `none` when it is malformed. -/
def decodeMicro (w : Nat) : Option Instr :=
  match readMicro w with
  | some i => if encode i == some w then some i else none
  | none => none

/-- R36: the header's fields. -/
def decodeHeader (w : Nat) : Header where
  scope := fb w 29 3
  safe := fld w 28 1 == 1
  switch := fld w 27 1 == 1
  gend := fld w 26 1 == 1
  present := fb w 16 8
  idle := fb w 0 16

/-- R37: what a header may not hold. -/
def headerOk (w : Nat) : Bool :=
  fld w 24 2 == 0 && fld w 29 3 != 7 && !(fld w 27 1 == 1 && fld w 28 1 == 0)

/-- The header word of given fields. -/
def encodeHeader (h : Header) : Nat :=
  h.scope.toNat * 2 ^ 29 + h.safe.toNat * 2 ^ 28 + h.switch.toNat * 2 ^ 27 + h.gend.toNat * 2 ^ 26
    + h.present.toNat * 2 ^ 16 + h.idle.toNat

/-- The slots in stored order with their bit of PRESENT (R35, R40). -/
def slotOrder : List (Slot × Nat) :=
  [(.s, 7), (.v .a, 6), (.v .b, 5), (.m, 4), (.ld, 3), (.st, 2), (.cp, 1), (.sy, 0)]

/-- The present slots of a header, in stored order. -/
def presentSlots (p : BitVec 8) : List Slot :=
  slotOrder.filterMap fun (k, b) => if p.getLsbD b then some k else none

/-- Size of a slot word in bytes (R40). -/
def slotBytes : Slot → Nat
  | .sy => 4
  | _ => 8

/-- Stored size of a bundle (R40). -/
def storedSize (p : BitVec 8) : Nat := 4 + ((presentSlots p).map slotBytes).sum

/-- A little-endian value of bytes (R5). -/
def leNat : List (BitVec 8) → Nat
  | [] => 0
  | b :: t => b.toNat + 256 * leNat t

/-- The `n` little-endian bytes of a value (R5). -/
def leBytes : Nat → Nat → List (BitVec 8)
  | 0, _ => []
  | n + 1, v => BitVec.ofNat 8 v :: leBytes n (v / 256)

/-- The present slot words read from the bytes after the header (R40). -/
def slotWords : List Slot → List (BitVec 8) → List (Slot × Nat)
  | [], _ => []
  | k :: ks, bs => (k, leNat (bs.take (slotBytes k))) :: slotWords ks (bs.drop (slotBytes k))

/-- A stored bundle as it is fetched: header word and present slot words. -/
structure RawBundle where
  header : Nat
  words : List (Slot × Nat)
deriving DecidableEq, Repr

/-- Reads a stored bundle from the bytes at its offset; `none` where they end too early (R40, R42). -/
def readBundle (bs : List (BitVec 8)) : Option RawBundle :=
  if bs.length < 4 then none
  else
    let hw := leNat (bs.take 4)
    let p := (decodeHeader hw).present
    if bs.length < storedSize p then none
    else some ⟨hw, slotWords (presentSlots p) (bs.drop 4)⟩

/-- The first instruction of a bundle whose header and every slot word pass the checks on their own fields. -/
def bundleInstr (r : RawBundle) : Option Instr :=
  if headerOk r.header then
    r.words.foldl (fun acc kw =>
      match acc, decodeSlot kw.1 kw.2 with
      | some i, _ => some i
      | none, .ok (some i) => some i
      | none, _ => none) none
  else none

/-- PRESENT with one slot (R35). -/
def presentOf : Slot → BitVec 8
  | .s => 0x80
  | .v .a => 0x40
  | .v .b => 0x20
  | .m => 0x10
  | .ld => 0x08
  | .st => 0x04
  | .cp => 0x02
  | .sy => 0x01

/-- The stored bytes of a bundle that holds one slot word and header fields otherwise zero (R40). -/
def oneSlotBytes (k : Slot) (w : Nat) : List (BitVec 8) :=
  leBytes 4 ((presentOf k).toNat * 2 ^ 16) ++ leBytes (slotBytes k) w

/-- The longest stored bundle in bits (R40). -/
def maxBundleBits : Nat := 512

/-- The instruction the decoder reads from a stored bundle whose bits are `w`: header first, little-endian, the bits above
`nbits` zero. The opcode table gives its rows no bits, so the numbering is that of the stored form (R40). -/
def decodeTableWord (nbits w : Nat) : Option Instr :=
  match readBundle (leBytes 64 (w % 2 ^ nbits)) with
  | some r => bundleInstr r
  | none => none

end Sys2Proof
end

