-- ==== Sys2Proof/Config.lean ====
section
/-! DEFINITION. What one package fixes and what the manual leaves open. Every opaque constant is a free value: nothing
in the model or in a proof can see which value it is. -/

namespace Sys2Proof.Config

/-! Undefined registers (R3, R49): the value read depends on the draw counter of State and on the register's number. -/

/-- An undefined scalar, parameter, descriptor or check register. -/
opaque freeWord (ctr reg : Nat) : BitVec 64

/-- An undefined vector register's value bits. -/
opaque freeVec (ctr reg : Nat) : BitVec 1024

/-- An undefined vector register's tail plane. -/
opaque freeTail (ctr reg : Nat) : BitVec 256

/-- An undefined mask. -/
opaque freeMask (ctr reg : Nat) : BitVec 128

/-- An undefined address register. -/
opaque freeAddr (ctr reg : Nat) : BitVec 32

/-- An undefined guard, and every other choice between two outcomes that the manual leaves open. -/
opaque freeBool (ctr reg : Nat) : Bool

/-- Nanoseconds of the time base that pass with a bundle (R149; no wall time is modelled). -/
opaque freeTick (ctr : Nat) : BitVec 64

/-- Wall cycles for which one offer of a bundle stalls (R339 core events 0x03 and 0x07; no wall time is modelled). -/
opaque wallCycles (ctr event : Nat) : Nat

/-- A byte of the durable media after a power loss whose drain was incomplete (R346). -/
opaque lostByte (draw addr : Nat) : BitVec 8

/-- A byte that another lode answers with (R446): the other lodes' memory is not part of the package. -/
opaque remoteByte (ctr addr : Nat) : BitVec 8

/-- Bytes of a checkpoint record by its tasks and windows (R405, R407): the manual gives its sections no layout. -/
opaque recordBytes (ctr tasks windows : Nat) : BitVec 32

/-- Byte `k` of a checkpoint record (R405): the manual gives its sections no layout. -/
opaque recordByte (ctr k : Nat) : BitVec 8

/-- Bytes of a fossil's body (R401), and its byte `k`: the manual does not lay the streamed state out. -/
opaque bodyBytes (ctr : Nat) : Nat

/-- Byte `k` of a fossil's body. -/
opaque bodyByte (ctr k : Nat) : BitVec 8

/-- An error that comes upon a word of memory or a line of the durable tier, by its address: one that reads correct (`none`) or
one that they cannot, with its first failing symbol (R330, R349). When errors come is not given. -/
opaque upset (ctr : Nat) : Option (Nat × Option (BitVec 7))

/-- An error that comes upon a unit of a core's scratchpad, and whether it is uncorrectable (R235). -/
opaque spadUpset (ctr : Nat) : Option (Nat × Nat × Bool)

/-- A ring message whose parity fails on its way (R337). -/
opaque ringUpset (ctr : Nat) : Bool

/-! Fuses (R15, R18, R20, R401, R439, R441). -/

/-- The order in which the fuses of a die list its 22 slots, as the number of a permutation: its logical geodes' slots by number,
then the other two. -/
opaque fuseOrder (die : Nat) : Nat

/-- A slot of a die that failed its manufacturing test, of those that the fuses assign to no geode. -/
opaque slotFailed (die slot : Nat) : Bool

/-- Tile revision of a physical slot. -/
opaque slotTrev (die slot : Nat) : BitVec 4

/-- Layout hash of a physical slot. -/
opaque slotLhash (die slot : Nat) : BitVec 64

/-- The permutation of a list that a number stands for. -/
def unrank : Nat → Nat → List Nat → List Nat
  | 0, _, _ => []
  | k + 1, c, l => l.getD (c % (k + 1)) 0 :: unrank k (c / (k + 1)) (l.eraseIdx (c % (k + 1)))

/-- The 22 slots of a die, those of its 20 logical geodes first. -/
def fuseSlots (die : Nat) : List Nat := unrank 22 (fuseOrder die) (List.range 22)

/-- R15: a slot of a die that is fused out: it failed its manufacturing test. The fuses assign healthy slots alone. -/
def fusedOut (die slot : Nat) : Bool := !((fuseSlots die).take 20).contains slot && slotFailed die slot

/-- Physical slot that the fuses assign to logical geode `n`. -/
def fuseSlot (n : Nat) : Nat := (fuseSlots (n / 20)).getD (n % 20) 0

/-- R20: unused spare slots at reset: the slots that hold no geode and are not fused out. -/
def fuseSpares : Nat :=
  (((fuseSlots 0).drop 20).filter fun k => !fusedOut 0 k).length + (((fuseSlots 1).drop 20).filter fun k => !fusedOut 1 k).length

/-- Silicon stepping. -/
opaque fuseStep : BitVec 8

/-- Security version numbers for KIND 1, 2, 3. -/
opaque fuseSvn : BitVec 48

/-- What firmware writes to device registers at a step of the bring-up (R456, R465), by address: firmware's own behaviour. -/
opaque bootWrites (ctr step : Nat) : List (Nat × BitVec 64)

/-- The manifest that firmware loads at step 6 of the bring-up, with the digest that MEAS2 receives (R436, R439, R456), if any. -/
opaque bootManifest (ctr : Nat) : Option (List (BitVec 384) × BitVec 384)

/-- R429: the word of the instruction store at which preubld begins a Preub kernel's code. -/
opaque preubBase : BitVec 13

/-- R429: the words by which the code of word `k` of a Preub kernel is longer than one (log entry 41). -/
opaque preubGap (k : Nat) : BitVec 7

/-- R429: the place, in words, that preubld gives word `k` of a Preub kernel: one behind another, so that each has its own (log entry 41). -/
def preubPlace : Nat → Nat
  | 0 => preubBase.toNat
  | k + 1 => preubPlace k + 1 + (preubGap k).toNat

/-- R429: what AUIPC leaves when its sum names no group start of the kernel; the spec gives no value (log entry 41). -/
opaque preubAuipc (off : Nat) : BitVec 64

/-- What the hold-up record says at power-up (LASTLOSS, R345): one of the values 0, 1 and 2, modulo 3. -/
opaque holdupRecord : BitVec 2

/-- The two signatures of an envelope verify under the fused keys (R437): the keys are not given. -/
opaque signaturesVerify (header rsa slh : List (BitVec 8)) : Bool

/-- Byte `k` of the two signatures made with the package's identity keys (R440): the keys are not given. -/
opaque identityByte (report : List (BitVec 8)) (k : Nat) : BitVec 8

/-- The digest of the firmware image that a slot, A (`false`) or B, is delivered with, as MEAS0 receives it (R439). -/
opaque factoryDigest (slot : Bool) : BitVec 384

/-- R437, R438: the boot ROM verifies the signatures of the firmware image that a slot, A (`false`) or B, is delivered with: the keys are
not given. -/
opaque factoryVerifies (slot : Bool) : Bool

/-- The security version number of the firmware image that a slot is delivered with (R437). -/
opaque factorySvn (slot : Bool) : BitVec 16

/-- The digest of the firmware's configuration, as MEAS1 receives it (R439): no rule lays its bytes out. -/
opaque configurationDigest (ctr : Nat) : BitVec 384

/-- The PASID that firmware assigns to a PCIe requester (R454), if any: the manual gives no register for it. -/
opaque requesterPasid (requester : BitVec 16) : Option (BitVec 20)

/-- R29, R30: requests that the path from a core's stop to its lode's memory (0), durable tier (1) or device registers (2) holds in its
skid buffers; no rule states the depth. -/
opaque pathDepth (path : Nat) : Nat

/-- The port that a request to a line of a lode is hashed to, as an index into the ports that are up (R448). -/
opaque portHash (lode lineBits up : Nat) : Nat

/-- The word that the regulator of a geode shows after a frequency step (R410): the fused voltage curve. -/
opaque voltageOf (code : Nat) : BitVec 10

/-- Which physical rows of a core's matrix array are faulty in a witnessed pass (R210): physical faults are not given. -/
opaque witnessDiffers (core pass row : Nat) : Bool

/-- The symbol at which an error of a word is first found (R334). -/
opaque failingSymbol (ctr : Nat) : BitVec 7

/-! Sizes of the package (R13, R21, R113, R180). -/

/-- Logical geodes. -/
abbrev geodes : Nat := 40

/-- Cores of a geode. -/
abbrev coresPerGeode : Nat := 16

/-- Bytes of an instruction bank. -/
abbrev bankBytes : Nat := 32768

/-- Bytes of a scratchpad. -/
abbrev spadBytes : Nat := 1048576

/-- Entries of the durable write queue. -/
abbrev durableEntries : Nat := 65536

end Sys2Proof.Config
end

