-- ==== Sys2Proof/Machine/State.lean ====
section
/-! DEFINITION. The state of the package as plain data, the reasons a step can stop, and the state at reset. -/

namespace Sys2Proof.Machine

/-- A sparse table: the listed keys have the listed values, every other key the default its reader names. -/
abbrev Tbl (α : Type) := List (Nat × α)

/-- Bytes by address, in canonical form: addresses strictly rising, no byte equal to 0, which is what an unlisted
address reads as (R217, R346; log entries 4 and 5). -/
abbrev Memory := List Host.Cell

/-- A vector register: value bits and tail plane (R101). -/
structure VReg where
  val : BitVec 1024 := 0
  tail : BitVec 256 := 0
deriving DecidableEq, Repr, Inhabited

/-- An accumulator entry (R181). -/
structure AccEntry where
  val : BitVec 32 := 0
  tail : BitVec 2 := 0
deriving DecidableEq, Repr, Inhabited

/-- A handle (R308). -/
structure Handle where
  valid : Bool := false
  pend : Bool := false
  pin : Bool := false
  sys : Bool := false
  r : Bool := false
  w : Bool := false
  tol : Bool := false
  tpol : Bool := false
  psize : BitVec 2 := 0
  rem : Bool := false
  dev : Bool := false
  fcode : BitVec 4 := 8
  frame : BitVec 32 := 0
  lode : BitVec 16 := 0
  va : BitVec 57 := 0
deriving DecidableEq, Repr, Inhabited

/-- The name of a register; vector registers by their physical number in the core (R98, R110). -/
inductive RegId where
  | s (n : Nat)
  | g (n : Nat)
  | v (n : Nat)
  | m (n : Nat)
  | x (n : Nat)
  | h (n : Nat)
  | q (n : Nat)
  | d (n : Nat)
  | y (n : Nat)
deriving DecidableEq, Repr

/-- A write of one register. -/
inductive RegWrite where
  | s (n : Nat) (v : BitVec 64)
  | g (n : Nat) (v : Bool)
  | v (n : Nat) (v : VReg)
  | m (n : Nat) (v : BitVec 128)
  | x (n : Nat) (v : BitVec 32)
  | h (n : Nat) (v : Handle)
  | q (n : Nat) (v : BitVec 64)
  | d (n : Nat) (v : BitVec 64)
  | y (n : Nat) (v : BitVec 64)
deriving DecidableEq, Repr

/-- A result in flight (R49, R50): what it writes, the flags it raises, the logical cycles of its issue and of its bound,
whether a younger write of its register has been issued, the outstanding access that supplies it (0 when the value is present), and whether
it lands with a failing parity check. -/
structure Landing where
  write : RegWrite
  flags : BitVec 6 := 0
  born : Nat
  due : Nat
  stale : Bool := false
  access : Nat := 0
  poison : Bool := false
deriving DecidableEq, Repr

/-- An entry of the loop stack (R135, R144). -/
structure LoopEntry where
  start : Nat := 0
  bank : Bool := false
  stop : Nat := 0
  count : BitVec 64 := 0
  rot : Bool := false
  stages : BitVec 2 := 0
deriving DecidableEq, Repr, Inhabited

/-- The trap causes (R382), in the order of their codes 1 to 14. -/
inductive TrapCause where
  | illegalEncoding
  | undefinedOpcode
  | privileged
  | outsideAllotment
  | nonUniform
  | timingMismatch
  | handleFault
  | poisonedOperand
  | checkMismatch
  | witnessMismatch
  | loopOverflow
  | watchdog
  | trapi
  | sys
deriving DecidableEq, Repr

/-- What TCAUSE and TINFO record of a trap (R389). -/
structure TrapInfo where
  cause : TrapCause
  detail : BitVec 5 := 0
  fmask : BitVec 8 := 0
  fslot : BitVec 3 := 0
  hnum : BitVec 5 := 0
  fcode : BitVec 4 := 0
  info : BitVec 64 := 0
deriving DecidableEq, Repr

/-- The bundle in issue: its place and size, the header fields that its operations read, the taken transfer, whether it
holds a loop instruction, the trap that follows its commit (`sys`, `trapi`), whether it halts, yields, parks or returns,
the system register it writes, whether its switch point has been taken (R414), and whether its checks and holds have passed
(log entry 9). -/
structure Latch where
  pc : Nat := 0
  size : Nat := 0
  idle : Nat := 0
  scope : BitVec 3 := 0
  gend : Bool := false
  target : Option (Bool × Nat) := none
  isLoop : Bool := false
  after : Option TrapInfo := none
  halted : Bool := false
  yielded : Bool := false
  parked : Bool := false
  returned : Bool := false
  sysWrite : Option (Nat × BitVec 64) := none
  switched : Bool := false
  passed : Bool := false
deriving DecidableEq, Repr, Inhabited

/-- A byte of a FIFO share or of a staged tile, with its poison (R182). -/
structure FByte where
  b : BitVec 8
  poison : Bool := false
deriving DecidableEq, Repr

/-- What a matrix item does (R194). -/
inductive ItemKind where
  | call (ix : Nat) (imm : BitVec 34)
  | zero (col : Nat)
  | drain (mode : BitVec 3) (fmt : BitVec 5) (col row rows : Nat) (z : Bool)
  | ucode (ix words off : Nat)
  | witness (on : Bool)
  | flush
  | stat (clear : Bool) (off : Nat)
deriving DecidableEq, Repr

/-- A queued matrix item with its snapshot (R186, R190); `place` is its place in the completion order and `lock` the
bank lock it holds (R267), 0 for none. -/
structure Item where
  kind : ItemKind
  q : List (BitVec 64) := []
  n : Nat := 0
  handler : Bool := false
  place : Nat := 0
  lock : Nat := 0
deriving DecidableEq, Repr

/-- A completed item that no covering bundle has covered (R192). -/
structure ItemDone where
  flags : BitVec 6 := 0
  err : Option TrapCause := none
  handler : Bool := false
deriving DecidableEq, Repr

/-- An operation of a facet's completion order (R250): its record's fields (R251), the wait classes that count it (R272),
the bytes its CRC folds, whether its own work is done, and whether it is complete and waits for room for its record. -/
structure OrderEntry where
  id : Nat
  kind : BitVec 8
  tag : BitVec 16 := 0
  unit : BitVec 4 := 0
  classes : List Nat := []
  norec : Bool := false
  crcen : Bool := false
  acc : Nat := 0
  reset : Bool := false
  data : List (BitVec 8) := []
  count : Nat := 0
  status : BitVec 8 := 0
  done : Bool := false
  complete : Bool := false
deriving DecidableEq, Repr

/-- A CRC accumulator (R255): its value and the bytes folded. -/
structure CrcAcc where
  val : BitVec 32 := 0
  count : Nat := 0
deriving DecidableEq, Repr, Inhabited

/-- A request to another lode that a fabric port has accepted (R443, R445, R447, R448): the port, the lode, the 64-byte line that it
reaches there, the accelerator identifier and the address that it carries, its place among the requests accepted, and whether it has its
answer, when the port holds it no more. -/
structure PortReq where
  port : Nat
  lode : Nat
  line : Nat
  ident : BitVec 10
  addr : BitVec 57
  seq : Nat
  done : Bool := false
deriving DecidableEq, Repr

/-- A facet (R92, R95, R115, R136, R142, R148, R190, R239, R250, R368, R386, R388, R395): `framePorts` are the requests
for its frame on another lode (R384, R448), `frameFailed` says that one of them has failed (R450), and `origin` names, by launch and
task, the saved tasks that a resumed task goes on from (R306, R406). -/
structure Facet where
  resident : Bool := false
  launch : Nat := 0
  task : Nat := 0
  ntasks : Nat := 0
  ordinal : Nat := 0
  pasid : BitVec 20 := 0
  pc : Nat := 0
  bank : Bool := false
  clock : Nat := 0
  s : Tbl (BitVec 64) := []
  g : BitVec 8 := 0
  m : Tbl (BitVec 128) := []
  x : Tbl (BitVec 32) := []
  h : Tbl Handle := []
  q : Tbl (BitVec 64) := []
  d : Tbl (BitVec 64) := []
  y : Tbl (BitVec 64) := []
  vblocks : List Nat := []
  cblocks : List Nat := []
  rotBase : Nat := 0
  rotRegion : Option (Nat × Nat) := none
  lstk : Tbl LoopEntry := []
  lsDepth : Nat := 0
  flags : BitVec 6 := 0
  group : BitVec 64 := 0
  estSet : BitVec 64 := BitVec.allOnes 64
  estAt : BitVec 64 := 0
  estTable : Tbl (BitVec 40) := []
  landings : List Landing := []
  replay : List Landing := []
  wrote : List RegId := []
  progClock : Nat := 0
  tbase : BitVec 64 := 0
  tframe : BitVec 64 := 0
  tcause : BitVec 64 := 0
  tinfo : BitVec 64 := 0
  intrap : Bool := false
  parked : Bool := false
  frameOk : Bool := false
  framePage : Option Handle := none
  framePorts : List PortReq := []
  frameFailed : Bool := false
  origin : List (Nat × Nat) := []
  resumeAsked : Bool := false
  parkCode : BitVec 8 := 0
  replays : Nat := 0
  rbase : Option Nat := none
  ringMask : BitVec 16 := 0
  level : BitVec 3 := 0
  poison : List RegId := []
  items : List Item := []
  itemsDone : List ItemDone := []
  merr : List TrapCause := []
  sat : Bool := false
  wmis : Bool := false
  witOn : Bool := false
  passes : BitVec 32 := 0
  wrow : BitVec 7 := 0
  wphy : BitVec 7 := 0
  wcount : BitVec 32 := 0
  fifoA : List FByte := []
  fifoB : List FByte := []
  staging : Tbl (BitVec 64) := []
  crc : Tbl CrcAcc := []
  order : List OrderEntry := []
  ftgt : BitVec 6 := 63
  variant : BitVec 2 := 0
  ckRequested : Bool := false
  ckHeld : Bool := false
  pbar : Nat := 0
  tsyncMet : Bool := false
  metLevel : BitVec 3 := 0
  latch : Latch := {}
deriving DecidableEq, Repr, Inhabited


/-- A command of a feeder (R256, R260, R261), with its descriptors read at issue. -/
inductive EngineOp where
  | sp (addr : Nat) (pitch : Int) (rowBytes rows : Nat)
  | band (b h rel off rowBytes rows : Nat)
  | shale (va : Nat) (blocks : Nat) (ty : BitVec 5) (n : Nat)
  | lcopy (src dst rowBytes rows : Nat) (spitch dpitch : Int)
  | ifetch (src dst words : Nat) (bank : Bool)
deriving DecidableEq, Repr

/-- A queued feeder command: whose it is, its place in the completion order, the accesses its fork waits for (R293) and whether it
waits for their mirror writes (R305), the
rows or bytes it has read, the bytes expanded and not yet appended, whether its expansion is made, and its requests to other
lodes that fabric ports hold (R445). -/
structure EngineCmd where
  facet : Nat
  id : Nat
  op : EngineOp
  after : List Nat := []
  mir : Bool := false
  pos : Nat := 0
  buf : List FByte := []
  loaded : Bool := false
  ports : List PortReq := []
deriving DecidableEq, Repr

/-- An operation on a band (R259): the rows it fetches, how many have arrived, the accesses its fork waits for (`mir` with their
mirror writes, R305), and its requests to other lodes that fabric ports hold (R445). -/
structure BandOp where
  id : Nat
  first : Nat := 0
  rows : Nat := 0
  arrived : Nat := 0
  close : Bool := false
  after : List Nat := []
  mir : Bool := false
  ports : List PortReq := []
deriving DecidableEq, Repr

/-- A band (R258, R259). -/
structure Band where
  isOpen : Bool := false
  owner : Nat := 0
  v0 : Nat := 0
  ringOff : Nat := 0
  rowBytes : Nat := 0
  pitch : Nat := 0
  rrows : Nat := 0
  fill : Nat := 0
  h : Nat := 0
  t : Nat := 0
  next : Nat := 0
  ops : List BandOp := []
deriving DecidableEq, Repr, Inhabited

/-- A lock on banks of a core's scratchpad (R267), by the operation that holds it, and whether that has written a byte (R296). -/
structure Lock where
  id : Nat
  banks : BitVec 32
  started : Bool := false
deriving DecidableEq, Repr

/-- A record of the event queue and the facet it is addressed to (R251). -/
structure EventRec where
  facet : Nat
  w0 : BitVec 64
  w1 : BitVec 64
deriving DecidableEq, Repr

/-- A routine placed in the microprogram store (R183): the launch image it belongs to, its index and its words. -/
structure Routine where
  image : Nat
  index : Nat
  words : List (BitVec 128)
deriving DecidableEq, Repr

/-- A running invocation of a routine (R205 to R207). -/
structure Invocation where
  facet : Nat
  item : Item
  words : List (BitVec 128)
  pc : Nat := 0
  ctr0 : Option Nat := none
  ctr1 : Option Nat := none
  cb : Int := 0
  tileA : Option (List FByte) := none
  tileB : Option (List FByte) := none
  part : List FByte := []
  wit : Bool := false
  flags : BitVec 6 := 0
  ended : Bool := false
  err : Option TrapCause := none
deriving DecidableEq, Repr

/-- A segment placed in a core's instruction store (R434, R435): when its placement's reads were made, its image, whether its
segment handle carries the system bit, its place, and the launches that use the copy. -/
structure Segment where
  stamp : Nat
  image : Nat
  sys : Bool
  bank : Bool
  off : Nat
  len : Nat
  users : List Nat := []
deriving DecidableEq, Repr

/-- A core (R21, R97, R99, R113, R180, R215, R246, R374, R418); `spadFlaws` lists the units of its scratchpad with a single-bit error
that no read has found (R235), `idle` says that the facet that ran has stopped and the selector has yet to find one ready (R374), and
`arr` counts the array wall cycles that its passes take from its geode's current window on (R418). -/
structure Core where
  spad : Memory := []
  spadPoison : List Nat := []
  spadFlaws : List Nat := []
  ist : Memory := []
  istPoison : List Nat := []
  segs : List Segment := []
  vfile : Tbl VReg := []
  acc : Tbl AccEntry := []
  accPoison : List Nat := []
  routines : List Routine := []
  facets : Tbl Facet := []
  run : Nat := 3
  idle : Bool := false
  stalled : Bool := false
  quantum : Nat := 0
  evq : List EventRec := []
  feedA : List EngineCmd := []
  feedB : List EngineCmd := []
  feedL : List EngineCmd := []
  bands : Tbl Band := []
  locks : List Lock := []
  inv : Option Invocation := none
  lastItemFacet : Nat := 3
  witCount : Nat := 0
  arr : Nat := 0
deriving DecidableEq, Repr, Inhabited

/-- The leaf of a page walk (R314). -/
structure Leaf where
  psize : BitVec 2
  r : Bool
  w : Bool
  tol : Bool
  tpol : Bool
  pin : Bool
  rem : Bool
  dev : Bool
  frame : BitVec 32
  lode : BitVec 16
deriving DecidableEq, Repr

/-- An entry of a geode's translation cache (R317). -/
structure TLeaf where
  pasid : BitVec 20
  page : Nat
  leaf : Leaf
deriving DecidableEq, Repr

/-- A ring message (R238), in transit or buffered at its destination stop, and whether its parity fails (R337). -/
structure Msg where
  id : Nat
  launch : Nat
  src : Nat
  srcFacet : Nat
  dst : Nat
  dstFacet : Nat
  lane : BitVec 3
  dir : Bool
  stamp : BitVec 32
  val : VReg
  buffered : Bool := false
  poison : Bool := false
deriving DecidableEq, Repr

/-- A participant waiting in a `tsync` meeting (R240). -/
structure Participant where
  core : Nat
  facet : Nat
  launch : Nat
  mask : BitVec 16
deriving DecidableEq, Repr

/-- A geode (R238, R240, R317, R399, R412, R417, R418): `thermalLoss` is 7 less its thermal allowance, `warned` whether a
thermal warning stands, `activity` its last measured activity, `limited` whether the current limiter holds it, `changing` whether a
frequency change is under way (R410). -/
structure Geode where
  tcache : List TLeaf := []
  msgs : List Msg := []
  tsync : List Participant := []
  frozen : Bool := false
  thermalLoss : Nat := 0
  warned : Bool := false
  activity : Nat := 0
  limited : Bool := false
  changing : Bool := false
deriving DecidableEq, Repr, Inhabited

/-- The home of an access (R280). -/
inductive Home where
  | spad (core : Nat)
  | main
  | durable
  | device
  | remote (lode : BitVec 16)
deriving DecidableEq, Repr

/-- What a load does with the bytes it reads (R224 to R228, R103). -/
inductive LoadDst where
  | scalar (d n : Nat) (sx : Bool)
  | vector (phys : Nat) (w : Nat) (elems active : List Nat) (old : VReg)
  | mask (d : Nat)
  | image (phys : Nat)
  | widen (phys : Nat) (mf : BitVec 4) (t : BitVec 5) (active : List Nat) (old : VReg)
deriving DecidableEq, Repr

/-- A byte that a store writes: its address, its bits, and which of its bits it writes (a nibble for f4 and i4, R230). -/
structure ByteWrite where
  addr : Nat
  b : BitVec 8
  bits : BitVec 8 := 0xFF
deriving DecidableEq, Repr

/-- The work of an access at its home. -/
inductive AccessOp where
  | load (addrs : List Nat) (dst : LoadDst)
  | store (ws : List ByteWrite)
  | atomic (addr w : Nat) (op : BitVec 4) (t : BitVec 5) (mode : BitVec 3) (opd cmp : BitVec 64) (d : Nat)
  | arrive (addr inn out : Nat)
deriving DecidableEq, Repr

/-- An access that has left its core and not performed (R281, R284 to R289): the facet, the launch and the task it belongs to, the scope of its
bundle, its home, its work, the accesses it waits for (a release; `mir` with their mirror writes, R305), the tolerance of its page, the handle that
admitted it with its address space (R322), and its requests that fabric ports have accepted (R447, R448). -/
structure Access where
  id : Nat
  core : Nat
  facet : Nat
  launch : Nat
  task : Nat := 0
  scope : BitVec 3
  home : Home
  op : AccessOp
  after : List Nat := []
  mir : Bool := false
  tol : Bool := false
  tpol : Bool := false
  pasid : BitVec 20 := 0
  via : Option (BitVec 20 × Handle) := none
  ports : List PortReq := []
deriving DecidableEq, Repr

/-- An entry of the durable write queue (R342): a line's number, its 64 bytes, whether it is sealed, whether it carries poison (R349),
and whether a confirmed seal covers it (R343). -/
structure DurEntry where
  line : Nat
  data : List (BitVec 8)
  sealed : Bool := false
  poison : Bool := false
  confirmed : Bool := false
deriving DecidableEq, Repr

/-- A seal request (R343): the facet whose `pbar` made it, or the host (R344), and whether its entries are marked. -/
structure SealReq where
  host : Bool
  core : Nat := 0
  facet : Nat := 0
  launch : Nat := 0
  marked : Bool := false
deriving DecidableEq, Repr

/-- A bulk command (R262): the six words, the low 20 bits of its command word, who issued it and its place in that
facet's order; a host command has a PASID and NOTIFY (R266). -/
structure BulkCmd where
  words : List (BitVec 64)
  cm : BitVec 20
  host : Bool := false
  notify : Bool := false
  pasid : BitVec 20 := 0
  core : Nat := 0
  facet : Nat := 0
  launch : Nat := 0
  id : Nat := 0
  after : List Nat := []
  mir : Bool := false
deriving DecidableEq, Repr

/-- A bulk engine (R246, R263): its shadow set, its active command, whether its checks are made, the next row and the
bytes of it already moved, the bytes moved, the status so far, whether a cancel stops it, the countdowns still to be made,
its requests to other lodes that fabric ports hold (R445), and the commands that a cancel or a kill has ended whose countdowns
remain (R264, R265, R279). -/
structure Bulk where
  shadow : Option BulkCmd := none
  active : Option BulkCmd := none
  checked : Bool := false
  row : Nat := 0
  col : Nat := 0
  moved : Nat := 0
  data : List (BitVec 8) := []
  status : BitVec 8 := 0
  outDue : Bool := false
  inDue : Bool := false
  finished : Bool := false
  cancelled : Bool := false
  ports : List PortReq := []
  ended : List BulkCmd := []
deriving DecidableEq, Repr, Inhabited

/-- A kernel image as its header and tables declare it (R432, R433). -/
structure Kernel where
  facets : Nat := 1
  vregs : Nat := 96
  cols : Nat := 0
  scratch : Nat := 0
  rot : Option (Nat × Nat) := none
  occ : List (BitVec 8) := []
  entry : BitVec 64 := 0
  tbase : BitVec 64 := 0
  frames : BitVec 57 := 0
  switch : List (BitVec 8) := []
  pairs : List (BitVec 64 × BitVec 64) := []
  posmap : List (BitVec 64 × BitVec 64) := []
  est : Tbl (BitVec 40) := []
  routines : List (Nat × List (BitVec 128)) := []
  segs : List (BitVec 64 × BitVec 64) := []
  ckrec : BitVec 57 := 0
  undeclared : Bool := false
deriving DecidableEq, Repr, Inhabited

/-- A launch in progress (R366 to R371): its packet and kernel, the geodes still to be placed, the tasks whose completion
input is high, the STATUS bits gathered, its windows by core (physical pages in window order), the record it resumes from, whether a
checkpoint of it is asked for and by which slot, and the geodes on which it has asked for a drain (R397). -/
structure Launch where
  slot : Nat
  words : List (BitVec 64)
  pasid : BitVec 20
  kernel : Kernel
  image : Nat
  toPlace : List Nat
  ntasks : Nat
  done : List Nat := []
  status : BitVec 16 := 0
  windows : Tbl (List Nat) := []
  ckpt : Option Nat := none
  ckAsk : Bool := false
  ckBy : Nat := 0
  drains : List Nat := []
deriving DecidableEq, Repr

/-- A signal as its address translated at the packet's start (R362, R363): on another lode or here, its physical
address, its value, the tolerance of its page (R331), and its request that a fabric port holds (R445). -/
structure Signal where
  remote : Option (BitVec 16)
  pa : Nat
  val : BitVec 64
  tol : Bool := false
  tpol : Bool := false
  port : Option PortReq := none
deriving DecidableEq, Repr

/-- A hardware slot (R357, R358): the copies it took at MAP and the packet in progress; `finished` once that packet has
entered completion; `drainFor` lists, by geode, launch and task, the tasks that its drains wait for (R397). -/
structure QSlot where
  qaddr : BitVec 64 := 0
  prio : BitVec 3 := 0
  part : BitVec 3 := 0
  state : BitVec 2 := 0
  widx : BitVec 32 := 0
  ridx : BitVec 32 := 0
  log2 : Nat := 0
  base : Nat := 0
  pasid : BitVec 20 := 0
  cur : Option (List (BitVec 64)) := none
  sigs : List Signal := []
  launch : Nat := 0
  finished : Bool := false
  status : BitVec 16 := 0
  err : BitVec 4 := 0
  forceErr : Bool := false
  drainFor : List (Nat × Nat × Nat) := []
deriving DecidableEq, Repr, Inhabited

/-- An entry of an error log (R334). -/
structure LogEntry where
  w0 : BitVec 64
  w1 : BitVec 64
deriving DecidableEq, Repr

/-- Whose store a write of memory is: the access, and the launch and the task that made it, wherever that runs; no task's by default
(R305, R352). -/
structure Author where
  id : Nat := 0
  launch : Nat := 0
  task : Nat := 0
deriving DecidableEq, Repr, Inhabited

/-- A mirror write on its way to the partner (R351): its range, its word here and its address there, whose store made it (R305),
whether it belongs to the first copy of the range (R352), whether it is forwarded (one made while the range is broken is not, R352),
and its request that a fabric port holds (R445). -/
structure MirWrite where
  k : Nat
  word : Nat
  addr : Nat
  data : BitVec 256
  poison : Bool
  author : Author := {}
  sync : Bool := false
  fwd : Bool := true
  port : Option PortReq := none
deriving DecidableEq, Repr

/-- A repair on its way (R353): a word of an active mirrored range that a read has found uncorrectable, with the symbol, the report that
is made if the repair fails, and its read of the partner's word that a fabric port holds (R447, R448). -/
structure Repair where
  k : Nat
  word : Nat
  kind : Nat
  req : Nat
  sym : BitVec 7
  port : Option PortReq := none
deriving DecidableEq, Repr

/-- A PCIe request that reaches other lodes (R446, R454), and its requests that fabric ports hold (R445, R448). -/
structure PcieOut where
  req : PcieRequest
  ports : List PortReq := []
deriving DecidableEq, Repr

/-- An access from outside that waits with its sender (R279, R400): a host core's, or a telemetry read of the management port. -/
inductive HeldRow where
  | host (addr : Nat) (v : HostAccess) (fw : Bool)
  | telemetry (addr : Nat)
deriving DecidableEq, Repr

/-- A host core (R13, R453): what its last load returned, whether its last access took a load or store access fault (R320, R331), the
lines of memory that its 2 MiB private cache holds, the last used first, whose bytes are those of their homes (R280), and the registers
of RV64GC: pc, x, f, fcsr and the reservation of its LR, which stand, since no row of the opcode table is an instruction of a host core
(log entry 41). -/
structure HostCore where
  reply : List (BitVec 8) := []
  faulted : Bool := false
  lines : List Nat := []
  pc : BitVec 64 := 0
  x : Tbl (BitVec 64) := []
  f : Tbl (BitVec 64) := []
  fcsr : BitVec 32 := 0
  reserved : Option Nat := none
deriving DecidableEq, Repr, Inhabited

/-- A fossil (R399 to R401): the header's fields and the frozen state, with the windows of each launch on its cores and the cores'
event counters and error registers (`regs`); `held` lists the accesses that were not accepted outside and `owed` those whose replies
the boundary buffer collects (R400), `spare` is the slot that firmware has chosen for the geode (R403), and `draw` that of the
streamed bytes. -/
structure Fossil where
  used : Bool := true
  state : BitVec 2
  reason : BitVec 2
  trev : BitVec 4
  step : BitVec 8
  lgeo : Nat
  part : BitVec 3
  lhash : BitVec 64
  ftime : BitVec 64
  inb : Nat := 0
  outb : Nat := 0
  pa : Nat := 0
  cores : Tbl Core
  geode : Geode
  windows : Tbl (Tbl (List Nat)) := []
  regs : Tbl (BitVec 64) := []
  held : List Nat := []
  owed : List Nat := []
  spare : Option SpareSlot := none
  draw : Nat := 0
deriving DecidableEq, Repr

/-- A task of a checkpoint record (R405): its held safe point and the START and END of its loop entries as entries of the position map,
each of which has a static group index (R433; two positions may share one), the facet's state, its vector images in allotment order
and its accumulator columns. -/
structure CkTask where
  task : Nat
  pos : Nat
  facet : Facet
  loopPos : List (Option (Nat × Nat))
  vregs : List VReg
  acc : Tbl AccEntry
  bands : Tbl Band
  records : List EventRec
deriving DecidableEq, Repr

/-- A checkpoint record (R405); `done` lists the tasks that had ended before it was made, `gmask` and `cmask` are those of its packet. -/
structure Ckpt where
  state : BitVec 2
  part : BitVec 3
  pasid : BitVec 20
  slot : Nat
  packet : BitVec 32
  kernel : BitVec 57
  posmap : List (BitVec 64 × BitVec 64)
  pa : Nat
  bytes : Nat
  ntasks : Nat
  launch : Nat
  done : List Nat := []
  gmask : Nat := 0
  cmask : Nat := 0
  tasks : List CkTask
  windows : List (Nat × Memory)
deriving DecidableEq, Repr

/-- What the hardware does of its own: the rows of the table that are enabled by the state, without what an instruction or
the outside asks for (log entry 1). -/
inductive Work where
  | switch (core : Nat)
  | quantum (core : Nat)
  | item (core : Nat)
  | meeting (geode launch : Nat) (mask : BitVec 16)
  | opDone (core facet : Nat)
  | record (core facet : Nat)
  | fifo (core : Nat) (tgt : FeedTarget)
  | feeder (core : Nat)
  | bandRow (core band : Nat)
  | bulkTake (e : Nat)
  | countdown (e : Nat)
  | commit (core : Nat)
  | arrival (geode id : Nat)
  | access (id : Nat)
  | walk (core facet hn : Nat)
  | invalDone
  | toMedia
  | sealed
  | mirAck (k : Nat)
  | mirCopied (k : Nat)
  | repair (word : Nat)
  | pcieAway
  | heldRow
  | resume (core facet : Nat)
  | start (slot : Nat)
  | dispatch (slot : Nat)
  | waitDone (slot : Nat)
  | finish (slot : Nat)
  | unmapped (slot : Nat)
  | fossilDone (i : Nat)
  | restore (i : Nat)
  | save (slot : Nat)
  | frequency (geode : Nat)
  | policy (slot geode : Nat)
deriving DecidableEq, Repr

/-- The package. -/
structure State where
  /-- The rows of the table that come from outside, the oldest first (log entry 1). -/
  inputs : List Instr := []
  /-- What the hardware does next of its own, the oldest first (log entry 1). -/
  agenda : List Work := []
  /-- The operations that the current event has released within its step (log entry 9). -/
  due : List Instr := []
  /-- Whether the next step serves the inputs and the agenda before a bundle (log entry 1). -/
  turn : Bool := false
  /-- The core whose running facet the slot operations act on. -/
  cur : Nat := 0
  /-- The core that the schedule served last (log entry 1). -/
  lastCore : Nat := 0
  /-- Draw counter of the free values (log entry 2). -/
  freeCtr : Nat := 0
  /-- The next identifier of an access, an engine operation, a message or a launch. -/
  nextId : Nat := 1
  cores : Tbl Core := []
  geodes : Tbl Geode := []
  mem : Memory := []
  memPoison : List Nat := []
  media : Memory := []
  /-- The draw of the media's unknown contents after a power loss whose drain was incomplete (R346), and the lines written
  since. -/
  mediaLost : Option Nat := none
  mediaKnown : List Nat := []
  durQ : List DurEntry := []
  durPoison : List Nat := []
  seals : List SealReq := []
  dev : Tbl (BitVec 64) := []
  logs : Tbl (List LogEntry) := []
  accs : List Access := []
  bulk : Tbl Bulk := []
  slots : Tbl QSlot := []
  lastSlot : Nat := 63
  launches : Tbl Launch := []
  fossils : List Fossil := []
  /-- Physical slots that a sparing has taken out of use, as 32 × die + slot (R403). -/
  failedSlots : List Nat := []
  ckpts : List Ckpt := []
  inval : Option (List Nat) := none
  /-- PCIe requests that wait for another lode, the oldest first (R454). -/
  pcieOut : List PcieOut := []
  /-- Accesses from outside that wait with their sender for a frozen geode, the oldest first (R400). -/
  heldRows : List HeldRow := []
  mirQ : List MirWrite := []
  /-- Words of each mirrored range that its first copy has sent (R352). -/
  mirPos : Tbl Nat := []
  /-- Errors of words and lines that no read has found (R330, R349): a corrected one, or an uncorrectable one with its symbol. -/
  flaws : List (Nat × Found) := []
  /-- Repairs that wait for the partner's word (R353). -/
  repairs : List Repair := []
  /-- Whether the row in hand has met a word whose repair has yet to be answered: the step leaves the row as it was, to be made again
  (R353; log entry 29). -/
  stands : Bool := false
  /-- The 24 host cores (R13, R453). -/
  hosts : Tbl HostCore := []
  /-- Interrupts that the release writes of each event ring have sent to the host cores, by the address of the ring's registers (R453). -/
  hostIrqs : Tbl Nat := []
  /-- Steps of package allowance that each partition has lost (R412). -/
  pkgLoss : Tbl Nat := []
  /-- Consecutive retries of each fabric port (R445). -/
  flitRuns : Tbl Nat := []
  manifest : List (BitVec 384) := []
  /-- The accepted manifest and test package that firmware has not used yet (R436, R437, R441). -/
  manifestEnv : Option Envelope := none
  testEnv : Option Envelope := none
  fwA : Option Envelope := none
  fwB : Option Envelope := none
  /-- The firmware slot, A (`false`) or B, whose update the next reset uses (R438). -/
  update : Option Bool := none
  nanos : BitVec 64 := 0
  powered : Bool := true
  accepting : Bool := true
  recovery : Bool := false
  bootStep : Nat := 7
  wake : Bool := false
  /-- Power-good is high and the package waits for its wake pin (R28): the bring-up step that fails, if any, and the hold-up
  test of step 4 (R456). -/
  pgood : Option (Option Nat × Bool) := none
  pcieLanes : Nat := 0
  pcieGts : Nat := 0
  /-- What the last frame, fabric request or PCIe request was answered with. -/
  reply : List (BitVec 8) := []
  replyOk : Bool := true
deriving DecidableEq, Repr

/-- Why the machine stops. -/
inductive Fault where
  /-- An access record names a physical address in an unpopulated range (R307). Raised by ACCESS_PERFORM_AT_HOME; no
  program reaches it, since a walk that yields such a frame ends malformed (R315). Safe. -/
  | unpopulatedAddress
deriving DecidableEq, Repr

/-- Why a row has no meaning. -/
inductive Refusal where
  /-- The row of the table has no meaning yet. Raised only by the dispatch. Safe. -/
  | notModelled (mnemonic : String)
deriving DecidableEq, Repr

/-- The package at reset: every field at the value of its declaration, which is the manual's where it gives one and that
of log entry 15 otherwise. No facet is resident; the device registers read their reset values (Machine/Registers.lean). -/
def State.reset : State := {}

end Sys2Proof.Machine
end

