-- ==== Sys2Proof/Machine/Bits.lean ====
section
/-! DEFINITION. Bit-field, byte and table helpers that the whole machine uses. -/

namespace Sys2Proof.Machine

/-- The value under a key, or the given default. -/
def Tbl.get {α : Type} (t : Tbl α) (k : Nat) (dflt : α) : α :=
  match t with
  | [] => dflt
  | (j, v) :: r => if j = k then v else Tbl.get r k dflt

/-- The value under a key, if one is listed. -/
def Tbl.find {α : Type} (t : Tbl α) (k : Nat) : Option α :=
  match t with
  | [] => none
  | (j, v) :: r => if j = k then some v else Tbl.find r k

/-- Lists a value under a key, keys rising. -/
def Tbl.set {α : Type} (t : Tbl α) (k : Nat) (v : α) : Tbl α :=
  match t with
  | [] => [(k, v)]
  | (j, w) :: r => if j = k then (k, v) :: r else if k < j then (k, v) :: (j, w) :: r else (j, w) :: Tbl.set r k v

/-- Drops a key. -/
def Tbl.del {α : Type} (t : Tbl α) (k : Nat) : Tbl α := t.filter fun e => e.1 != k

/-- Changes the value under a key. -/
def Tbl.upd {α : Type} (t : Tbl α) (k : Nat) (dflt : α) (f : α → α) : Tbl α := Tbl.set t k (f (Tbl.get t k dflt))

/-- Bits `hi` down to `lo` of a number (R8). -/
def nbits (x hi lo : Nat) : Nat := x / 2 ^ lo % 2 ^ (hi + 1 - lo)

/-- Field of a 64-bit word. -/
def wbits (x : BitVec 64) (hi lo : Nat) : Nat := nbits x.toNat hi lo

/-- A 64-bit word with field [hi:lo] replaced. -/
def setBits (x : BitVec 64) (hi lo v : Nat) : BitVec 64 :=
  BitVec.ofNat 64 (x.toNat - wbits x hi lo * 2 ^ lo + v % 2 ^ (hi + 1 - lo) * 2 ^ lo)

/-- The integer of the low `w` bits of a number in two's complement (R8). -/
def sextNat (x w : Nat) : Int :=
  let y := x % 2 ^ w
  if 2 * y < 2 ^ w then (y : Int) else (y : Int) - (2 : Int) ^ w

/-- An integer modulo 2^w. -/
def wrapInt (x : Int) (w : Nat) : Nat := (x % ((2 : Int) ^ w)).toNat

/-- Number of set bits among bits 0 to `n - 1`. -/
def popNat (x : Nat) : Nat → Nat
  | 0 => 0
  | n + 1 => popNat x n + (if x.testBit n then 1 else 0)

/-- Leading zeros of a `w`-bit number. -/
def clzNat (x w : Nat) : Nat := if x = 0 then w else w - 1 - x.log2

/-- Trailing zeros among bits `i` upwards of `n` bits. -/
def ctzFrom (x : Nat) : Nat → Nat → Nat
  | 0, i => i
  | n + 1, i => if x.testBit i then i else ctzFrom x n (i + 1)

/-- Sum over k below `n` of bit `f k` of `x` at place `g k`. -/
def spread (x : Nat) (f g : Nat → Nat) : Nat → Nat
  | 0 => 0
  | n + 1 => spread x f g n + (if x.testBit (f n) then 2 ^ g n else 0)

/-- Bit reversal of 64 bits. -/
def brevNat (x : Nat) : Nat := spread x (fun k => 63 - k) id 64

/-- Bytes `off` to `off + n - 1` of a number, little-endian (R5). -/
def byteField (x off n : Nat) : Nat := x / 2 ^ (8 * off) % 2 ^ (8 * n)

/-- The list 0 to n - 1. -/
abbrev upto (n : Nat) : List Nat := List.range n

/-- Ceiling of a quotient. -/
def cdiv (a b : Nat) : Nat := (a + b - 1) / b

/-- Natural square root by Newton's iteration from above, with fuel. -/
def isqrtGo : Nat → Nat → Nat → Nat
  | 0, _, x => x
  | k + 1, n, x =>
    let y := (x + n / x) / 2
    if y < x then isqrtGo k n y else x

/-- Floor of the square root. -/
def isqrt (n : Nat) : Nat := if n = 0 then 0 else isqrtGo (n.log2 + 8) n (2 ^ (n.log2 / 2 + 1))

/-- Memory read: an unlisted byte is 0 (log entries 4 and 5). -/
def Memory.get (m : Memory) (a : Nat) : BitVec 8 :=
  match m with
  | [] => 0
  | (b, v) :: r => if b = a then v else Memory.get r a

/-- Memory write: keeps addresses rising and lists no zero byte. -/
def Memory.set (m : Memory) (a : Nat) (v : BitVec 8) : Memory :=
  match m with
  | [] => if v = 0 then [] else [(a, v)]
  | (b, w) :: r =>
    if b = a then (if v = 0 then r else (a, v) :: r)
    else if a < b then (if v = 0 then (b, w) :: r else (a, v) :: (b, w) :: r)
    else (b, w) :: Memory.set r a v

/-- The canonical form: addresses strictly rising above a floor and no byte 0. -/
def Memory.wfFrom : Nat → Memory → Bool
  | _, [] => true
  | lo, (a, v) :: r => decide (lo ≤ a) && v != 0 && Memory.wfFrom (a + 1) r

/-- The canonical form of a memory. -/
def Memory.wf (m : Memory) : Bool := Memory.wfFrom 0 m

/-- `n` bytes from an address. -/
def Memory.bytes (m : Memory) (a n : Nat) : List (BitVec 8) := (upto n).map fun k => m.get (a + k)

/-- A little-endian number of `n` bytes. -/
def Memory.num (m : Memory) (a n : Nat) : Nat := leNat (m.bytes a n)

/-- Writes consecutive bytes. -/
def Memory.put (m : Memory) (a : Nat) : List (BitVec 8) → Memory
  | [] => m
  | b :: r => Memory.put (m.set a b) (a + 1) r

/-- Writes the `n` little-endian bytes of a number. -/
def Memory.putNum (m : Memory) (a n v : Nat) : Memory := m.put a (leBytes n v)

end Sys2Proof.Machine
end

