-- ==== Sys2Proof/Machine/Numbers.lean ====
section
/-! DEFINITION. Floating-point numbers: formats, exact values, rounding to odd and final rounding (03 R65 to R84), and the
exact arithmetic under the vector operations (06 R156 to R159). -/

namespace Sys2Proof.Machine

/-- A format of R65: precision, bias, exponent field width, whether it has infinities, and the largest significand of
its top binade (R67). -/
structure Fmt where
  p : Nat
  bias : Int
  ebits : Nat
  emin : Int
  emax : Int
  inf : Bool
  top : Nat
deriving DecidableEq, Repr

/-- The formats by type code (R46, R65). -/
def fmtOf (t : BitVec 5) : Fmt :=
  match t.toNat with
  | 1 => ⟨24, 127, 8, -126, 127, true, 2 ^ 24 - 1⟩
  | 2 => ⟨11, 15, 5, -14, 15, true, 2 ^ 11 - 1⟩
  | 3 => ⟨8, 127, 8, -126, 127, true, 2 ^ 8 - 1⟩
  | 4 => ⟨4, 7, 4, -6, 8, false, 14⟩
  | 5 => ⟨3, 15, 5, -14, 15, true, 7⟩
  | _ => ⟨2, 1, 2, 0, 2, false, 3⟩

/-- A real number in binary, an infinity, or NaN. `fin neg m e` is (-1)^neg × m × 2^e; a zero keeps its sign. -/
inductive Num where
  | nan
  | inf (neg : Bool)
  | fin (neg : Bool) (m : Nat) (e : Int)
deriving DecidableEq, Repr

/-- The sticky flags of R150. -/
def fInvalid : BitVec 6 := 1
/-- Divide by zero. -/
def fDivZero : BitVec 6 := 2
/-- Overflow. -/
def fOverflow : BitVec 6 := 4
/-- Underflow. -/
def fUnderflow : BitVec 6 := 8
/-- Inexact. -/
def fInexact : BitVec 6 := 16
/-- Vector integer saturation (R171). -/
def fSat : BitVec 6 := 32

/-- Width of a format in bits. -/
def Fmt.width (f : Fmt) : Nat := f.p + f.ebits

/-- Sign bit of an encoding. -/
def Fmt.sign (f : Fmt) (v : Nat) : Bool := v.testBit (f.width - 1)

/-- Exponent field. -/
def Fmt.expo (f : Fmt) (v : Nat) : Nat := v / 2 ^ (f.p - 1) % 2 ^ f.ebits

/-- Fraction field. -/
def Fmt.frac (f : Fmt) (v : Nat) : Nat := v % 2 ^ (f.p - 1)

/-- R67: NaN encodings; f8e4 (fraction all ones under exponent all ones) and f4 (none) apart. -/
def Fmt.isNan (f : Fmt) (v : Nat) : Bool :=
  if f.inf then f.expo v == 2 ^ f.ebits - 1 && f.frac v != 0
  else f.p == 4 && v % 128 == 127

/-- R67: infinities. -/
def Fmt.isInf (f : Fmt) (v : Nat) : Bool := f.inf && f.expo v == 2 ^ f.ebits - 1 && f.frac v == 0

/-- R67: the canonical NaN. -/
def Fmt.nan (f : Fmt) : Nat :=
  if f.inf then (2 ^ f.ebits - 1) * 2 ^ (f.p - 1) + 2 ^ (f.p - 2) else if f.p == 4 then 127 else 0

/-- R67: the infinity of a sign. -/
def Fmt.infinity (f : Fmt) (neg : Bool) : Nat :=
  (if neg then 2 ^ (f.width - 1) else 0) + (2 ^ f.ebits - 1) * 2 ^ (f.p - 1)

/-- The zero of a sign. -/
def Fmt.zero (f : Fmt) (neg : Bool) : Nat := if neg then 2 ^ (f.width - 1) else 0

/-- `encode` of R77: the encoding whose significand is `m` (at most p bits) at exponent `e`. -/
def Fmt.encode (f : Fmt) (neg : Bool) (e : Int) (m : Nat) : Nat :=
  let field := if m < 2 ^ (f.p - 1) then 0 else (e + f.bias).toNat
  (if neg then 2 ^ (f.width - 1) else 0) + field * 2 ^ (f.p - 1) + m % 2 ^ (f.p - 1)

/-- R67: the largest finite value of a sign. -/
def Fmt.largest (f : Fmt) (neg : Bool) : Nat := f.encode neg f.emax f.top

/-- R74: the number denoted by value bits and tail. -/
def exactNum (f : Fmt) (v t : Nat) : Num :=
  if f.isNan v then .nan
  else if f.isInf v then .inf (f.sign v)
  else
    let m := if f.expo v = 0 then f.frac v else 2 ^ (f.p - 1) + f.frac v
    let e := max ((f.expo v : Int) - f.bias) f.emin
    .fin (f.sign v) (4 * m + t % 4) (e - (f.p - 1) - 2)

/-- Compares a × 2^ea with b × 2^eb. -/
def cmpMag (a : Nat) (ea : Int) (b : Nat) (eb : Int) : Ordering :=
  if a = 0 then (if b = 0 then .eq else .lt)
  else if b = 0 then .gt
  else
    let la := (a.log2 : Int) + ea
    let lb := (b.log2 : Int) + eb
    if la < lb then .lt
    else if lb < la then .gt
    else if ea ≤ eb then compare a (b * 2 ^ (eb - ea).toNat)
    else compare (a * 2 ^ (ea - eb).toNat) b

/-- Floor of m × 2^e / 2^k, and whether anything is left over. -/
def floorAt (m : Nat) (e k : Int) : Nat × Bool :=
  if k ≤ e then (m * 2 ^ (e - k).toNat, false)
  else if (m.log2 : Int) < k - e then (0, m != 0)
  else
    let q := m / 2 ^ (k - e).toNat
    (q, q * 2 ^ (k - e).toNat != m)

/-- R77: limit(fmt) as significand and exponent. -/
def Fmt.limit (f : Fmt) : Nat × Int := (f.top + 1, f.emax - (f.p : Int) + 1)

/-- R77: the result is value bits, tail and flags. -/
def ro (x : Num) (f : Fmt) : Nat × Nat × BitVec 6 :=
  match x with
  | .nan => (f.nan, 0, 0)
  | .inf s => if f.inf then (f.infinity s, 0, 0) else (f.nan, 0, fInvalid)
  | .fin s m e =>
    if m = 0 then (f.zero s, 0, 0)
    else if (cmpMag m e f.limit.1 f.limit.2) != .lt then (f.largest s, 3, fOverflow ||| fInexact)
    else
      let ex := max ((m.log2 : Int) + e) f.emin
      let q := floorAt m e (ex - (f.p - 1) - 2)
      let n := if q.2 then q.1 ||| 1 else q.1
      let fl := if q.2 then (if (m.log2 : Int) + e < f.emin then fInexact ||| fUnderflow else fInexact) else 0
      (f.encode s ex (n / 4), n % 4, fl)

/-- R79, R80: whether a magnitude with fraction above its floor `n` is rounded up; `half` compares the fraction with 1/2. -/
def roundsUp (mode : BitVec 3) (neg : Bool) (n : Nat) (half : Ordering) : Bool :=
  match mode.toNat with
  | 0 => half == .gt || half == .eq && n % 2 == 1
  | 1 => half != .lt
  | 2 => false
  | 3 => !neg
  | _ => neg

/-- Floor of a magnitude over 2^k, whether a fraction is left, and how the fraction compares with one half. -/
def floorHalf (m : Nat) (e k : Int) : Nat × Bool × Ordering :=
  let q := floorAt m e k
  let h := floorAt m e (k - 1)
  (q.1, q.2, if h.1 % 2 = 0 then .lt else if h.2 then .gt else .eq)

/-- The range of an integer type (R72). -/
def intMin (t : BitVec 5) : Int :=
  if t == 16 then -8 else if decide (17 ≤ t.toNat ∧ t.toNat ≤ 20) then -(2 : Int) ^ (8 * tyBytes t - 1) else 0
/-- The largest value of an integer type (R72). -/
def intMax (t : BitVec 5) : Int :=
  if t == 16 then 7
  else if decide (17 ≤ t.toNat ∧ t.toNat ≤ 20) then (2 : Int) ^ (8 * tyBytes t - 1) - 1 else (2 : Int) ^ (8 * tyBytes t) - 1

/-- Clamps to a range; the flag says that it clamped. -/
def clampInt (n lo hi : Int) : Int × Bool := if hi < n then (hi, true) else if n < lo then (lo, true) else (n, false)

/-- R80: `to_integer`. -/
def toInteger (x : Num) (t : BitVec 5) (mode : BitVec 3) : Int × BitVec 6 :=
  match x with
  | .nan => (0, fInvalid)
  | .inf s => (if s then intMin t else intMax t, fInvalid)
  | .fin s m e =>
    if (200 : Int) < (m.log2 : Int) + e ∧ m ≠ 0 then (if s then intMin t else intMax t, fInvalid)
    else
      let q := floorHalf m e 0
      let n := if q.2.1 && roundsUp mode s q.1 q.2.2 then q.1 + 1 else q.1
      let v : Int := if s then -(n : Int) else n
      let c := clampInt v (intMin t) (intMax t)
      (c.1, (if q.2.1 then fInexact else 0) ||| (if c.2 then fInvalid else 0))

/-- R80: final rounding to a floating-point format. -/
def finalFloat (x : Num) (f : Fmt) (mode : BitVec 3) : Nat × BitVec 6 :=
  match x with
  | .nan => if f.p == 2 then (0, fInvalid) else (f.nan, 0)
  | .inf s =>
    if f.inf then (f.infinity s, 0)
    else if f.p == 2 then (f.largest s, fInvalid) else (f.nan, fInvalid)
  | .fin s m e =>
    if m = 0 then (f.zero s, 0)
    else if f.emax + 2 < (m.log2 : Int) + e then
      (if f.inf && roundsUp mode s 1 .gt then f.infinity s else f.largest s, fOverflow ||| fInexact)
    else
      let ex := max ((m.log2 : Int) + e) f.emin
      let q := floorHalf m e (ex - f.p + 1)
      let n := if q.2.1 && roundsUp mode s q.1 q.2.2 then q.1 + 1 else q.1
      let fl := if q.2.1 then (if (m.log2 : Int) + e < f.emin then fInexact ||| fUnderflow else fInexact) else 0
      if (cmpMag n (ex - f.p + 1) f.top (f.emax - f.p + 1)) == .gt then
        (if f.inf && roundsUp mode s 1 .gt then f.infinity s else f.largest s, fl ||| fOverflow ||| fInexact)
      else if n = 2 ^ f.p then (f.encode s (ex + 1) (2 ^ (f.p - 1)), fl)
      else (f.encode s ex n, fl)

/-- R80: `final_round` of a number to any destination type; an integer result is given modulo its width. -/
def finalRound (x : Num) (t : BitVec 5) (mode : BitVec 3) : Nat × BitVec 6 :=
  if t == 16 || tyI t then
    let r := toInteger x t mode
    (wrapInt r.1 (if t == 16 then 4 else 8 * tyBytes t), r.2)
  else finalFloat x (fmtOf t) mode

/-- Negation. -/
def Num.neg : Num → Num
  | .nan => .nan
  | .inf s => .inf (!s)
  | .fin s m e => .fin (!s) m e

/-- The signed integer at a common exponent. -/
def Num.at (s : Bool) (m : Nat) (e k : Int) : Int :=
  let v : Int := (m * 2 ^ (e - k).toNat : Nat)
  if s then -v else v

/-- The exact sum with its invalid flag (R157). -/
def Num.add (x y : Num) : Num × BitVec 6 :=
  match x, y with
  | .nan, _ => (.nan, 0)
  | _, .nan => (.nan, 0)
  | .inf a, .inf b => if a == b then (.inf a, 0) else (.nan, fInvalid)
  | .inf a, .fin .. => (.inf a, 0)
  | .fin .., .inf b => (.inf b, 0)
  | .fin a m e, .fin b n f =>
    if m = 0 ∧ n = 0 then (.fin (a && b) 0 0, 0)
    else if m = 0 then (.fin b n f, 0)
    else if n = 0 then (.fin a m e, 0)
    else
      let k := min e f
      let z := Num.at a m e k + Num.at b n f k
      if z = 0 then (.fin (a && b) 0 0, 0) else (.fin (decide (z < 0)) z.natAbs k, 0)

/-- The exact product with its invalid flag (R157). -/
def Num.mul (x y : Num) : Num × BitVec 6 :=
  match x, y with
  | .nan, _ => (.nan, 0)
  | _, .nan => (.nan, 0)
  | .inf a, .inf b => (.inf (xor a b), 0)
  | .inf a, .fin b n _ => if n = 0 then (.nan, fInvalid) else (.inf (xor a b), 0)
  | .fin a m _, .inf b => if m = 0 then (.nan, fInvalid) else (.inf (xor a b), 0)
  | .fin a m e, .fin b n f => (.fin (xor a b) (m * n) (e + f), 0)

/-- A × B + C with the flags of both parts (R84: a case among the non-NaN operands raises invalid even beside a NaN). -/
def Num.fma (a b c : Num) : Num × BitVec 6 :=
  let p := a.mul b
  let s := p.1.add c
  (s.1, p.2 ||| s.2)

/-- Quotient of two positive significands to at least 32 bits, the last bit sticky. -/
def quotNum (neg : Bool) (m : Nat) (e : Int) (n : Nat) (f : Int) : Num :=
  let sh := 33 + n.log2
  let q := m * 2 ^ sh / n
  .fin neg (2 * q + (if q * n = m * 2 ^ sh then 0 else 1)) (e - f - sh - 1)

/-- A / B with its flags (R157). -/
def Num.div (x y : Num) : Num × BitVec 6 :=
  match x, y with
  | .nan, _ => (.nan, 0)
  | _, .nan => (.nan, 0)
  | .inf _, .inf _ => (.nan, fInvalid)
  | .inf a, .fin b _ _ => (.inf (xor a b), 0)
  | .fin a _ _, .inf b => (.fin (xor a b) 0 0, 0)
  | .fin a m e, .fin b n f =>
    if n = 0 then (if m = 0 then (.nan, fInvalid) else (.inf (xor a b), fDivZero))
    else if m = 0 then (.fin (xor a b) 0 0, 0)
    else (quotNum (xor a b) m e n f, 0)

/-- √A with its flags (R157). -/
def Num.sqrt (x : Num) : Num × BitVec 6 :=
  match x with
  | .nan => (.nan, 0)
  | .inf s => if s then (.nan, fInvalid) else (.inf false, 0)
  | .fin s m e =>
    if m = 0 then (.fin s 0 0, 0)
    else if s then (.nan, fInvalid)
    else
      let n := m * 2 ^ 80 * (if e % 2 = 0 then 1 else 2)
      let e' := (if e % 2 = 0 then e else e - 1) - 80
      let r := isqrt n
      (.fin false (2 * r + (if r * r = n then 0 else 1)) (e' / 2 - 1), 0)

/-- 1 / √A with its flags (R157). -/
def Num.rsqrt (x : Num) : Num × BitVec 6 :=
  match x with
  | .nan => (.nan, 0)
  | .inf s => if s then (.nan, fInvalid) else (.fin false 0 0, 0)
  | .fin s m e =>
    if m = 0 then (.inf s, fDivZero)
    else if s then (.nan, fInvalid)
    else
      let n := if e % 2 = 0 then m else 2 * m
      let e' := if e % 2 = 0 then e else e - 1
      let k := 40 + n.log2
      let r := isqrt (2 ^ (2 * k) / n)
      (.fin false (2 * r + (if r * r * n = 2 ^ (2 * k) then 0 else 1)) (-(e' / 2) - k - 1), 0)

/-- Floor of √(2^b · r) on a grid of 2^-P, from the last bit of a fraction of `n` bits to its first; the fraction's bits
are those of `x`, `i` counted from the last. -/
def exp2Go (P x : Nat) : Nat → Nat → Nat → Nat
  | 0, _, r => r
  | n + 1, i, r => exp2Go P x n (i + 1) (isqrt ((if x.testBit i then 2 else 1) * r * 2 ^ P))

/-- 2^A (R156, R157; log entry 16 for the precision). -/
def Num.exp2 (x : Num) : Num :=
  match x with
  | .nan => .nan
  | .inf s => if s then .fin false 0 0 else .inf false
  | .fin s m e =>
    if m = 0 then .fin false 1 0
    else if 12 < (m.log2 : Int) + e then .fin false 1 (if s then -5000 else 5000)
    else if 0 ≤ e then .fin false 1 (if s then -((m * 2 ^ e.toNat : Nat) : Int) else ((m * 2 ^ e.toNat : Nat) : Int))
    else
      let b := (-e).toNat
      let z : Int := if s then -(m : Int) else m
      let k := z / (2 : Int) ^ b
      let fr := (z % (2 : Int) ^ b).toNat
      if fr = 0 then .fin false 1 k
      else
        let P := b + 96
        let r := exp2Go P fr b 0 (2 ^ P)
        .fin false (2 * r + 1) (k - P - 1)

/-- Binary digits of log2 of a number of [1, 2) on a grid of 2^-P by repeated squaring. -/
def log2Go (P : Nat) : Nat → Nat → Nat → Nat
  | 0, _, d => d
  | n + 1, r, d =>
    let q := r * r / 2 ^ P
    if 2 ^ (P + 1) ≤ q then log2Go P n (q / 2) (2 * d + 1) else log2Go P n q (2 * d)

/-- log2 A with its flags (R156, R157; log entry 16). -/
def Num.log2 (x : Num) : Num × BitVec 6 :=
  match x with
  | .nan => (.nan, 0)
  | .inf s => if s then (.nan, fInvalid) else (.inf false, 0)
  | .fin s m e =>
    if m = 0 then (.inf true, fDivZero)
    else if s then (.nan, fInvalid)
    else
      let k : Int := (m.log2 : Int) + e
      if m = 2 ^ m.log2 then (.fin (decide (k < 0)) k.natAbs 0, 0)
      else
        let P := 288
        let y := m * 2 ^ (P - m.log2)
        let d := log2Go P 96 y 0
        let z : Int := k * (2 : Int) ^ 96 + d
        if 0 ≤ z then (.fin false (2 * z.toNat + 1) (-97), 0)
        else (.fin true (2 * (-z - 1).toNat + 1) (-97), 0)

/-- A × 2^k (R159). -/
def Num.scale (x : Num) (k : Int) : Num :=
  match x with
  | .fin s m e => .fin s m (e + k)
  | y => y

/-- R83: order of two numbers; `none` when one is NaN. -/
def Num.cmp (x y : Num) : Option Ordering :=
  match x, y with
  | .nan, _ => none
  | _, .nan => none
  | .inf a, .inf b => some (if a == b then .eq else if a then .lt else .gt)
  | .inf a, .fin .. => some (if a then .lt else .gt)
  | .fin .., .inf b => some (if b then .gt else .lt)
  | .fin a m e, .fin b n f =>
    if m = 0 ∧ n = 0 then some .eq
    else if m = 0 then some (if b then .gt else .lt)
    else if n = 0 then some (if a then .lt else .gt)
    else if a && !b then some .lt
    else if !a && b then some .gt
    else if a then some (cmpMag n f m e) else some (cmpMag m e n f)

/-- R158: `fmin` (or `fmax`) of two elements given as value bits and tail. Infinities of one sign compare equal whatever their tails,
and the arm of equal operands then picks the tail (log entry 49). -/
def fminmax (f : Fmt) (isMax : Bool) (x y : Nat × Nat) : Nat × Nat :=
  let a := exactNum f x.1 x.2
  let b := exactNum f y.1 y.2
  match Num.cmp a b with
  | none => if f.isNan x.1 then (if f.isNan y.1 then (f.nan, 0) else y) else x
  | some .eq =>
    -- equal values: only the two zeros with tail 0 differ, by sign
    if f.sign x.1 == isMax then y else x
  | some .lt => if isMax then y else x
  | some .gt => if isMax then x else y

/-- Ceiling of log2 of the quotient of two positive numbers, the divisor an integer (R166). -/
def ceilLog2Div (m : Nat) (e : Int) (l : Nat) : Int :=
  let c := (m.log2 : Int) + e - l.log2
  -- the quotient lies in (2^(c-1), 2^(c+1)): test it against 2^c and 2^(c-1)
  if cmpMag m e l (c - 1) != .gt then c - 1
  else if cmpMag m e l c != .gt then c else c + 1

end Sys2Proof.Machine
end

