-- ==== Sys2Proof/Machine/Ops.lean ====
section
/-! DEFINITION. The named operations over registers, memory, device registers and control that every meaning shares:
register reads and results in flight (R32, R49 to R51), page walks (R313 to R316), event rings (R328, R372), parking and
taking a trap (R384 to R386), and returning from one (R392). -/

namespace Sys2Proof.Machine

/-- The result of a row. -/
abbrev Out := Host.Outcome State Fault Refusal

/-! ## Cores and facets -/

/-- A core by its number 16 × geode + rank. -/
def State.core (s : State) (c : Nat) : Core := s.cores.get c {}

/-- Replaces a core. -/
def State.setCore (s : State) (c : Nat) (k : Core) : State := { s with cores := s.cores.set c k }

/-- Changes a core. -/
def State.modCore (s : State) (c : Nat) (f : Core → Core) : State := s.setCore c (f (s.core c))

/-- A facet of a core. -/
def Core.facet (k : Core) (n : Nat) : Facet := k.facets.get n {}

/-- Changes a facet of a core. -/
def Core.modFacet (k : Core) (n : Nat) (f : Facet → Facet) : Core := { k with facets := k.facets.set n (f (k.facet n)) }

/-- A facet by core and number. -/
def State.facet (s : State) (c n : Nat) : Facet := (s.core c).facet n

/-- Changes a facet. -/
def State.modFacet (s : State) (c n : Nat) (f : Facet → Facet) : State := s.modCore c fun k => k.modFacet n f

/-- The core whose slots run now. -/
def State.here (s : State) : Core := s.core s.cur

/-- Number of the running facet of that core (R374). -/
def State.fn (s : State) : Nat := s.here.run

/-- The running facet of that core. -/
def State.me (s : State) : Facet := s.here.facet s.fn

/-- Changes the running facet. -/
def State.modMe (s : State) (f : Facet → Facet) : State := s.modFacet s.cur s.fn f

/-- Changes the running core. -/
def State.modHere (s : State) (f : Core → Core) : State := s.modCore s.cur f

/-- A geode. -/
def State.geode (s : State) (g : Nat) : Geode := s.geodes.get g {}

/-- Changes a geode. -/
def State.modGeode (s : State) (g : Nat) (f : Geode → Geode) : State := { s with geodes := s.geodes.set g (f (s.geode g)) }

/-- Geode of a core (R14). -/
def geodeOf (c : Nat) : Nat := c / 16

/-- Rank of a core in its geode (R14). -/
def rankOf (c : Nat) : Nat := c % 16

/-- Core of a rank of a geode. -/
def coreAt (g r : Nat) : Nat := 16 * g + r

/-- R399: the task of a launch in a facet of a core stands in a fossil. -/
def State.frozenTask (s : State) (c fn launch : Nat) : Bool :=
  s.fossils.any fun f => f.used && f.cores.any fun k => k.1 == c && (k.2.facet fn).resident && (k.2.facet fn).launch == launch

/-- R279: the geode of a core is frozen, or a fossil of it holds tasks of a launch that satisfies `p`. -/
def State.frozenAt (s : State) (c : Nat) (p : Nat → Bool) : Bool :=
  (s.geode (geodeOf c)).frozen || s.fossils.any fun f => f.used && f.lgeo == geodeOf c && f.windows.any fun w => p w.1

/-! ## Register reads and results in flight -/

/-- The register a write names. -/
def RegWrite.id : RegWrite → RegId
  | .s n _ => .s n
  | .g n _ => .g n
  | .v n _ => .v n
  | .m n _ => .m n
  | .x n _ => .x n
  | .h n _ => .h n
  | .q n _ => .q n
  | .d n _ => .d n
  | .y n _ => .y n

/-- A landing counts for readers of a bundle when an earlier bundle issued it. -/
def Landing.older (l : Landing) (clock : Nat) : Bool := decide (l.born < clock)

/-- R386: in a handler, a result of the program is on its way to the register and the handler has not written it. -/
def Facet.replayed (f : Facet) (r : RegId) : Bool := (f.replay.any fun l => l.write.id == r) && !f.wrote.contains r

/-- R49, R50, R386: the register is undefined at this cycle: some write in flight has its bound still ahead. -/
def Facet.undef (f : Facet) (r : RegId) : Bool :=
  (f.landings.any fun l => l.write.id == r && l.older f.clock && decide (f.clock < l.due)) || f.replayed r

/-- R32: its bound has passed, and the youngest write has not landed. -/
def Facet.late (f : Facet) (r : RegId) : Bool :=
  !f.undef r && f.landings.any fun l => l.write.id == r && l.older f.clock && !l.stale && l.access != 0

/-- The result that has landed at this cycle and is not yet in the file. -/
def Facet.landed (f : Facet) (r : RegId) : Option Landing :=
  f.landings.find? fun l => l.write.id == r && l.older f.clock && !l.stale && l.access == 0

/-- The write that has landed at this cycle and is not yet in the file. -/
def Facet.arrived (f : Facet) (r : RegId) : Option RegWrite := (f.landed r).map (·.write)

/-- R3, R94: a bundle that reads the register meets a failing parity check: the value it reads carries one. An undefined value
raises no trap. -/
def Facet.badParity (f : Facet) (r : RegId) : Bool :=
  !f.undef r && match f.landed r with
    | some l => l.poison
    | none => f.poison.contains r

/-- A scalar register as a bundle reads it; s0 reads zero (R7). -/
def Facet.readS (f : Facet) (ctr n : Nat) : BitVec 64 :=
  if n = 0 then 0
  else if f.undef (.s n) then Config.freeWord ctr n
  else
    match f.arrived (.s n) with
    | some (.s _ v) => v
    | _ => f.s.get n 0

/-- A guard as a bundle reads it; g0 is true (R7). -/
def Facet.readG (f : Facet) (ctr n : Nat) : Bool :=
  if n = 0 then true
  else if f.undef (.g n) then Config.freeBool ctr n
  else
    match f.arrived (.g n) with
    | some (.g _ v) => v
    | _ => f.g.getLsbD n

/-- A mask as a bundle reads it; m0 has every lane active (R7). -/
def Facet.readM (f : Facet) (ctr n : Nat) : BitVec 128 :=
  if n = 0 then BitVec.allOnes 128
  else if f.undef (.m n) then Config.freeMask ctr n
  else
    match f.arrived (.m n) with
    | some (.m _ v) => v
    | _ => f.m.get n 0

/-- An address register as a bundle reads it. -/
def Facet.readX (f : Facet) (ctr n : Nat) : BitVec 32 :=
  if f.undef (.x n) then Config.freeAddr ctr n
  else
    match f.arrived (.x n) with
    | some (.x _ v) => v
    | _ => f.x.get n 0

/-- A matrix parameter as a bundle reads it. -/
def Facet.readQ (f : Facet) (ctr n : Nat) : BitVec 64 :=
  if f.undef (.q n) then Config.freeWord ctr (64 + n)
  else
    match f.arrived (.q n) with
    | some (.q _ v) => v
    | _ => f.q.get n 0

/-- A descriptor as a bundle reads it. -/
def Facet.readD (f : Facet) (ctr n : Nat) : BitVec 64 :=
  if f.undef (.d n) then Config.freeWord ctr (128 + n)
  else
    match f.arrived (.d n) with
    | some (.d _ v) => v
    | _ => f.d.get n 0

/-- A check register as a bundle reads it. -/
def Facet.readY (f : Facet) (ctr n : Nat) : BitVec 64 :=
  if f.undef (.y n) then Config.freeWord ctr (192 + n)
  else
    match f.arrived (.y n) with
    | some (.y _ v) => v
    | _ => f.y.get n 0

/-- The handle that a result writes. -/
def Landing.handle? (l : Landing) (n : Nat) : Option Handle := match l.write with | .h k v => if k = n then some v else none | _ => none

/-- R311: an undefined handle is its earlier contents or one of the values on their way to it. -/
def pickHandle (ctr n : Nat) (h : Handle) : Nat → List Handle → Handle
  | _, [] => h
  | i, v :: r => if Config.freeBool ctr (512 + 32 * i + n) then v else pickHandle ctr n h (i + 1) r

/-- The values of a handle in flight that a bundle may meet; in a handler those of the program as well (R386). -/
def Facet.flightH (f : Facet) (n : Nat) : List Handle :=
  (f.landings.filter fun l => l.older f.clock).filterMap (·.handle? n) ++ if f.replayed (.h n) then f.replay.filterMap (·.handle? n) else []

/-- A handle as a bundle reads it; where it is undefined, its earlier contents or a value on its way (R50, R311). -/
def Facet.readH (f : Facet) (ctr n : Nat) : Handle :=
  if f.undef (.h n) then pickHandle ctr n (f.h.get n {}) 0 (f.flightH n)
  else
    match f.arrived (.h n) with
    | some (.h _ v) => v
    | _ => f.h.get n {}

/-- A vector register, by its physical number, as a bundle reads it. -/
def Core.readV (k : Core) (f : Facet) (ctr n : Nat) : VReg :=
  if f.undef (.v n) then ⟨Config.freeVec ctr n, Config.freeTail ctr n⟩
  else
    match f.arrived (.v n) with
    | some (.v _ v) => v
    | _ => k.vfile.get n {}

/-- R98, R109: the allotment index a name denotes under the rotation in force. -/
def Facet.rotated (f : Facet) (k : Nat) : Nat :=
  match f.rotRegion with
  | some (vb, n) => if vb ≤ k ∧ k < vb + n then vb + (k - vb + 2 * f.rotBase) % n else k
  | none => k

/-- R98: the physical register of a name of the facet's allotment; a name outside it has a place of its own beyond the core's
384 registers, so that it meets no other name (R54, R110). -/
def Facet.phys (f : Facet) (v : BitVec 9) : Nat :=
  let k := f.rotated v.toNat
  f.vblocks.getD (k / 32) (12 + k / 32) * 32 + k % 32

/-- The running facet's scalar register. -/
def State.readS (s : State) (n : BitVec 6) : BitVec 64 := s.me.readS s.freeCtr n.toNat
/-- The running facet's guard. -/
def State.readG (s : State) (n : Nat) : Bool := s.me.readG s.freeCtr n
/-- The running facet's mask. -/
def State.readM (s : State) (n : BitVec 4) : BitVec 128 := s.me.readM s.freeCtr n.toNat
/-- The running facet's address register. -/
def State.readX (s : State) (n : BitVec 5) : BitVec 32 := s.me.readX s.freeCtr n.toNat
/-- The running facet's handle. -/
def State.readH (s : State) (n : BitVec 5) : Handle := s.me.readH s.freeCtr n.toNat
/-- The running facet's matrix parameter. -/
def State.readQ (s : State) (n : Nat) : BitVec 64 := s.me.readQ s.freeCtr n
/-- The running facet's descriptor. -/
def State.readD (s : State) (n : BitVec 4) : BitVec 64 := s.me.readD s.freeCtr n.toNat
/-- The running facet's check register. -/
def State.readY (s : State) (n : BitVec 2) : BitVec 64 := s.me.readY s.freeCtr n.toNat
/-- The running facet's vector register of a name. -/
def State.readV (s : State) (v : BitVec 9) : VReg := s.here.readV s.me s.freeCtr (s.me.phys v)

/-- R43: the guard of a slot word's guard field, after negation. -/
def State.guard (s : State) (g : BitVec 4) : Bool := xor (g.getLsbD 3) (s.readG (g.toNat % 8))

/-- R50: marks the writes in flight to a register as overtaken by a younger one. -/
def Facet.overtake (f : Facet) (r : RegId) : List Landing :=
  f.landings.map fun l => if l.write.id == r then { l with stale := true } else l

/-- Whether a write names a register that discards it: s0, g0, m0 (R7). -/
def RegWrite.void : RegWrite → Bool
  | .s n _ => n == 0
  | .g n _ => n == 0
  | .m n _ => n == 0
  | _ => false

/-- R49, R50, R56: issues a result with its bound, its flags and the access that supplies it. A write of s0 is discarded;
its flags are raised all the same. -/
def Facet.issue (f : Facet) (w : RegWrite) (lat : Nat) (flags : BitVec 6) (access : Nat) (poison : Bool := false) : Facet :=
  let ls := if w.void then f.landings else f.overtake w.id
  { f with
    landings := ls ++ [⟨w, flags, f.clock, f.clock + lat, w.void, access, poison⟩]
    wrote := if f.intrap then w.id :: f.wrote else f.wrote }

/-- Issues a result of the running facet. -/
def State.land (s : State) (w : RegWrite) (lat : Nat) (flags : BitVec 6 := 0) (access : Nat := 0) (poison : Bool := false) :
    State :=
  s.modMe fun f => f.issue w lat flags access poison

/-- Writes a register file with a result that lands. -/
def Facet.write (f : Facet) : RegWrite → Facet
  | .s n v => { f with s := f.s.set n v }
  | .g n v => { f with g := if v then f.g ||| BitVec.ofNat 8 (2 ^ n) else f.g &&& ~~~(BitVec.ofNat 8 (2 ^ n)) }
  | .v _ _ => f
  | .m n v => { f with m := f.m.set n v }
  | .x n v => { f with x := f.x.set n v }
  | .h n v => { f with h := f.h.set n v }
  | .q n v => { f with q := f.q.set n v }
  | .d n v => { f with d := f.d.set n v }
  | .y n v => { f with y := f.y.set n v }

/-- R49, R50, R94: one landing at its bound: the register (unless overtaken), its parity, and the flags. -/
def Core.landOne (k : Core) (fn : Nat) (l : Landing) : Core :=
  let put (f : Facet) : Facet :=
    let f := { f with flags := f.flags ||| l.flags }
    if l.stale then f
    else
      let p := f.poison.filter (· != l.write.id)
      { f.write l.write with poison := if l.poison then p ++ [l.write.id] else p }
  let k := k.modFacet fn put
  match l.write with
  | .v n v => if l.stale then k else { k with vfile := k.vfile.set n v }
  | _ => k

/-- R49: every result of a facet that is at its bound and present lands, the older first. -/
def Core.landDue (k : Core) (fn : Nat) : Core :=
  let f := k.facet fn
  let now (l : Landing) : Bool := decide (l.due ≤ f.clock) && l.access == 0
  let k := k.modFacet fn fun f => { f with landings := f.landings.filter fun l => !now l }
  (f.landings.filter now).foldl (fun k l => k.landOne fn l) k

/-- Every result of a facet that is present lands (the end of a handler, R392; a checkpoint, R404). -/
def Core.landAll (k : Core) (fn : Nat) : Core :=
  let f := k.facet fn
  let k := k.modFacet fn fun f => { f with landings := f.landings.filter fun l => l.access != 0 }
  (f.landings.filter fun l => l.access == 0).foldl (fun k l => k.landOne fn l) k

/-- R38, R133: some result of the facet waits for its endpoint. -/
def Facet.outstanding (f : Facet) : Bool := f.landings.any fun l => l.access != 0

/-! ## Physical memory -/

/-- The kinds of place of the physical map (R307). -/
inductive Place where
  | main
  | durable
  | device
  | hole
deriving DecidableEq, Repr

/-- R307: what a physical address is. -/
def place (pa : Nat) : Place :=
  if pa < 0x8000000000 then .main
  else if 0x10000000000 ≤ pa ∧ pa < 0x20000000000 then .durable
  else if 0x80000000000 ≤ pa ∧ pa < 0x80100000000 then .device
  else .hole

/-- Vein of a main-memory address (R307). -/
def veinOf (pa : Nat) : Nat := nbits pa 38 36

/-- Channel of a main-memory address (R307). -/
def chanOf (pa : Nat) : Nat := nbits pa 13 8 ^^^ nbits pa 19 14

/-- A byte of the media; after an incomplete drain a line that nothing has written since holds no known value (R346). -/
def State.mediaByte (s : State) (pa : Nat) : BitVec 8 :=
  match s.mediaLost with
  | some c => if s.mediaKnown.contains (pa / 64) then s.media.get pa else Config.lostByte c pa
  | none => s.media.get pa

/-- R342: the newest entry of the write queue for a line. -/
def State.durEntry (s : State) (line : Nat) : Option DurEntry := s.durQ.findRev? fun e => e.line == line

/-- The newest value of a byte of the durable tier: the write queue ahead of the media (R342). -/
def State.durByte (s : State) (pa : Nat) : BitVec 8 :=
  match s.durEntry (pa / 64) with
  | some e => e.data.getD (pa % 64) 0
  | none => s.mediaByte pa

/-- R349: the newest value of a line of the durable tier is poisoned. -/
def State.durBad (s : State) (line : Nat) : Bool :=
  match s.durEntry line with
  | some e => e.poison
  | none => s.durPoison.contains line

/-- R342, R346: an entry is written to the media, its poison with it. -/
def State.toMedia (s : State) (e : DurEntry) : State :=
  { s with
    media := s.media.put (64 * e.line) ((upto 64).map fun k => e.data.getD k 0)
    mediaKnown := if s.mediaLost.isSome && !s.mediaKnown.contains e.line then e.line :: s.mediaKnown else s.mediaKnown
    durPoison := if e.poison then e.line :: s.durPoison.filter (· != e.line) else s.durPoison.filter (· != e.line) }

/-- R342: the oldest entry goes to the media. -/
def State.drainOldest (s : State) : State := match s.durQ with | [] => s | e :: r => { s.toMedia e with durQ := r }

/-- R342: room for one more entry; a write that finds the queue full waits while the oldest entry goes to the media. -/
def State.durMakeRoom (s : State) : State := if s.durQ.length < Config.durableEntries then s else s.drainOldest

/-- One byte of local memory as it is stored. -/
def State.byteAt (s : State) (pa : Nat) : BitVec 8 :=
  match place pa with
  | .main => s.mem.get pa
  | .durable => s.durByte pa
  | _ => 0

/-- Bytes of local memory. -/
def State.bytesAt (s : State) (pa n : Nat) : List (BitVec 8) := (upto n).map fun k => s.byteAt (pa + k)

/-- A little-endian number of local memory. -/
def State.numAt (s : State) (pa n : Nat) : Nat := leNat (s.bytesAt pa n)

/-- R342: a store to a line of the durable tier merges into the newest unsealed entry of its line, or makes an entry. -/
def State.durPut (s : State) (pa : Nat) (b : BitVec 8) : State :=
  let line := pa / 64
  let merge (e : DurEntry) : DurEntry := { e with data := e.data.set (pa % 64) b }
  if s.durQ.any fun e => e.line == line && !e.sealed then
    { s with durQ := s.durQ.map fun e => if e.line == line && !e.sealed then merge e else e }
  else
    let s := s.durMakeRoom
    let old := (upto 64).map fun k => s.durByte (line * 64 + k)
    { s with durQ := s.durQ ++ [merge { line := line, data := old, poison := s.durBad line }] }

/-- One byte of local memory is written. -/
def State.putByte (s : State) (pa : Nat) (b : BitVec 8) : State :=
  match place pa with
  | .main => { s with mem := s.mem.set pa b }
  | .durable => s.durPut pa b
  | _ => s

/-- Consecutive bytes of local memory are written. -/
def State.putRaw (s : State) (pa : Nat) : List (BitVec 8) → State
  | [] => s
  | b :: r => State.putRaw (s.putByte pa b) (pa + 1) r

/-- R330: the word of a main-memory address is poisoned. -/
def State.poisoned (s : State) (pa : Nat) : Bool :=
  match place pa with
  | .main => s.memPoison.contains (pa / 32)
  | .durable => s.durBad (pa / 64)
  | _ => false

/-- Changes the newest entry of the write queue for a line. -/
def modNewest (line : Nat) (f : DurEntry → DurEntry) (q : List DurEntry) : List DurEntry :=
  match q.reverse.findIdx? fun e => e.line == line with
  | some i => q.modify (q.length - 1 - i) f
  | none => q

/-- R342, R349: the poison of a line's newest value: its newest entry's, sealed or not, else the media's. -/
def State.setDurBad (s : State) (line : Nat) (b : Bool) : State :=
  if (s.durEntry line).isSome then { s with durQ := modNewest line (fun e => { e with poison := b }) s.durQ }
  else
    let rest := s.durPoison.filter (· != line)
    { s with durPoison := if b then line :: rest else rest }

/-- Marks a word poisoned. -/
def State.poisonWord (s : State) (pa : Nat) : State :=
  match place pa with
  | .main => if s.memPoison.contains (pa / 32) then s else { s with memPoison := pa / 32 :: s.memPoison }
  | .durable => s.setDurBad (pa / 64) true
  | _ => s

/-- R282, R330, R349: bytes of a word of main memory or a line of the durable tier. -/
def grain (pa : Nat) : Nat := if place pa == .durable then 64 else if place pa == .device then 8 else 32

/-- First byte of the word or line of an address. -/
def grainBase (pa : Nat) : Nat := pa / grain pa * grain pa

/-- The error that stands at an address is gone. -/
def State.forgetFlaw (s : State) (pa : Nat) : State := { s with flaws := s.flaws.filter fun x => x.1 != grainBase pa }

/-- Clears the poison and the error of a word that is replaced whole. -/
def State.cleanWord (s : State) (pa : Nat) : State :=
  let s := s.forgetFlaw pa
  match place pa with
  | .main => { s with memPoison := s.memPoison.filter (· != pa / 32) }
  | .durable => s.setDurBad (pa / 64) false
  | _ => s

/-! ## Device registers (raw words; Machine/Registers.lean gives their access rules) -/

/-- GEODE_MAP_n (R18). -/
abbrev aGeodeMap (n : Nat) : Nat := 0x80000001000 + 4 * n
/-- LODE_ID (R465). -/
abbrev aLodeId : Nat := 0x80000000008
/-- The lode memory-management registers (R326). -/
abbrev aMmr : Nat := 0x80000040000
/-- The hardware slots (R357). -/
abbrev aSlot (k : Nat) : Nat := 0x80000080000 + 0x20 * k
/-- The partition registers (R377). -/
abbrev aPart (p : Nat) : Nat := 0x80000090000 + 0x100 * p
/-- The core registers (R251, R338, R395). -/
abbrev aCore (c : Nat) : Nat := 0x80001000000 + 0x10000 * (c / 16) + 0x1000 * (c % 16)
/-- The vein registers (R336). -/
abbrev aVein (v : Nat) : Nat := 0x80003000000 + 0x10000 * v
/-- The package's event counters (R338). -/
abbrev aPkgCnt : Nat := 0x80000050000

/-- R18: a geode map register at reset: the fuses' slot and revision, the die, all else zero. -/
def geodeMapReset (n : Nat) : Nat :=
  Config.fuseSlot n % 32 + (n / 20) * 2 ^ 5 + (Config.slotTrev (n / 20) (Config.fuseSlot n)).toNat * 2 ^ 12

/-- Reset values of device registers that are not zero (R18, R20, R336, R345, R398, R422, R423, R439, R444). -/
def devReset (a : Nat) : BitVec 64 :=
  if a = 0x80000000000 then BitVec.ofNat 64 (0x0640 + Config.fuseStep.toNat * 2 ^ 16 + Config.fuseSpares % 16 * 2 ^ 24)
  else if 0x80000001000 ≤ a ∧ a < 0x80000001000 + 160 then BitVec.ofNat 64 (geodeMapReset ((a - 0x80000001000) / 4))
  else if 0x80000090000 ≤ a ∧ a < 0x80000090800 then
    (if a % 0x100 = 0xE0 then 0x000000FFFF000000 else if a % 0x100 = 0xE8 then 1000000
     else if a % 0x100 = 0x58 then 0x7FFFF else 0)
  else if 0x800000A0000 ≤ a ∧ a < 0x800000A0040 then
    (let k := (a - 0x800000A0000) / 8
     BitVec.ofNat 64 ([0, 8, 16, 20, 24, 28, 32, 36].getD k 0 + [18, 25, 33, 38, 43, 48, 54, 60].getD k 0 * 2 ^ 8))
  else if a = 0x800000A0040 then BitVec.ofNat 64 (3200 + 95 * 2 ^ 16 + 16 * 2 ^ 24)
  else if a = 0x800000A0048 then BitVec.ofNat 64 (52 + 950 * 2 ^ 8 + 3800 * 2 ^ 18 + 105 * 2 ^ 30)
  else if a = 0x80000060008 then BitVec.ofNat 64 (Config.holdupRecord.toNat % 3 * 4)
  else if a = 0x800000B0240 then BitVec.ofNat 64 Config.fuseSvn.toNat
  else if 0x800000C0000 ≤ a ∧ a < 0x800000C0600 then (if a % 0x40 = 0 then 1 else 0)
  else if a = 0x80000060140 then 1
  else if 0x80003000000 ≤ a ∧ a < 0x80003080000 then
    (if a % 0x10000 = 0x40 then BitVec.ofNat 64 (1 + (a - 0x80003000000) / 0x10000 * 2 ^ 36) else 0)
  else 0

/-- The stored word of a device register. -/
def State.devGet (s : State) (a : Nat) : BitVec 64 := (s.dev.find a).getD (devReset a)

/-- Stores the word of a device register. -/
def State.devSet (s : State) (a : Nat) (v : BitVec 64) : State := { s with dev := s.dev.set a v }

/-- A field of a device register. -/
def State.devFld (s : State) (a hi lo : Nat) : Nat := wbits (s.devGet a) hi lo

/-- Sets a field of a device register. -/
def State.devPut (s : State) (a hi lo v : Nat) : State := s.devSet a (setBits (s.devGet a) hi lo v)

/-- Adds to a field of a device register, modulo its width. -/
def State.devAdd (s : State) (a hi lo v : Nat) : State := s.devPut a hi lo (s.devFld a hi lo + v)

/-! ## Other lodes -/

/-- The lode's own number (R465). -/
def State.ownLode (s : State) : Nat := s.devFld aLodeId 15 0

/-- Where an address of a lode is served (R446 to R448): on this lode, over the fabric, or nowhere for a cause (R450). -/
inductive Route where
  | here
  | away
  | fail (cause : Nat)
deriving DecidableEq, Repr

/-- R450: the cause of a route that fails. -/
def Route.cause : Route → Option Nat
  | .fail c => some c
  | _ => none

/-- FABPORTk (R444). -/
abbrev aPort (k : Nat) : Nat := 0x800000C0000 + 0x40 * k

/-- FPODGW (R447). -/
abbrev aPodGw : Nat := 0x800000C0C08

/-- Ports in STATE 2 (R448). -/
def State.upPorts (s : State) : List Nat := (upto 24).filter fun k => s.devFld (aPort k) 2 1 == 2

/-- R446 to R448: the route to a physical address of a lode. -/
def State.route (s : State) (lode pa : Nat) : Route :=
  let reach := place pa == .main || place pa == .durable
  if lode = s.ownLode then (if reach then .here else .fail 1)
  else if lode / 1024 ≠ s.ownLode / 1024 ∧ s.devFld aPodGw 10 10 = 0 then .fail 5
  else if s.upPorts.isEmpty then .fail 3
  else if reach then .away else .fail 1

/-- R448: the port that a request to an address of a lode takes. -/
def State.portFor (s : State) (lode pa : Nat) : Nat :=
  let up := s.upPorts
  up.getD (Config.portHash lode (nbits pa 12 6) up.length % max up.length 1) 0

/-- R443: requests that one direction of a port buffers. -/
abbrev portDepth : Nat := 64

/-- Requests that ports have taken for a core's feeders and bands and for the trap frames of its facets. -/
def Core.portReqs (k : Core) : List PortReq :=
  (k.feedA ++ k.feedB).flatMap (·.ports) ++ k.bands.flatMap (fun b => b.2.ops.flatMap (·.ports)) ++ k.facets.flatMap fun f => f.2.framePorts

/-- R445: the requests that ports hold unacknowledged, those of frozen geodes apart, whose replies wait in the boundary buffers
(R400): of accesses, mirrored ranges and their repairs, bulk engines, signals, PCIe and cores. -/
def State.portReqs (s : State) : List PortReq :=
  (s.accs.flatMap (·.ports) ++ s.mirQ.filterMap (·.port) ++ s.repairs.filterMap (·.port) ++ s.bulk.flatMap (·.2.ports)
    ++ (s.slots.flatMap fun q => q.2.sigs.filterMap (·.port)) ++ s.pcieOut.flatMap (·.ports)
    ++ s.cores.flatMap fun c => c.2.portReqs).filter fun r => !r.done

/-- R445: requests that a fabric port holds unacknowledged. -/
def State.portHeld (s : State) (k : Nat) : Nat := (s.portReqs.filter fun r => r.port == k).length

/-- R447: the accelerator identifier that a request to a lode is addressed to: its own, or the pod gateway's. -/
def State.identOf (s : State) (lode : Nat) : BitVec 10 :=
  BitVec.ofNat 10 (if lode / 1024 = s.ownLode / 1024 then lode else s.devFld aPodGw 9 0)

/-- R443, R447, R448: the request for the 64-byte line of an address of a lode on the port that it hashes to, if that one's buffer has
room. -/
def State.portTakes (s : State) (lode pa : Nat) : Option PortReq :=
  let k := s.portFor lode pa
  if s.portHeld k < portDepth then
    some { port := k, lode := lode, line := pa / 64, ident := s.identOf lode, addr := BitVec.ofNat 57 (lode * 2 ^ 41 + nbits pa 40 0)
           seq := s.nextId }
  else none

/-- R338: one counter pair at `a` counts `n` events of code `ev`. -/
def State.countAt (s : State) (a ev n : Nat) : State :=
  if s.devFld a 7 0 = ev ∧ s.devFld a 8 8 = 1 then
    let c := s.devFld (a + 8) 47 0 + n
    let s := s.devPut (a + 8) 47 0 c
    if 2 ^ 48 ≤ c then s.devPut (a + 8) 48 48 1 else s
  else s

/-- R338: every counter of a block that selects the event counts it. -/
def State.count (s : State) (base : Nat) (counters ev n : Nat) : State :=
  (upto counters).foldl (fun s k => s.countAt (base + 16 * k) ev n) s

/-- Counts a core event (R339). -/
def State.countCore (s : State) (c ev n : Nat) : State := s.count (aCore c + 0x100) 8 ev n
/-- Counts a vein event (R339). -/
def State.countVein (s : State) (v ev n : Nat) : State := s.count (aVein v + 0x500) 8 ev n
/-- R339: a word of main memory is read. -/
def State.countRead (s : State) (g : Nat) : State := if place g == .main then s.countVein (veinOf g) 0x01 1 else s

/-- R330, R335, R339, R353: a word of main memory is written back, corrected, replaced or as poison. -/
def State.writtenBack (s : State) (g : Nat) : State := if place g == .main then s.countVein (veinOf g) 0x02 1 else s

/-- Counts a package event (R339). -/
def State.countPkg (s : State) (ev n : Nat) : State := s.count aPkgCnt 16 ev n

/-- R339, R448: a port has accepted a request: it is sent, and the next one comes after it. -/
def State.tookPort (s : State) : State := { s with nextId := s.nextId + 1 }.countPkg 0x05 1

/-- R445: a request that a port holds has its answer: the retries in a row end. -/
def State.portAnswered (s : State) (r : PortReq) : State := { s with flitRuns := s.flitRuns.del r.port }

/-- R450: FABERR logs a failure. -/
def State.fabErr (s : State) (lode cause : Nat) : State :=
  let a := 0x800000C0C00
  ((s.devAdd a 31 0 1).devPut a 47 32 lode).devPut a 51 48 cause

/-! ## Mirrored ranges -/

/-- Registers of a mirrored range (R350). -/
abbrev aMir (k : Nat) : Nat := 0x80000070000 + 0x20 * k

/-- STATE of a mirrored range (R350). -/
def State.mirState (s : State) (k : Nat) : Nat := s.devFld (aMir k + 0x10) 2 1

/-- R350: an address lies in the range that registers name. -/
def State.mirHolds (s : State) (k pa : Nat) : Bool :=
  let base := 2 ^ 21 * s.devFld (aMir k) 38 21
  decide (base ≤ pa ∧ pa < base + 2 ^ 21 * s.devFld (aMir k + 8) 18 0)

/-- R351: the range that forwards the writes of an address. -/
def State.mirrorOf (s : State) (pa : Nat) : Option Nat :=
  (upto 16).find? fun k => (s.mirState k == 1 || s.mirState k == 2) && s.mirHolds k pa

/-- R352: the range, broken and still enabled, that an address lies in. -/
def State.brokenOf (s : State) (pa : Nat) : Option Nat := (upto 16).find? fun k => s.mirState k == 3 && s.mirHolds k pa

/-- R350, R351: the partner's address of a word of a range: PBASE + (pa − LBASE). -/
def State.mirPartner (s : State) (k word : Nat) : Nat :=
  2 ^ 21 * s.devFld (aMir k + 0x10) 38 21 + 32 * word - 2 ^ 21 * s.devFld (aMir k) 38 21

/-- LODE of a mirrored range (R350). -/
def State.mirLode (s : State) (k : Nat) : Nat := s.devFld (aMir k + 0x10) 63 48

/-- R351: the mirror write of a word as it stands, whole and with its poison. -/
def State.mirWrite (s : State) (k word : Nat) (w : Author) : MirWrite where
  k := k
  word := word
  addr := s.mirPartner k word
  data := BitVec.ofNat 256 (s.numAt (32 * word) 32)
  poison := s.poisoned (32 * word)
  author := w

/-- R443, R448: the request of a mirror write that waits for a port with room. -/
def State.mirTakes (s : State) (w : MirWrite) : Option PortReq :=
  if w.port.isNone && w.fwd && s.mirState w.k != 3 && s.route (s.mirLode w.k) w.addr == .away then
    s.portTakes (s.mirLode w.k) w.addr
  else none

/-- R443, R448: the oldest mirror write that waits for a port takes one that has room. -/
def State.mirPort (s : State) : State :=
  match s.mirQ.findIdx? fun w => (s.mirTakes w).isSome with
  | some i => { s with mirQ := s.mirQ.modify i fun w => { w with port := s.mirTakes w } }.tookPort
  | none => s

/-- R351, R352: a write of a word is sent to the partner as the whole word after any merge. One by a facet while the range is broken is
not sent and stays unacknowledged. -/
def State.mirrorWord (s : State) (word : Nat) (w : Author) : State :=
  match s.mirrorOf (32 * word) with
  | some k => { s with mirQ := s.mirQ ++ [s.mirWrite k word w] }.mirPort
  | none =>
    if w.id = 0 then s
    else
      match s.brokenOf (32 * word) with
      | some k => { s with mirQ := s.mirQ ++ [{ s.mirWrite k word w with fwd := false }] }
      | none => s

/-- R355, R356: every mapped slot holds the newest value of its NOTIFY word; a value beyond its ring is an overrun. -/
def State.notify (s : State) : State :=
  { s with
    slots := s.slots.map fun e =>
      if e.2.state == 0 then e
      else
        let w := BitVec.ofNat 32 (s.numAt e.2.qaddr.toNat 4)
        (e.1, { e.2 with widx := w, forceErr := e.2.forceErr || decide (2 ^ e.2.log2 < (w - e.2.ridx).toNat) }) }

/-- R351, R356: after bytes have been written, mirrored ranges forward the words they touch and mapped queues their NOTIFY
words. -/
def State.forward (t : State) (pa n : Nat) : State :=
  (if (upto 16).any fun k => t.mirState k == 1 || t.mirState k == 2 then
      (upto (cdiv (pa % 32 + n) 32)).foldl (fun t i => t.mirrorWord (pa / 32 + i) {}) t
    else t).notify

/-- R453: the release write of a record to the ring whose registers lie at `a` interrupts the host cores. -/
def State.interruptHost (s : State) (a : Nat) : State := { s with hostIrqs := s.hostIrqs.upd a 0 (· + 1) }

/-- STATE of a geode (R18). -/
def State.geodeState (s : State) (g : Nat) : Nat := s.devFld (aGeodeMap g) 7 6

/-- Partition of a geode (R18). -/
def State.geodePart (s : State) (g : Nat) : Nat := s.devFld (aGeodeMap g) 10 8

/-- The package power block (R422). -/
abbrev aPower : Nat := 0x800000A0000

/-- GSTATn (R422). -/
abbrev aGstat (n : Nat) : Nat := aPower + 0x100 + 8 * n

/-- R412: the granted level of a geode. -/
def State.granted (s : State) (g : Nat) : Nat := s.devFld (aGstat g) 2 0

/-! ## Requesters and error reports -/

/-- Who makes a request (R327, R334): its REQ code, and what the hotness slots match it by. -/
structure Who where
  req : Nat
  geode : Option Nat := none
  pasid : Option (BitVec 20) := none
  hot : Nat := 0
deriving DecidableEq, Repr

/-- A facet's access. -/
def whoFacet (c : Nat) (pasid : BitVec 20) : Who := { req := geodeOf c, geode := some (geodeOf c), pasid := some pasid }
/-- The host complex. -/
def whoHost : Who := { req := 40, hot := 3 }
/-- Another lode. -/
def whoLode : Who := { req := 41, hot := 4 }

/-- Registers of an error unit: vein 0 to 7, or 8 for the durable tier (R336, R349). -/
def unitBase (u : Nat) : Nat := if u = 8 then 0x80000060100 else aVein u

/-- The error unit of a physical address. -/
def unitOf (pa : Nat) : Nat := if place pa == .durable then 8 else veinOf pa

/-- CHAN of a log entry (R307, R340, R349). -/
def chanNo (pa : Nat) : Nat := if place pa == .durable then 16 * nbits pa 8 8 + (nbits pa 12 9 ^^^ nbits pa 16 13) else chanOf pa

/-- WORD of a log entry (R334, R349). -/
def wordNo (pa : Nat) : Nat := if place pa == .durable then nbits pa 39 6 else nbits pa 38 5

/-- A report of an error (R333): the address of its word or line, its KIND, its symbol and its requester. -/
structure Report where
  pa : Nat
  kind : Nat
  sym : Nat
  req : Nat
deriving DecidableEq, Repr

/-- R333: a report enters the registers and the log of its unit; the KIND of the ring record that follows, and its number. -/
def State.logReport (s : State) (r : Report) : State × Nat × Nat :=
  let u := unitOf r.pa
  let a := unitBase u
  let n := (s.devFld a 29 0 + 1) % 2 ^ 30
  let s := ((s.devPut a 29 0 n).devPut (a + 16) 29 0 n).devPut (a + 16) 63 30 (wordNo r.pa)
  let s := if u < 8 then s.countVein u 0x07 1 else s
  let log := s.logs.get u []
  if log.length < 32 then
    let e : LogEntry :=
      ⟨BitVec.ofNat 64 (n + r.kind * 2 ^ 30 + chanNo r.pa * 2 ^ 34 + r.sym * 2 ^ 40 + r.req * 2 ^ 47), BitVec.ofNat 64 (wordNo r.pa)⟩
    ({ s with logs := s.logs.set u (log ++ [e]) }, 2, n)
  else (s.devAdd (a + 8) 29 0 1, 3, n)

/-- A word or line among others in ascending channel order (R333). -/
def insertChan (g : Nat) : List Nat → List Nat
  | [] => [g]
  | h :: r => if chanNo g < chanNo h then g :: h :: r else h :: insertChan g r

/-- Words or lines that bytes touch, in the order in which their reports are made (R333). -/
def grains (pas : List Nat) : List Nat := (pas.map grainBase).eraseDups.foldl (fun l g => insertChan g l) []

/-- R331, R332: a tolerant substitution counts in SUBST. -/
def State.subst (s : State) (pa : Nat) : State :=
  let s := s.devAdd (unitBase (unitOf pa) + 0x30) 31 0 1
  if unitOf pa < 8 then s.countVein (unitOf pa) 0x08 1 else s

/-- R353: the mirrored range whose partner stands in for a word that is found uncorrectable: it is active and the word
has no unacknowledged mirror write. -/
def State.repairable (s : State) (pa : Nat) : Option Nat :=
  match s.mirrorOf pa with
  | some k => if s.mirState k == 2 && !s.mirQ.any (fun w => w.k == k && w.word == pa / 32) then some k else none
  | none => none

/-- CECNT of an address's channel (R336). -/
abbrev aCecnt (pa : Nat) : Nat := aVein (veinOf pa) + 0x300 + 8 * chanOf pa

/-- A failing symbol of a word, 0 to 35, or of a line, 0 to 71 (R334, R349). -/
def symOf (pa : Nat) (sym : BitVec 7) : Nat := sym.toNat % (if place pa == .durable then 72 else 36)

/-- R353: a word takes the partner's value and is clean; REPAIR counts it. -/
def State.repaired (s : State) (k word : Nat) (bs : List (BitVec 8)) : State :=
  (((s.putRaw (32 * word) bs).cleanWord (32 * word)).writtenBack (32 * word)).devAdd (aMir k + 0x18) 31 0 1

/-- R353: a read has met a word whose value the partner is to give: the repair is asked for, and the row stands. -/
def State.askRepair (s : State) (k g kind req : Nat) (sym : BitVec 7) : State :=
  { s with
    stands := true
    flaws := if s.flaws.any fun x => x.1 == g then s.flaws else s.flaws ++ [(g, .uncorrectable sym)]
    repairs := if s.repairs.any fun r => r.word == g / 32 then s.repairs
      else s.repairs ++ [{ k := k, word := g / 32, kind := kind, req := req, sym := sym }] }

/-- R330, R349, R353: a read meets an error of a word or line: a corrected one counts; an uncorrectable one is to be repaired from the
partner where it can be, and else leaves poison, which goes to a mirror's partner, and a report of a kind. -/
def State.finds (s : State) (g : Nat) (f : Found) (kind req : Nat) : State × List Report :=
  let t := s.forgetFlaw g
  match f with
  | .clean => (t, [])
  | .corrected =>
    (if place g == .main then
        ((t.writtenBack g).devPut (aCecnt g) 31 0 (min 0xFFFFFFFF (t.devFld (aCecnt g) 31 0 + 1))).countVein (veinOf g) 0x06 1
      else t, [])
  | .uncorrectable sym =>
    match t.repairable g with
    | some k => (s.askRepair k g kind req sym, [])
    | none => (((t.poisonWord g).writtenBack g).mirrorWord (g / 32) {}, [⟨g, kind, symOf g sym, req⟩])

/-- R330, R331, R353: a read of the word or line of an address meets the error that stands there. A word that is poisoned already is one
that R331 gives the reader, also in an active mirrored range: the repair of R353 is for an error that is found (log entry 56). -/
def State.findAt (s : State) (pa kind req : Nat) : State × List Report :=
  match s.flaws.find? fun x => x.1 == grainBase pa with
  | some x => if s.poisoned pa then (s, []) else s.finds (grainBase pa) x.2 kind req
  | none => (s, [])

/-- R339: words of main memory from an address on count as a vein event; those of the next vein count there. -/
def State.countWords (s : State) (pa n ev : Nat) : State :=
  let run (s : State) (v a m : Nat) : State := if m = 0 ∨ 8 ≤ v then s else s.countVein v ev ((a + m - 1) / 32 - a / 32 + 1)
  let m := min n (2 ^ 36 * (veinOf pa + 1) - pa)
  if place pa == .main then run (run s (veinOf pa) pa m) (veinOf pa + 1) (pa + m) (n - m) else s

/-- The byte that a tolerant region substitutes (R331). -/
def substByte (tpol : Bool) : BitVec 8 := if tpol then 0xFF else 0

/-- R332, R339: a write of a part of a word or line reads the rest of it: a poisoned one is substituted in a tolerant region, and in a strict one
stays and is reported (KIND 3). -/
def State.mergeWord (s : State) (g : Nat) (tol tpol : Bool) (req : Nat) : State × List Report :=
  let x := s.findAt g 1 req
  let t := if place g == .main then (x.1.countRead g).countVein (veinOf g) 0x03 1 else x.1
  if t.poisoned g && tol then (((t.putRaw g (List.replicate (grain g) (substByte tpol))).cleanWord g).subst g, x.2)
  else (t, if s.poisoned g then [⟨g, 3, 127, req⟩] else x.2)

/-- R330, R332, R339, R342: the hardware writes bytes of its own, and what it has to report: the words at the ends are merged, the words
that they cover become clean, mirrored ranges forward them and mapped queues take their NOTIFY words. -/
def State.writeOwn (s : State) (pa : Nat) (bs : List (BitVec 8)) (tol tpol : Bool := false) (req : Nat := 40) : State × List Report :=
  if bs.isEmpty then (s, [])
  else
    let n := bs.length
    let edges := (grains [pa, pa + n - 1]).filter fun g => !decide (pa ≤ g ∧ g + grain g ≤ pa + n)
    let x := edges.foldl (fun (x : State × List Report) g => let y := x.1.mergeWord g tol tpol req; (y.1, x.2 ++ y.2)) (s, [])
    let s := (x.1.putRaw pa bs).countWords pa n 0x02
    let lines := s.durPoison ++ s.durQ.map DurEntry.line
    let covered := (s.memPoison.map (32 * ·) ++ lines.map (64 * ·) ++ s.flaws.map Prod.fst).filter fun a => decide (pa ≤ a ∧ a + grain a ≤ pa + n)
    ((covered.foldl State.cleanWord s).forward pa n, x.2)

/-- R328, R372, R420: a record is written to the ring whose BASE, HEAD and TAIL registers lie at `a`, `a + 8`, `a + 16`, and what that write
has to report; a LOG2 below `least` turns the ring off. -/
def State.ringWrite (s : State) (a least : Nat) (bs : List (BitVec 8)) : State × List Report :=
  let lg := s.devFld a 3 0
  if lg < least then (s, [])
  else
    let tail := s.devFld (a + 16) 31 0
    let head := s.devFld (a + 8) 31 0
    if (tail + 2 ^ 32 - head) % 2 ^ 32 = 2 ^ lg then (s.devAdd (a + 16) 63 32 1, [])
    else
      let x := s.writeOwn (4096 * s.devFld a 47 12 + bs.length * (tail % 2 ^ lg)) bs
      ((x.1.devAdd (a + 16) 31 0 1).interruptHost a, x.2)

/-- R328: a record of the memory event ring, and what its write has to report. -/
def State.meqWrite (s : State) (kind vein slot seq addr : Nat) : State × List Report :=
  let x := s.ringWrite (aMmr + 0x20) 8 (leBytes 8 (kind + vein * 2 ^ 8 + slot * 2 ^ 11 + seq * 2 ^ 34) ++ leBytes 8 addr)
  (if x.1.devFld (aMmr + 0x30) 31 0 = s.devFld (aMmr + 0x30) 31 0 then x.1 else x.1.countPkg 0x08 1, x.2)

/-- R332, R333: a report, then those that the writes of ring records lead to in their turn; each is of a bad word of the ring, whose
number bounds them. -/
def State.reportIn : Nat → State → Report → State
  | 0, s, _ => s
  | n + 1, s, r =>
    let x := s.logReport r
    if unitOf r.pa < 8 then
      let y := x.1.meqWrite x.2.1 (unitOf r.pa) 0 x.2.2 (grainBase r.pa)
      y.2.foldl (fun s r => State.reportIn n s r) y.1
    else x.1

/-- R333: reports are made, in order. -/
def State.reports (s : State) (rs : List Report) : State :=
  rs.foldl (fun s r => s.reportIn (2 * (s.memPoison.length + s.flaws.length) + 2) r) s

/-- R333: one report at the error unit of an address. -/
def State.report (s : State) (pa kind sym req : Nat) : State := s.reports [⟨pa, kind, sym, req⟩]

/-- R328: posts a record of the memory event ring. -/
def State.meqPost (s : State) (kind vein slot seq addr : Nat) : State := let x := s.meqWrite kind vein slot seq addr; x.1.reports x.2

/-- R372, R420: posts a record of words to a ring; one of 32 bytes covers its word, which no read precedes. -/
def State.ringPost (s : State) (a least : Nat) (ws : List Nat) : State := let x := s.ringWrite a least (ws.flatMap (leBytes 8)); x.1.reports x.2

/-- R330, R349: a word or line that is uncorrectable becomes poisoned, goes to a mirror's partner, and is reported. -/
def State.foundBad (s : State) (g kind req : Nat) (sym : BitVec 7) : State :=
  (((s.poisonWord g).writtenBack g).mirrorWord (g / 32) {}).report g kind (symOf g sym) req

/-- R330: a read meets an error of a word or line. -/
def State.meet (s : State) (g : Nat) (f : Found) (kind req : Nat) : State := let x := s.finds g f kind req; x.1.reports x.2

/-- R330: a read of the word or line of an address meets the error that stands there. -/
def State.meetAt (s : State) (pa kind req : Nat) : State := let x := s.findAt pa kind req; x.1.reports x.2

/-- R330: reads at some addresses meet the errors that stand there. -/
def State.meetAll (s : State) (req : Nat) (l : List Nat) : State := l.foldl (fun s pa => s.meetAt pa 1 req) s

/-- R330: a read of `n` bytes meets the errors that stand there, the one that came first first. -/
def State.meetRun (s : State) (pa n req : Nat) : State :=
  s.meetAll req ((s.flaws.map Prod.fst).filter fun a => decide (a < pa + n ∧ pa < a + grain a))

/-- R330, R339: `n` bytes of memory are read: their words count, and the errors that stand there are met. -/
def State.meetRange (s : State) (pa n req : Nat) : State := (s.meetRun pa n req).countWords pa n 0x01

/-- R330, R332: the hardware writes bytes of its own. -/
def State.putOwn (s : State) (pa : Nat) (bs : List (BitVec 8)) (tol tpol : Bool := false) : State :=
  let x := s.writeOwn pa bs tol tpol
  x.1.reports x.2

/-- A little-endian number that the hardware writes of its own. -/
def State.putOwnNum (s : State) (pa n v : Nat) (tol tpol : Bool := false) : State := s.putOwn pa (leBytes n v) tol tpol

/-- An error comes upon a word of memory or a line of the durable tier that holds none. -/
def State.upset (s : State) (pa : Nat) (sym : Option (BitVec 7)) : State :=
  let g := grainBase pa
  if !(place pa == .main || place pa == .durable) || s.poisoned pa || s.flaws.any (fun x => x.1 == g) then s
  else { s with flaws := s.flaws ++ [(g, match sym with | some y => Found.uncorrectable y | none => Found.corrected)] }

/-- R372: a record of a partition's scheduler event ring. -/
def State.heqPost (s : State) (part kind slot code idx : Nat) (w1 : BitVec 64) : State :=
  s.ringPost (aPart part + 0x10) 4 [kind + slot * 2 ^ 8 + code % 65536 * 2 ^ 16 + idx % 2 ^ 32 * 2 ^ 32, w1.toNat]

/-! ## Page walks -/

/-- Size of a page by PSIZE (R308). -/
def pageBits (ps : BitVec 2) : Nat := if ps == 0 then 16 else if ps == 1 then 21 else 30

/-- First VA bit and number of bits that a level indexes (R313). -/
def levelBits : Nat → Nat × Nat
  | 0 => (16, 5)
  | k + 1 => (21 + 9 * k, 9)

/-- R314, R315: one entry at its level: the leaf, the next table, or the FCODE. -/
def entryAt (lvl e : Nat) : Except (BitVec 4) (Leaf ⊕ Nat) :=
  let addr := 256 * nbits e 47 8
  let rem := e.testBit 7
  let lode := nbits e 63 48
  if !e.testBit 0 then .error 1
  else if e.testBit 1 then
    let ps : BitVec 2 := if lvl = 0 then 0 else if lvl = 1 then 1 else 2
    if 3 ≤ lvl then .error 3
    else if addr % 2 ^ pageBits ps ≠ 0 then .error 3
    else if !rem && lode != 0 then .error 3
    else if !rem && place addr == .hole then .error 3
    else if place addr == .device && (rem || lvl != 0) then .error 3
    else
      .ok (.inl { psize := ps, r := e.testBit 2, w := e.testBit 3, tol := e.testBit 4, tpol := e.testBit 5,
                  pin := e.testBit 6, rem := rem, dev := !rem && place addr == .device,
                  frame := BitVec.ofNat 32 (addr / 65536), lode := BitVec.ofNat 16 lode })
  else if lvl = 0 then .error 3
  else if rem || lode != 0 then .error 3
  else if place addr != .main then .error 3
  else if addr % (if lvl = 1 then 256 else 4096) ≠ 0 then .error 3
  else .ok (.inr addr)

/-- R313, R315: the walk from a table of a level, read entry by entry. -/
def State.walkFrom (s : State) (va : Nat) : Nat → Nat → Except (BitVec 4) Leaf
  | 0, _ => .error 3
  | lvl + 1, table =>
    let (lo, n) := levelBits lvl
    let pa := table + 8 * (va / 2 ^ lo % 2 ^ n)
    if s.poisoned pa then .error 6
    else
      match entryAt lvl (s.numAt pa 8) with
      | .error c => .error c
      | .ok (.inl leaf) => .ok leaf
      | .ok (.inr next) => s.walkFrom va lvl next

/-- R313: the addresses of the entries that a walk reads from a table of a level. -/
def State.walkFromPas (s : State) (va : Nat) : Nat → Nat → List Nat
  | 0, _ => []
  | lvl + 1, table =>
    let (lo, n) := levelBits lvl
    let pa := table + 8 * (va / 2 ^ lo % 2 ^ n)
    pa :: match entryAt lvl (s.numAt pa 8) with
      | .ok (.inr next) => s.walkFromPas va lvl next
      | _ => []

/-- R314 to R316: the first table that an entry of the root gives, or the FCODE. An entry that is not valid ends the walk with FCODE 1,
whatever its other bits hold (log entry 56). -/
def rootAt (e : Nat) : Except (BitVec 4) Nat :=
  if !e.testBit 0 then .error 1
  else if nbits e 11 1 ≠ 0 ∨ nbits e 63 48 ≠ 0 then .error 3
  else if place (4096 * nbits e 47 12) != .main then .error 3
  else .ok (4096 * nbits e 47 12)

/-- R316: the address of the root's entry for an address space. -/
def State.rootPa (s : State) (pasid : BitVec 20) : Nat := 2 ^ 23 * s.devFld aMmr 47 23 + 8 * pasid.toNat

/-- R313: the addresses of the entries that a walk reads, poison apart. -/
def State.walkPas (s : State) (pasid : BitVec 20) (va : Nat) : List Nat :=
  let root := s.rootPa pasid
  if place root != .main then []
  else root :: match rootAt (s.numAt root 8) with | .ok t => s.walkFromPas va 5 t | .error _ => []

/-- R313, R330: entries that a walk reads in turn meet the errors that stand at them; a poisoned one ends it. -/
def State.meetWords (s : State) (req : Nat) : List Nat → State
  | [] => s
  | pa :: r => if (s.meetAt pa 1 req).poisoned pa then s.meetAt pa 1 req else State.meetWords (s.meetAt pa 1 req) req r

/-- R313, R330: the entries of a walk are looked at; an error that stands at one is met, and ends the walk. -/
def State.meetEntries (s : State) (pasid : BitVec 20) (va req : Nat) : State := s.meetWords req (s.walkPas pasid va)

/-- R339: a walk counts, and so does each word that it reads, up to a poisoned one. -/
def State.countWalk (s : State) (pasid : BitVec 20) (va : Nat) : State :=
  let l := s.walkPas pasid va
  (l.take ((l.takeWhile fun a => !s.poisoned a).length + 1)).foldl (fun s a => s.countWords a 8 0x01) (s.countPkg 0x02 1)

/-- R313, R330, R339: a walk is made: its entries are read. -/
def State.meetWalk (s : State) (pasid : BitVec 20) (va req : Nat) : State := (s.meetEntries pasid va req).countWalk pasid va

/-- R313 to R316: the walk of a virtual address of an address space. -/
def State.walk (s : State) (pasid : BitVec 20) (va : Nat) : Except (BitVec 4) Leaf :=
  let root := s.rootPa pasid
  if place root != .main then .error 3
  else if s.poisoned root then .error 6
  else
    match rootAt (s.numAt root 8) with
    | .error c => .error c
    | .ok t => s.walkFrom va 5 t

/-- Physical address of a virtual one under a leaf. -/
def Leaf.pa (l : Leaf) (va : Nat) : Nat := 65536 * l.frame.toNat + va % 2 ^ pageBits l.psize

/-- R446: the local memory that a leaf gives a virtual address: of a leaf of this lode, or of one with REM that names this lode. -/
def State.leafPa (s : State) (l : Leaf) (va : Nat) : Option Nat :=
  let pa := l.pa va
  if (!l.rem || l.lode.toNat == s.ownLode) && (place pa == .main || place pa == .durable) then some pa else none

/-- R310: a faulted handle: its FCODE and its VA. The rule gives it no other field: the model's R, W, PIN and the rest are zero (log entry
56). -/
def Handle.faulted (va : Nat) (code : BitVec 4) : Handle := { fcode := code, va := BitVec.ofNat 57 va }

/-- R310: a pending handle keeps the permissions asked for, with FCODE 0 (log entry 57). -/
def Handle.pending (va : Nat) (r w : Bool) : Handle := { pend := true, fcode := 0, r := r, w := w, va := BitVec.ofNat 57 va }

/-- R310: a leaf grants what was asked for. -/
def Leaf.grants (l : Leaf) (r w : Bool) : Bool := (!r || l.r) && (!w || l.w)

/-- R310: the handle of a leaf, or faulted with FCODE 2. -/
def Leaf.handle (l : Leaf) (va : Nat) (r w : Bool) : Handle :=
  if l.grants r w then
    { valid := true, pin := l.pin, r := r, w := w, tol := l.tol, tpol := l.tpol, psize := l.psize, rem := l.rem, dev := l.dev
      fcode := 0, frame := l.frame, lode := l.lode, va := BitVec.ofNat 57 va }
  else Handle.faulted va 2

/-! ## Waiting places -/

/-- Withdraws a facet from its meeting (R240) and from the persistence barrier it waits in (R343). -/
def State.withdraw (s : State) (c fn : Nat) : State :=
  let launch := (s.facet c fn).launch
  let s := s.modGeode (geodeOf c) fun g => { g with tsync := g.tsync.filter fun p => !(p.core == c && p.facet == fn) }
  { s.modFacet c fn fun f => { f with pbar := 0, tsyncMet := false } with
    seals := s.seals.filter fun q => q.host || !(q.core == c && q.facet == fn && q.launch == launch) }

/-! ## Control state as software reads it -/

/-- R114: a code address. -/
def codeAddr (bank : Bool) (off : Nat) : Nat := off + (if bank then 32768 else 0)

/-- R142: the segment that holds a place of a core's instruction store carries the system bit. -/
def Core.sysAt (k : Core) (bank : Bool) (pc : Nat) : Bool :=
  k.segs.any fun g => g.sys && g.bank == bank && decide (g.off ≤ pc) && decide (pc < g.off + g.len)

/-- R144: LSTKk.A. -/
def LoopEntry.wordA (e : LoopEntry) : BitVec 64 :=
  BitVec.ofNat 64 (e.start % 32768 + (if e.bank then 2 ^ 15 else 0) + e.stop % 65536 * 2 ^ 16 + (if e.rot then 2 ^ 32 else 0)
    + e.stages.toNat * 2 ^ 33)

/-- R144: the entry of the words LSTKk.A and LSTKk.C. -/
def LoopEntry.ofWords (a c : BitVec 64) : LoopEntry where
  start := wbits a 14 0
  bank := a.getLsbD 15
  stop := wbits a 31 16
  count := c
  rot := a.getLsbD 32
  stages := BitVec.ofNat 2 (wbits a 34 33)

/-- Entry `k` as it reads: zero at or above the depth (R144). -/
def Facet.loopAt (f : Facet) (k : Nat) : LoopEntry := if k < f.lsDepth then f.lstk.get k {} else {}

/-- R143: FSTATE. -/
def fstate (k : Core) (f : Facet) : BitVec 64 :=
  BitVec.ofNat 64 ((if f.bank then 1 else 0) + f.lsDepth * 2 + f.rotBase * 16
    + (if k.sysAt f.bank f.pc then 256 else 0))

/-- R143: writes LSDEPTH and ROTBASE. -/
def Facet.setFstate (f : Facet) (v : BitVec 64) : Facet :=
  let dep := wbits v 3 1
  { f with
    lsDepth := if dep = 7 then f.lsDepth else dep
    rotBase := match f.rotRegion with
      | some (_, n) => wbits v 7 4 % (n / 2)
      | none => 0 }

/-- R386: the facet's logical clock; in a handler it stands at P. -/
def Facet.logical (f : Facet) : Nat := if f.intrap then f.progClock else f.clock

/-- R148: EST at a logical cycle. -/
def Facet.est (f : Facet) : BitVec 64 :=
  if f.estSet == BitVec.allOnes 64 then f.estSet
  else BitVec.ofInt 64 (max ((f.estSet.toNat : Int) - ((f.logical : Int) - (f.estAt.toNat : Int))) 0)

/-- R389: TCAUSE. -/
def TrapCause.code : TrapCause → Nat
  | .illegalEncoding => 1
  | .undefinedOpcode => 2
  | .privileged => 3
  | .outsideAllotment => 4
  | .nonUniform => 5
  | .timingMismatch => 6
  | .handleFault => 7
  | .poisonedOperand => 8
  | .checkMismatch => 9
  | .witnessMismatch => 10
  | .loopOverflow => 11
  | .watchdog => 12
  | .trapi => 13
  | .sys => 14

/-- R389: the word TCAUSE of a trap. -/
def TrapInfo.word (t : TrapInfo) : BitVec 64 :=
  BitVec.ofNat 64 (t.cause.code + t.detail.toNat * 2 ^ 5 + t.fmask.toNat * 2 ^ 10 + t.fslot.toNat * 2 ^ 18
    + t.hnum.toNat * 2 ^ 21 + t.fcode.toNat * 2 ^ 26 + (if t.cause = .sys ∨ t.cause = .trapi then 2 ^ 30 else 0))

/-- R382: the cause is delivered by park. -/
def TrapInfo.parks (t : TrapInfo) : Bool :=
  match t.cause with
  | .poisonedOperand => true
  | .watchdog => true
  | .handleFault => t.fcode == 1 || t.fcode == 2 || t.fcode == 3 || t.fcode == 6
  | _ => false

/-- R308: the image of a handle. -/
def Handle.word0 (h : Handle) : Nat :=
  let b (x : Bool) (k : Nat) : Nat := if x then 2 ^ k else 0
  b h.valid 0 + b h.pend 1 + b h.pin 2 + b h.sys 3 + b h.r 4 + b h.w 5 + b h.tol 6 + b h.tpol 7 + h.psize.toNat * 2 ^ 8
    + b h.rem 10 + b h.dev 11 + h.fcode.toNat * 2 ^ 12 + h.frame.toNat * 2 ^ 16 + h.lode.toNat * 2 ^ 48

/-! ## The trap frame -/

/-- A register as trap entry reads it: its file, or an undefined value while a result is on its way to it (R3, R386). -/
def Facet.frameS (f : Facet) (ctr n : Nat) : Nat := (if f.replayed (.s n) then Config.freeWord ctr n else f.s.get n 0).toNat
/-- A parameter as trap entry reads it. -/
def Facet.frameQ (f : Facet) (ctr n : Nat) : Nat := (if f.replayed (.q n) then Config.freeWord ctr (64 + n) else f.q.get n 0).toNat
/-- A descriptor as trap entry reads it. -/
def Facet.frameD (f : Facet) (ctr n : Nat) : Nat := (if f.replayed (.d n) then Config.freeWord ctr (128 + n) else f.d.get n 0).toNat
/-- A check register as trap entry reads it. -/
def Facet.frameY (f : Facet) (ctr n : Nat) : Nat := (if f.replayed (.y n) then Config.freeWord ctr (192 + n) else f.y.get n 0).toNat
/-- An address register as trap entry reads it. -/
def Facet.frameX (f : Facet) (ctr n : Nat) : Nat := (if f.replayed (.x n) then Config.freeAddr ctr n else f.x.get n 0).toNat
/-- A mask as trap entry reads it. -/
def Facet.frameM (f : Facet) (ctr n : Nat) : Nat := (if f.replayed (.m n) then Config.freeMask ctr n else f.m.get n 0).toNat
/-- The guards as trap entry reads them, g0 true. -/
def Facet.frameG (f : Facet) (ctr : Nat) : Nat :=
  (upto 8).foldl (fun a n =>
    a + if (if n = 0 then true else if f.replayed (.g n) then Config.freeBool ctr n else f.g.getLsbD n) then 2 ^ n else 0) 0
/-- A handle as trap entry reads it (R311). -/
def Facet.frameH (f : Facet) (ctr n : Nat) : Handle :=
  pickHandle ctr n (f.h.get n {}) 0 (if f.replayed (.h n) then f.replay.filterMap (·.handle? n) else [])

/-- The 8-byte words of a frame up to 0x800, by offset / 8 (R390); of more covered errors than MERR holds it lists the oldest 16 (log
entry 53). -/
def frameWord (k : Core) (f : Facet) (ctr : Nat) (cause info : BitVec 64) (clock off : Nat) : Nat :=
  if off = 0x000 then cause.toNat
  else if off = 0x008 then info.toNat
  else if off = 0x010 then codeAddr f.bank f.pc
  else if off = 0x018 then clock
  else if off = 0x020 then (fstate k f).toNat
  else if off = 0x028 then f.flags.toNat
  else if off = 0x030 then f.group.toNat
  else if off = 0x038 then f.estSet.toNat
  else if off = 0x040 then f.estAt.toNat
  else if off = 0x048 then f.frameG ctr
  else if off = 0x050 then (match f.rbase with | some b => b % 2 ^ 63 | none => 2 ^ 63)
  else if 0x080 ≤ off ∧ off < 0x0E0 then
    let e := f.loopAt ((off - 0x80) / 16)
    if off % 16 = 0 then e.wordA.toNat else e.count.toNat
  else if 0x0E0 ≤ off ∧ off < 0x160 then
    match f.merr[(off - 0xE0) / 8]? with
    | some c => c.code + 32
    | none => 0
  else if 0x160 ≤ off ∧ off < 0x180 then f.frameY ctr ((off - 0x160) / 8)
  else if 0x180 ≤ off ∧ off < 0x1C0 then f.frameQ ctr ((off - 0x180) / 8)
  else if 0x1C0 ≤ off ∧ off < 0x240 then f.frameD ctr ((off - 0x1C0) / 8)
  else if 0x240 ≤ off ∧ off < 0x2C0 then
    let n := (off - 0x240) / 4
    f.frameX ctr n + f.frameX ctr (n + 1) * 2 ^ 32
  else if 0x2C0 ≤ off ∧ off < 0x3C0 then
    let n := (off - 0x2C0) / 16
    let v := if n = 0 then 2 ^ 128 - 1 else f.frameM ctr n
    if off % 16 = 0 then v % 2 ^ 64 else v / 2 ^ 64
  else if 0x400 ≤ off ∧ off < 0x600 then
    (if off = 0x400 then 0 else f.frameS ctr ((off - 0x400) / 8))
  else if 0x600 ≤ off ∧ off < 0x800 then
    let h := f.frameH ctr ((off - 0x600) / 16)
    if off % 16 = 0 then h.word0 else h.va.toNat
  else 0

/-- The frame offset of a register that trap entry reads, for its poison (R390). -/
def frameOff : RegId → Option Nat
  | .s n => some (0x400 + 8 * n)
  | .m n => some (0x2C0 + 16 * n)
  | .x n => some (0x240 + 4 * n)
  | .h n => some (0x600 + 16 * n)
  | .q n => some (0x180 + 8 * n)
  | .d n => some (0x1C0 + 8 * n)
  | .y n => some (0x160 + 8 * n)
  | .g _ => some 0x048
  | .v _ => none

/-- Where a frame stands: in local memory, or at an address of another lode (R384). -/
inductive FramePlace where
  | here (pa : Nat)
  | away (lode pa : Nat)
deriving DecidableEq, Repr

/-- R384 condition 3: where TFRAME translates, through a leaf with PIN and W (log entry 19). -/
def State.framePlace (s : State) (f : Facet) : Option FramePlace :=
  match s.walk f.pasid f.tframe.toNat with
  | .ok l =>
    if !(l.pin && l.w) || f.tframe.toNat % 4096 != 0 then none
    else
      match s.leafPa l f.tframe.toNat with
      | some pa => some (.here pa)
      | none => if l.dev || l.lode.toNat = s.ownLode then none else some (.away l.lode.toNat (l.pa f.tframe.toNat))
  | .error _ => none

/-- R322, R409: the page of TFRAME as a handle names it, pinned while its frame is in use. -/
def State.framePage (s : State) (f : Facet) : Option Handle :=
  match s.walk f.pasid f.tframe.toNat with
  | .ok l => some (l.handle f.tframe.toNat false false)
  | .error _ => none

/-- R384: where the frame stands in local memory. -/
def State.framePa (s : State) (f : Facet) : Option Nat :=
  match s.framePlace f with
  | some (.here pa) => some pa
  | _ => none

/-- R390: the 4,096 bytes of a frame. -/
def frameBytes (k : Core) (f : Facet) (ctr : Nat) (cause info : BitVec 64) (clock : Nat) : List (BitVec 8) :=
  (upto 512).flatMap fun i => leBytes 8 (frameWord k f ctr cause info clock (8 * i))

/-- R390: writes a frame of 4,096 bytes; every word it covers becomes clean, and a register with failing parity makes its
word poison, an undefined one apart (R3); then mirrored ranges forward the words as they stand (R351). -/
def State.putFrame (s : State) (k : Core) (f : Facet) (pa : Nat) (cause info : BitVec 64) (clock : Nat) : State :=
  let s := (s.putRaw pa (frameBytes k f s.freeCtr cause info clock)).countWords pa 4096 0x02
  let s := (upto 128).foldl (fun s i => s.cleanWord (pa + 32 * i)) s
  ((f.poison.filter fun r => !f.replayed r).foldl (fun s r => match frameOff r with | some o => s.poisonWord (pa + o) | none => s) s).forward pa 4096

/-- R384, R443, R448, R450: a frame on another lode leaves the core as stores of its 64-byte lines, which take ports like any store. -/
def State.sendFrame (s : State) (c fn lode pa : Nat) (bs : List (BitVec 8)) : State :=
  let f := s.facet c fn
  let store (i : Nat) : Access :=
    { id := s.nextId + i, core := c, facet := fn, launch := f.launch, task := f.task, scope := 0, home := .remote (BitVec.ofNat 16 lode)
      op := .store (((bs.drop (64 * i)).take 64).mapIdx fun j b => { addr := pa + 64 * i + j, b := b }), pasid := f.pasid }
  { s with accs := s.accs ++ (upto 64).map store, nextId := s.nextId + 64 }

/-- R384, R390: writes the frame of a facet where it stands, and whether it was written. -/
def State.writeFrame (s : State) (c fn : Nat) (cause info : BitVec 64) (clock : Nat) : State × Bool :=
  let k := s.core c
  let f := k.facet fn
  match s.framePlace f with
  | some (.here pa) => (s.putFrame k f pa cause info clock, true)
  | some (.away lode pa) => (s.sendFrame c fn lode pa (frameBytes k f s.freeCtr cause info clock), true)
  | none => (s, false)

/-- R384 condition 2: TBASE is valid and lies in a system segment of the core's store. -/
def tbaseOk (k : Core) (f : Facet) : Bool :=
  f.tbase.getLsbD 63 && wbits f.tbase 62 16 == 0 && f.tbase.toNat % 4 == 0
    && k.sysAt (f.tbase.getLsbD 15) (wbits f.tbase 14 0)

/-- R393, R374: parks a facet with a code and posts the KIND 4 record; where it ran, the selector is to look for another. -/
def State.park (s : State) (c fn : Nat) (code : Nat) : State :=
  let s := s.modFacet c fn fun f => { f with parked := true, parkCode := BitVec.ofNat 8 code, replays := 0, latch := {} }
  let s := s.modCore c fun k => { k with idle := k.idle || fn == k.run }
  let f := s.facet c fn
  let slot := match s.launches.find f.launch with | some l => l.slot | none => 0
  let idx := match s.slots.find slot with | some q => q.ridx.toNat | none => 0
  s.heqPost (s.geodePart (geodeOf c)) 4 slot code idx
    (BitVec.ofNat 64 (geodeOf c + rankOf c * 2 ^ 6 + fn * 2 ^ 10 + (if f.frameOk then 2 ^ 12 else 0) + f.task % 2 ^ 32 * 2 ^ 32))

/-- R385, R395: the facet continues at TBASE in its handler: s1 holds TFRAME and s2 TCAUSE, the handler clock starts at 0. -/
def Facet.enterHandler (f : Facet) : Facet :=
  { f with
    intrap := true
    s := (f.s.set 1 f.tframe).set 2 f.tcause
    poison := f.poison.filter fun r => r != .s 1 && r != .s 2
    wrote := [.s 1, .s 2]
    bank := f.tbase.getLsbD 15
    pc := wbits f.tbase 14 0
    clock := 0
    replays := 0
    parked := false
    latch := {} }

/-- R385, R386: results in flight move into replay registers and the program clock stands at P; a new frame is to be written. -/
def Facet.toReplay (f : Facet) : Facet :=
  { f with replay := f.landings, landings := [], wrote := [], progClock := f.clock, framePorts := [], frameFailed := false, latch := {} }

/-- R384 to R386: a trap of a facet, its bundle cancelled (for `sys` and `trapi`: committed, `pc` and `clock` those of the
next bundle). What R94 calls the log of a parity error is here TCAUSE, the frame and the KIND 4 record of the park, since no rule gives
register errors a log of their own (log entry 56). -/
def State.takeTrapOf (s : State) (c fn : Nat) (t : TrapInfo) : State :=
  let f := s.facet c fn
  if f.intrap then s.park c fn 0x21
  else
    let s := (s.meetWalk f.pasid f.tframe.toNat (geodeOf c)).modFacet c fn fun f =>
      { f.toReplay with tcause := t.word, tinfo := t.info, frameOk := false }
    let k := s.core c
    let f := k.facet fn
    let (s, ok) := s.writeFrame c fn t.word t.info f.progClock
    let page := s.framePage f
    let s := s.modFacet c fn fun f => { f with frameOk := ok, framePage := if ok then page else none }
    if t.parks then s.park c fn t.cause.code
    else if !tbaseOk k f then s.park c fn 0x20
    else if !ok then s.park c fn 0x22
    else s.modFacet c fn Facet.enterHandler

/-- A trap of the running facet, which leaves what its bundle waited in. -/
def State.takeTrap (s : State) (t : TrapInfo) : State := { (s.withdraw s.cur s.fn).takeTrapOf s.cur s.fn t with due := [] }

/-- R395: the frame step of a park by request; TCAUSE and TINFO keep the values of the last trap, since R395 gives the frame's words
alone (log entry 53). -/
def State.parkRequest (s : State) (c fn : Nat) : State :=
  let f := s.facet c fn
  if f.intrap then (s.modFacet c fn fun f => { f with frameOk := true }).park c fn 0x24
  else
    let s := (s.meetWalk f.pasid f.tframe.toNat (geodeOf c)).modFacet c fn Facet.toReplay
    let f := s.facet c fn
    let (s, ok) := s.writeFrame c fn 0 0 f.progClock
    let page := s.framePage f
    (s.modFacet c fn fun f => { f with frameOk := ok, framePage := if ok then page else none }).park c fn 0x24

/-- `n` bytes of a frame as a number; of a frame on another lode they are not known here (log entry 2). -/
def State.frameNumAt (s : State) (p : FramePlace) (off n : Nat) : Nat :=
  match p with
  | .here pa => s.numAt (pa + off) n
  | .away _ pa => leNat ((upto n).map fun i => Config.remoteByte s.freeCtr (pa + off + i))

/-- An 8-byte word of a frame. -/
def State.frameNum (s : State) (p : FramePlace) (off : Nat) : BitVec 64 := BitVec.ofNat 64 (s.frameNumAt p off 8)

/-- R392: what `eret` restores of a facet from its frame. -/
def State.restoreFacet (s : State) (p : FramePlace) (f : Facet) : Facet :=
  let w (off : Nat) : BitVec 64 := s.frameNum p off
  let resume := w 0x10
  let f := f.setFstate (w 0x20)
  { f with
    s := (upto 63).foldl (fun t k => t.set (k + 1) (w (0x408 + 8 * k))) f.s
    g := BitVec.ofNat 8 ((w 0x48).toNat % 256 / 2 * 2 + f.g.toNat % 2)
    m := (upto 15).foldl (fun t k => t.set (k + 1)
      (BitVec.ofNat 128 ((w (0x2D0 + 16 * k)).toNat + (w (0x2D8 + 16 * k)).toNat * 2 ^ 64))) f.m
    x := (upto 32).foldl (fun t k => t.set k (BitVec.ofNat 32 (s.frameNumAt p (0x240 + 4 * k) 4))) f.x
    q := (upto 8).foldl (fun t k => t.set k (w (0x180 + 8 * k))) f.q
    d := (upto 16).foldl (fun t k => t.set k (w (0x1C0 + 8 * k))) f.d
    y := (upto 4).foldl (fun t k => t.set k (w (0x160 + 8 * k))) f.y
    flags := BitVec.ofNat 6 (w 0x28).toNat
    lstk := (upto 6).foldl (fun t k => t.set k (LoopEntry.ofWords (w (0x80 + 16 * k)) (w (0x88 + 16 * k)))) f.lstk
    estSet := w 0x38
    estAt := w 0x40
    rbase := if (w 0x50).getLsbD 63 then none else some ((w 0x50).toNat)
    poison := f.poison.filter fun r => match r with | .v _ => true | .h _ => true | _ => false
    intrap := false
    parked := false
    framePage := none
    framePorts := []
    frameFailed := false
    replays := 0
    clock := f.progClock
    landings := f.replay
    replay := []
    wrote := []
    bank := resume.getLsbD 15
    pc := wbits resume 14 0
    latch := {} }

/-- The 32-byte words of a frame that `eret` reads (R390, R392). -/
def frameReadWords : List Nat := [0, 1, 2, 4, 5, 6] ++ (upto 19).map (· + 11) ++ (upto 16).map (· + 32)

/-- R390, R392, R450: a word that `eret` reads of a frame is poisoned; of a frame on another lode, that one of its reads has failed. -/
def State.framePoisoned (s : State) (f : Facet) (p : FramePlace) : Bool :=
  match p with
  | .here pa => frameReadWords.any fun i => s.poisoned (pa + 32 * i)
  | .away _ _ => f.frameFailed

/-- R330, R339, R392: the words that `eret` reads of a frame count and meet the errors that stand there. -/
def State.meetPlace (s : State) (req : Nat) : Option FramePlace → State
  | some (.here pa) => frameReadWords.foldl (fun s i => s.meetRange (pa + 32 * i) 32 req) s
  | _ => s

/-- R330, R392: a return reads its frame: the walk of TFRAME and the words read meet the errors that stand there. -/
def State.meetFrame (s : State) (c fn : Nat) : State :=
  let f := s.facet c fn
  let t := s.meetWalk f.pasid f.tframe.toNat (geodeOf c)
  t.meetPlace (geodeOf c) (t.framePlace f)

/-- R392: the return from a handler; a frame that is poisoned or holds a malformed RESUME parks with code 0x22. -/
def State.returnFrom (s : State) (c fn : Nat) : State :=
  let s := s.meetFrame c fn
  let f := s.facet c fn
  match s.framePlace f with
  | none => s.park c fn 0x22
  | some p =>
    let resume := s.frameNum p 0x10
    if s.framePoisoned f p || wbits resume 63 16 != 0 || wbits resume 1 0 != 0 then
      (s.modFacet c fn fun f => { f with framePorts := [], frameFailed := false }).park c fn 0x22
    else (s.modCore c fun k => k.landAll fn).modFacet c fn fun f => s.restoreFacet p f

end Sys2Proof.Machine
end

