-- ==== Sys2Proof/Machine/Operands.lean ====
section
/-! DEFINITION. Operand forms: elements and masks of vector registers (06 R152, R153), scratchpad addresses and footprints
(08 R218, R219), handle addresses (11 R318), the sources and destinations of every slot operation (R32, R54), and the
elements that loads and stores move (08 R224 to R231). -/

namespace Sys2Proof.Machine

/-! ## Vector elements -/

/-- Value bits of element `i` of width `w` bytes (R152). -/
def VReg.elem (r : VReg) (w i : Nat) : Nat := r.val.toNat / 2 ^ (8 * w * i) % 2 ^ (8 * w)

/-- Tail of element `i`: the pair of its lowest byte lane (R75). -/
def VReg.tailAt (r : VReg) (w i : Nat) : Nat := r.tail.toNat / 2 ^ (2 * w * i) % 4

/-- All tail pairs of the lanes of element `i`. -/
def VReg.tails (r : VReg) (w i : Nat) : Nat := r.tail.toNat / 2 ^ (2 * w * i) % 2 ^ (2 * w)

/-- A register of elements given as value bits and tail pairs, the first lowest. -/
def VReg.ofElems (w : Nat) (l : List (Nat × Nat)) : VReg where
  val := BitVec.ofNat 1024 (l.foldr (fun e acc => e.1 % 2 ^ (8 * w) + 2 ^ (8 * w) * acc) 0)
  tail := BitVec.ofNat 256 (l.foldr (fun e acc => e.2 % 2 ^ (2 * w) + 2 ^ (2 * w) * acc) 0)

/-- R153: element `i` of width `w` is active. -/
def active (m : BitVec 128) (w i : Nat) : Bool := m.getLsbD (w * i)

/-- R153, governing mask: active elements are given by `f` (value, tail, flags), the others keep value and tails. -/
def govern (w : Nat) (m : BitVec 128) (old : VReg) (f : Nat → Nat × Nat × BitVec 6) : VReg × BitVec 6 :=
  let es := (upto (128 / w)).map fun i =>
    if active m w i then f i else (old.elem w i, old.tails w i, 0)
  (VReg.ofElems w (es.map fun e => (e.1, e.2.1)), es.foldl (fun a e => a ||| e.2.2) 0)

/-- Every element is given by `f` (value and tail). -/
def VReg.build (w : Nat) (f : Nat → Nat × Nat) : VReg := VReg.ofElems w ((upto (128 / w)).map f)

/-- A mask with the `w` bits of each element for which `p` holds, all others clear (R162, R163). -/
def maskOf (w : Nat) (p : Nat → Bool) : BitVec 128 :=
  BitVec.ofNat 128 ((upto (128 / w)).foldr (fun i acc => (if p i then 2 ^ w - 1 else 0) + 2 ^ w * acc) 0)

/-- Element as value and tail, to be moved (R76). -/
def VReg.pick (r : VReg) (w i : Nat) : Nat × Nat := (r.elem w i, r.tailAt w i)

/-- The number an element denotes (R74). -/
def VReg.num (r : VReg) (t : BitVec 5) (i : Nat) : Num := exactNum (fmtOf t) (r.elem (tyBytes t) i) (r.tailAt (tyBytes t) i)

/-- Signed integer types (R72). -/
def signedTy (t : BitVec 5) : Bool := decide (16 ≤ t.toNat ∧ t.toNat ≤ 20)

/-- The integer an element denotes (R72, R168). -/
def intOf (t : BitVec 5) (v : Nat) : Int :=
  if signedTy t then sextNat v (if t == 16 then 4 else 8 * tyBytes t) else (v : Int)

/-- The image of a register: 128 value bytes, 32 tail bytes (R101). -/
def VReg.image (r : VReg) : List (BitVec 8) := leBytes 128 r.val.toNat ++ leBytes 32 r.tail.toNat

/-- The register of an image (R103). -/
def VReg.ofImage (b : List (BitVec 8)) : VReg :=
  ⟨BitVec.ofNat 1024 (leNat (b.take 128)), BitVec.ofNat 256 (leNat (b.drop 128))⟩

/-! ## Scratchpad addresses -/

/-- R218: bits [23:0] of a base plus a signed offset. -/
def spAddr (x : BitVec 32) (off : Int) : Nat := wrapInt ((x.toNat : Int) + off) 24

/-- Core rank of a scratchpad address (R218). -/
def spRank (a : Nat) : Nat := a / 2 ^ 20 % 16

/-- Program offset of a scratchpad address (R218). -/
def spOff (a : Nat) : Nat := a % 2 ^ 20

/-- R216: a launch's window on a core: its physical pages in window order. -/
def State.window (s : State) (launch c : Nat) : List Nat :=
  match s.launches.find launch with
  | some l => l.windows.get c []
  | none => []

/-- R216: physical scratchpad offset of a program offset. -/
def spPhys (pages : List Nat) (o : Nat) : Nat := 4096 * pages.getD (o / 4096) 0 + o % 4096

/-- Core that a scratchpad address of the running core names. -/
def State.spCore (s : State) (a : Nat) : Nat := coreAt (geodeOf s.cur) (spRank a)

/-- R219: `n` bytes from an address lie in the launch's window on the core it names. -/
def State.spOk (s : State) (a n : Nat) : Bool := decide (spOff a + n ≤ 4096 * (s.window s.me.launch (s.spCore a)).length)

/-- Physical offsets of `n` bytes from a scratchpad address. -/
def State.spBytes (s : State) (a n : Nat) : List Nat :=
  let w := s.window s.me.launch (s.spCore a)
  (upto n).map fun k => spPhys w (spOff a + k)

/-- R222: stops of a peer request. -/
def peerHops (t u : Nat) : Nat := (t + 16 - u) % 16 + 1

/-- R48, R222: bound of a scratchpad load by the rank of its address. -/
def State.spBound (s : State) (a : Nat) : Nat :=
  if spRank a = rankOf s.cur then 6 else 2 * peerHops (spRank a) (rankOf s.cur) + 8

/-- R215: bank of a scratchpad offset. -/
def bankOf (o : Nat) : Nat := o / 32 % 32

/-- R215: the set of banks of physical offsets. -/
def banksOf (os : List Nat) : BitVec 32 := os.foldl (fun b o => b ||| BitVec.ofNat 32 (2 ^ bankOf o)) 0

/-- R267: some bank of the set is locked by a transfer issued before the one named. -/
def Core.lockedBefore (k : Core) (id : Nat) (b : BitVec 32) : Bool := k.locks.any fun l => decide (l.id < id) && l.banks &&& b != 0

/-- R234, R296: a lock holds an access made as number `id`: one issued before it, or one whose transfer has written a byte. -/
def Core.lockHolds (k : Core) (id : Nat) (b : BitVec 32) : Bool :=
  k.locks.any fun l => (decide (l.id < id) || l.started) && l.banks &&& b != 0

/-- R296: the transfer that holds a lock begins to write. -/
def Core.startLock (k : Core) (id : Nat) : Core :=
  { k with locks := k.locks.map fun l => if l.id == id then { l with started := true } else l }

/-- R221, R267: some bank of the set is locked on a core. -/
def Core.locked (k : Core) (b : BitVec 32) : Bool := k.locks.any fun l => l.banks &&& b != 0

/-! ## Footprints of vector accesses -/

/-- R225: elements that a masked access reads or writes. -/
def activeList (m : BitVec 128) (w : Nat) : List Nat := (upto (128 / w)).filter fun i => active m w i

/-- R225: addresses of strided elements. -/
def strideAddr (x : BitVec 32) (stride : BitVec 22) (i : Nat) : Nat := spAddr x ((i : Int) * stride.toInt)

/-- R225: addresses of indexed elements. -/
def indexAddr (x : BitVec 32) (vi : VReg) (i : Nat) : Nat := spAddr x (sextNat (vi.elem 4 i) 32)

/-- R219: every element of an access of separate elements lies in one window of one rank. -/
def State.elemsOk (s : State) (addrs : List Nat) (w : Nat) : Bool :=
  match addrs with
  | [] => true
  | a :: _ => addrs.all fun b => spRank b == spRank a && s.spOk b w

/-- R227: bytes that `ld.q` reads for `n` elements of a memory format. -/
def ldqBytes (mf : BitVec 4) (n : Nat) : Nat :=
  match mf.toNat with
  | 1 => 2 * n | 2 => 2 * n | 3 => n | 4 => n | 5 => n / 2 | 6 => 5 * n / 8 | 7 => 9 * n / 8 | 8 => n / 2 | 9 => n | 10 => n
  | 11 => 2 * n | _ => 2 * n

/-- R229, R230: bytes of the footprint of a contiguous vector store. -/
def stvBytes (t : BitVec 5) (src : BitVec 4) : Nat :=
  let n := 128 / stWidth t src
  if t == 16 || t == 6 then n / 2
  else if t == 7 then 5 * n / 8
  else if t == 8 then 9 * n / 8
  else n * tyBytes t

/-! ## Loads -/

/-- Element of a memory format as `ld.q` widens it to type `t`: value bits and flags (R228). -/
def widenElem (mf : BitVec 4) (t : BitVec 5) (bs : List (BitVec 8)) (i : Nat) : Nat × BitVec 6 :=
  let byte (k : Nat) : Nat := (bs.getD k 0).toNat
  let nib (k : Nat) : Nat := byte (k / 2) / 16 ^ (k % 2) % 16
  let flt (f : Nat) (v : Nat) : Nat × BitVec 6 := ((ro (exactNum (fmtOf (BitVec.ofNat 5 f)) v 0) (fmtOf t)).1, 0)
  let int (v : Int) : Nat × BitVec 6 := (wrapInt v (8 * tyBytes t), 0)
  let blk (f : Nat) (v e : Nat) : Nat × BitVec 6 :=
    if e = 255 then ((fmtOf t).nan, 0)
    else finalFloat ((exactNum (fmtOf (BitVec.ofNat 5 f)) v 0).scale ((e : Int) - 127)) (fmtOf t) 0
  match mf.toNat with
  | 1 => flt 2 (byte (2 * i) + 256 * byte (2 * i + 1))
  | 2 => flt 3 (byte (2 * i) + 256 * byte (2 * i + 1))
  | 3 => flt 4 (byte i)
  | 4 => flt 5 (byte i)
  | 5 => flt 6 (nib i)
  | 6 => blk 6 (byte (5 * (i / 8) + i % 8 / 2) / 16 ^ (i % 2) % 16) (byte (5 * (i / 8) + 4))
  | 7 => blk 4 (byte (9 * (i / 8) + i % 8)) (byte (9 * (i / 8) + 8))
  | 8 => int (sextNat (nib i) 4)
  | 9 => int (sextNat (byte i) 8)
  | 10 => int (byte i)
  | 11 => int (sextNat (byte (2 * i) + 256 * byte (2 * i + 1)) 16)
  | _ => int (byte (2 * i) + 256 * byte (2 * i + 1))

/-- Position of an element in a list of elements. -/
def idxOf (l : List Nat) (i : Nat) : Nat := l.idxOf i

/-- R224 to R228, R103: the register write of a load and its flags, from the bytes it read. -/
def loadWrite (dst : LoadDst) (bs : List (BitVec 8)) : RegWrite × BitVec 6 :=
  match dst with
  | .scalar d n sx =>
    (.s d (if sx then BitVec.ofInt 64 (sextNat (leNat bs) (8 * n)) else BitVec.ofNat 64 (leNat bs)), 0)
  | .vector p w elems act old =>
    (.v p (VReg.ofElems w ((upto (128 / w)).map fun i =>
      if act.contains i then (leNat ((bs.drop (w * idxOf elems i)).take w), 0) else (old.elem w i, old.tails w i))), 0)
  | .mask d => (.m d (BitVec.ofNat 128 (leNat bs)), 0)
  | .image p => (.v p (VReg.ofImage bs), 0)
  | .widen p mf t act old =>
    let w := tyBytes t
    let es := (upto (128 / w)).map fun i =>
      if act.contains i then (let e := widenElem mf t bs i; (e.1, 0, e.2)) else (old.elem w i, old.tails w i, (0 : BitVec 6))
    (.v p (VReg.ofElems w (es.map fun e => (e.1, e.2.1))), es.foldl (fun a e => a ||| e.2.2) 0)

/-- The register a load writes. -/
def LoadDst.reg : LoadDst → RegWrite
  | .scalar d _ _ => .s d 0
  | .vector p _ _ _ _ => .v p {}
  | .mask d => .m d 0
  | .image p => .v p {}
  | .widen p _ _ _ _ => .v p {}

/-! ## Stores -/

/-- R71: the exponent byte and element bits of a block of eight sources under scale byte `e`; a NaN or an infinity among
them makes the whole block NaN. A given byte of 0xFF raises no flag (R167), for sources that hold an infinity too (log entry 56). -/
def blockStore (f : Nat) (e : Nat) (mode : BitVec 3) (xs : List Num) : List Nat × Nat × BitVec 6 :=
  let fm := fmtOf (BitVec.ofNat 5 f)
  if e = 255 then ((upto 8).map fun _ => 0, 255, 0)
  else if xs.any fun x => match x with | .fin .. => false | _ => true then
    ((upto 8).map fun _ => 0, 255, if xs.any fun x => match x with | .inf _ => true | _ => false then fInvalid else 0)
  else
    let rs := xs.map fun x => finalFloat (x.scale (127 - (e : Int))) fm mode
    (rs.map (·.1), e, rs.foldl (fun a r => a ||| r.2) 0)

/-- R229: the value bits that a store writes for one element of the source register, and its flags. -/
def storeElem (t : BitVec 5) (src : BitVec 4) (mode : BitVec 3) (r : VReg) (i : Nat) : Nat × BitVec 6 :=
  let ws := stWidth t src
  let fl := decide (1 ≤ (stSrc t src).toNat ∧ (stSrc t src).toNat ≤ 5)
  if fl then finalRound (r.num (stSrc t src) i) t mode else (r.elem ws i, 0)

/-- The bytes of one value of width `w` at an address. -/
def valueWrites (addr w v : Nat) : List ByteWrite := (leBytes w v).mapIdx fun k b => { addr := addr + k, b := b }

/-- R230: byte writes of a contiguous vector store from base 0, and its flags. -/
def stvWrites (t : BitVec 5) (src : BitVec 4) (mode : BitVec 3) (m : BitVec 128) (r r1 : VReg) : List ByteWrite × BitVec 6 :=
  let ws := stWidth t src
  let n := 128 / ws
  if t == 7 || t == 8 then
    let f := if t == 7 then 6 else 4
    let sz := if t == 7 then 5 else 9
    let bl := (upto (n / 8)).map fun g =>
      (g, blockStore f (r1.elem 1 g) mode ((upto 8).map fun k => r.num (stSrc t src) (8 * g + k)))
    let body (es : List Nat) : List (BitVec 8) :=
      if t == 7 then (upto 4).map fun k => BitVec.ofNat 8 (es.getD (2 * k) 0 + 16 * es.getD (2 * k + 1) 0)
      else es.map (BitVec.ofNat 8)
    (bl.flatMap fun b => (body b.2.1 ++ [BitVec.ofNat 8 b.2.2.1]).mapIdx fun k v => { addr := sz * b.1 + k, b := v },
      bl.foldl (fun a b => a ||| b.2.2.2) 0)
  else
    let es := (activeList m ws).map fun i => (i, storeElem t src mode r i)
    let put (e : Nat × Nat × BitVec 6) : List ByteWrite :=
      if t == 16 || t == 6 then
        [{ addr := e.1 / 2, b := BitVec.ofNat 8 (e.2.1 % 16 * 16 ^ (e.1 % 2)), bits := if e.1 % 2 = 0 then 0x0F else 0xF0 }]
      else valueWrites (e.1 * tyBytes t) (tyBytes t) e.2.1
    (es.flatMap put, es.foldl (fun a e => a ||| e.2.2) 0)

/-- R230: byte writes of a store of separate elements, at the address of each, and its flags. -/
def stxWrites (t : BitVec 5) (src : BitVec 4) (mode : BitVec 3) (m : BitVec 128) (r : VReg) (addr : Nat → Nat) :
    List ByteWrite × BitVec 6 :=
  let es := (activeList m (stWidth t src)).map fun i => (i, storeElem t src mode r i)
  (es.flatMap fun e => valueWrites (addr e.1) (tyBytes t) e.2.1, es.foldl (fun a e => a ||| e.2.2) 0)

/-- R231: bytes and flags of a scalar store. -/
def scalarStore (t : BitVec 5) (mode : BitVec 3) (sz : BitVec 2) (v : BitVec 64) : List (BitVec 8) × BitVec 6 :=
  if t == 0 then (leBytes (2 ^ sz.toNat) v.toNat, 0)
  else
    let r := finalRound (exactNum (fmtOf 1) (v.toNat % 2 ^ 32) 0) t mode
    (leBytes (tyBytes t) r.1, r.2)

/-- R232: new value, flags, and the value of the register, of an atomic on a word of `w` bytes. -/
def atomicNew (w : Nat) (op : BitVec 4) (t : BitVec 5) (mode : BitVec 3) (old opd cmp : Nat) : Nat × BitVec 6 :=
  let so := sextNat old (8 * w)
  let sp := sextNat opd (8 * w)
  let f := fmtOf 1
  match op.toNat with
  | 0 => ((old + opd) % 2 ^ (8 * w), 0)
  | 1 => (if so ≤ sp then old else opd, 0)
  | 2 => (if sp ≤ so then old else opd, 0)
  | 3 => (if old ≤ opd then old else opd, 0)
  | 4 => (if opd ≤ old then old else opd, 0)
  | 5 => (opd, 0)
  | 6 => (if old = cmp then opd else old, 0)
  | 7 =>
    let x := (exactNum f old 0).add (exactNum f opd 0)
    let r := finalRound x.1 t mode
    (r.1, r.2 ||| x.2)
  | _ => ((fminmax f true (old, 0) (opd, 0)).1, 0)

/-- R232: what an atomic writes to its scalar register. -/
def atomicOld (t : BitVec 5) (w old : Nat) : BitVec 64 :=
  if t == 19 then BitVec.ofInt 64 (sextNat old (8 * w)) else BitVec.ofNat 64 old

/-! ## Handle addresses -/

/-- R318: effective address of a handle access. -/
def hAddr (h : Handle) (x : BitVec 32) (imm : BitVec 17) : Nat := h.va.toNat + x.toNat + 64 * imm.toNat

/-- R318: base of a handle's page. -/
def Handle.base (h : Handle) : Nat := h.va.toNat / 2 ^ pageBits h.psize * 2 ^ pageBits h.psize

/-- R318: the footprint lies in the page. -/
def Handle.inPage (h : Handle) (ea n : Nat) : Bool := decide (h.base ≤ ea ∧ ea + n ≤ h.base + 2 ^ pageBits h.psize)

/-- R318: physical address of an effective one. -/
def Handle.pa (h : Handle) (ea : Nat) : Nat := 65536 * h.frame.toNat + (ea - h.base)

/-- R280: home of an access through a handle. -/
def Handle.home (h : Handle) : Home :=
  if h.rem then .remote h.lode
  else if h.dev then .device
  else if place (65536 * h.frame.toNat) == .durable then .durable else .main

/-- R280, R446: home of an access to a physical address through a handle; a handle with REM that names this lode reaches this
lode's own home for the byte. -/
def State.homeOf (s : State) (h : Handle) (pa : Nat) : Home :=
  if h.rem && h.lode.toNat == s.ownLode then
    match place pa with
    | .main => .main
    | .durable => .durable
    | _ => h.home
  else h.home

/-- R319, R446: bound of a load or atomic through a handle, by the home of its page. -/
def State.boundOf (s : State) (h : Handle) : Nat :=
  let dur := place (65536 * h.frame.toNat) == .durable
  if h.rem && h.lode.toNat != s.ownLode then (if dur then 8192 else 6144) else if dur then 4096 else 1024

/-! ## Sources and destinations -/

/-- R153: the destination of a governed write is a source unless the mask is m0. -/
def govSrc (f : Facet) (m : BitVec 4) (d : BitVec 9) : List RegId := if m == 0 then [] else [.v (f.phys d)]

/-- R153: a governed mask destination likewise. -/
def govMaskSrc (m md : BitVec 4) : List RegId := if m == 0 then [] else [.m md.toNat]

/-- R160: the destination of a conversion is a source when it is governed or narrows. -/
def cvtSrc (f : Facet) (m : BitVec 4) (d : BitVec 9) (st t : BitVec 5) : List RegId :=
  if tyBytes t < tyBytes st then [.v (f.phys d)] else govSrc f m d

/-- R136: a rotating loop writes g4 to g7. -/
def rotDst (ro : BitVec 1) : List RegId := if ro == 1 then [.g 4, .g 5, .g 6, .g 7] else []

/-- R185: N comes from a scalar register or from q7. -/
def nSrc (sn : BitVec 6) : List RegId := if sn == 0 then [.q 7] else [.s sn.toNat]

/-- R185: a delivery of N writes q7. -/
def nDst (sn : BitVec 6) : List RegId := if sn == 0 then [] else [.q 7]

/-- R232: `cas` reads the register after its operand. -/
def casSrc (op : BitVec 4) (d : BitVec 6) : List RegId := if op == 6 then [.s (d.toNat + 1)] else []

/-- R167: a block store reads the register after its data register. -/
def blockSrc (f : Facet) (a : BitVec 9) (t : BitVec 5) : List RegId := if t == 7 || t == 8 then [.v (f.phys (a + 1))] else []

/-- R274: an operand that is a check or a scalar register. -/
def ysReg (k : BitVec 1) (n : BitVec 6) : RegId := if k == 0 then .y n.toNat else .s n.toNat

/-- R274: the B operand's register, if it names one. -/
def yBSrc (bk : BitVec 2) (b : BitVec 11) : List RegId :=
  match bk.toNat with
  | 0 => [.y (b.toNat / 32)]
  | 1 => [.s (b.toNat / 32)]
  | _ => []

/-- R32: the sources an operation reads at issue, its own guard apart, with vector names resolved (R110): those that its entry names, also
where R92's table grants its slot no such read (R225, R271, R276; log entry 56). -/
def sources (f : Facet) : Instr → List RegId
  | .add _ _ a b => [.s a.toNat, .s b.toNat]
  | .sub _ _ a b => [.s a.toNat, .s b.toNat]
  | .mul _ _ a b => [.s a.toNat, .s b.toNat]
  | .mulh _ _ a b => [.s a.toNat, .s b.toNat]
  | .mulhn _ _ a b => [.s a.toNat, .s b.toNat]
  | .div _ _ a b => [.s a.toNat, .s b.toNat]
  | .divn _ _ a b => [.s a.toNat, .s b.toNat]
  | .rem _ _ a b => [.s a.toNat, .s b.toNat]
  | .remn _ _ a b => [.s a.toNat, .s b.toNat]
  | .and _ _ a b => [.s a.toNat, .s b.toNat]
  | .or _ _ a b => [.s a.toNat, .s b.toNat]
  | .xor _ _ a b => [.s a.toNat, .s b.toNat]
  | .shl _ _ a b => [.s a.toNat, .s b.toNat]
  | .shr _ _ a b => [.s a.toNat, .s b.toNat]
  | .sra _ _ a b => [.s a.toNat, .s b.toNat]
  | .rot _ _ a b => [.s a.toNat, .s b.toNat]
  | .min _ _ a b => [.s a.toNat, .s b.toNat]
  | .max _ _ a b => [.s a.toNat, .s b.toNat]
  | .minn _ _ a b => [.s a.toNat, .s b.toNat]
  | .maxn _ _ a b => [.s a.toNat, .s b.toNat]
  | .sel _ _ a b gs _ => [.s a.toNat, .s b.toNat, .g gs.toNat]
  | .add128 _ _ a b => [.s a.toNat, .s (a.toNat + 1), .s b.toNat, .s (b.toNat + 1)]
  | .addi _ _ a _ => [.s a.toNat]
  | .andi _ _ a _ => [.s a.toNat]
  | .ori _ _ a _ => [.s a.toNat]
  | .xori _ _ a _ => [.s a.toNat]
  | .shli _ _ a _ => [.s a.toNat]
  | .shri _ _ a _ => [.s a.toNat]
  | .srai _ _ a _ => [.s a.toNat]
  | .lih _ d _ => [.s d.toNat]
  | .muli _ _ a _ => [.s a.toNat]
  | .clz _ _ a => [.s a.toNat]
  | .ctz _ _ a => [.s a.toNat]
  | .popc _ _ a => [.s a.toNat]
  | .bint3 _ _ a => [.s a.toNat]
  | .bdint3 _ _ a => [.s a.toNat]
  | .bint2 _ _ a => [.s a.toNat]
  | .bdint2 _ _ a => [.s a.toNat]
  | .brev _ _ a => [.s a.toNat]
  | .sext _ _ a _ => [.s a.toNat]
  | .zext _ _ a _ => [.s a.toNat]
  | .cmpEq _ _ a b => [.s a.toNat, .s b.toNat]
  | .cmpNe _ _ a b => [.s a.toNat, .s b.toNat]
  | .cmpLt _ _ a b => [.s a.toNat, .s b.toNat]
  | .cmpLtn _ _ a b => [.s a.toNat, .s b.toNat]
  | .cmpLe _ _ a b => [.s a.toNat, .s b.toNat]
  | .cmpLen _ _ a b => [.s a.toNat, .s b.toNat]
  | .cmpiEq _ _ a _ => [.s a.toNat]
  | .cmpiLt _ _ a _ => [.s a.toNat]
  | .gand _ _ ga gb => [.g ga.toNat, .g gb.toNat]
  | .gor _ _ ga gb => [.g ga.toNat, .g gb.toNat]
  | .gnot _ _ ga => [.g ga.toNat]
  | .brs _ a _ => [.s a.toNat]
  | .ret _ a => [.s a.toNat]
  | .loop _ _ _ a _ => [.s a.toNat]
  | .wrsys _ a _ => [.s a.toNat]
  | .setest _ a _ => [.s a.toNat]
  | .movGs _ _ gk => [.g gk.toNat]
  | .movSg _ _ a => [.s a.toNat]
  | .movSv _ d a _ => [.s a.toNat, .v (f.phys d)]
  | .movSx _ _ a => [.s a.toNat]
  | .movSq _ _ a => [.s a.toNat]
  | .movSd _ _ a => [.s a.toNat]
  | .fadd _ _ d a b m _ => [.v (f.phys a), .v (f.phys b), .m m.toNat] ++ govSrc f m d
  | .fsub _ _ d a b m _ => [.v (f.phys a), .v (f.phys b), .m m.toNat] ++ govSrc f m d
  | .fmul _ _ d a b m _ => [.v (f.phys a), .v (f.phys b), .m m.toNat] ++ govSrc f m d
  | .fmin _ _ d a b m _ => [.v (f.phys a), .v (f.phys b), .m m.toNat] ++ govSrc f m d
  | .fmax _ _ d a b m _ => [.v (f.phys a), .v (f.phys b), .m m.toNat] ++ govSrc f m d
  | .fdiv _ _ d a b m _ => [.v (f.phys a), .v (f.phys b), .m m.toNat] ++ govSrc f m d
  | .fscale _ _ d a b m _ => [.v (f.phys a), .v (f.phys b), .m m.toNat] ++ govSrc f m d
  | .fma _ _ d a b c m _ => [.v (f.phys a), .v (f.phys b), .v (f.phys c), .m m.toNat] ++ govSrc f m d
  | .fms _ _ d a b c m _ => [.v (f.phys a), .v (f.phys b), .v (f.phys c), .m m.toNat] ++ govSrc f m d
  | .fnma _ _ d a b c m _ => [.v (f.phys a), .v (f.phys b), .v (f.phys c), .m m.toNat] ++ govSrc f m d
  | .fabs _ _ d a m _ => [.v (f.phys a), .m m.toNat] ++ govSrc f m d
  | .fneg _ _ d a m _ => [.v (f.phys a), .m m.toNat] ++ govSrc f m d
  | .fsqrt _ _ d a m _ => [.v (f.phys a), .m m.toNat] ++ govSrc f m d
  | .frcp _ _ d a m _ => [.v (f.phys a), .m m.toNat] ++ govSrc f m d
  | .frsq _ _ d a m _ => [.v (f.phys a), .m m.toNat] ++ govSrc f m d
  | .fexp2 _ _ d a m _ => [.v (f.phys a), .m m.toNat] ++ govSrc f m d
  | .flog2 _ _ d a m _ => [.v (f.phys a), .m m.toNat] ++ govSrc f m d
  | .fcvt _ _ d a st _ m t => [.v (f.phys a), .m m.toNat] ++ cvtSrc f m d st t
  | .fround _ _ d a st _ m t _ => [.v (f.phys a), .m m.toNat] ++ cvtSrc f m d st t
  | .fclass _ _ md a _ m _ _ => [.v (f.phys a), .m m.toNat] ++ govMaskSrc m md
  | .fcmp _ _ md a b m _ _ => [.v (f.phys a), .v (f.phys b), .m m.toNat] ++ govMaskSrc m md
  | .fredAdd _ _ _ a m _ => [.v (f.phys a), .m m.toNat]
  | .fredMax _ _ _ a m _ => [.v (f.phys a), .m m.toNat]
  | .fredMin _ _ _ a m _ => [.v (f.phys a), .m m.toNat]
  | .bscale _ _ _ a m _ _ => [.v (f.phys a), .m m.toNat]
  | .iadd _ _ d a b m _ => [.v (f.phys a), .v (f.phys b), .m m.toNat] ++ govSrc f m d
  | .isub _ _ d a b m _ => [.v (f.phys a), .v (f.phys b), .m m.toNat] ++ govSrc f m d
  | .imul _ _ d a b m _ => [.v (f.phys a), .v (f.phys b), .m m.toNat] ++ govSrc f m d
  | .imulh _ _ d a b m _ => [.v (f.phys a), .v (f.phys b), .m m.toNat] ++ govSrc f m d
  | .iand _ _ d a b m _ => [.v (f.phys a), .v (f.phys b), .m m.toNat] ++ govSrc f m d
  | .ior _ _ d a b m _ => [.v (f.phys a), .v (f.phys b), .m m.toNat] ++ govSrc f m d
  | .ixor _ _ d a b m _ => [.v (f.phys a), .v (f.phys b), .m m.toNat] ++ govSrc f m d
  | .ishl _ _ d a b m _ => [.v (f.phys a), .v (f.phys b), .m m.toNat] ++ govSrc f m d
  | .ishr _ _ d a b m _ => [.v (f.phys a), .v (f.phys b), .m m.toNat] ++ govSrc f m d
  | .isra _ _ d a b m _ => [.v (f.phys a), .v (f.phys b), .m m.toNat] ++ govSrc f m d
  | .imin _ _ d a b m _ => [.v (f.phys a), .v (f.phys b), .m m.toNat] ++ govSrc f m d
  | .imax _ _ d a b m _ => [.v (f.phys a), .v (f.phys b), .m m.toNat] ++ govSrc f m d
  | .iadds _ _ d a b m _ => [.v (f.phys a), .v (f.phys b), .m m.toNat] ++ govSrc f m d
  | .isubs _ _ d a b m _ => [.v (f.phys a), .v (f.phys b), .m m.toNat] ++ govSrc f m d
  | .iabs _ _ d a m _ => [.v (f.phys a), .m m.toNat] ++ govSrc f m d
  | .iclz _ _ d a m _ => [.v (f.phys a), .m m.toNat] ++ govSrc f m d
  | .ipopc _ _ d a m _ => [.v (f.phys a), .m m.toNat] ++ govSrc f m d
  | .ibint3 _ _ d a m _ => [.v (f.phys a), .m m.toNat] ++ govSrc f m d
  | .icmp _ _ md a b m _ _ => [.v (f.phys a), .v (f.phys b), .m m.toNat] ++ govMaskSrc m md
  | .iredAdd _ _ _ a m _ => [.v (f.phys a), .m m.toNat]
  | .iadd128 _ _ d a b m _ => [.v (f.phys a), .v (f.phys b), .m m.toNat] ++ govSrc f m d
  | .icvt _ _ d a st _ m t _ => [.v (f.phys a), .m m.toNat] ++ cvtSrc f m d st t
  | .vsel _ _ _ a b m _ => [.v (f.phys a), .v (f.phys b), .m m.toNat]
  | .vperm _ _ d a b m _ => [.v (f.phys a), .v (f.phys b), .m m.toNat] ++ govSrc f m d
  | .vzip _ _ d a b m _ _ => [.v (f.phys a), .v (f.phys b), .m m.toNat] ++ govSrc f m d
  | .vunzip _ _ d a b m _ _ => [.v (f.phys a), .v (f.phys b), .m m.toNat] ++ govSrc f m d
  | .vrev _ _ d a m _ => [.v (f.phys a), .m m.toNat] ++ govSrc f m d
  | .vcompress _ _ _ a m _ => [.v (f.phys a), .m m.toNat]
  | .vexpand _ _ _ a m _ => [.v (f.phys a), .m m.toNat]
  | .vbcast _ _ d a _ m _ => [.v (f.phys a), .m m.toNat] ++ govSrc f m d
  | .vslide _ _ d a _ m _ => [.v (f.phys a), .m m.toNat] ++ govSrc f m d
  | .viota _ _ _ _ m _ => [.m m.toNat]
  | .vmovi _ _ d _ m _ => [.m m.toNat] ++ govSrc f m d
  | .mand _ _ _ ma mb => [.m ma.toNat, .m mb.toNat]
  | .mor _ _ _ ma mb => [.m ma.toNat, .m mb.toNat]
  | .mxor _ _ _ ma mb => [.m ma.toNat, .m mb.toNat]
  | .mnot _ _ _ ma => [.m ma.toNat]
  | .mpopc _ _ _ ms m _ => [.m ms.toNat, .m m.toNat]
  | .mfirst _ _ _ ms m _ => [.m ms.toNat, .m m.toNat]
  | .vrng _ _ d a b m _ => [.v (f.phys a), .v (f.phys b), .m m.toNat] ++ govSrc f m d
  | .vrngF _ _ d a m _ => [.v (f.phys a), .m m.toNat] ++ govSrc f m d
  | .movVs _ _ _ a _ => [.v (f.phys a)]
  | .movMg _ _ _ ms mg => [.m ms.toNat, .m mg.toNat]
  | .movVx _ _ _ a _ => [.v (f.phys a)]
  | .mcall _ _ sn _ => (upto 7).map .q ++ nSrc sn
  | .mzero _ sn _ => nSrc sn
  | .mdrainP _ sn _ _ _ _ _ _ => [.q 0, .q 6] ++ nSrc sn
  | .ldS _ _ xb _ _ _ => [.x xb.toNat]
  | .ldV _ d xb _ m _ => [.x xb.toNat, .m m.toNat] ++ govSrc f m d
  | .ldVs _ d xb _ m _ => [.x xb.toNat, .m m.toNat] ++ govSrc f m d
  | .ldVg _ d xb vi m _ => [.x xb.toNat, .v (f.phys vi), .m m.toNat] ++ govSrc f m d
  | .ldM _ _ xb _ => [.x xb.toNat]
  | .ldhS _ _ h xo _ _ _ => [.h h.toNat, .x xo.toNat]
  | .ldhV _ d h xo _ m _ => [.h h.toNat, .x xo.toNat, .m m.toNat] ++ govSrc f m d
  | .vfill _ _ xb _ => [.x xb.toNat]
  | .translate _ a _ _ => [.s a.toNat]
  | .movXs _ _ a => [.x a.toNat]
  | .ldQ _ d xb _ m _ _ => [.x xb.toNat, .m m.toNat] ++ govSrc f m d
  | .xadd _ _ _ a b => [.x a.toNat, .x b.toNat]
  | .xaddi _ _ _ a _ => [.x a.toNat]
  | .xsub _ _ _ a b => [.x a.toNat, .x b.toNat]
  | .stS _ a xb _ _ _ _ => [.s a.toNat, .x xb.toNat]
  | .stV _ a xb _ m t _ _ => [.v (f.phys a), .x xb.toNat, .m m.toNat] ++ blockSrc f a t
  | .stVs _ a xb _ m t _ _ => [.v (f.phys a), .x xb.toNat, .m m.toNat] ++ blockSrc f a t
  | .stVx _ a xb vi m _ _ _ => [.v (f.phys a), .v (f.phys vi), .x xb.toNat, .m m.toNat]
  | .stM _ ms xb _ => [.m ms.toNat, .x xb.toNat]
  | .sthS _ a h xo _ _ _ _ => [.s a.toNat, .h h.toNat, .x xo.toNat]
  | .sthV _ a h xo _ m t _ _ => [.v (f.phys a), .h h.toNat, .x xo.toNat, .m m.toNat] ++ blockSrc f a t
  | .vspill _ a xb _ => [.v (f.phys a), .x xb.toNat]
  | .send _ a _ _ _ _ => [.v (f.phys a)]
  | .amoP _ d xb _ _ _ op => [.s d.toNat, .x xb.toNat] ++ casSrc op d
  | .amoH _ d h xo _ _ _ op => [.s d.toNat, .h h.toNat, .x xo.toNat] ++ casSrc op d
  | .sigw _ a h xo _ => [.s a.toNat, .h h.toNat, .x xo.toNat]
  | .feed _ da db _ _ _ _ _ => [.d da.toNat, .d db.toNat]
  | .lcopy _ da db _ => [.d da.toNat, .d db.toNat]
  | .bulkSet _ da db _ => [.d da.toNat, .d db.toNat]
  | .winOpen _ da db _ _ _ _ => [.d da.toNat, .d db.toNat]
  | .ifetch _ da _ _ => [.d da.toNat]
  | .barArr _ xb _ _ => [.x xb.toNat]
  | .barWait _ xb sg => [.x xb.toNat, .s sg.toNat]
  | .yadd _ _ ak a bk b => [ysReg ak a] ++ yBSrc bk b
  | .ysub _ _ ak a bk b => [ysReg ak a] ++ yBSrc bk b
  | .yand _ _ ak a bk b => [ysReg ak a] ++ yBSrc bk b
  | .yxor _ _ ak a bk b => [ysReg ak a] ++ yBSrc bk b
  | .ycmp _ _ ak a bk b _ => [ysReg ak a, ysReg bk b]
  | .chkY _ ya yb => [.y ya.toNat, .y yb.toNat]
  | .chkV _ a b m => [.v (f.phys a), .v (f.phys b), .m m.toNat]
  | .chkS _ ya a => [.y ya.toNat, .s a.toNat]
  | _ => []

/-- R54, R111: the registers an operation writes, with vector names resolved. -/
def dests (f : Facet) : Instr → List RegId
  | .add _ d _ _ => [.s d.toNat]
  | .sub _ d _ _ => [.s d.toNat]
  | .mul _ d _ _ => [.s d.toNat]
  | .mulh _ d _ _ => [.s d.toNat]
  | .mulhn _ d _ _ => [.s d.toNat]
  | .div _ d _ _ => [.s d.toNat]
  | .divn _ d _ _ => [.s d.toNat]
  | .rem _ d _ _ => [.s d.toNat]
  | .remn _ d _ _ => [.s d.toNat]
  | .and _ d _ _ => [.s d.toNat]
  | .or _ d _ _ => [.s d.toNat]
  | .xor _ d _ _ => [.s d.toNat]
  | .shl _ d _ _ => [.s d.toNat]
  | .shr _ d _ _ => [.s d.toNat]
  | .sra _ d _ _ => [.s d.toNat]
  | .rot _ d _ _ => [.s d.toNat]
  | .min _ d _ _ => [.s d.toNat]
  | .max _ d _ _ => [.s d.toNat]
  | .minn _ d _ _ => [.s d.toNat]
  | .maxn _ d _ _ => [.s d.toNat]
  | .sel _ d _ _ _ _ => [.s d.toNat]
  | .add128 _ d _ _ => [.s d.toNat, .s (d.toNat + 1)]
  | .addi _ d _ _ => [.s d.toNat]
  | .andi _ d _ _ => [.s d.toNat]
  | .ori _ d _ _ => [.s d.toNat]
  | .xori _ d _ _ => [.s d.toNat]
  | .shli _ d _ _ => [.s d.toNat]
  | .shri _ d _ _ => [.s d.toNat]
  | .srai _ d _ _ => [.s d.toNat]
  | .li _ d _ => [.s d.toNat]
  | .lih _ d _ => [.s d.toNat]
  | .muli _ d _ _ => [.s d.toNat]
  | .clz _ d _ => [.s d.toNat]
  | .ctz _ d _ => [.s d.toNat]
  | .popc _ d _ => [.s d.toNat]
  | .bint3 _ d _ => [.s d.toNat]
  | .bdint3 _ d _ => [.s d.toNat]
  | .bint2 _ d _ => [.s d.toNat]
  | .bdint2 _ d _ => [.s d.toNat]
  | .brev _ d _ => [.s d.toNat]
  | .sext _ d _ _ => [.s d.toNat]
  | .zext _ d _ _ => [.s d.toNat]
  | .cmpEq _ gd _ _ => [.g gd.toNat]
  | .cmpNe _ gd _ _ => [.g gd.toNat]
  | .cmpLt _ gd _ _ => [.g gd.toNat]
  | .cmpLtn _ gd _ _ => [.g gd.toNat]
  | .cmpLe _ gd _ _ => [.g gd.toNat]
  | .cmpLen _ gd _ _ => [.g gd.toNat]
  | .cmpiEq _ gd _ _ => [.g gd.toNat]
  | .cmpiLt _ gd _ _ => [.g gd.toNat]
  | .gand _ gd _ _ => [.g gd.toNat]
  | .gor _ gd _ _ => [.g gd.toNat]
  | .gnot _ gd _ => [.g gd.toNat]
  | .call _ l _ => [.s l.toNat]
  | .loop _ _ ro _ _ => rotDst ro
  | .loopi _ _ ro _ _ => rotDst ro
  | .brb _ l _ => [.s l.toNat]
  | .rdid _ d _ => [.s d.toNat]
  | .rdsys _ d _ => [.s d.toNat]
  | .evpop _ d => [.s d.toNat, .s (d.toNat + 1)]
  | .rdtime _ d => [.s d.toNat]
  | .rdcyc _ d => [.s d.toNat]
  | .flagsRd _ d => [.s d.toNat]
  | .movGs _ d _ => [.s d.toNat]
  | .movSg _ gd _ => [.g gd.toNat]
  | .movSv _ d _ _ => [.v (f.phys d)]
  | .movSx _ d _ => [.x d.toNat]
  | .movSq _ d _ => [.q d.toNat]
  | .movSd _ d _ => [.d d.toNat]
  | .fadd _ _ d _ _ _ _ => [.v (f.phys d)]
  | .fsub _ _ d _ _ _ _ => [.v (f.phys d)]
  | .fmul _ _ d _ _ _ _ => [.v (f.phys d)]
  | .fmin _ _ d _ _ _ _ => [.v (f.phys d)]
  | .fmax _ _ d _ _ _ _ => [.v (f.phys d)]
  | .fdiv _ _ d _ _ _ _ => [.v (f.phys d)]
  | .fscale _ _ d _ _ _ _ => [.v (f.phys d)]
  | .fma _ _ d _ _ _ _ _ => [.v (f.phys d)]
  | .fms _ _ d _ _ _ _ _ => [.v (f.phys d)]
  | .fnma _ _ d _ _ _ _ _ => [.v (f.phys d)]
  | .fabs _ _ d _ _ _ => [.v (f.phys d)]
  | .fneg _ _ d _ _ _ => [.v (f.phys d)]
  | .fsqrt _ _ d _ _ _ => [.v (f.phys d)]
  | .frcp _ _ d _ _ _ => [.v (f.phys d)]
  | .frsq _ _ d _ _ _ => [.v (f.phys d)]
  | .fexp2 _ _ d _ _ _ => [.v (f.phys d)]
  | .flog2 _ _ d _ _ _ => [.v (f.phys d)]
  | .fcvt _ _ d _ _ _ _ _ => [.v (f.phys d)]
  | .fround _ _ d _ _ _ _ _ _ => [.v (f.phys d)]
  | .fclass _ _ md _ _ _ _ _ => [.m md.toNat]
  | .fcmp _ _ md _ _ _ _ _ => [.m md.toNat]
  | .fredAdd _ _ d _ _ _ => [.v (f.phys d)]
  | .fredMax _ _ d _ _ _ => [.v (f.phys d)]
  | .fredMin _ _ d _ _ _ => [.v (f.phys d)]
  | .bscale _ _ d _ _ _ _ => [.v (f.phys d)]
  | .iadd _ _ d _ _ _ _ => [.v (f.phys d)]
  | .isub _ _ d _ _ _ _ => [.v (f.phys d)]
  | .imul _ _ d _ _ _ _ => [.v (f.phys d)]
  | .imulh _ _ d _ _ _ _ => [.v (f.phys d)]
  | .iand _ _ d _ _ _ _ => [.v (f.phys d)]
  | .ior _ _ d _ _ _ _ => [.v (f.phys d)]
  | .ixor _ _ d _ _ _ _ => [.v (f.phys d)]
  | .ishl _ _ d _ _ _ _ => [.v (f.phys d)]
  | .ishr _ _ d _ _ _ _ => [.v (f.phys d)]
  | .isra _ _ d _ _ _ _ => [.v (f.phys d)]
  | .imin _ _ d _ _ _ _ => [.v (f.phys d)]
  | .imax _ _ d _ _ _ _ => [.v (f.phys d)]
  | .iadds _ _ d _ _ _ _ => [.v (f.phys d)]
  | .isubs _ _ d _ _ _ _ => [.v (f.phys d)]
  | .iabs _ _ d _ _ _ => [.v (f.phys d)]
  | .iclz _ _ d _ _ _ => [.v (f.phys d)]
  | .ipopc _ _ d _ _ _ => [.v (f.phys d)]
  | .ibint3 _ _ d _ _ _ => [.v (f.phys d)]
  | .icmp _ _ md _ _ _ _ _ => [.m md.toNat]
  | .iredAdd _ _ d _ _ _ => [.v (f.phys d)]
  | .iadd128 _ _ d _ _ _ _ => [.v (f.phys d)]
  | .icvt _ _ d _ _ _ _ _ _ => [.v (f.phys d)]
  | .vsel _ _ d _ _ _ _ => [.v (f.phys d)]
  | .vperm _ _ d _ _ _ _ => [.v (f.phys d)]
  | .vzip _ _ d _ _ _ _ _ => [.v (f.phys d)]
  | .vunzip _ _ d _ _ _ _ _ => [.v (f.phys d)]
  | .vrev _ _ d _ _ _ => [.v (f.phys d)]
  | .vcompress _ _ d _ _ _ => [.v (f.phys d)]
  | .vexpand _ _ d _ _ _ => [.v (f.phys d)]
  | .vbcast _ _ d _ _ _ _ => [.v (f.phys d)]
  | .vslide _ _ d _ _ _ _ => [.v (f.phys d)]
  | .viota _ _ d _ _ _ => [.v (f.phys d)]
  | .vmovi _ _ d _ _ _ => [.v (f.phys d)]
  | .mand _ _ md _ _ => [.m md.toNat]
  | .mor _ _ md _ _ => [.m md.toNat]
  | .mxor _ _ md _ _ => [.m md.toNat]
  | .mnot _ _ md _ => [.m md.toNat]
  | .mpopc _ _ d _ _ _ => [.v (f.phys d)]
  | .mfirst _ _ d _ _ _ => [.v (f.phys d)]
  | .vrng _ _ d _ _ _ _ => [.v (f.phys d)]
  | .vrngF _ _ d _ _ _ => [.v (f.phys d)]
  | .movVs _ _ d _ _ => [.s d.toNat]
  | .movMg _ _ gd _ _ => [.g gd.toNat]
  | .movVx _ _ d _ _ => [.x d.toNat]
  | .mcall _ _ sn _ => nDst sn
  | .mparami _ k _ => [.q k.toNat]
  | .mzero _ sn _ => nDst sn
  | .mdrainV _ d _ _ _ => [.v (f.phys d)]
  | .mdrainP _ sn _ _ _ _ _ _ => nDst sn
  | .ldS _ d _ _ _ _ => [.s d.toNat]
  | .ldV _ d _ _ _ _ => [.v (f.phys d)]
  | .ldVs _ d _ _ _ _ => [.v (f.phys d)]
  | .ldVg _ d _ _ _ _ => [.v (f.phys d)]
  | .ldM _ md _ _ => [.m md.toNat]
  | .ldhS _ d _ _ _ _ _ => [.s d.toNat]
  | .ldhV _ d _ _ _ _ _ => [.v (f.phys d)]
  | .vfill _ d _ _ => [.v (f.phys d)]
  | .translate _ _ h _ => [.h h.toNat]
  | .hdrop _ h => [.h h.toNat]
  | .recv _ d _ _ _ _ => [.v (f.phys d)]
  | .movXs _ d _ => [.s d.toNat]
  | .ldQ _ d _ _ _ _ _ => [.v (f.phys d)]
  | .xadd _ _ d _ _ => [.x d.toNat]
  | .xaddi _ _ d _ _ => [.x d.toNat]
  | .xli _ _ d _ => [.x d.toNat]
  | .xsub _ _ d _ _ => [.x d.toNat]
  | .amoP _ d _ _ _ _ _ => [.s d.toNat]
  | .amoH _ d _ _ _ _ _ _ => [.s d.toNat]
  | .yadd _ yd _ _ _ _ => [.y yd.toNat]
  | .ysub _ yd _ _ _ _ => [.y yd.toNat]
  | .yand _ yd _ _ _ _ => [.y yd.toNat]
  | .yxor _ yd _ _ _ _ => [.y yd.toNat]
  | .ycmp _ yd _ _ _ _ _ => [.y yd.toNat]
  | _ => []

/-- R52: the vector names an operation holds, for the check against the allotment. -/
def vnames : Instr → List (BitVec 9)
  | .movSv _ d _ _ => [d]
  | .fadd _ _ d a b _ _ => [d, a, b]
  | .fsub _ _ d a b _ _ => [d, a, b]
  | .fmul _ _ d a b _ _ => [d, a, b]
  | .fmin _ _ d a b _ _ => [d, a, b]
  | .fmax _ _ d a b _ _ => [d, a, b]
  | .fdiv _ _ d a b _ _ => [d, a, b]
  | .fscale _ _ d a b _ _ => [d, a, b]
  | .fma _ _ d a b c _ _ => [d, a, b, c]
  | .fms _ _ d a b c _ _ => [d, a, b, c]
  | .fnma _ _ d a b c _ _ => [d, a, b, c]
  | .fabs _ _ d a _ _ => [d, a]
  | .fneg _ _ d a _ _ => [d, a]
  | .fsqrt _ _ d a _ _ => [d, a]
  | .frcp _ _ d a _ _ => [d, a]
  | .frsq _ _ d a _ _ => [d, a]
  | .fexp2 _ _ d a _ _ => [d, a]
  | .flog2 _ _ d a _ _ => [d, a]
  | .fcvt _ _ d a _ _ _ _ => [d, a]
  | .fround _ _ d a _ _ _ _ _ => [d, a]
  | .fclass _ _ _ a _ _ _ _ => [a]
  | .fcmp _ _ _ a b _ _ _ => [a, b]
  | .fredAdd _ _ d a _ _ => [d, a]
  | .fredMax _ _ d a _ _ => [d, a]
  | .fredMin _ _ d a _ _ => [d, a]
  | .bscale _ _ d a _ _ _ => [d, a]
  | .iadd _ _ d a b _ _ => [d, a, b]
  | .isub _ _ d a b _ _ => [d, a, b]
  | .imul _ _ d a b _ _ => [d, a, b]
  | .imulh _ _ d a b _ _ => [d, a, b]
  | .iand _ _ d a b _ _ => [d, a, b]
  | .ior _ _ d a b _ _ => [d, a, b]
  | .ixor _ _ d a b _ _ => [d, a, b]
  | .ishl _ _ d a b _ _ => [d, a, b]
  | .ishr _ _ d a b _ _ => [d, a, b]
  | .isra _ _ d a b _ _ => [d, a, b]
  | .imin _ _ d a b _ _ => [d, a, b]
  | .imax _ _ d a b _ _ => [d, a, b]
  | .iadds _ _ d a b _ _ => [d, a, b]
  | .isubs _ _ d a b _ _ => [d, a, b]
  | .iabs _ _ d a _ _ => [d, a]
  | .iclz _ _ d a _ _ => [d, a]
  | .ipopc _ _ d a _ _ => [d, a]
  | .ibint3 _ _ d a _ _ => [d, a]
  | .icmp _ _ _ a b _ _ _ => [a, b]
  | .iredAdd _ _ d a _ _ => [d, a]
  | .iadd128 _ _ d a b _ _ => [d, a, b]
  | .icvt _ _ d a _ _ _ _ _ => [d, a]
  | .vsel _ _ d a b _ _ => [d, a, b]
  | .vperm _ _ d a b _ _ => [d, a, b]
  | .vzip _ _ d a b _ _ _ => [d, a, b]
  | .vunzip _ _ d a b _ _ _ => [d, a, b]
  | .vrev _ _ d a _ _ => [d, a]
  | .vcompress _ _ d a _ _ => [d, a]
  | .vexpand _ _ d a _ _ => [d, a]
  | .vbcast _ _ d a _ _ _ => [d, a]
  | .vslide _ _ d a _ _ _ => [d, a]
  | .viota _ _ d _ _ _ => [d]
  | .vmovi _ _ d _ _ _ => [d]
  | .mpopc _ _ d _ _ _ => [d]
  | .mfirst _ _ d _ _ _ => [d]
  | .vrng _ _ d a b _ _ => [d, a, b]
  | .vrngF _ _ d a _ _ => [d, a]
  | .movVs _ _ _ a _ => [a]
  | .movVx _ _ _ a _ => [a]
  | .mdrainV _ d _ _ _ => [d]
  | .ldV _ d _ _ _ _ => [d]
  | .ldVs _ d _ _ _ _ => [d]
  | .ldVg _ d _ vi _ _ => [d, vi]
  | .ldhV _ d _ _ _ _ _ => [d]
  | .vfill _ d _ _ => [d]
  | .recv _ d _ _ _ _ => [d]
  | .ldQ _ d _ _ _ _ _ => [d]
  | .stV _ a _ _ _ _ _ _ => [a]
  | .stVs _ a _ _ _ _ _ _ => [a]
  | .stVx _ a _ vi _ _ _ _ => [a, vi]
  | .sthV _ a _ _ _ _ _ _ _ => [a]
  | .vspill _ a _ _ => [a]
  | .send _ a _ _ _ _ => [a]
  | .chkV _ a b _ => [a, b]
  | _ => []

/-- R32: all sources of an operation whose guard holds, s0 and the constants apart. -/
def State.srcList (s : State) (i : Instr) : List RegId :=
  (sources s.me i).filter fun r => r != .s 0 && r != .g 0 && r != .m 0

end Sys2Proof.Machine
end

