-- ==== Sys2Proof/Machine/Checks.lean ====
section
/-! DEFINITION. What is checked when a bundle issues and what holds it: the issue checks of every slot operation in the
order of its entry (R383), the conditions under which it holds issue (R32, R373), and the frame of a slot operation. -/

namespace Sys2Proof.Machine

/-- Number of a slot in TCAUSE.FSLOT (R389). -/
def slotNo : Slot → Nat
  | .s => 0
  | .v .a => 1
  | .v .b => 2
  | .m => 3
  | .ld => 4
  | .st => 5
  | .cp => 6
  | .sy => 7

/-- The slot of an operation as FSLOT numbers it. -/
def slotOf (i : Instr) : Nat := match i.slot? with | some k => slotNo k | none => 0

/-- The trap of one operation: its slot is the first failing one and the only one in the fault mask (R53, R389). -/
def trapOf (i : Instr) (c : TrapCause) (detail : Nat := 0) (hnum : Nat := 0) (fcode : Nat := 0) (info : Nat := 0) : TrapInfo where
  cause := c
  detail := BitVec.ofNat 5 detail
  fmask := BitVec.ofNat 8 (2 ^ (7 - slotOf i))
  fslot := BitVec.ofNat 3 (slotOf i)
  hnum := BitVec.ofNat 5 hnum
  fcode := BitVec.ofNat 4 fcode
  info := BitVec.ofNat 64 info

/-- A check: the trap unless the condition holds. -/
def need (ok : Bool) (t : TrapInfo) : Option TrapInfo := if ok then none else some t

/-- The first trap of a list of checks. -/
def firstTrap (l : List (Option TrapInfo)) : Option TrapInfo := l.findSome? id

/-- Details of TCAUSE (R389). -/
abbrev dRange : Nat := 2
/-- Descriptor detail. -/
abbrev dDesc : Nat := 3
/-- Band busy detail. -/
abbrev dBusy : Nat := 4

/-! ## The matrix slot -/

/-- Accumulator columns of a facet (R99). -/
def Facet.cols (f : Facet) : Nat := 16 * f.cblocks.length

/-- R99: key of an accumulator entry of a facet: physical row and column. -/
def Facet.accKey (f : Facet) (row col : Nat) : Nat := row * 512 + (f.cblocks.getD (col / 16) 0) * 16 + col % 16

/-- R185: N of an M-slot instruction, from its register or from q7, as a whole word. -/
def State.nWord (s : State) (sn : BitVec 6) : BitVec 64 := if sn == 0 then s.readQ 7 else s.readS sn

/-- R184, R185: a legal N. -/
def nOk (w : BitVec 64) : Bool := decide (16 ≤ w.toNat ∧ w.toNat ≤ 512) && w.toNat % 16 == 0

/-- R187: a legal pair of operand types. -/
def pairOk (a b : Nat) : Bool :=
  a == 2 && b == 2 || a == 3 && b == 3 || (a == 4 || a == 5) && (b == 4 || b == 5) || a == 8 && b == 8 || a == 6 && b == 6
    || a == 7 && b == 7 || (a == 17 || a == 24) && (b == 17 || b == 24) || a == 16 && b == 16

/-- R187: the pair accumulates integers. -/
def pairInt (a : Nat) : Bool := a == 17 || a == 24 || a == 16

/-- R188: logical positions of a pass by SPN. -/
def kLog (spn : Nat) : Nat := if spn = 0 then 64 else if spn = 1 then 384 else if spn = 2 then 192 else 96

/-- R188: bytes of `k` elements of a matrix operand type. -/
def rowBytes (t k : Nat) : Nat :=
  if t = 2 ∨ t = 3 then 2 * k else if t = 6 ∨ t = 16 then k / 2 else if t = 8 then 9 * k / 8 else if t = 7 then 5 * k / 8 else k

/-- R188: bytes of a B tile. -/
def bTileBytes (t spn n : Nat) : Nat := n * rowBytes t (kLog spn)

/-- R188: bytes of bitmaps before a sparse row of A. -/
def mapBytes (spn : Nat) : Nat := if spn = 0 then 0 else if spn = 1 then 48 else if spn = 2 then 24 else 12

/-- R188: bytes of an A tile. -/
def aTileBytes (t spn : Nat) : Nat := 128 * (mapBytes spn + rowBytes t 64)

/-- The micro-words of the built-in routines (R208). -/
def builtIn (ix : Nat) : Option (List (BitVec 128)) :=
  let op (k : Nat) : BitVec 128 := BitVec.ofNat 128 (k * 2 ^ 124)
  let loop0 : BitVec 128 := BitVec.ofNat 128 (8 * 2 ^ 124 + 2 ^ 94)
  let loop1 : BitVec 128 := BitVec.ofNat 128 (8 * 2 ^ 124 + 2 ^ 112 + 2 * 2 ^ 94)
  let shift1 : BitVec 128 := BitVec.ofNat 128 (7 * 2 ^ 124 + 2 ^ 96)
  match ix with
  | 56 => some [op 1, op 2, op 3, op 10]
  | 57 => some [op 1, op 2, BitVec.ofNat 128 (3 * 2 ^ 124 + 2 ^ 88), op 10]
  | 58 => some [op 1, op 2, op 3, loop0, op 10]
  | 59 => some [op 1, op 2, op 4, loop0, op 10]
  | 60 => some [op 1, op 2, op 3, loop0, shift1, loop1, op 10]
  | 61 => some [op 6, op 10]
  | 62 => some [BitVec.ofNat 128 (11 * 2 ^ 124 + 2 ^ 94), op 10]
  | _ => none

/-- Kernel image of the running facet's launch. -/
def State.image (s : State) (launch : Nat) : Nat := match s.launches.find launch with | some l => l.image | none => 0

/-- R183: the kernel's own routine of an index. -/
def Core.ownRoutine (k : Core) (image ix : Nat) : Option Routine := k.routines.find? fun r => r.image == image && r.index == ix

/-- R183: the routine an index names for a kernel. -/
def Core.routine (k : Core) (image ix : Nat) : Option (List (BitVec 128)) :=
  match k.ownRoutine image ix with
  | some r => some r.words
  | none => builtIn ix

/-- R195: the window of an `mcall`: WIDTH, or N columns. -/
def winCols (q1 n : Nat) : Nat := max (nbits q1 18 9) n

/-- R184 to R188, R195: issue checks of `mcall`. -/
def State.mcallTrap (s : State) (i : Instr) (ix sn : BitVec 6) : Option TrapInfo :=
  let ill := trapOf i .illegalEncoding
  let q0 := (s.readQ 0).toNat
  let q1 := (s.readQ 1).toNat
  let nw := s.nWord sn
  let n := nw.toNat
  firstTrap [
    need (q0 < 2 ^ 12 && q1 < 2 ^ 19) ill,
    need (nOk nw) ill,
    need (s.here.routine (s.image s.me.launch) ix.toNat).isSome ill,
    need (nbits q1 18 9 == 0 || decide (n ≤ nbits q1 18 9)) ill,
    need (nbits q1 18 9 % 16 == 0 && decide (nbits q1 18 9 ≤ 512)) ill,
    need (nbits q1 8 0 % 16 == 0) ill,
    need (pairOk (nbits q0 4 0) (nbits q0 9 5)) ill,
    need (decide (bTileBytes (nbits q0 9 5) (nbits q0 11 10) n ≤ 65536)) ill,
    need (decide (nbits q1 8 0 + winCols q1 n ≤ s.me.cols)) (trapOf i .outsideAllotment)]

/-- R199: bytes of an element that `mdrain.p` writes; 0 for a format it does not write for that kind of pair. -/
def drainWidth (int : Bool) (fmt : Nat) : Nat :=
  if int then (if fmt = 19 ∨ fmt = 26 then 4 else if fmt = 18 ∨ fmt = 25 then 2 else if fmt = 17 ∨ fmt = 24 then 1 else 0)
  else (if fmt = 1 then 4 else if fmt = 2 ∨ fmt = 3 then 2 else if fmt = 4 ∨ fmt = 5 then 1 else 0)

/-- R199: program offsets (start, length) of the rows a drain writes. -/
def drainRows (q6 n w rows : Nat) : List (Nat × Nat) := (upto rows).map fun r => (nbits q6 19 0 + r * nbits q6 39 24, n * w)

/-- R99, R184, R199: issue checks of `mdrain.p`. -/
def State.mdrainPTrap (s : State) (i : Instr) (sn : BitVec 6) (mode : BitVec 3) (fmt : BitVec 5) (col : BitVec 9)
    (row rows : BitVec 7) : Option TrapInfo :=
  let ill := trapOf i .illegalEncoding
  let q0 := (s.readQ 0).toNat
  let q6 := (s.readQ 6).toNat
  let nw := s.nWord sn
  let int := pairInt (nbits q0 4 0)
  let w := drainWidth int fmt.toNat
  let size := 4096 * (s.window s.me.launch s.cur).length
  firstTrap [
    need (q0 < 2 ^ 12 && q6 < 2 ^ 40 && nbits q6 23 20 == 0) ill,
    need (nOk nw) ill,
    need (pairOk (nbits q0 4 0) (nbits q0 9 5)) ill,
    need (w != 0 && (if int then mode == 0 else modeOk mode)) ill,
    need (decide (row.toNat + rows.toNat + 1 ≤ 128)) ill,
    need (nbits q6 19 0 % max w 1 == 0 && nbits q6 39 24 % max w 1 == 0) ill,
    need (decide (col.toNat + nw.toNat ≤ s.me.cols)) (trapOf i .outsideAllotment),
    need ((drainRows q6 nw.toNat w (rows.toNat + 1)).all fun g => decide (g.1 + g.2 ≤ size)) (trapOf i .illegalEncoding dRange)]

/-! ## Scratchpad and handle accesses -/

/-- The segments (address, length) of a scratchpad access of the LD, ST or SY slot (R219, R223). -/
def State.spSegs (s : State) (i : Instr) : Option (List (Nat × Nat)) :=
  let contig (xb : BitVec 5) (off : BitVec 22) (n : Nat) : Option (List (Nat × Nat)) :=
    some [(spAddr (s.readX xb) off.toInt, n)]
  let image (xb : BitVec 5) (off : BitVec 22) : Option (List (Nat × Nat)) :=
    some [(spAddr (s.readX xb) off.toInt / 32 * 32, 160)]
  let strided (xb : BitVec 5) (off : BitVec 22) (m : BitVec 4) (we w : Nat) : Option (List (Nat × Nat)) :=
    some ((activeList (s.readM m) we).map fun k => (strideAddr (s.readX xb) off k, w))
  let indexed (xb : BitVec 5) (vi : BitVec 9) (m : BitVec 4) (we w : Nat) : Option (List (Nat × Nat)) :=
    some ((activeList (s.readM m) we).map fun k => (indexAddr (s.readX xb) (s.readV vi) k, w))
  match i with
  | .ldS _ _ xb off _ sz => contig xb off (2 ^ sz.toNat)
  | .ldV _ _ xb off _ _ => contig xb off 128
  | .ldVs _ _ xb off m t => strided xb off m (tyBytes t) (tyBytes t)
  | .ldVg _ _ xb vi m t => indexed xb vi m (tyBytes t) (tyBytes t)
  | .ldM _ _ xb off => contig xb off 16
  | .ldQ _ _ xb off _ t mf => contig xb off (ldqBytes mf (elems t))
  | .vfill _ _ xb off => image xb off
  | .stS _ _ xb off _ _ sz => contig xb off (2 ^ sz.toNat)
  | .stV _ _ xb off _ t _ src => contig xb off (stvBytes t src)
  | .stVs _ _ xb off m t _ src => strided xb off m (stWidth t src) (tyBytes t)
  | .stVx _ _ xb vi m t _ src => indexed xb vi m (stWidth t src) (tyBytes t)
  | .stM _ _ xb off => contig xb off 16
  | .vspill _ _ xb off => image xb off
  | .amoP _ _ xb off t _ _ => some [(spAddr (s.readX xb) off.toInt / tyBytes t * tyBytes t, tyBytes t)]
  | .barArr _ xb _ _ => some [(spAddr (s.readX xb) 0, 16)]
  | .barWait _ xb _ => some [(spAddr (s.readX xb) 0, 16)]
  | _ => none

/-- R219: every segment lies in one window of one rank. -/
def State.segsOk (s : State) (l : List (Nat × Nat)) : Bool :=
  match l with
  | [] => true
  | (a, _) :: _ => l.all fun g => spRank g.1 == spRank a && s.spOk g.1 g.2

/-- A handle access: the handle register, its contents, the effective address and footprint, what it needs, and whether
it is a form that a device page admits (R312, R320). -/
structure HUse where
  hn : BitVec 5
  h : Handle
  ea : Nat
  n : Nat
  rd : Bool
  wr : Bool
  devForm : Bool

/-- The handle access of an operation, if it makes one (R318). -/
def State.hUse (s : State) (i : Instr) : Option HUse :=
  match i with
  | .ldhS _ _ hn xo imm _ sz =>
    let h := s.readH hn; some ⟨hn, h, hAddr h (s.readX xo) imm, 2 ^ sz.toNat, true, false, sz == 3⟩
  | .ldhV _ _ hn xo imm _ _ => let h := s.readH hn; some ⟨hn, h, hAddr h (s.readX xo) imm, 128, true, false, false⟩
  | .sthS _ _ hn xo imm t _ sz =>
    let h := s.readH hn; some ⟨hn, h, hAddr h (s.readX xo) imm, 2 ^ sz.toNat, false, true, sz == 3 && t == 0⟩
  | .sthV _ _ hn xo imm _ t _ src =>
    let h := s.readH hn; some ⟨hn, h, hAddr h (s.readX xo) imm, stvBytes t src, false, true, false⟩
  | .amoH _ _ hn xo imm t _ _ =>
    let h := s.readH hn; some ⟨hn, h, hAddr h (s.readX xo) imm / tyBytes t * tyBytes t, tyBytes t, true, true, false⟩
  | .sigw _ _ hn xo imm => let h := s.readH hn; some ⟨hn, h, hAddr h (s.readX xo) imm / 8 * 8, 8, false, true, false⟩
  | _ => none

/-- R312: the checks of a handle access, PEND apart. -/
def hTrap (i : Instr) (u : HUse) : Option TrapInfo :=
  let flt (c : Nat) : TrapInfo := trapOf i .handleFault 0 u.hn.toNat c
  firstTrap [
    need u.h.valid (flt u.h.fcode.toNat),
    need ((!u.rd || u.h.r) && (!u.wr || u.h.w)) (flt 2),
    need (u.h.inPage u.ea u.n) (flt 5),
    need (!u.h.dev || u.devForm && u.ea % 8 == 0) (flt 7)]

/-! ## The ring -/

/-- R242: stops from a source rank to a destination rank. -/
def ringHops (src dst : Nat) (anti : Bool) : Nat := if anti then (src + 16 - dst) % 16 else (dst + 16 - src) % 16

/-- R238: a stop lies on a message's path, its source apart. -/
def Msg.passes (m : Msg) (stop : Nat) : Bool :=
  decide (0 < ringHops m.src stop m.dir ∧ ringHops m.src stop m.dir ≤ ringHops m.src m.dst m.dir)

/-- R244: messages in a stop's skid buffer of a lane. -/
def inBuffer (ms : List Msg) (dst : Nat) (lane : BitVec 3) (dir : Bool) : Nat :=
  (ms.filter fun m => m.buffered && m.dst == dst && m.lane == lane && m.dir == dir).length

/-- R238: a message waits at the stop before its destination, whose buffer of 4 is full. -/
def Msg.waitsFull (e : Msg) (ms : List Msg) : Bool := !e.buffered && decide (4 ≤ inBuffer ms e.dst e.lane e.dir)

/-- The stop `h` hops after stop `u`. -/
def stopAfter (u h : Nat) (anti : Bool) : Nat := if anti then (u + 16 - h) % 16 else (u + h) % 16

/-- R238: the stop at which a message stands, given where earlier ones do: behind one that stands on its path, at its own source
behind one that stands there and came from there, or at the stop before a destination whose buffer is full. -/
def Msg.standsAt (m : Msg) (ms : List Msg) (taken : List (Nat × Msg)) : Option Nat :=
  let n := ringHops m.src m.dst m.dir
  let reach := if m.waitsFull ms then n - 1 else n
  if taken.any fun t => t.1 == m.src && t.2.src == m.src then some m.src
  else
    match (upto reach).find? fun h => taken.any fun t => t.1 == stopAfter m.src (h + 1) m.dir with
    | some h => some (stopAfter m.src h m.dir)
    | none => if m.waitsFull ms then some (stopAfter m.src reach m.dir) else none

/-- R238, R244: the messages in transit on a lane that stand, each with its stop; in the order of injection. -/
def standing (ms : List Msg) (lane : BitVec 3) (dir : Bool) : List (Nat × Msg) :=
  (ms.filter fun m => !m.buffered && m.lane == lane && m.dir == dir).foldl (fun t m =>
    match m.standsAt ms t with
    | some u => t ++ [(u, m)]
    | none => t) []

/-- R238: an earlier message of the lane has yet to leave this one's path before it: it goes to a stop of the path, and it does not
stand. -/
def aheadOf (ms : List Msg) (m e : Msg) : Bool :=
  !e.buffered && e.lane == m.lane && e.dir == m.dir && m.passes e.dst && !(standing ms m.lane m.dir).any fun t => t.2.id == e.id

/-- R238: a message reaches its destination's buffer: it does not stand, and no earlier one is ahead of it. -/
def Msg.reaches (m : Msg) (ms : List Msg) : Bool :=
  !((standing ms m.lane m.dir).any fun t => t.2.id == m.id) && !(ms.takeWhile fun e => e.id != m.id).any (aheadOf ms m)

/-- R239: ring time of a facet. -/
def Facet.ringTime (f : Facet) : Nat := wrapInt ((f.logical : Int) - (f.rbase.getD 0 : Nat)) 32

/-- R368: the facet slot of a core that runs the task of a launch with an ordinal. -/
def Core.slotOfOrdinal (k : Core) (launch ord : Nat) : Option Nat :=
  (upto 4).find? fun n => let f := k.facet n; f.resident && f.launch == launch && f.ordinal == ord

/-- R243: buffered messages for the running facet on a lane from a source. -/
def State.buffered (s : State) (rank facet lane : Nat) (anti : Bool) : List Msg :=
  (s.geode (geodeOf s.cur)).msgs.filter fun m =>
    m.buffered && m.launch == s.me.launch && m.dst == rankOf s.cur && m.dstFacet == s.me.ordinal && m.src == rank
      && m.srcFacet == facet && m.lane.toNat == lane && m.dir == anti

/-- R243: the stamp a `recv` expects. -/
def State.recvStamp (s : State) (rank : Nat) (anti : Bool) : Nat :=
  (s.me.ringTime + 2 ^ 32 - (ringHops rank (rankOf s.cur) anti + 2)) % 2 ^ 32

/-- Stamps compare modulo 2^32 (R239): `a` is later than `b`. -/
def stampLater (a b : Nat) : Bool := decide (0 < (a + 2 ^ 32 - b) % 2 ^ 32 ∧ (a + 2 ^ 32 - b) % 2 ^ 32 < 2 ^ 31)

/-- R242: the checks that `send` and `recv` share. -/
def State.ringTrap (s : State) (i : Instr) (rank : BitVec 4) : Option TrapInfo :=
  firstTrap [
    need (rank.toNat != rankOf s.cur) (trapOf i .illegalEncoding),
    need (s.me.rbase.isSome && s.me.ringMask.getLsbD rank.toNat) (trapOf i .timingMismatch)]

/-! ## Engine commands -/

/-- R256, R260: rows of a scratchpad source: segments (address, length). -/
def rowSegs (addr : Nat) (pitch : Int) (bytes rows : Nat) : List (Nat × Nat) :=
  (upto rows).map fun r => (wrapInt ((addr : Int) + Int.ofNat r * pitch) 24, bytes)

/-- R260: rows of a local window: offsets as integers; `none` when one lies below 0. -/
def localRows (off : Nat) (pitch : Int) (bytes rows size : Nat) : Bool :=
  (upto rows).all fun r => let o := (off : Int) + Int.ofNat r * pitch; decide (0 ≤ o ∧ o + bytes ≤ size)

/-- Signed field of a word. -/
def sfield (x hi lo : Nat) : Int := sextNat (nbits x hi lo) (hi + 1 - lo)

/-- Bytes of the running facet's window on its own core. -/
def State.winBytes (s : State) : Nat := 4096 * (s.window s.me.launch s.cur).length

/-- R258: the checks of a band operation: owned by another facet, or not open, which traps as an illegal encoding with the detail
descriptor; a band whose `win.close` has been issued is open no more for its owner (log entry 52). -/
def State.bandTrap (s : State) (i : Instr) (b : Nat) : Option TrapInfo :=
  let bd := s.here.bands.get b {}
  let closing := s.me.order.any fun e => e.kind == 7 && e.unit.toNat == b && !e.complete
  firstTrap [
    need (!(bd.isOpen && bd.owner != s.fn)) (trapOf i .illegalEncoding dBusy),
    need (bd.isOpen && !closing) (trapOf i .illegalEncoding dDesc)]

/-- R256: types of a shale feed. -/
def shaleTy (t : BitVec 5) : Bool := t == 2 || t == 3 || t == 4 || t == 5 || t == 17 || t == 24

/-- R256: issue checks of a feed. Rows of a scratchpad feed that name more than one rank trap with scratchpad range, as R219 has it for
strided, gather and scatter accesses (log entry 56). -/
def State.feedTrap (s : State) (i : Instr) (da db : BitVec 4) (ty : BitVec 5) (sm : BitVec 3) (kind tgt : BitVec 2) :
    Option TrapInfo :=
  let desc := trapOf i .illegalEncoding dDesc
  let a := (s.readD da).toNat
  let b := (s.readD db).toNat
  let shape := b < 2 ^ 32 && nbits b 15 0 != 0 && nbits b 31 16 != 0
  let own := need (s.me.cols != 0) (trapOf i .outsideAllotment)
  match kind.toNat with
  | 0 =>
    firstTrap [
      need (a < 2 ^ 40 && shape) desc,
      need (s.segsOk (rowSegs (nbits a 23 0) (sfield a 39 24) (nbits b 15 0) (nbits b 31 16))) (trapOf i .illegalEncoding dRange),
      own]
  | 1 =>
    let bd := s.here.bands.get (nbits a 2 0) {}
    firstTrap [
      need (a < 2 ^ 32 && nbits a 7 3 == 0 && shape) desc,
      s.bandTrap i (nbits a 2 0),
      need (decide (nbits a 15 8 + nbits b 31 16 ≤ bd.fill)) desc,
      need (decide (nbits a 31 16 + nbits b 15 0 ≤ bd.rowBytes)) desc,
      own]
  | _ =>
    firstTrap [
      need (a < 2 ^ 57 && a % 8 == 0 && b < 2 ^ 16 && b != 0) desc,
      need (shaleTy ty && sm.toNat ≤ 3) desc,
      need (sm == 0 || tgt == 0) desc,
      need (sm != 1 || b % 2 == 0) desc,
      own]

/-- R262, R451: SRC and DST words of a bulk command are well formed. -/
def bulkWordOk (w : Nat) : Bool :=
  match nbits w 63 61 with
  | 0 => nbits w 60 57 == 0
  | 1 => nbits w 60 30 == 0 && decide (nbits w 29 24 < 40)
  | 2 => nbits w 60 57 == 0
  | _ => false

/-- R262: OUTBAR and INBAR words are well formed. -/
def barWordOk (w : Nat) : Bool := nbits w 3 0 == 0 && nbits w 63 31 == 0 && decide (nbits w 29 24 < 40)

/-- R262, R451: a bulk command's words pass the checks made at `bulk.go`. -/
def bulkWordsOk (ws : List (BitVec 64)) : Bool :=
  let w (k : Nat) : Nat := (ws.getD k 0).toNat
  bulkWordOk (w 0) && bulkWordOk (w 1) && nbits (w 2) 23 0 != 0 && nbits (w 2) 39 24 != 0 && nbits (w 2) 63 40 == 0
    && barWordOk (w 4) && barWordOk (w 5) && !(nbits (w 0) 63 61 == 2 && nbits (w 1) 63 61 == 2)

/-- R262: the six staging words of a facet. -/
def Facet.stagingWords (f : Facet) : List (BitVec 64) := (upto 6).map fun k => f.staging.get k 0

/-- R259: issue checks of `win.open`; that the band is busy comes after the checks of descriptor and footprint (log entry 52). -/
def State.winOpenTrap (s : State) (i : Instr) (da db : BitVec 4) (band : BitVec 3) (rr : BitVec 8) : Option TrapInfo :=
  let a := (s.readD da).toNat
  let b := (s.readD db).toNat
  let rb := nbits b 35 20
  let ro := nbits b 19 0
  let desc := trapOf i .illegalEncoding dDesc
  firstTrap [
    need (a < 2 ^ 57 && a % 32 == 0) desc,
    need (ro % 32 == 0 && rb % 32 == 0 && decide (32 ≤ rb ∧ rb ≤ 65504) && nbits b 63 36 % 32 == 0) desc,
    need (decide (ro + rr.toNat * rb ≤ s.winBytes)) (trapOf i .illegalEncoding dRange),
    need (!(s.here.bands.get band.toNat {}).isOpen) (trapOf i .illegalEncoding dBusy)]

/-! ## Meetings -/

/-- R240: the running facet waits as its core's participant. -/
def State.meets (s : State) : Bool :=
  (s.geode (geodeOf s.cur)).tsync.any fun p => p.launch == s.me.launch && p.core == s.cur && p.facet == s.fn

/-- R240: another facet of the core waits as the core's participant of the running facet's launch. -/
def State.otherMeets (s : State) : Bool :=
  (s.geode (geodeOf s.cur)).tsync.any fun p => p.launch == s.me.launch && p.core == s.cur && p.facet != s.fn

/-- R241: a participant of the launch on another core in the mask waits with another mask. It traps the facet that becomes a
participant; the earlier one keeps waiting. -/
def State.maskDiffers (s : State) (mask : BitVec 16) : Bool :=
  (s.geode (geodeOf s.cur)).tsync.any fun p =>
    p.launch == s.me.launch && p.core != s.cur && mask.getLsbD (rankOf p.core) && p.mask != mask

/-! ## The checks of every operation -/

/-- The issue checks of an operation whose guard holds, in the order of its entry (R383); an `ifetch` source outside the window has the
detail of R219 (log entry 53). -/
def State.entryTrap (s : State) (i : Instr) : Option TrapInfo :=
  let ill := trapOf i .illegalEncoding
  let codeOk (t : BitVec 64) : Bool := wbits t 63 16 == 0 && wbits t 1 0 == 0
  match i with
  | .brs _ a off => need (codeOk (s.readS a + BitVec.ofInt 64 (4 * off.toInt))) ill
  | .ret _ a => need (codeOk (s.readS a)) ill
  | .loop _ _ _ a e =>
    let stop := s.me.pc + 4 * e.toNat
    if s.readS a == 0 then need (stop != 32768) ill else need (s.me.lsDepth < 6) (trapOf i .loopOverflow)
  | .loopi _ _ _ e cnt =>
    let stop := s.me.pc + 4 * e.toNat
    if cnt == 0 then need (stop != 32768) ill else need (s.me.lsDepth < 6) (trapOf i .loopOverflow)
  | .eret _ => need s.me.intrap ill
  | .movMg _ _ _ ms mg =>
    let g := s.readM mg
    let v := s.readM ms
    need (g &&& v == g || g &&& v == 0) (trapOf i .nonUniform)
  | .mcall _ ix sn _ => s.mcallTrap i ix sn
  | .mzero _ sn col =>
    let n := s.nWord sn
    firstTrap [need (nOk n) ill, need (decide (col.toNat + n.toNat ≤ s.me.cols)) (trapOf i .outsideAllotment)]
  | .mdrainV _ _ row col _ =>
    firstTrap [
      need (decide (col.toNat + 32 ≤ s.me.cols)) (trapOf i .outsideAllotment),
      need (!s.me.items.isEmpty || (upto 32).all fun j => !s.here.accPoison.contains (s.me.accKey row.toNat (col.toNat + j))) (trapOf i .poisonedOperand)]
  | .mdrainP _ sn mode fmt col row rows _ => s.mdrainPTrap i sn mode fmt col row rows
  | .mucodeLd _ ix words off =>
    match s.here.ownRoutine (s.image s.me.launch) ix.toNat with
    | some r =>
      firstTrap [
        need (decide (words.toNat + 1 ≤ r.words.length)) ill,
        need (decide (off.toNat + 16 * (words.toNat + 1) ≤ s.winBytes)) (trapOf i .illegalEncoding dRange)]
    | none => some ill
  | .mstat _ _ off => need (decide (off.toNat + 16 ≤ s.winBytes)) (trapOf i .illegalEncoding dRange)
  | .recv _ _ rank facet lane dir =>
    firstTrap [
      s.ringTrap i rank,
      (let bs := s.buffered rank.toNat facet.toNat lane.toNat (dir == 1)
       let st := s.recvStamp rank.toNat (dir == 1)
       need (bs.any (fun m => m.stamp.toNat == st) || !bs.any fun m => stampLater m.stamp.toNat st) (trapOf i .timingMismatch))]
  | .send _ _ rank _ _ _ => s.ringTrap i rank
  | .feed _ da db ty sm kind tgt _ => s.feedTrap i da db ty sm kind tgt
  | .lcopy _ da db _ =>
    let a := (s.readD da).toNat
    let b := (s.readD db).toNat
    firstTrap [
      need (a < 2 ^ 40 && nbits b 15 0 != 0 && nbits b 31 16 != 0) (trapOf i .illegalEncoding dDesc),
      need (localRows (nbits a 19 0) (sfield b 47 32) (nbits b 15 0) (nbits b 31 16) s.winBytes
        && localRows (nbits a 39 20) (sfield b 63 48) (nbits b 15 0) (nbits b 31 16) s.winBytes) (trapOf i .illegalEncoding dRange)]
  | .bulkGo _ _ _ => need (bulkWordsOk s.me.stagingWords) (trapOf i .illegalEncoding dDesc)
  | .winOpen _ da db band rr _ _ => s.winOpenTrap i da db band rr
  | .winAdv _ band k _ =>
    firstTrap [
      s.bandTrap i band.toNat,
      need (decide (1 ≤ k.toNat ∧ k.toNat ≤ (s.here.bands.get band.toNat {}).fill)) (trapOf i .illegalEncoding dDesc)]
  | .winClose _ band _ => s.bandTrap i band.toNat
  | .ifetch _ da words _ =>
    let a := (s.readD da).toNat
    let n := 4 * (words.toNat + 1)
    firstTrap [
      need (a < 2 ^ 35 && nbits a 19 0 % 4 == 0 && nbits a 34 20 % 4 == 0) (trapOf i .illegalEncoding dDesc),
      need (decide (nbits a 34 20 + n ≤ 32768)) (trapOf i .illegalEncoding dDesc),
      need (decide (nbits a 19 0 + n ≤ s.winBytes)) (trapOf i .illegalEncoding dRange)]
  | .barArr _ xb _ _ =>
    firstTrap [
      need (spAddr (s.readX xb) 0 % 16 == 0) (trapOf i .illegalEncoding dDesc),
      need (s.spOk (spAddr (s.readX xb) 0) 16) (trapOf i .illegalEncoding dRange)]
  | .barWait _ xb _ =>
    firstTrap [
      need (spAddr (s.readX xb) 0 % 16 == 0) (trapOf i .illegalEncoding dDesc),
      need (s.spOk (spAddr (s.readX xb) 0) 16) (trapOf i .illegalEncoding dRange)]
  | .tsync _ mask =>
    firstTrap [
      need (mask.getLsbD (rankOf s.cur)) ill,
      need (s.me.tsyncMet || s.meets || s.otherMeets || !s.maskDiffers mask) (trapOf i .timingMismatch)]
  | .chkY _ ya yb => need (s.readY ya == s.readY yb) (trapOf i .checkMismatch 0 0 0 0x0C)
  | .chkV _ a b m =>
    let x := s.readV a
    let y := s.readV b
    let mk := s.readM m
    need ((upto 128).all fun j => !mk.getLsbD j || x.elem 1 j == y.elem 1 j && x.tailAt 1 j == y.tailAt 1 j)
      (trapOf i .checkMismatch 0 0 0 0x0D)
  | .chkS _ ya a => need (s.readY ya == s.readS a) (trapOf i .checkMismatch 0 0 0 0x0E)
  | i =>
    match s.hUse i with
    | some u => hTrap i u
    | none =>
      match s.spSegs i with
      | some l => need (s.segsOk l) (trapOf i .illegalEncoding dRange)
      | none => none

/-- R94, R3: a source (or the guard) fails its parity check. -/
def State.parityTrap (s : State) (i : Instr) (on : Bool) : Option TrapInfo :=
  let g := RegId.g (i.guard.toNat % 8)
  let rs := if on then g :: s.srcList i else [g]
  need (!rs.any s.me.badParity) (trapOf i .poisonedOperand)

/-- The issue checks of one operation, its guard's and sources' parity first. -/
def State.issueTrap (s : State) (i : Instr) : Option TrapInfo :=
  let on := s.guard i.guard
  firstTrap [s.parityTrap i on, if on then s.entryTrap i else none]

/-! ## Holds -/

/-- R192: the slot of a bundle that makes it covering. -/
def covers : Instr → Bool
  | .mwait _ _ => true
  | .mdrainV _ _ _ _ _ => true
  | .halt _ => true
  | _ => false

/-- R190: the operation is a matrix item. -/
def isItem : Instr → Bool
  | .mcall _ _ _ _ => true
  | .mzero _ _ _ => true
  | .mdrainP _ _ _ _ _ _ _ _ => true
  | .mucodeLd _ _ _ _ => true
  | .mwit _ _ => true
  | .mflush _ => true
  | .mstat _ _ _ => true
  | _ => false

/-- Records of the event queue addressed to a facet (R251). -/
def Core.recordsOf (k : Core) (fn : Nat) : List EventRec := k.evq.filter fun r => r.facet == fn

/-- R133: every engine queue fed by the core is empty and idle, the matrix queues of its facets among them (R193). -/
def State.enginesIdle (s : State) (c : Nat) : Bool :=
  let k := s.core c
  k.feedA.isEmpty && k.feedB.isEmpty && k.feedL.isEmpty && k.bands.all (fun b => b.2.ops.isEmpty) && k.inv.isNone
    && k.facets.all (fun f => f.2.items.isEmpty && f.2.order.isEmpty)

/-- R284: a home lies in a scope, for an access of core `c` (R283). -/
def inScope (c : Nat) (scope : Nat) (h : Home) (pa : Nat) : Bool :=
  match h with
  | .spad d => d == c || decide (1 ≤ scope) && geodeOf d == geodeOf c || decide (3 ≤ scope)
  | .main => decide (3 ≤ scope) || scope == 2 && veinOf pa == geodeOf c / 5
  | .durable => decide (3 ≤ scope)
  | .device => decide (3 ≤ scope)
  | .remote _ => scope == 4

/-- Addresses that an access touches. -/
def AccessOp.addrs : AccessOp → List Nat
  | .load l _ => l
  | .store ws => ws.map (·.addr)
  | .atomic a w _ _ _ _ _ _ => (upto w).map (a + ·)
  | .arrive a _ _ => (upto 16).map (a + ·)

/-- The access writes. -/
def AccessOp.writes : AccessOp → Bool
  | .load _ _ => false
  | _ => true

/-- The first address of an access. -/
def AccessOp.first : AccessOp → Nat
  | .load as _ => as.headD 0
  | .store ws => match ws with | w :: _ => w.addr | [] => 0
  | .atomic a _ _ _ _ _ _ _ => a
  | .arrive a _ _ => a

/-- Accesses of a facet that have not performed at a scope (R284). -/
def State.openAccesses (s : State) (c fn scope : Nat) : List Access :=
  s.accs.filter fun a => a.core == c && a.facet == fn && a.launch == (s.facet c fn).launch && inScope c scope a.home a.op.first

/-- R284: messages of a facet that have not entered their buffer. -/
def State.openMsgs (s : State) (c : Nat) (f : Facet) : List Msg :=
  (s.geode (geodeOf c)).msgs.filter fun m => !m.buffered && m.launch == f.launch && m.src == rankOf c && m.srcFacet == f.ordinal

/-- R284, R288: some message of a facet has not entered its buffer. -/
def State.openSends (s : State) (c : Nat) (f : Facet) : Bool := !(s.openMsgs c f).isEmpty

/-- R306, R406: a store is of the task that a facet holds, or of the saved one that it goes on from. -/
def Facet.authored (f : Facet) (a : Author) : Bool :=
  a.id != 0 && (a.launch == f.launch && a.task == f.task || f.origin.contains (a.launch, a.task))

/-- R351, R305: mirror writes of a facet's stores whose acknowledgement is outstanding. -/
def State.mirrorOpen (s : State) (c fn : Nat) : List MirWrite := s.mirQ.filter fun w => (s.facet c fn).authored w.author

/-- R288: the facet's earlier accesses have performed at a scope. -/
def State.drained (s : State) (c fn scope : Nat) : Bool :=
  (s.openAccesses c fn scope).isEmpty && (scope == 0 || !s.openSends c (s.facet c fn)) && (scope != 6 || (s.mirrorOpen c fn).isEmpty)

/-- R272: operations of a facet that count in a wait class and have yet to complete. -/
def Facet.openOps (f : Facet) (cls : Nat) : Nat := (f.order.filter fun e => e.classes.contains cls && !e.complete).length

/-- SCOPE of the bundle in issue, as a number (R36). -/
def State.scope (s : State) : Nat := s.me.latch.scope.toNat

/-- R240: the other participants of the meeting of the running facet are all there. -/
def State.meetingReady (s : State) (launch : Nat) (mask : BitVec 16) (g : Nat) : Bool :=
  (upto 16).all fun r => !mask.getLsbD r
    || (s.geode g).tsync.any fun p => p.launch == launch && p.core == coreAt g r && p.mask == mask

/-- R269: GEN of a barrier object at a scratchpad address of the running core. -/
def State.barGen (s : State) (a : Nat) : Nat :=
  let w := s.window s.me.launch (s.spCore a)
  ((s.core (s.spCore a)).spad.get (spPhys w (spOff a))).toNat % 16

/-- R246, R247, R277: commands of the core's facets that count in a queue from issue until completion, by the kinds of their
records and their unit. -/
def Core.queued (k : Core) (kinds : List Nat) (unit : Nat) : Nat :=
  (k.facets.map fun f => (f.2.order.filter fun e => !e.complete && kinds.contains e.kind.toNat && e.unit.toNat == unit).length).sum

/-- R238, R243, R244: the lane at stop `u` cannot take a message: one that stands holds it from its sender's stop to where it stands, or
its segments are full. -/
def laneHeld (ms : List Msg) (u : Nat) (lane : BitVec 3) (dir : Bool) : Bool :=
  ((standing ms lane dir).any fun t => decide (ringHops t.2.src u dir ≤ ringHops t.2.src t.1 dir)) || decide (16 ≤ (ms.filter fun e => !e.buffered && e.lane == lane && e.dir == dir).length)

/-- R234, R286: no earlier access of the running facet to its own scratchpad has yet to perform. -/
def State.localNow (s : State) : Bool :=
  !s.accs.any fun a => a.core == s.cur && a.facet == s.fn && a.launch == s.me.launch && a.home == .spad s.cur

/-- R222: requests that a core has on the peer network. -/
def State.peerOut (s : State) : Nat :=
  (s.accs.filter fun a => a.core == s.cur && match a.home with | .spad d => d != s.cur | _ => false).length

/-- R447, R448: the 64-byte lines among addresses of other lodes that have no request among those `held`, each by its lode and its first
address there. -/
def linesLeft (held : List PortReq) (pas : List (Nat × Nat)) : List (Nat × Nat) :=
  ((pas.map fun p => (p.1, p.2 / 64)).eraseDups.filter fun l => !held.any fun r => (r.lode, r.line) == l).map fun l =>
    (pas.find? fun p => (p.1, p.2 / 64) == l).getD (l.1, 64 * l.2)

/-- The addresses of another lode that an access reaches. -/
def Access.reaches (a : Access) : List (Nat × Nat) :=
  match a.home with
  | .remote l => a.op.addrs.map fun p => (l.toNat, p)
  | _ => []

/-- R443: requests that a port holds, and those of accesses that wait to enter it. -/
def State.portOut (s : State) (k : Nat) : Nat :=
  s.portHeld k + ((s.accs.flatMap fun a => linesLeft a.ports a.reaches).filter fun p => s.portFor p.1 p.2 == k).length

/-- R30: the path inside the lode that leads to a home: to memory, to the durable tier or to the device registers. -/
def Home.path : Home → Option Nat
  | .main => some 0
  | .durable => some 1
  | .device => some 2
  | _ => none

/-- R30: accesses of the core on a path inside the lode. -/
def State.pathOut (s : State) (p : Nat) : Nat := (s.accs.filter fun a => a.core == s.cur && a.home.path == some p).length

/-- R222: an operation sends a request to a peer core. -/
def State.goesPeer (s : State) (i : Instr) : Bool :=
  s.guard i.guard && match i with
    | .barWait _ _ _ => false
    | i => match s.spSegs i with | some (g :: _) => spRank g.1 != rankOf s.cur | _ => false

/-- R318: the home of an operation's handle access and its physical addresses there. -/
def State.goesHome (s : State) (i : Instr) : Option (Home × List Nat) :=
  if !s.guard i.guard then none
  else
    match s.hUse i with
    | some u => if u.h.valid then some (s.homeOf u.h (u.h.pa u.ea), (upto u.n).map (u.h.pa u.ea + ·)) else none
    | none => none

/-- R443, R446, R448: the ports over which an operation's requests to another lode go, one for each line. -/
def State.goesPorts (s : State) (i : Instr) : List Nat :=
  match s.goesHome i with
  | some (.remote l, pas) => ((linesLeft [] (pas.map fun p => (l.toNat, p))).filter fun p => s.route p.1 p.2 == .away).map fun p => s.portFor p.1 p.2
  | _ => []

/-- R30: the path inside the lode over which an operation's request goes. -/
def State.goesPath (s : State) (i : Instr) : Option Nat := (s.goesHome i).bind fun h => h.1.path

/-- R30, R222, R443: the requests of operations do not all find room in the skid buffers of their paths: 8 entries at the core's
stop of the peer network, 64 at a fabric port, and those of the lode's own paths, whose depth no rule states (log entry 42). -/
def State.pathFull (s : State) (ops : List Instr) : Bool :=
  let peers := (ops.filter s.goesPeer).length
  let ports := ops.flatMap s.goesPorts
  let paths := ops.filterMap s.goesPath
  decide (peers ≠ 0 ∧ 8 < s.peerOut + peers) || ports.any (fun k => decide (portDepth < s.portOut k + (ports.filter (· == k)).length))
    || paths.any fun p => decide (s.pathOut p ≠ 0 ∧ Config.pathDepth p < s.pathOut p + (paths.filter (· == p)).length)

/-- R221: local banks that the scratchpad access of an operation touches. -/
def State.localBanks (s : State) (i : Instr) : BitVec 32 :=
  match s.spSegs i with
  | some l => banksOf ((l.filter fun g => spRank g.1 == rankOf s.cur).flatMap fun g => s.spBytes g.1 g.2)
  | none => 0

/-- R31, R234, R286: an access to the core's own scratchpad stands behind an earlier local access of its facet that has yet to
perform, a barrier arrival that waits for its release: its bundle holds, so that it performs in issue order and within its bound
(log entry 43). -/
def State.behindArrival (s : State) (i : Instr) : Bool :=
  s.guard i.guard && !s.localNow && match i with
    | .barArr _ _ _ _ => false
    | .barWait _ _ _ => false
    | i => match s.spSegs i with | some (g :: _) => spRank g.1 == rankOf s.cur | _ => false

/-- The conditions of one operation's own entry under which it holds issue, its guard being true. `crc.rd`, whose record needs room in
the event queue, holds until there is some (log entry 52). -/
def State.entryHolds (s : State) (i : Instr) : Bool :=
  let f := s.me
  match i with
  | .halt _ => f.outstanding || !s.enginesIdle s.cur
  | .ifence _ => f.order.any fun e => e.kind == 4 && !e.complete
  | .evpop _ _ => (s.here.recordsOf s.fn).isEmpty
  | .wfe _ n => decide ((s.here.recordsOf s.fn).length < n.toNat)
  | .flagsRd _ _ => f.landings.any fun l => l.access != 0 && decide (l.due ≤ f.clock)
  | .flagsClr _ _ => f.landings.any fun l => l.access != 0 && decide (l.due ≤ f.clock)
  | .mdrainV _ _ _ _ _ => !f.items.isEmpty
  | .mwait _ k => decide (k.toNat < f.items.length)
  | .recv _ _ rank facet lane dir =>
    !(s.buffered rank.toNat facet.toNat lane.toNat (dir == 1)).any fun m => m.stamp.toNat == s.recvStamp rank.toNat (dir == 1)
  | .send _ _ _ _ lane dir => laneHeld (s.geode (geodeOf s.cur)).msgs (rankOf s.cur) lane (dir == 1)
  | .feed _ _ _ _ _ _ tgt _ => decide (16 ≤ s.here.queued [1 + tgt.toNat] 0)
  | .lcopy _ _ _ _ => decide (16 ≤ s.here.queued [3, 4] 0)
  | .ifetch _ _ _ _ => decide (16 ≤ s.here.queued [3, 4] 0)
  | .bulkGo _ en _ => (s.bulk.get en.toNat {}).shadow.isSome
  | .winOpen _ _ _ band _ _ _ => decide (8 ≤ s.here.queued [6, 7] band.toNat)
  | .winAdv _ band _ _ => decide (8 ≤ s.here.queued [6, 7] band.toNat)
  | .winClose _ band _ => decide (8 ≤ s.here.queued [6, 7] band.toNat)
  | .crcRd _ _ _ _ => !f.order.isEmpty || decide (64 ≤ s.here.evq.length)
  | .barWait _ xb sg => s.barGen (spAddr (s.readX xb) 0) == (s.readS sg).toNat % 16
  | .wait _ cls k => decide (k.toNat < f.openOps cls.toNat)
  | .drain _ => !s.drained s.cur s.fn s.scope
  | .pbar _ => !s.drained s.cur s.fn 3 || f.pbar != 2
  | .tsync _ mask => (mask != BitVec.ofNat 16 (2 ^ rankOf s.cur) || s.otherMeets) && !f.tsyncMet
  | i => isItem i && decide (16 ≤ f.items.length) || s.pathFull [i]

/-- R32: one operation waits for a late value: its guard is late, or it is true and a source is late. -/
def State.late (s : State) (i : Instr) : Bool :=
  s.me.late (.g (i.guard.toNat % 8)) || s.guard i.guard && (s.srcList i).any s.me.late

/-- R32, R311: one operation waits for a value: a late one, or, its guard being true, a handle that is pending. -/
def State.waits (s : State) (i : Instr) : Bool :=
  s.late i || s.guard i.guard && (match s.hUse i with | some u => u.h.pend | none => false)

/-- R221: an operation whose guard is true touches a bank that is locked. -/
def State.bankHeld (s : State) (i : Instr) : Bool := s.guard i.guard && s.here.locked (s.localBanks i)

/-- R32, R221: one operation holds issue: it waits for a value, or its guard is true and a bank it touches is locked, an earlier
arrival stands before it or its entry says so. -/
def State.holds (s : State) (i : Instr) : Bool :=
  s.waits i || s.bankHeld i || s.behindArrival i || s.guard i.guard && s.entryHolds i

/-- What a held operation has set going by being offered: a `pbar` asks for its seal once its stores have performed
(R343), a `tsync` joins its meeting (R240). -/
def State.offer (s : State) (i : Instr) : State :=
  if !s.guard i.guard then s
  else
    match i with
    | .pbar _ =>
      if s.me.pbar = 0 && s.drained s.cur s.fn 3 then
        { s.modMe fun f => { f with pbar := 1 } with seals := s.seals ++ [{ host := false, core := s.cur, facet := s.fn, launch := s.me.launch }] }
      else s
    | .tsync _ mask =>
      let g := geodeOf s.cur
      if mask != BitVec.ofNat 16 (2 ^ rankOf s.cur) && !s.me.tsyncMet
          && !((s.geode g).tsync.any fun p => p.launch == s.me.launch && p.core == s.cur) then
        s.modGeode g fun e => { e with tsync := e.tsync ++ [⟨s.cur, s.fn, s.me.launch, mask⟩] }
      else s
    | _ => s

/-! ## The frame of a slot operation -/

/-- Runs one slot operation (R11, R32, R43, R51): nothing unless its core's running facet is resident and its guard holds;
nothing yet while a value it reads is on its way; the trap of its first failing check; nothing yet while it holds issue; else
its effect. Of a bundle that has passed its checks and holds as a whole (R52, R53) every operation goes straight to its guard
and its effect. -/
def slotOp (i : Instr) (s : State) (effect : State) : Out :=
  .next (
    if !s.me.resident then s
    else if s.me.latch.passed then (if s.guard i.guard then effect else s)
    else if s.waits i then s
    else
      match s.issueTrap i with
      | some t => s.takeTrap t
      | none =>
        if s.holds i then s.offer i
        else if s.guard i.guard then effect else s)

end Sys2Proof.Machine
end

