-- ==== Sys2Proof/Machine/Flags.lean ====
section
/-! DEFINITION. Sticky flags (R56, R150) and the writes that slot operations make: results with their bounds and flags, and
the issue latch. -/

namespace Sys2Proof.Machine

/-- R56: flags raised at the operation's own issue (a floating-point store R230, a covering bundle R192). -/
def State.raise (s : State) (fl : BitVec 6) : State := s.modMe fun f => { f with flags := f.flags ||| fl }

/-- Changes the issue latch of the running facet. -/
def State.modLatch (s : State) (f : Latch → Latch) : State := s.modMe fun x => { x with latch := f x.latch }

/-- A result for a scalar register. -/
def State.putS (s : State) (d : BitVec 6) (v : BitVec 64) (lat : Nat) : State := s.land (.s d.toNat v) lat

/-- R123, R147: results for the pair s(d), s(d + 1), d even. -/
def State.putPair (s : State) (d : BitVec 6) (v : BitVec 64 × BitVec 64) (lat : Nat) : State :=
  (s.land (.s d.toNat v.1) lat).land (.s (d.toNat + 1) v.2) lat

/-- A result for a guard. -/
def State.putG (s : State) (gd : BitVec 3) (v : Bool) (lat : Nat) : State := s.land (.g gd.toNat v) lat

/-- A result for a mask. -/
def State.putM (s : State) (md : BitVec 4) (v : BitVec 128) (lat : Nat) (fl : BitVec 6 := 0) : State :=
  s.land (.m md.toNat v) lat fl

/-- A result for the vector register that a name denotes now (R110). -/
def State.putV (s : State) (d : BitVec 9) (v : VReg) (lat : Nat) (fl : BitVec 6 := 0) : State :=
  s.land (.v (s.me.phys d) v) lat fl

end Sys2Proof.Machine
end

