-- ==== Sys2Proof/Machine/Spad.lean ====
section
/-! DEFINITION. The scratchpad (08 R215 to R237): its bytes and their poison, local accesses, and accesses that leave the
core and perform at their home later (10 R280 to R286). -/

namespace Sys2Proof.Machine

/-- A byte after a write of some of its bits (R230). -/
def mergeByte (old : BitVec 8) (w : ByteWrite) : BitVec 8 := (old &&& ~~~w.bits) ||| (w.b &&& w.bits)

/-- Addresses whose bytes a list of writes replaces whole, by one write or by those of both nibbles. -/
def wholeBytes (ws : List ByteWrite) : List Nat :=
  (ws.filter fun w => w.bits == 0xFF || ws.any fun v => v.addr == w.addr && v.bits ||| w.bits == 0xFF).map (·.addr)

/-- R235: writes at physical offsets of a scratchpad; a unit written whole loses its errors. -/
def Core.spadWrite (k : Core) (ws : List ByteWrite) : Core :=
  let full := wholeBytes ws
  { k with
    spad := ws.foldl (fun m w => m.set w.addr (mergeByte (m.get w.addr) w)) k.spad
    spadPoison := k.spadPoison.filter fun u => !((upto 8).all fun j => full.contains (8 * u + j))
    spadFlaws := k.spadFlaws.filter fun u => !((upto 8).all fun j => full.contains (8 * u + j)) }

/-- R235: some unit of the bytes has an uncorrectable error. -/
def Core.spadBad (k : Core) (offs : List Nat) : Bool := offs.any fun o => k.spadPoison.contains (o / 8)

/-- R235, R236, R339: what reads of a scratchpad's units leave: each uncorrectable unit counts in UNCORR, each single-bit error is
corrected and counts in CORR and as core event 0x08. -/
def State.noteSpadErr (s : State) (c : Nat) (offs : List Nat) : State :=
  let units := (offs.map (· / 8)).eraseDups
  let a := aCore c + 0x40
  let s := (units.filter fun u => (s.core c).spadPoison.contains u).foldl (fun s u =>
    (s.devPut a 31 16 (min 0xFFFF (s.devFld a 31 16 + 1))).devPut a 51 32 (8 * u)) s
  let fixed := units.filter fun u => (s.core c).spadFlaws.contains u
  if fixed.isEmpty then s
  else
    ((s.devPut a 15 0 (min 0xFFFF (s.devFld a 15 0 + fixed.length))).countCore c 0x08 fixed.length).modCore c fun k =>
      { k with spadFlaws := k.spadFlaws.filter fun u => !fixed.contains u }

/-- R235: an error comes upon a unit of a scratchpad: an uncorrectable one poisons it, and takes in a single-bit error that stood there. -/
def Core.spadUpset (k : Core) (u : Nat) (bad : Bool) : Core :=
  if bad then
    (if k.spadPoison.contains u then k
     else { k with spadPoison := k.spadPoison ++ [u], spadFlaws := k.spadFlaws.filter (· != u) })
  else if k.spadPoison.contains u || k.spadFlaws.contains u then k
  else { k with spadFlaws := k.spadFlaws ++ [u] }

/-- An access of the running facet leaves the core (R281). -/
def State.sendAccess (s : State) (home : Home) (op : AccessOp) (after : List Nat := []) (mir : Bool := false)
    (tol tpol : Bool := false) (via : Option (BitVec 20 × Handle) := none) : State :=
  { s with
    accs := s.accs ++ [{ id := s.nextId, core := s.cur, facet := s.fn, launch := s.me.launch, task := s.me.task, scope := s.me.latch.scope, home := home, op := op,
                         after := after, mir := mir, tol := tol, tpol := tpol, pasid := s.me.pasid, via := via }]
    nextId := s.nextId + 1 }

/-- R224 to R228: a scratchpad load of segments of one rank: a local one reads now, a peer one leaves the core, and one
without bytes only rewrites its destination. -/
def State.spadLoad (s : State) (segs : List (Nat × Nat)) (dst : LoadDst) (bound : Nat) : State :=
  match segs with
  | [] => let r := loadWrite dst []; s.land r.1 bound r.2
  | (a, _) :: _ =>
    let c := s.spCore a
    let offs := segs.flatMap fun g => s.spBytes g.1 g.2
    if c = s.cur then
      let k := s.here
      let r := loadWrite dst (offs.map fun o => k.spad.get o)
      (s.land r.1 bound r.2 0 (k.spadBad offs)).noteSpadErr c offs
    else (s.land dst.reg bound 0 s.nextId).sendAccess (.spad c) (.load offs dst)

/-- R230, R231: a scratchpad store, its writes at scratchpad addresses of one rank. -/
def State.spadStore (s : State) (ws : List ByteWrite) : State :=
  match ws with
  | [] => s
  | w :: _ =>
    let c := s.spCore w.addr
    let win := s.window s.me.launch c
    let ps := ws.map fun w => { w with addr := spPhys win (spOff w.addr) }
    if c = s.cur then s.modHere fun k => k.spadWrite ps
    else s.sendAccess (.spad c) (.store ps)

/-- The writes moved to a base address. -/
def atBase (a : Nat) (ws : List ByteWrite) : List ByteWrite := ws.map fun w => { w with addr := a + w.addr }

/-- The writes of consecutive bytes. -/
def bytesAtBase (a : Nat) (bs : List (BitVec 8)) : List ByteWrite := bs.mapIdx fun k b => { addr := a + k, b := b }

/-- R232, R233, R235: an atomic at a physical offset of a scratchpad: the memory after it, the value read, its flags, and
whether the unit was bad. -/
def Core.spadAtomic (k : Core) (o w : Nat) (op : BitVec 4) (t : BitVec 5) (mode : BitVec 3) (opd cmp : Nat) :
    Core × Nat × BitVec 6 × Bool :=
  let offs := (upto w).map (o + ·)
  let old := k.spad.num o w
  if k.spadBad offs then (k, old, 0, true)
  else
    let r := atomicNew w op t mode old opd cmp
    (k.spadWrite (bytesAtBase o (leBytes w r.1)), old, r.2, false)

/-- R232: `amo.p` at a scratchpad address. -/
def State.spadAmo (s : State) (a w : Nat) (op : BitVec 4) (t : BitVec 5) (mode : BitVec 3) (d : BitVec 6) : State :=
  let c := s.spCore a
  let o := spPhys (s.window s.me.launch c) (spOff a)
  let opd := (s.readS d).toNat % 2 ^ (8 * w)
  let cmp := (s.readS (d + 1)).toNat % 2 ^ (8 * w)
  if c = s.cur then
    let s := s.noteSpadErr c ((upto w).map (o + ·))
    let r := s.here.spadAtomic o w op t mode opd cmp
    (s.modHere fun _ => r.1).land (.s d.toNat (atomicOld t w r.2.1)) 6 r.2.2.1 0 r.2.2.2
  else
    (s.land (.s d.toNat 0) (s.spBound a) 0 s.nextId).sendAccess (.spad c)
      (.atomic o w op t mode (BitVec.ofNat 64 opd) (BitVec.ofNat 64 cmp) d.toNat)

/-- R318, R319: a load through a handle. -/
def State.handleLoad (s : State) (h : Handle) (ea n : Nat) (dst : LoadDst) : State :=
  let pa := h.pa ea
  (s.land dst.reg (s.boundOf h) 0 s.nextId).sendAccess (s.homeOf h pa) (.load ((upto n).map (pa + ·)) dst) [] false h.tol h.tpol
    (some (s.me.pasid, h))

/-- R318: a store through a handle, its writes relative to the effective address. -/
def State.handleStore (s : State) (h : Handle) (ea : Nat) (ws : List ByteWrite) (after : List Nat := []) (mir : Bool := false) : State :=
  if ws.isEmpty then s
  else s.sendAccess (s.homeOf h (h.pa ea)) (.store (atBase (h.pa ea) ws)) after mir h.tol h.tpol (some (s.me.pasid, h))

/-- R318, R319: an atomic through a handle. -/
def State.handleAmo (s : State) (h : Handle) (ea w : Nat) (op : BitVec 4) (t : BitVec 5) (mode : BitVec 3) (d : BitVec 6) :
    State :=
  let opd := (s.readS d).toNat % 2 ^ (8 * w)
  let cmp := (s.readS (d + 1)).toNat % 2 ^ (8 * w)
  (s.land (.s d.toNat 0) (s.boundOf h) 0 s.nextId).sendAccess (s.homeOf h (h.pa ea))
    (.atomic (h.pa ea) w op t mode (BitVec.ofNat 64 opd) (BitVec.ofNat 64 cmp) d.toNat) [] false h.tol h.tpol
    (some (s.me.pasid, h))

/-- R284, R285, R289: the accesses, sends among them, that a release of this bundle waits for. -/
def State.covered (s : State) : List Nat :=
  (s.openAccesses s.cur s.fn s.scope).map (·.id) ++ (if s.scope = 0 then [] else (s.openMsgs s.cur s.me).map (·.id))
    ++ (if s.scope = 6 then (s.mirrorOpen s.cur s.fn).map (·.author.id) else [])

/-- R305: a release or fork of this bundle waits for the mirror writes of the stores it covers. -/
def State.coversMirror (s : State) : Bool := s.scope == 6

end Sys2Proof.Machine
end

