-- ==== Sys2Proof/Machine/MainMemory.lean ====
section
/-! DEFINITION. Main memory: reads and writes by every kind of requester, poison and error reports (11 R330 to R336),
hotness (R327), handles and walks (R308 to R312), revocation (R322), refresh (R329) and the patrols (R335, R349). -/

namespace Sys2Proof.Machine

/-! ## Hotness -/

/-- R327: hotness slot `k` matches a requester. -/
def State.hotMatch (s : State) (k : Nat) (w : Who) : Bool :=
  let a := aMmr + 0x40 + 8 * k
  match s.devFld a 2 0 with
  | 1 => match w.geode with | some g => (s.devGet a).getLsbD (8 + g) | none => false
  | 2 => match w.pasid with | some p => s.devFld a 27 8 == p.toNat | none => false
  | 3 => w.hot == 3
  | 4 => w.hot == 4
  | 5 => w.hot == 5
  | _ => false

/-! ## Reads and writes at the home -/

/-- R331: one byte as a reader meets it, with its poison. -/
def State.readByte (s : State) (pa : Nat) (tol tpol : Bool) : FByte :=
  if s.poisoned pa then (if tol then ⟨substByte tpol, false⟩ else ⟨s.byteAt pa, true⟩) else ⟨s.byteAt pa, false⟩

/-- R330, R338: a word or line is read: it is counted, and an error that stands there is met (KIND 1). -/
def State.readGrain (s : State) (g : Nat) (w : Who) : State :=
  (s.countRead g).meetAt g 1 w.req

/-- R331: what a read of a word or line leaves: a poisoned word is substituted in a tolerant region; in a strict one poison that
stood there is reported (KIND 2; log entry 44). -/
def State.noteGrain (s : State) (g : Nat) (tol : Bool) (w : Who) : State :=
  let t := s.readGrain g w
  if !t.poisoned g then t else if tol then t.subst g else if s.poisoned g then t.report g 2 127 w.req else t

/-- R331, R338: what a read of local memory leaves in memory, counters, logs and SUBST, hotness apart. -/
def State.noteWords (s : State) (pas : List Nat) (tol : Bool) (w : Who) : State :=
  (grains pas).foldl (fun s g => s.noteGrain g tol w) s

/-- R332, R339: the writes of one word or line, and what they leave of its poison; a merge reads the word (R330). -/
def State.putGrain (s : State) (g : Nat) (ws : List ByteWrite) (tol tpol : Bool) (w : Who) : State :=
  let n := grain g
  let full := wholeBytes ws
  let whole := (upto n).all fun k => full.contains (g + k)
  let old := s.poisoned g
  let s := if whole then s.forgetFlaw g else s.meetAt g 1 w.req
  let bad := s.poisoned g
  let s := if bad && tol && !whole then ((s.putRaw g (List.replicate n (substByte tpol))).cleanWord g).subst g else s
  let s := ws.foldl (fun s x => s.putByte x.addr (mergeByte (s.byteAt x.addr) x)) s
  let s := if place g == .main then
      (let s := s.countVein (veinOf g) 0x02 1
       if whole then s else (s.countRead g).countVein (veinOf g) 0x03 1)
    else s
  if whole then s.cleanWord g else if old && !tol then s.report g 3 127 w.req else s

/-- R281, R332, R342, R351: writes at addresses of local memory, those in `bad` carrying poison (R268), hotness apart; `by'`
names the store for the mirror. All its granules are written at once: R282 lets each be seen on its own (log entry 56). -/
def State.storeWords (s : State) (ws : List ByteWrite) (bad : List Nat) (tol tpol : Bool) (w : Who) (by' : Author) : State :=
  ((grains (ws.map (·.addr))).foldl (fun s g =>
    let s := s.putGrain g (ws.filter fun x => grainBase x.addr == g) tol tpol w
    let s := if bad.any fun a => grainBase a == g then s.poisonWord g else s
    s.mirrorWord (g / 32) by') s).notify

/-- R327, R328: one request to a 64 KiB block counts in every slot it matches. A count is an atomic update of its word by hardware, in no
tolerant region (R330, R332). It posts whenever it makes the count equal to THR, a THR raised after a post too (log entry 57). -/
def State.hotBlock (s : State) (b : Nat) (w : Who) : State :=
  let v := veinOf (65536 * b)
  let hb := aVein v + 0x38
  if s.devFld hb 0 0 = 0 then s
  else
    (upto 8).foldl (fun s k =>
      if s.hotMatch k w then
        let at' := 2 ^ 24 * s.devFld hb 38 24 + 16 * (b % 2 ^ 20) + 2 * k
        let t := s.meetAt at' 1 w.req
        let c := t.numAt at' 2
        if t.poisoned at' then (let t := t.countRead at'; if s.poisoned at' then t.report at' 2 127 w.req else t)
        else
          let t := t.storeWords (bytesAtBase at' (leBytes 2 (min 0xFFFF (c + 1)))) [] false false w {}
          if c + 1 = t.devFld (aMmr + 0x40 + 8 * k) 63 48 then t.meqPost 1 v k 0 (65536 * b) else t
      else s) s

/-- R327: the main-memory blocks of a request's bytes count. -/
def State.hot (s : State) (pas : List Nat) (w : Who) : State :=
  (((pas.filter fun a => place a == .main).map (· / 65536)).eraseDups).foldl (fun s b => s.hotBlock b w) s

/-- R327, R331: what a read of local memory leaves. -/
def State.noteRead (s : State) (pas : List Nat) (tol : Bool) (w : Who) : State := (s.noteWords pas tol w).hot pas w

/-- R281: writes at addresses of local memory. -/
def State.storeMain (s : State) (ws : List ByteWrite) (tol tpol : Bool) (w : Who) (by' : Author) : State :=
  (s.storeWords ws [] tol tpol w by').hot (ws.map (·.addr)) w

/-- R232, R332, R339: an atomic on a word of local memory, which its merge reads: the state after it, the value read, its flags, and whether its result
lands poisoned. -/
def State.atomicMain (s : State) (pa n : Nat) (op : BitVec 4) (t' : BitVec 5) (mode : BitVec 3) (opd cmp : Nat)
    (tol tpol : Bool) (w : Who) (by' : Author) : State × Nat × BitVec 6 × Bool :=
  let pas := (upto n).map (pa + ·)
  let t := s.meetAt pa 1 w.req
  if t.poisoned pa && !tol then
    let t := t.countRead pa
    ((if s.poisoned pa then t.report pa 2 127 w.req else t).hot pas w, t.numAt pa n, 0, true)
  else
    let old := leNat (pas.map fun a => (t.readByte a tol tpol).b)
    let r := atomicNew n op t' mode old opd cmp
    (t.storeMain (bytesAtBase pa (leBytes n r.1)) tol tpol w by', old, r.2, false)

/-- R342: the writes find room in the durable write queue. -/
def State.durRoom (s : State) (pas : List Nat) : Bool :=
  let lines := ((pas.filter fun a => place a == .durable).map (· / 64)).eraseDups
  let fresh := lines.filter fun l => !s.durQ.any fun e => e.line == l && !e.sealed
  decide (s.durQ.length + fresh.length ≤ Config.durableEntries)

/-! ## Handles -/

/-- R317: the cached leaf of a virtual address. -/
def Geode.cached (g : Geode) (pasid : BitVec 20) (va : Nat) : Option Leaf :=
  (g.tcache.find? fun e => e.pasid == pasid && e.page == va / 2 ^ pageBits e.leaf.psize).map (·.leaf)

/-- R317: a walk fills the cache of 2,048 leaves; the oldest goes first (log entry 17). -/
def Geode.fill (g : Geode) (pasid : BitVec 20) (va : Nat) (l : Leaf) : Geode :=
  if (g.cached pasid va).isSome then g
  else
    let t := g.tcache ++ [⟨pasid, va / 2 ^ pageBits l.psize, l⟩]
    { g with tcache := t.drop (t.length - 2048) }

/-- R310: the handle that `translate` writes. -/
def State.translated (s : State) (va : BitVec 64) (rw : BitVec 2) : Handle :=
  let a := va.toNat % 2 ^ 57
  let r := rw.getLsbD 0
  let w := rw.getLsbD 1
  if 2 ^ 57 ≤ va.toNat then Handle.faulted a 1
  else
    match (s.geode (geodeOf s.cur)).cached s.me.pasid a with
    | some l => l.handle a r w
    | none => Handle.pending a r w

/-- R310: `translate`. -/
def execTranslate (g : BitVec 4) (a : BitVec 6) (h : BitVec 5) (rw : BitVec 2) (s : State) : Out :=
  slotOp (.translate g a h rw) s ((s.land (.h h.toNat (s.translated (s.readS a) rw)) 32).countPkg 0x01 1)

/-- R310: `hdrop`. -/
def execHdrop (g : BitVec 4) (h : BitVec 5) (s : State) : Out :=
  slotOp (.hdrop g h) s (s.land (.h h.toNat {}) 1)

/-- All handles of a facet under a register number, in flight, in replay and in the file. -/
def Facet.handlesAt (f : Facet) (hn : Nat) : List Handle :=
  let fl (l : Landing) : Option Handle := match l.write with | .h n v => if n = hn then some v else none | _ => none
  f.landings.filterMap fl ++ f.replay.filterMap fl ++ [f.h.get hn {}]

/-- A pending handle of a register. -/
def Facet.pendingH (f : Facet) (hn : Nat) : Option Handle := (f.handlesAt hn).find? (·.pend)

/-- Changes every handle of a facet, those in flight and in replay among them. -/
def Facet.mapHandles (f : Facet) (p : Nat → Bool) (e : Handle → Handle) : Facet :=
  let fl (l : Landing) : Landing :=
    match l.write with
    | .h n v => if p n then { l with write := .h n (e v) } else l
    | _ => l
  { f with
    h := f.h.map fun x => if p x.1 then (x.1, e x.2) else x
    landings := f.landings.map fl
    replay := f.replay.map fl }

/-- R310, R315: the walk of a pending handle ends: its handle becomes valid or faulted, and a leaf that grants what was asked for
enters the cache (R317). -/
def execWalkEnd (core facet hn : Nat) (s : State) : Out :=
  .next (
    let f := s.facet core facet
    match f.pendingH hn with
    | none => s
    | some p =>
      if (s.geode (geodeOf core)).frozen then s
      else
        let va := p.va.toNat
        let s := s.meetWalk f.pasid va (geodeOf core)
        let w := s.walk f.pasid va
        let h := match w with | .ok l => l.handle va p.r p.w | .error c => Handle.faulted va c
        let s := s.modFacet core facet fun f => f.mapHandles (· == hn) fun x => if x == p then h else x
        match w with
        | .ok l => if l.grants p.r p.w then s.modGeode (geodeOf core) fun g => g.fill f.pasid va l else s
        | .error _ => s)

/-! ## Revocation -/

/-- Two ranges (start, length) share a byte. -/
def overlaps (a n b m : Nat) : Bool := decide (a < b + m ∧ b < a + n)

/-- R330, R349: some word or line of a range of memory is poisoned. -/
def State.poisonIn (s : State) (pa n : Nat) : Bool :=
  (s.memPoison.any fun w => overlaps (32 * w) 32 pa n)
    || (s.durPoison ++ s.durQ.map DurEntry.line).any fun l => s.durBad l && overlaps (64 * l) 64 pa n

/-- The words of a request (R326). -/
structure InvalArg where
  mode : Nat
  size : Nat
  pasid : BitVec 20
  addr : Nat

/-- The request that INVAL_ARG and a word of INVAL_CMD name. -/
def State.invalArg (s : State) (v : BitVec 64) : InvalArg where
  mode := wbits v 1 0
  size := 2 ^ pageBits (BitVec.ofNat 2 (wbits v 3 2))
  pasid := BitVec.ofNat 20 (wbits v 23 4)
  addr := s.devFld (aMmr + 8) 56 0

/-- R322: match(h) of a valid or pending handle of an address space. -/
def InvalArg.matches (q : InvalArg) (pasid : BitVec 20) (h : Handle) : Bool :=
  if h.valid then
    match q.mode with
    | 0 => pasid == q.pasid && overlaps h.base (2 ^ pageBits h.psize) q.addr q.size
    | 1 => overlaps (65536 * h.frame.toNat) (2 ^ pageBits h.psize) q.addr q.size
    | 2 => pasid == q.pasid
    | _ => true
  else if h.pend then
    match q.mode with
    | 0 => pasid == q.pasid && overlaps (2 ^ 30 * (h.va.toNat / 2 ^ 30)) (2 ^ 30) q.addr q.size
    | 1 => true
    | 2 => pasid == q.pasid
    | _ => true
  else false

/-- R322: a cached leaf matches. -/
def InvalArg.leafMatches (q : InvalArg) (e : TLeaf) : Bool :=
  q.matches e.pasid
    { valid := true, psize := e.leaf.psize, frame := e.leaf.frame, va := BitVec.ofNat 57 (e.page * 2 ^ pageBits e.leaf.psize) }

/-- All handles of a facet. -/
def Facet.handles (f : Facet) : List Handle :=
  let fl (l : Landing) : Option Handle := match l.write with | .h _ v => some v | _ => none
  f.h.map (·.2) ++ f.landings.filterMap fl ++ f.replay.filterMap fl

/-- R322, R409: a facet holds a pinned handle that matches, or is in a trap whose frame's page, as it translated at the trap, matches:
the frame is pinned. -/
def Facet.pins (f : Facet) (q : InvalArg) : Bool :=
  (f.handles.any fun h => h.valid && h.pin && q.matches f.pasid h)
    || match f.framePage with
      | some h => q.matches f.pasid h
      | none => false

/-- R322, R326: a write of INVAL_CMD with GO; its fields take the values written even where the GO is ignored. -/
def State.invalGo (s : State) (v : BitVec 64) : State :=
  let stat := aMmr + 0x18
  let s := s.devPut (aMmr + 0x10) 23 0 (wbits v 23 0)
  if s.inval.isSome || wbits v 3 2 = 3 then s.devPut stat 2 2 1
  else
    let s := s.countPkg 0x04 1
    let q := s.invalArg v
    let pinned (k : Core) : Bool := k.facets.any fun f => f.2.resident && f.2.pins q
    if s.cores.any (fun k => pinned k.2) || s.fossils.any (fun x => x.used && x.cores.any fun k => pinned k.2) then s.devPut stat 1 1 1
    else
      let s := (s.devPut stat 1 1 0).devPut stat 0 0 1
      let hit (f : Facet) : Facet :=
        f.mapHandles (fun _ => true) fun h =>
          if h.valid && q.matches f.pasid h then { h with valid := false, fcode := 4 } else h
      let ids := (s.accs.filter fun a => match a.via with | some (p, h) => q.matches p h | none => false).map (·.id)
      { s with
        cores := s.cores.map fun k => (k.1, { k.2 with facets := k.2.facets.map fun f => (f.1, hit f.2) })
        geodes := s.geodes.map fun g => (g.1, { g.2 with tcache := g.2.tcache.filter fun e => !q.leafMatches e })
        inval := some ids }

/-- R322: `INVAL_GO`. -/
def execInvalGo (v : BitVec 64) (s : State) : Out := .next (s.invalGo v)

/-- R322: BUSY falls once the accesses the request waits for have performed. -/
def execInvalComplete (s : State) : Out :=
  .next (
    match s.inval with
    | none => s
    | some ids => if s.accs.any fun a => ids.contains a.id then s else { s with inval := none }.devPut (aMmr + 0x18) 0 0 0)

/-! ## Refresh and patrol -/

/-- R329: a refresh of a channel is issued. -/
def State.doRefresh (s : State) (v c : Nat) (bal : Int) (forced : Bool) : State :=
  let a := aVein v + 0x100 + 8 * c
  let s := ((s.devPut a 7 0 (wrapInt bal 8)).devAdd a 39 8 1).countVein v 0x04 1
  if forced then (s.devPut a 55 40 (min 0xFFFF (s.devFld a 55 40 + 1))).countVein v 0x05 1 else s

/-- R329: an interval elapses (`due`), or the controller looks at an idle channel. -/
def execRefresh (vein chan : Nat) (due waiting : Bool) (s : State) : Out :=
  .next (
    if 8 ≤ vein ∨ 64 ≤ chan then s
    else
      let a := aVein vein + 0x100 + 8 * chan
      let bal := sextNat (s.devFld a 7 0) 8
      if due then
        if bal ≤ -8 then s.doRefresh vein chan bal true
        else if waiting then s.devPut a 7 0 (wrapInt (bal - 1) 8)
        else s.doRefresh vein chan bal false
      else if !waiting && decide (bal < 8) then s.doRefresh vein chan (bal + 1) false
      else s)

/-- R335: SCRUB moves to the next of `n` words or lines; PASSES counts the completed passes. -/
def State.scrubNext (s : State) (a n : Nat) : State :=
  let pos := s.devFld a 38 5
  if (pos + 1) % n = 0 then (s.devPut a 38 5 (pos + 1 - n)).devAdd a 63 39 1 else s.devPut a 38 5 (pos + 1)

/-- R330, R335, R339: the patrol's visit of the word or line at `pa`: the word is read, and the error that stands there is met, or one
that the row brings; a repair that it asks for (R353) it does not wait for. A poisoned word is passed over. -/
def State.patrol (s : State) (pa : Nat) (f : Found) : State :=
  let s := s.countWords pa (grain pa) 0x01
  if s.poisoned pa then s
  else
    let found : Found := match s.flaws.find? fun x => x.1 == pa with | some x => x.2 | none => f
    { s.meet pa found 4 42 with stands := s.stands }

/-- R335: the patrol of a vein visits its next word. -/
def execPatrolVisit (vein : Nat) (f : Found) (s : State) : Out :=
  .next (
    let a := aVein vein + 0x40
    if 8 ≤ vein ∨ s.devFld a 0 0 = 0 then s
    else (s.patrol (32 * s.devFld a 38 5) f).scrubNext a (2 ^ 31))

/-- R349: the patrol of the durable tier visits its next line. -/
def execDurablePatrolVisit (f : Found) (s : State) : Out :=
  .next (
    let a := unitBase 8 + 0x40
    if s.devFld a 0 0 = 0 then s
    else (s.patrol (2 ^ 40 + 64 * s.devFld a 38 5) f).scrubNext a (2 ^ 34))

/-- R333, R336: POP removes the oldest entry of a log. -/
def execLogcntPop (unit : Nat) (s : State) : Out :=
  .next (if unit ≤ 8 then { s with logs := s.logs.set unit ((s.logs.get unit []).drop 1) } else s)

end Sys2Proof.Machine
end

