-- ==== Sys2Proof/Machine/Sync.lean ====
section
/-! DEFINITION. The SY slot: barriers, waits, drains, persist barriers, the checker ALU and the checks (09 R269 to R276,
10 R288, R304). -/

namespace Sys2Proof.Machine

/-- R271: a check-file operand: a y register or, for kind 1, an s register. -/
def State.yOperand (s : State) (k : BitVec 1) (a : BitVec 6) : BitVec 64 := if k = 0 then s.readY (a.truncate 2) else s.readS a

/-- R274: the second operand: y, s or an 11-bit signed immediate; B of BK 0 and 1 lies in [10:5]. -/
def State.yOperandB (s : State) (k : BitVec 2) (b : BitVec 11) : BitVec 64 :=
  if k = 0 then s.readY (b.extractLsb' 5 2)
  else if k = 1 then s.readS (b.extractLsb' 5 6)
  else b.signExtend 64

/-- R127, R275: the conditions of `ycmp`. -/
def yCond (cond : BitVec 3) (a b : BitVec 64) : Bool :=
  match cond.toNat with
  | 0 => a == b
  | 1 => a != b
  | 2 => a.slt b
  | 3 => a.ult b
  | 4 => a.sle b
  | _ => a.ule b

/-- R271, R289: an arrival leaves the core; it performs after every access it covers. -/
def State.arrive (s : State) (xb : BitVec 5) (inn out : BitVec 8) : State :=
  let a := spAddr (s.readX xb) 0
  let c := s.spCore a
  s.sendAccess (.spad c) (.arrive (spPhys (s.window s.me.launch c) (spOff a)) inn.toNat out.toNat) s.covered s.coversMirror

/-- R271: `bar.arr`. -/
def execBarArr (g : BitVec 4) (xb : BitVec 5) (inn out : BitVec 8) (s : State) : Out :=
  slotOp (.barArr g xb inn out) s (s.arrive xb inn out)

/-- R235, R271: what `bar.wait`'s read of GEN leaves in the error register of the object's core: its unit counts once, as the bundle
issues (log entry 56). -/
def State.readGen (s : State) (xb : BitVec 5) : State :=
  let a := spAddr (s.readX xb) 0
  let c := s.spCore a
  s.noteSpadErr c [spPhys (s.window s.me.launch c) (spOff a)]

/-- R271: `bar.wait` holds issue until the generation differs; its read meets the errors of the object's unit (R235). -/
def execBarWait (g : BitVec 4) (xb : BitVec 5) (sg : BitVec 6) (s : State) : Out := slotOp (.barWait g xb sg) s (s.readGen xb)

/-- R272: `wait` holds issue; no other effect. -/
def execWait (g cls : BitVec 4) (k : BitVec 6) (s : State) : Out := slotOp (.wait g cls k) s s

/-- R288: `drain` holds issue; no other effect. -/
def execDrain (g : BitVec 4) (s : State) : Out := slotOp (.drain g) s s

/-- R304, R343: `pbar`, its seal confirmed. -/
def execPbar (g : BitVec 4) (s : State) : Out := slotOp (.pbar g) s (s.modMe fun f => { f with pbar := 0 })

/-- R274: `yadd`. -/
def execYadd (g : BitVec 4) (yd : BitVec 2) (ak : BitVec 1) (a : BitVec 6) (bk : BitVec 2) (b : BitVec 11) (s : State) : Out :=
  slotOp (.yadd g yd ak a bk b) s (s.land (.y yd.toNat (s.yOperand ak a + s.yOperandB bk b)) 1)
/-- R274: `ysub`. -/
def execYsub (g : BitVec 4) (yd : BitVec 2) (ak : BitVec 1) (a : BitVec 6) (bk : BitVec 2) (b : BitVec 11) (s : State) : Out :=
  slotOp (.ysub g yd ak a bk b) s (s.land (.y yd.toNat (s.yOperand ak a - s.yOperandB bk b)) 1)
/-- R274: `yand`. -/
def execYand (g : BitVec 4) (yd : BitVec 2) (ak : BitVec 1) (a : BitVec 6) (bk : BitVec 2) (b : BitVec 11) (s : State) : Out :=
  slotOp (.yand g yd ak a bk b) s (s.land (.y yd.toNat (s.yOperand ak a &&& s.yOperandB bk b)) 1)
/-- R274: `yxor`. -/
def execYxor (g : BitVec 4) (yd : BitVec 2) (ak : BitVec 1) (a : BitVec 6) (bk : BitVec 2) (b : BitVec 11) (s : State) : Out :=
  slotOp (.yxor g yd ak a bk b) s (s.land (.y yd.toNat (s.yOperand ak a ^^^ s.yOperandB bk b)) 1)
/-- R275: `ycmp`. -/
def execYcmp (g : BitVec 4) (yd : BitVec 2) (ak : BitVec 1) (a : BitVec 6) (bk : BitVec 1) (b : BitVec 6) (cond : BitVec 3)
    (s : State) : Out :=
  slotOp (.ycmp g yd ak a bk b cond) s
    (s.land (.y yd.toNat (if yCond cond (s.yOperand ak a) (s.yOperand bk b) then 1 else 0)) 1)

/-- R276: `chk.y`; a difference is the trap among its checks. -/
def execChkY (g : BitVec 4) (ya yb : BitVec 2) (s : State) : Out := slotOp (.chkY g ya yb) s s
/-- R276: `chk.v`. -/
def execChkV (g : BitVec 4) (a b : BitVec 9) (m : BitVec 4) (s : State) : Out := slotOp (.chkV g a b m) s s
/-- R276: `chk.s`. -/
def execChkS (g : BitVec 4) (ya : BitVec 2) (a : BitVec 6) (s : State) : Out := slotOp (.chkS g ya a) s s

/-! ## Barrier objects at their home -/

/-- R269, R270: an object after counts are added to PEND, INB and OUTB, modulo 2^20, and the test. -/
def barUpdate (x : Nat) (dPend dIn dOut : Int) : Nat :=
  let f (hi lo : Nat) : Nat := nbits x hi lo
  let add (v : Nat) (d : Int) : Nat := wrapInt ((v : Int) + d) 20
  let pend := add (f 23 4) dPend
  let inb := add (f 63 44) dIn
  let outb := add (f 83 64) dOut
  let done := pend = 0 ∧ inb = 0 ∧ outb = 0
  let gen := if done then (f 3 0 + 1) % 16 else f 3 0
  let pend := if done then f 43 24 else pend
  gen + pend * 2 ^ 4 + f 43 24 * 2 ^ 24 + inb * 2 ^ 44 + outb * 2 ^ 64 + f 127 84 * 2 ^ 84

/-- R270: one indivisible update of the object at a physical offset; a bad unit is left alone (R235). -/
def Core.barAt (k : Core) (o : Nat) (dPend dIn dOut : Int) : Core :=
  if k.spadBad ((upto 16).map (o + ·)) then k
  else k.spadWrite (bytesAtBase o (leBytes 16 (barUpdate (k.spad.num o 16) dPend dIn dOut)))

/-- R235, R270: an update of the object at a physical offset of a core, which reads its two units. -/
def State.updateBar (s : State) (c o : Nat) (dPend dIn dOut : Int) : State :=
  (s.noteSpadErr c [o, o + 8]).modCore c fun k => k.barAt o dPend dIn dOut

end Sys2Proof.Machine
end

