-- ==== Sys2Proof/Machine/Engines.lean ====
section
/-! DEFINITION. The engines: copy-slot commands, completion order and event queue, feeders, bands, local copies and bulk
engines (09 R246 to R268, R278, R279). -/

namespace Sys2Proof.Machine

/-! ## CRC-32C -/

/-- One bit of CRC-32C (R254). -/
def crcBit (c : BitVec 32) : BitVec 32 := if c.getLsbD 0 then (c >>> 1) ^^^ 0x82F63B78 else c >>> 1

/-- One byte of CRC-32C. -/
def crcByte (c : BitVec 32) (b : BitVec 8) : BitVec 32 := Nat.repeat crcBit 8 (c ^^^ b.zeroExtend 32)

/-- R254: the CRC-32C of `m` followed by the bytes, where `v` is that of `m` (0 of nothing). -/
def crcFold (v : BitVec 32) (bs : List (BitVec 8)) : BitVec 32 := ~~~(bs.foldl crcByte (~~~v))

/-! ## Completion order and event queue -/

/-- R250: an operation takes its place in the running facet's completion order. -/
def State.takePlace (s : State) (kind unit : Nat) (classes : List Nat) (cm : BitVec 20) : State :=
  let e : OrderEntry :=
    { id := s.nextId, kind := BitVec.ofNat 8 kind, tag := cm.extractLsb' 0 16, unit := BitVec.ofNat 4 unit, classes := classes
      norec := cm.getLsbD 16, crcen := cm.getLsbD 17, acc := (cm.extractLsb' 18 2).toNat }
  { s.modMe fun f => { f with order := f.order ++ [e] } with nextId := s.nextId + 1 }

/-- Changes an operation of a completion order. -/
def Facet.modOrder (f : Facet) (id : Nat) (g : OrderEntry → OrderEntry) : Facet :=
  { f with order := f.order.map fun e => if e.id == id then g e else e }

/-- R251, R254: bytes an operation has moved: `crc` in its stream, `n` in its count, poison in its status. -/
def OrderEntry.credit (e : OrderEntry) (crc : List FByte) (n : Nat) : OrderEntry :=
  { e with
    data := if e.crcen then e.data ++ crc.map (·.b) else e.data
    count := e.count + n
    status := if e.status == 0 && crc.any (·.poison) then 3 else e.status }

/-- An operation's own work is done, with a status unless 0. -/
def OrderEntry.finish (e : OrderEntry) (status : BitVec 8) : OrderEntry :=
  { e with done := true, status := if status == 0 then e.status else status }

/-- R251: the record of a completed operation. -/
def OrderEntry.record (e : OrderEntry) (fn : Nat) : EventRec where
  facet := fn
  w0 := BitVec.ofNat 64 (e.kind.toNat + e.status.toNat * 2 ^ 8 + e.tag.toNat * 2 ^ 16 + e.unit.toNat * 2 ^ 32)
  w1 := BitVec.ofNat 64 ((if e.crcen then (crcFold 0 e.data).toNat else 0)
    + (if e.kind == 7 || e.kind == 8 then 0 else e.count % 2 ^ 32) * 2 ^ 32)

/-- R250, R255: the oldest operation of a facet completes once its work is done; its bytes enter the accumulator it names. -/
def Facet.completeOldest (f : Facet) : Facet :=
  match f.order with
  | [] => f
  | e :: r =>
    if !e.done || e.complete then f
    else
      let f := if e.crcen then
          { f with crc := f.crc.upd e.acc {} fun a => ⟨crcFold a.val e.data, a.count + e.data.length⟩ }
        else f
      if e.norec then { f with order := r } else { f with order := { e with complete := true } :: r }

/-- R258: the band that a facet's oldest operation, a `win.close` that completes now, gives up. -/
def Facet.closes (f : Facet) : Option Nat :=
  match f.order with
  | e :: _ => if e.done && !e.complete && e.kind == 7 then some e.unit.toNat else none
  | [] => none

/-- R250, R258: the oldest operation of a facet of a core completes; a `win.close` frees its band (log entry 53). -/
def Core.completeOldest (k : Core) (fn : Nat) : Core :=
  let t := k.modFacet fn Facet.completeOldest
  match (k.facet fn).closes with
  | some b => { t with bands := t.bands.upd b {} fun x => { x with isOpen := false } }
  | none => t

/-- `ENGINE_OPERATION_COMPLETE` (R250). -/
def execEngineOperationComplete (core facet : Nat) (s : State) : Out :=
  .next (if (s.core core).facets.any (fun f => f.1 == facet && !f.2.order.isEmpty) then s.modCore core fun k => k.completeOldest facet else s)

/-- R253: the record of the oldest operation, complete, enters the event queue when it has room. -/
def Core.postOldest (k : Core) (fn : Nat) : Core :=
  match (k.facet fn).order with
  | e :: r =>
    if e.complete && decide (k.evq.length < 64) then
      { k.modFacet fn fun f => { f with order := r } with evq := k.evq ++ [e.record fn] }
    else k
  | [] => k

/-- R247, R253: an engine that cannot post a record for want of room in the event queue holds its later commands; the engine by
the kinds of its records and its unit. -/
def Core.postHeld (k : Core) (kinds : List Nat) (unit : Nat) : Bool :=
  decide (64 ≤ k.evq.length) && k.facets.any fun f =>
    match f.2.order with
    | e :: _ => e.done && !e.norec && kinds.contains e.kind.toNat && e.unit.toNat == unit
    | [] => false

/-- `COMPLETION_RECORD_POST` (R253). -/
def execCompletionRecordPost (core facet : Nat) (s : State) : Out :=
  .next (if (s.core core).facets.any (fun f => f.1 == facet && !f.2.order.isEmpty) then s.modCore core fun k => k.postOldest facet else s)

/-! ## Issue of commands -/

/-- R256, R259: the feeder's operation of a feed, its descriptors read. -/
def State.feedOp (s : State) (da db : BitVec 4) (ty : BitVec 5) (sm : BitVec 3) (kind : BitVec 2) : EngineOp :=
  let a := (s.readD da).toNat
  let b := (s.readD db).toNat
  match kind.toNat with
  | 0 => .sp (nbits a 23 0) (sfield a 39 24) (nbits b 15 0) (nbits b 31 16)
  | 1 => .band (nbits a 2 0) (s.here.bands.get (nbits a 2 0) {}).h (nbits a 15 8) (nbits a 31 16) (nbits b 15 0) (nbits b 31 16)
  | _ => .shale a b ty sm.toNat

/-- R256: `feed` enters its feeder's queue; one from a band is no operation on the band that `wait` counts (R272, log entry 53). -/
def State.feed (s : State) (da db : BitVec 4) (ty : BitVec 5) (sm : BitVec 3) (kind tgt : BitVec 2) (cm : BitVec 20) : State :=
  let c : EngineCmd := { facet := s.fn, id := s.nextId, op := s.feedOp da db ty sm kind, after := s.covered, mir := s.coversMirror }
  (s.takePlace (1 + tgt.toNat) 0 [0, 1 + tgt.toNat] cm).modHere fun k =>
    if tgt == 0 then { k with feedA := k.feedA ++ [c] } else { k with feedB := k.feedB ++ [c] }

/-- Physical offsets of local rows (R260). -/
def localBytes (win : List Nat) (off : Nat) (pitch : Int) (rb rows : Nat) : List Nat :=
  (upto rows).flatMap fun r => (upto rb).map fun j => spPhys win (((off : Int) + Int.ofNat r * pitch).toNat + j)

/-- R260, R267: `lcopy` locks its destination's banks and enters the local feeder's queue. -/
def State.lcopy (s : State) (da db : BitVec 4) (cm : BitVec 20) : State :=
  let a := (s.readD da).toNat
  let b := (s.readD db).toNat
  let op : EngineOp := .lcopy (nbits a 19 0) (nbits a 39 20) (nbits b 15 0) (nbits b 31 16) (sfield b 47 32) (sfield b 63 48)
  let win := s.window s.me.launch s.cur
  let banks := banksOf (localBytes win (nbits a 39 20) (sfield b 63 48) (nbits b 15 0) (nbits b 31 16))
  let c : EngineCmd := { facet := s.fn, id := s.nextId, op := op, after := s.covered, mir := s.coversMirror }
  (s.takePlace 3 0 [0, 3] cm).modHere fun k => { k with feedL := k.feedL ++ [c], locks := k.locks ++ [{ id := s.nextId, banks := banks }] }

/-- R261: `ifetch` enters the local feeder's queue; its bank is the one inactive at issue. -/
def State.ifetch (s : State) (da : BitVec 4) (words : BitVec 14) (cm : BitVec 20) : State :=
  let a := (s.readD da).toNat
  let c : EngineCmd :=
    { facet := s.fn, id := s.nextId, op := .ifetch (nbits a 19 0) (nbits a 34 20) (words.toNat + 1) (!s.me.bank), after := s.covered, mir := s.coversMirror }
  (s.takePlace 4 0 [0, 3] cm).modHere fun k => { k with feedL := k.feedL ++ [c] }

/-- R262: `bulk.set`. -/
def State.bulkSet (s : State) (da db : BitVec 4) (pos : BitVec 2) : State :=
  let a := s.readD da
  let b := s.readD db
  s.modMe fun f => { f with staging := (f.staging.set (2 * pos.toNat) a).set (2 * pos.toNat + 1) b }

/-- Word `k` of a bulk command. -/
def BulkCmd.word (c : BulkCmd) (k : Nat) : Nat := (c.words.getD k 0).toNat
/-- ROWBYTES (R262). -/
def BulkCmd.rowBytes (c : BulkCmd) : Nat := nbits (c.word 2) 23 0
/-- ROWS. -/
def BulkCmd.rows (c : BulkCmd) : Nat := nbits (c.word 2) 39 24
/-- Pitch of the source (0) or the destination (1). -/
def BulkCmd.pitch (c : BulkCmd) (side : Nat) : Int := sfield (c.word 3) (32 * side + 31) (32 * side)
/-- SPACE of a side. -/
def BulkCmd.space (c : BulkCmd) (side : Nat) : Nat := nbits (c.word side) 63 61
/-- Base address of a side in its space. -/
def BulkCmd.base (c : BulkCmd) (side : Nat) : Nat :=
  match c.space side with
  | 0 => nbits (c.word side) 56 0
  | 1 => spOff (c.word side)
  | _ => nbits (c.word side) 40 0
/-- First byte of a row of a side. -/
def BulkCmd.rowAt (c : BulkCmd) (side r : Nat) : Int := (c.base side : Int) + Int.ofNat r * c.pitch side
/-- Core that a SPACE 1 word or a barrier word names. -/
def coreOfWord (w : Nat) : Nat := coreAt (nbits w 29 24) (spRank (w % 2 ^ 24))

/-- R263, R266: a launch whose windows the command may use. -/
def State.bulkLaunch (s : State) (c : BulkCmd) (launch : Nat) : Bool :=
  if c.host then (match s.launches.find launch with | some l => l.pasid == c.pasid | none => false) else launch == c.launch

/-- R263, R266: windows that the command may use on a core. -/
def State.bulkWindows (s : State) (c : BulkCmd) (core : Nat) : List (List Nat) :=
  (s.launches.filter fun l => s.bulkLaunch c l.1).map fun l => l.2.windows.get core []

/-- R263: the first of several windows that holds the whole footprint of a scratchpad side. -/
def BulkCmd.winIn (c : BulkCmd) (side : Nat) (ws : List (List Nat)) : Option (List Nat) :=
  ws.find? fun w => (upto c.rows).all fun r => decide (0 ≤ c.rowAt side r ∧ c.rowAt side r + c.rowBytes ≤ 4096 * (w.length : Int))

/-- R263: the window that holds the whole footprint of a scratchpad side. -/
def State.bulkWin (s : State) (c : BulkCmd) (side : Nat) : Option (List Nat) :=
  c.winIn side (s.bulkWindows c (coreOfWord (c.word side)))

/-- R279: a command waits while its issuer, a window or a barrier object of it stands in a fossil. -/
def State.bulkHeld (s : State) (c : BulkCmd) : Bool :=
  let at' (k : Nat) : Bool := s.frozenAt (coreOfWord (c.word k)) (s.bulkLaunch c)
  (!c.host && s.frozenTask c.core c.facet c.launch) || c.space 0 == 1 && at' 0 || c.space 1 == 1 && at' 1
    || (c.word 4).testBit 30 && at' 4 || (c.word 5).testBit 30 && at' 5

/-- R448: no request accepted before this one is still to be answered that reaches a line of the same lode that this one does; a bulk
command that a freeze holds (R279) has its answer, and the engine waits to move it. -/
def State.lineFirst (s : State) (r : PortReq) : Bool :=
  let away := s.bulk.flatMap fun b => match b.2.active with | some c => if s.bulkHeld c then b.2.ports else [] | none => []
  !(s.portReqs.any fun q => decide (q.seq < r.seq) && q.lode == r.lode && q.line == r.line && !away.contains q)

/-- R443, R445, R447, R448: a step that reaches addresses of other lodes first has ports take its requests, one for each 64-byte line; it
goes on once each of them has its answer, which no earlier request for its line still waits for. Its requests, whether it goes on, and the
state then; `held` are the requests that ports have taken for it. -/
def State.linesGo (s : State) (held : List PortReq) (pas : List (Nat × Nat)) : List PortReq × Bool × State :=
  let left := linesLeft held pas
  match left.findSome? fun p => s.portTakes p.1 p.2 with
  | some r => (held ++ [r], false, s.tookPort)
  | none =>
    let now (r : PortReq) : Bool := !r.done && s.lineFirst r
    let rs := held.map fun r => if now r then { r with done := true } else r
    let go := left.isEmpty && rs.all (·.done)
    (if go then [] else rs, go, (held.filter now).foldl State.portAnswered s)

/-- R216, R267: the lock of a bulk command's scratchpad destination; an offset lies in the same bank whichever page holds it. -/
def BulkCmd.lock (c : BulkCmd) : Lock :=
  { id := c.id
    banks := banksOf ((upto c.rows).flatMap fun r => (upto (min c.rowBytes 1024)).map fun (j : Nat) => ((c.rowAt 1 r + (j : Int)) % 1024).toNat) }

/-- R267: the fossil takes the lock of a command whose destination stands in it. -/
def State.lockIn (s : State) (c : BulkCmd) (f : Fossil) : Fossil :=
  let core := coreOfWord (c.word 1)
  if f.used && f.lgeo == geodeOf core && f.windows.any fun w => s.bulkLaunch c w.1 then
    { f with cores := f.cores.map fun k => if k.1 == core then (k.1, { k.2 with locks := k.2.locks ++ [c.lock] }) else k }
  else f

/-- R267: a bulk command with a scratchpad destination locks its banks on the core it names, on the geode or in the fossil that holds
the launch's windows there. -/
def State.bulkLock (s : State) (c : BulkCmd) : State :=
  if c.space 1 == 1 then
    (if s.frozenAt (coreOfWord (c.word 1)) (s.bulkLaunch c) then { s with fossils := s.fossils.map (s.lockIn c) }
     else s.modCore (coreOfWord (c.word 1)) fun k => { k with locks := k.locks ++ [c.lock] })
  else s

/-- R262: `bulk.go` sends the staging words to the engine's shadow set; the registers SH0 to SH5 of R266 keep what the host wrote (log entry
57). -/
def State.bulkGo (s : State) (en : BitVec 4) (cm : BitVec 20) : State :=
  let c : BulkCmd :=
    { words := s.me.stagingWords, cm := cm, pasid := s.me.pasid, core := s.cur, facet := s.fn, launch := s.me.launch
      id := s.nextId, after := s.covered, mir := s.coversMirror }
  let s := (s.takePlace 5 en.toNat [0, 4] cm).bulkLock c
  { s with bulk := s.bulk.upd en.toNat {} fun b => { b with shadow := some c } }

/-- R267: banks of a band's slots of rows. -/
def bandBanks (win : List Nat) (b : Band) (first n : Nat) : BitVec 32 :=
  banksOf ((upto n).flatMap fun r =>
    (upto b.rowBytes).map fun j => spPhys win (b.ringOff + ((first + r) % b.rrows) * b.rowBytes + j))

/-- R259, R267: an operation on a band that fetches rows. -/
def State.bandFetch (s : State) (b : Nat) (bd : Band) (first n : Nat) (cm : BitVec 20) : State :=
  let win := s.window s.me.launch s.cur
  let op : BandOp := { id := s.nextId, first := first, rows := n, after := s.covered, mir := s.coversMirror }
  let lk : Lock := { id := s.nextId, banks := bandBanks win bd first n }
  (s.takePlace 6 b [0, 5 + b] cm).modHere fun k =>
    { k with bands := k.bands.set b { bd with ops := bd.ops ++ [op] }, locks := k.locks ++ [lk] }

/-- R259: `win.open`. -/
def State.winOpen (s : State) (da db : BitVec 4) (band : BitVec 3) (rr fill : BitVec 8) (cm : BitVec 20) : State :=
  let b := (s.readD db).toNat
  let bd : Band :=
    { isOpen := true, owner := s.fn, v0 := (s.readD da).toNat, ringOff := nbits b 19 0, rowBytes := nbits b 35 20
      pitch := nbits b 63 36, rrows := rr.toNat, fill := fill.toNat, h := 0, t := fill.toNat
      ops := (s.here.bands.get band.toNat {}).ops }
  s.bandFetch band.toNat bd 0 fill.toNat cm

/-- R259: `win.adv`. -/
def State.winAdv (s : State) (band : BitVec 3) (k : BitVec 8) (cm : BitVec 20) : State :=
  let bd := s.here.bands.get band.toNat {}
  s.bandFetch band.toNat { bd with h := bd.h + k.toNat, t := bd.t + k.toNat } bd.t k.toNat cm

/-- R259: `win.close`. -/
def State.winClose (s : State) (band : BitVec 3) (cm : BitVec 20) : State :=
  let op : BandOp := { id := s.nextId, close := true, after := [] }
  (s.takePlace 7 band.toNat [0, 5 + band.toNat] cm).modHere fun k =>
    { k with bands := k.bands.upd band.toNat {} fun b => { b with ops := b.ops ++ [op] } }

/-- R255: `crc.rd` posts a KIND 9 record of the accumulator. -/
def State.crcRd (s : State) (rst : BitVec 1) (ac : BitVec 2) (tag : BitVec 16) : State :=
  let a := s.me.crc.get ac.toNat {}
  let r : EventRec :=
    ⟨s.fn, BitVec.ofNat 64 (9 + tag.toNat * 2 ^ 16), BitVec.ofNat 64 (a.val.toNat + a.count % 2 ^ 32 * 2 ^ 32)⟩
  let s := s.modHere fun k => { k with evq := k.evq ++ [r] }
  if rst = 1 then s.modMe fun f => { f with crc := f.crc.set ac.toNat {} } else s

/-- R256: `feed`. -/
def execFeed (g da db : BitVec 4) (ty : BitVec 5) (sm : BitVec 3) (kind tgt : BitVec 2) (cm : BitVec 20) (s : State) : Out :=
  slotOp (.feed g da db ty sm kind tgt cm) s (s.feed da db ty sm kind tgt cm)
/-- R260: `lcopy`. -/
def execLcopy (g da db : BitVec 4) (cm : BitVec 20) (s : State) : Out := slotOp (.lcopy g da db cm) s (s.lcopy da db cm)
/-- R262: `bulk.set`. -/
def execBulkSet (g da db : BitVec 4) (pos : BitVec 2) (s : State) : Out :=
  slotOp (.bulkSet g da db pos) s (s.bulkSet da db pos)
/-- R262: `bulk.go`. -/
def execBulkGo (g en : BitVec 4) (cm : BitVec 20) (s : State) : Out := slotOp (.bulkGo g en cm) s (s.bulkGo en cm)
/-- R259: `win.open`. -/
def execWinOpen (g da db : BitVec 4) (band : BitVec 3) (rr fill : BitVec 8) (cm : BitVec 20) (s : State) : Out :=
  slotOp (.winOpen g da db band rr fill cm) s (s.winOpen da db band rr fill cm)
/-- R259: `win.adv`. -/
def execWinAdv (g : BitVec 4) (band : BitVec 3) (k : BitVec 8) (cm : BitVec 20) (s : State) : Out :=
  slotOp (.winAdv g band k cm) s (s.winAdv band k cm)
/-- R259: `win.close`. -/
def execWinClose (g : BitVec 4) (band : BitVec 3) (cm : BitVec 20) (s : State) : Out :=
  slotOp (.winClose g band cm) s (s.winClose band cm)
/-- R261: `ifetch`. -/
def execIfetch (g da : BitVec 4) (words : BitVec 14) (cm : BitVec 20) (s : State) : Out :=
  slotOp (.ifetch g da words cm) s (s.ifetch da words cm)
/-- R255: `crc.rd`. -/
def execCrcRd (g : BitVec 4) (rst : BitVec 1) (ac : BitVec 2) (tag : BitVec 16) (s : State) : Out :=
  slotOp (.crcRd g rst ac tag) s (s.crcRd rst ac tag)

/-! ## Bytes that engines move -/

/-- A byte of a scratchpad with its poison (R235). -/
def Core.spadByte (k : Core) (o : Nat) : FByte := ⟨k.spad.get o, k.spadPoison.contains (o / 8)⟩

/-- R268: bytes written to a scratchpad, poison carried as poisoned units, which no single-bit error stands beside. -/
def Core.spadMove (k : Core) (ws : List (Nat × FByte)) : Core :=
  let k := k.spadWrite (ws.map fun w => { addr := w.1, b := w.2.b })
  let bad := ((ws.filter fun w => w.2.poison).map fun w => w.1 / 8).eraseDups
  { k with
    spadPoison := k.spadPoison ++ bad.filter fun u => !k.spadPoison.contains u
    spadFlaws := k.spadFlaws.filter fun u => !bad.contains u }

/-- A run of bytes of one page: its physical address, its length and its leaf. -/
structure Span where
  pa : Nat
  n : Nat
  leaf : Leaf

/-- R263: translates `n` bytes of a virtual address page by page; the flag says that a page did not translate with the
permission needed, and the spans before it are given. -/
def State.spans (s : State) (pasid : BitVec 20) (w : Bool) : Nat → Nat → Nat → List Span × Bool
  | 0, _, _ => ([], false)
  | k + 1, va, n =>
    if n = 0 then ([], false)
    else if 2 ^ 57 ≤ va then ([], true)
    else
      let m := min n (65536 - va % 65536)
      match s.walk pasid va with
      | .error _ => ([], true)
      | .ok l =>
        if l.dev || !(if w then l.w else l.r) then ([], true)
        else
          let r := s.spans pasid w k (va + m) (n - m)
          (⟨l.pa va, m, l⟩ :: r.1, r.2)

/-- Translates `n` bytes from an address that may lie outside the address space. -/
def State.spansAt (s : State) (pasid : BitVec 20) (w : Bool) (va : Int) (n : Nat) : List Span × Bool :=
  if va < 0 then ([], true) else s.spans pasid w (cdiv (va.toNat % 65536 + n) 65536) va.toNat n

/-- A place that an engine reads or writes. -/
inductive Cell where
  | mem (pa : Nat) (tol tpol : Bool)
  | sp (core off : Nat)
  | away (lode addr : Nat)
deriving DecidableEq, Repr

/-- R448: the route of a step whose requests `held` ports have accepted: an accepted one keeps its port, though no port is up now. -/
def State.routeBy (s : State) (held : List PortReq) (lode pa : Nat) : Route :=
  if held.any fun r => r.lode == lode && r.line == pa / 64 then .away else s.route lode pa

/-- The cells of an address range of a lode up to the first byte that is not reached, and the cause of that. -/
def State.lodeCells (s : State) (lode pa n : Nat) (tol tpol : Bool) (held : List PortReq := []) : List Cell × Nat :=
  let at' (k : Nat) : Route := s.routeBy held lode (pa + k)
  let ok := (upto n).takeWhile fun k => match at' k with | .fail _ => false | _ => true
  (ok.map fun k => if at' k == .here then .mem (pa + k) tol tpol else .away lode (pa + k),
    if ok.length < n then (match at' ok.length with | .fail c => c | _ => 0) else 0)

/-- Cells of a span, and the cause of a fabric failure. -/
def State.spanCells (s : State) (x : Span) (held : List PortReq := []) : List Cell × Nat :=
  if x.leaf.rem then s.lodeCells x.leaf.lode.toNat x.pa x.n x.leaf.tol x.leaf.tpol held
  else ((upto x.n).map fun k => .mem (x.pa + k) x.leaf.tol x.leaf.tpol, 0)

/-- Cells of spans up to a fabric failure, with the requests that ports hold for them: the cells, and the lode and cause of the
failure. -/
def State.cellsOf (s : State) (xs : List Span) (held : List PortReq := []) : List Cell × Option (Nat × Nat) :=
  match xs with
  | [] => ([], none)
  | x :: r =>
    let a := s.spanCells x held
    if a.2 != 0 then (a.1, some (x.leaf.lode.toNat, a.2))
    else
      let b := s.cellsOf r held
      (a.1 ++ b.1, b.2)

/-- The byte of a cell. -/
def State.cellByte (s : State) : Cell → FByte
  | .mem pa tol tpol => s.readByte pa tol tpol
  | .sp c o => (s.core c).spadByte o
  | .away _ a => ⟨Config.remoteByte s.freeCtr a, false⟩

/-- Local memory addresses among cells, of one tolerance. -/
def memCells (cs : List Cell) (tol : Bool) : List Nat :=
  cs.filterMap fun c => match c with | .mem pa t _ => if t == tol then some pa else none | _ => none

/-- Local memory addresses among cells, in order. -/
def memPas (cs : List Cell) : List Nat := cs.filterMap fun c => match c with | .mem pa _ _ => some pa | _ => none

/-- Cores whose scratchpads are among cells. -/
def spadCores (cs : List Cell) : List Nat := (cs.filterMap fun c => match c with | .sp k _ => some k | _ => none).eraseDups

/-- Offsets of a core's scratchpad among cells. -/
def spadOffs (cs : List Cell) (core : Nat) : List Nat :=
  cs.filterMap fun c => match c with | .sp k o => if k = core then some o else none | _ => none

/-- Addresses of other lodes among cells. -/
def awayPas (cs : List Cell) : List (Nat × Nat) := cs.filterMap fun c => match c with | .away l a => some (l, a) | _ => none

/-- R443, R448: a step that reads or writes cells goes on once the requests for those of other lodes have their answers. -/
def State.engineGo (s : State) (held : List PortReq) (cs : List Cell) : List PortReq × Bool × State := s.linesGo held (awayPas cs)

/-- R313, R330: the walks of pages from a table's grain on meet the errors of their entries, up to a page that does not translate. -/
def State.meetGrains (s : State) (pasid : BitVec 20) (req : Nat) : Nat → Nat → State
  | 0, _ => s
  | k + 1, va =>
    let t := s.meetEntries pasid va req
    match t.walk pasid va with
    | .ok _ => t.meetGrains pasid req k (va + 65536)
    | .error _ => t

/-- R313, R330: the walks of the pages of a range meet the errors of their entries. -/
def State.meetPages (s : State) (pasid : BitVec 20) (va : Int) (n req : Nat) : State :=
  if va < 0 then s else s.meetGrains pasid req (cdiv (va.toNat % 65536 + n) 65536) (65536 * (va.toNat / 65536))

/-- R339: the walks that spans from an address on took count: of the first page where `first`, of each page that begins among them, and of
the page that did not translate where `cut`. -/
def State.countSpans (s : State) (pasid : BitVec 20) (cut : Bool) : Nat → Bool → List Span → State
  | va, _, [] => if cut && decide (va < 2 ^ 57) then s.countWalk pasid va else s
  | va, first, x :: r =>
    (if first || va % 2 ^ pageBits x.leaf.psize == 0 then s.countWalk pasid va else s).countSpans pasid cut (va + x.n) false r

/-- R339: the walks of a range count, where `first` that of the page of its first byte among them (log entry 30). -/
def State.countPages (s : State) (pasid : BitVec 20) (w : Bool) (va : Int) (n : Nat) (first : Bool) : State :=
  let x := s.spansAt pasid w va n
  if va < 0 then s else s.countSpans pasid x.2 va.toNat first x.1

/-- R235, R268, R331: what engine reads leave: counters, logs, the error registers of scratchpads, and a fresh draw of the free
values. -/
def State.noteCells (s : State) (cs : List Cell) (w : Who) : State :=
  let s := (spadCores cs).foldl (fun s c => s.noteSpadErr c (spadOffs cs c)) s
  let s := (s.noteWords (memCells cs true) true w).noteWords (memCells cs false) false w
  { s with freeCtr := s.freeCtr + 1 }

/-- R268: bytes are written to cells. -/
def State.putCells (s : State) (cs : List (Cell × FByte)) (w : Who) : State :=
  let mem (tol tpol : Bool) : List (Nat × FByte) :=
    cs.filterMap fun x => match x.1 with | .mem pa t p => if t == tol && p == tpol then some (pa, x.2) else none | _ => none
  let put (s : State) (tol tpol : Bool) : State :=
    let l := mem tol tpol
    s.storeWords (l.map fun x => { addr := x.1, b := x.2.b : ByteWrite }) ((l.filter fun x => x.2.poison).map (·.1)) tol tpol w {}
  let s := put (put (put (put s false false) false true) true false) true true
  let sps := cs.filterMap fun x => match x.1 with | .sp c o => some (c, o, x.2) | _ => none
  ((sps.map (·.1)).eraseDups).foldl
    (fun s c => s.modCore c fun k => k.spadMove ((sps.filter fun x => x.1 == c).map (·.2))) s

/-! ## Feeders -/

/-- A message of a geode that a release or a fork waits for has not entered its buffer (R284). -/
def Geode.waitsFor (g : Geode) (after : List Nat) : Bool := g.msgs.any fun m => !m.buffered && after.contains m.id

/-- R284, R289, R293, R305: the accesses that a release or a fork waits for have performed, at mirror scope (`mir`) with their mirror
writes. -/
def State.clear (s : State) (after : List Nat) (mir : Bool) : Bool :=
  !(s.accs.any fun a => after.contains a.id) && !(mir && s.mirQ.any fun w => w.author.id != 0 && after.contains w.author.id)
    && !(s.geodes.any fun g => g.2.waitsFor after) && !(s.fossils.any fun f => f.used && f.geode.waitsFor after)

/-- R182: bytes that a FIFO share still takes. -/
def Facet.room (f : Facet) (tgt : FeedTarget) : Nat :=
  match tgt with
  | .a => 128 * f.cols - f.fifoA.length
  | .b => 256 * f.cols - f.fifoB.length

/-- R182: bytes enter a share. -/
def Facet.append (f : Facet) (tgt : FeedTarget) (bs : List FByte) : Facet :=
  match tgt with
  | .a => { f with fifoA := f.fifoA ++ bs }
  | .b => { f with fifoB := f.fifoB ++ bs }

/-- The queue of a feeder. -/
def Core.feeder (k : Core) (tgt : FeedTarget) : List EngineCmd := match tgt with | .a => k.feedA | .b => k.feedB

/-- Replaces the queue of a feeder. -/
def Core.setFeeder (k : Core) (tgt : FeedTarget) (q : List EngineCmd) : Core :=
  match tgt with | .a => { k with feedA := q } | .b => { k with feedB := q }

/-- R259: row `i` of a band has arrived: no operation has still to fetch it. -/
def Band.has (b : Band) (i : Nat) : Bool := !b.ops.any fun o => !o.close && decide (o.first + o.arrived ≤ i ∧ i < o.first + o.rows)

/-- R90: a shale block as it is read: its bitmap, the bytes of its stored elements (`none` from where a page did not translate), all
the bytes read, and their cells. -/
structure ShaleBlock where
  map : List FByte
  elems : List (Option FByte) := []
  raw : List FByte
  cells : List Cell

/-- Bit `i` of a bitmap (R90). -/
def mapBit (m : List FByte) (i : Nat) : Bool := (m.getD (i / 8) ⟨0, false⟩).b.getLsbD (i % 8)

/-- Set bits of a bitmap from `lo`, `n` of them looked at. -/
def mapCount (m : List FByte) (lo n : Nat) : Nat := ((upto n).filter fun i => mapBit m (lo + i)).length

/-- R252: the status of a read that is cut short, 0 when it is not, with the lode and cause of a fabric failure. -/
def cutStatus (faulted : Bool) (fab : Option (Nat × Nat)) : BitVec 8 × Option (Nat × Nat) :=
  (if fab.isSome then 8 else if faulted then 1 else 0, fab)

/-- R90, R252, R256, R448: reads blocks that lie back to back, with the requests that ports hold for them; the status says that a page did
not translate or that another lode did not answer, and the bytes before that page are given. -/
def State.shaleBlocks (s : State) (pasid : BitVec 20) (w : Nat) (held : List PortReq) :
    Nat → Nat → List ShaleBlock × BitVec 8 × Option (Nat × Nat)
  | 0, _ => ([], 0, none)
  | k + 1, va =>
    let a := s.spansAt pasid false va 24
    let ca := s.cellsOf a.1 held
    let m := ca.1.map s.cellByte
    if a.2 || ca.2.isSome then ([{ map := m, raw := m, cells := ca.1 }], cutStatus a.2 ca.2)
    else
      let c := mapCount m 0 192
      let n := cdiv (c * w) 8 * 8
      let b := s.spansAt pasid false (va + 24 : Nat) n
      let cb := s.cellsOf b.1 held
      let e := cb.1.map s.cellByte
      let x : ShaleBlock := { map := m, elems := (upto (c * w)).map fun j => e[j]?, raw := m ++ e, cells := ca.1 ++ cb.1 }
      if b.2 || cb.2.isSome then ([x], cutStatus b.2 cb.2)
      else
        let r := s.shaleBlocks pasid w held k (va + 24 + n)
        (x :: r.1, r.2)

/-- Bytes up to the first that could not be read. -/
def untilCut (l : List (Option FByte)) : List FByte := (l.takeWhile (·.isSome)).filterMap id

/-- R91: the 192 elements of a block, up to the first that could not be read; a poisoned bitmap poisons them all. -/
def ShaleBlock.dense (b : ShaleBlock) (w : Nat) : List FByte :=
  if b.map.length < 24 then []
  else
    let zero : List (Option FByte) := List.replicate w (some ⟨0, false⟩)
    let r := (upto 192).foldl (fun (acc : List (Option FByte) × List (Option FByte)) i =>
      if mapBit b.map i then (acc.1 ++ acc.2.take w, acc.2.drop w) else (acc.1 ++ zero, acc.2)) ([], b.elems)
    if b.map.any (·.poison) then (untilCut r.1).map fun x => { x with poison := true } else untilCut r.1

/-- R257: a block has N set bits in each of its eight groups. -/
def ShaleBlock.fits (b : ShaleBlock) (n : Nat) : Bool := (upto 8).all fun g => mapCount b.map (24 * g) 24 == n

/-- R257: the rows of blocks in sparse form, by SMODE, of elements of `w` bytes. -/
def sparseRows (sm w : Nat) : List ShaleBlock → List (Option FByte)
  | [] => []
  | b :: r =>
    match sm with
    | 1 =>
      match r with
      | [] => []
      | c :: q => b.map.map some ++ c.map.map some ++ b.elems ++ c.elems ++ sparseRows sm w q
    | 2 => b.map.map some ++ b.elems ++ sparseRows sm w r
    | _ =>
      (b.map.take 12).map some ++ b.elems.take (64 * w) ++ (b.map.drop 12).map some ++ b.elems.drop (64 * w) ++ sparseRows sm w r

/-- R257: set bits of a group by SMODE. -/
def smodeN (sm : Nat) : Nat := if sm = 1 then 4 else if sm = 2 then 8 else 16

/-- R89, R257: the blocks up to and with the first whose bitmap, read whole, is malformed. -/
def badBlocks (sm : Nat) (bs : List ShaleBlock) : Option (List ShaleBlock) :=
  (bs.findIdx? fun b => b.map.length == 24 && !b.fits (smodeN sm)).map fun i => bs.take (i + 1)

/-- R89, R256, R257: a shale feed read whole, with the requests that ports hold for it; in sparse form it ends at the first malformed bitmap
that it has read, and nothing is appended unless every bitmap has been read (log entry 27). The bytes it appends, its CRC stream, its
cells, its status, and the lode and cause of a fabric failure. -/
def State.shaleRead (s : State) (pasid : BitVec 20) (va blocks : Nat) (ty : BitVec 5) (sm : Nat) (held : List PortReq := []) :
    List FByte × List FByte × List Cell × BitVec 8 × Option (Nat × Nat) :=
  let w := tyBytes ty
  let r := s.shaleBlocks pasid w held blocks va
  let raw := r.1.flatMap (·.raw)
  let cells := r.1.flatMap (·.cells)
  if sm = 0 then (r.1.flatMap fun b => b.dense w, raw, cells, r.2)
  else
    match badBlocks sm r.1 with
    | some bs => ([], bs.flatMap (·.raw), bs.flatMap (·.cells), 2, none)
    | none =>
      if r.1.length < blocks || r.1.any fun b => decide (b.map.length < 24) then ([], raw, cells, r.2)
      else (untilCut (sparseRows sm w r.1), raw, cells, r.2)

/-- Removes the head of a feeder's queue: its work is done. -/
def Core.feedDone (k : Core) (tgt : FeedTarget) (x : EngineCmd) (status : BitVec 8) : Core :=
  (k.setFeeder tgt ((k.feeder tgt).drop 1)).modFacet x.facet fun f => f.modOrder x.id fun e => e.finish status

/-- The work of the head of a feeder's queue of a core is done. -/
def State.feedDone (s : State) (c : Nat) (tgt : FeedTarget) (x : EngineCmd) (status : BitVec 8) : State :=
  s.modCore c fun k => k.feedDone tgt x status

/-- R256: the feeder appends `bs` for its head, which has `left` bytes still to give after them. -/
def State.feedBytes (s : State) (c : Nat) (tgt : FeedTarget) (x : EngineCmd) (bs : List FByte) (left : Nat) : State :=
  let y := { x with pos := x.pos + bs.length }
  let s := s.modCore c fun k =>
    (k.setFeeder tgt (y :: (k.feeder tgt).drop 1)).modFacet x.facet fun f =>
      (f.append tgt bs).modOrder x.id fun e => e.credit bs bs.length
  if left = 0 then s.feedDone c tgt y 0 else s

/-- R256: the feeder's next bytes from rows: `at'` gives the core and physical offset of a byte of a row. -/
def State.feedRows (s : State) (c : Nat) (tgt : FeedTarget) (x : EngineCmd) (rb rows : Nat) (ready : Nat → Bool)
    (at' : Nat → Nat → Nat × Nat) : State :=
  let r := x.pos / rb
  let o := x.pos % rb
  let n := min ((s.facet c x.facet).room tgt) (rb - o)
  let ps := (upto n).map fun j => at' r (o + j)
  let cr := (at' r o).1
  if !ready r || n = 0 || (s.core cr).lockedBefore x.id (banksOf (ps.map (·.2))) then s
  else
    let bs := ps.map fun p => (s.core p.1).spadByte p.2
    (s.noteSpadErr cr (ps.map (·.2))).feedBytes c tgt x bs (rb * rows - x.pos - n)

/-- R256: the feeder's next bytes of a shale feed, expanded at its first step; COUNT is of the expanded bytes, the CRC of the source's
(R251, log entry 53). -/
def State.feedShale (s : State) (c : Nat) (tgt : FeedTarget) (x : EngineCmd) (va blocks : Nat) (ty : BitVec 5) (sm : Nat) : State :=
  let f := s.facet c x.facet
  if !x.loaded then
    let r := s.shaleRead f.pasid va blocks ty sm x.ports
    let go := s.engineGo x.ports r.2.2.1
    if !go.2.1 then go.2.2.modCore c fun k => k.setFeeder tgt ({ x with ports := go.1 } :: (k.feeder tgt).drop 1)
    else
    let n := r.2.1.length + (if r.2.2.2.1 == 1 then 1 else 0)
    let s := (go.2.2.meetPages f.pasid va n (geodeOf c)).countPages f.pasid false va n true
    let s := s.noteCells r.2.2.1 (whoFacet c f.pasid)
    let r := s.shaleRead f.pasid va blocks ty sm x.ports
    let s := s.hot (memPas r.2.2.1) (whoFacet c f.pasid)
    let s := match r.2.2.2.2 with | some (l, q) => s.fabErr l q | none => s
    let st := r.2.2.2.1
    let y := { x with loaded := true, buf := r.1, ports := [] }
    let s := s.modCore c fun k =>
      (k.setFeeder tgt (y :: (k.feeder tgt).drop 1)).modFacet x.facet fun f =>
        f.modOrder x.id fun e => { (e.credit r.2.1 0) with status := if st == 0 then (e.credit r.2.1 0).status else st }
    if r.1.isEmpty then s.feedDone c tgt y 0 else s
  else
    let n := min (f.room tgt) (min 256 x.buf.length)
    if n = 0 then s
    else
      let bs := x.buf.take n
      let y := { x with buf := x.buf.drop n }
      let s := s.modCore c fun k =>
        (k.setFeeder tgt (y :: (k.feeder tgt).drop 1)).modFacet x.facet fun f =>
          (f.append tgt bs).modOrder x.id fun e => { e with count := e.count + n }
      if y.buf.isEmpty then s.feedDone c tgt y 0 else s

/-- `FIFO_APPEND` (R247, R256): the feeder's oldest command appends bytes once the share has room and its source is ready. -/
def execFifoAppend (core : Nat) (tgt : FeedTarget) (s : State) : Out :=
  .next (
    let k := s.core core
    match k.feeder tgt with
    | [] => s
    | x :: _ =>
      let launch := (k.facet x.facet).launch
      if !s.clear x.after x.mir || x.ports.isEmpty && k.postHeld [match tgt with | .a => 1 | .b => 2] 0 then s
      else
        match x.op with
        | .sp addr pitch rb rows =>
          s.feedRows core tgt x rb rows (fun _ => true) fun r o =>
            let a := wrapInt ((addr : Int) + Int.ofNat r * pitch) 24
            let c := coreAt (geodeOf core) (spRank a)
            (c, spPhys (s.window launch c) (spOff a + o))
        | .band b h rel off rb rows =>
          let bd := k.bands.get b {}
          s.feedRows core tgt x rb rows (fun r => bd.has (h + rel + r)) fun r o =>
            (core, spPhys (s.window launch core) (bd.ringOff + ((h + rel + r) % bd.rrows) * bd.rowBytes + off + o))
        | .shale va blocks ty sm => s.feedShale core tgt x va blocks ty sm
        | _ => s)

/-! ## The local feeder -/

/-- R267: the locks of an operation are released. -/
def Core.unlock (k : Core) (id : Nat) : Core := { k with locks := k.locks.filter fun l => l.id != id }

/-- Removes the head of the local feeder's queue. -/
def State.localDone (s : State) (c : Nat) (x : EngineCmd) (moved : List FByte) (status : BitVec 8) : State :=
  s.modCore c fun k =>
    ({ k with feedL := k.feedL.drop 1 }.unlock x.id).modFacet x.facet fun f =>
      f.modOrder x.id fun e => (e.credit moved moved.length).finish status

/-- R235, R260: rows of bytes are written to a scratchpad, the lower first, each with its poison. -/
def Core.spadRows (k : Core) (rb rows : Nat) (ws : List (Nat × FByte)) : Core :=
  (upto rows).foldl (fun k r => k.spadMove ((ws.drop (r * rb)).take rb)) k

/-- R260: every source byte is read, then the rows are written, the higher last. -/
def State.runLcopy (s : State) (c : Nat) (x : EngineCmd) (src dst rb rows : Nat) (sp dp : Int) : State :=
  let k := s.core c
  let win := s.window (k.facet x.facet).launch c
  let so := localBytes win src sp rb rows
  let d := localBytes win dst dp rb rows
  if k.lockedBefore x.id (banksOf (so ++ d)) then s
  else
    let bs := so.map k.spadByte
    ((s.noteSpadErr c so).modCore c fun k => k.spadRows rb rows (d.zip bs)).localDone c x bs 0

/-- R116, R261: another resident facet of the core has a bank active. -/
def Core.bankBusy (k : Core) (fn : Nat) (bank : Bool) : Bool := k.facets.any fun f => f.1 != fn && f.2.resident && f.2.bank == bank

/-- R119, R268: uncorrectable words of the instruction store, by word, after bytes replace them; poison that an `ifetch` carries makes such
words, a destination that R268 does not list (log entry 57). -/
def Core.istPut (k : Core) (a : Nat) (bs : List FByte) : Core :=
  let n := bs.length
  let bad := ((upto n).filter fun j => (bs.getD j ⟨0, false⟩).poison).map fun j => (a + j) / 8
  { k with
    ist := k.ist.put a (bs.map (·.b))
    istPoison := (k.istPoison.filter fun u => !(decide (a ≤ 8 * u) && decide (8 * u + 8 ≤ a + n))) ++ bad.eraseDups }

/-- R261: `ifetch` at the local feeder, refused with status 4 where the bank is busy. The block is written in one step (log entry 47). -/
def State.runIfetch (s : State) (c : Nat) (x : EngineCmd) (src dst words : Nat) (bank : Bool) : State :=
  let k := s.core c
  let win := s.window (k.facet x.facet).launch c
  let so := (upto (4 * words)).map fun j => spPhys win (src + j)
  if k.lockedBefore x.id (banksOf so) then s
  else if k.bankBusy x.facet bank then s.localDone c x [] 4
  else
    let bs := so.map k.spadByte
    ((s.noteSpadErr c so).modCore c fun k => k.istPut (codeAddr bank dst) bs).localDone c x bs 0

/-- `LOCAL_FEEDER_COMMAND_START` (R116, R260, R261). -/
def execLocalFeederCommandStart (core : Nat) (s : State) : Out :=
  .next (
    match (s.core core).feedL with
    | [] => s
    | x :: _ =>
      if !s.clear x.after x.mir || (s.core core).postHeld [3, 4] 0 then s
      else
        match x.op with
        | .lcopy src dst rb rows sp dp => s.runLcopy core x src dst rb rows sp dp
        | .ifetch src dst words bank => s.runIfetch core x src dst words bank
        | _ => s)

/-! ## Bands -/

/-- Program offsets of the scratchpad rows that a queued command has still to read on a core of its geode. -/
def EngineCmd.reads (x : EngineCmd) (own core : Nat) (bands : Tbl Band) : List (Nat × Nat) :=
  match x.op with
  | .sp addr pitch rb rows =>
    ((upto rows).filter fun r => x.pos < (r + 1) * rb).filterMap fun r =>
      let a := wrapInt ((addr : Int) + Int.ofNat r * pitch) 24
      if coreAt (geodeOf own) (spRank a) = core then some (spOff a, rb) else none
  | .band b h rel off rb rows =>
    if own = core then
      let bd := bands.get b {}
      ((upto rows).filter fun r => x.pos < (r + 1) * rb).map fun r =>
        (bd.ringOff + ((h + rel + r) % bd.rrows) * bd.rowBytes + off, rb)
    else []
  | .lcopy src _ rb rows sp _ =>
    if own = core then (upto rows).map fun r => (((src : Int) + Int.ofNat r * sp).toNat, rb) else []
  | _ => []

/-- R259: a feed or `lcopy` of the launch issued before `id` still has bytes of a local slot to read. -/
def State.slotRead (s : State) (core launch id off n : Nat) : Bool :=
  (upto 16).any fun r =>
    let c := coreAt (geodeOf core) r
    let k := s.core c
    (k.feedA ++ k.feedB ++ k.feedL).any fun x =>
      decide (x.id < id) && (k.facet x.facet).launch == launch
        && (x.reads c core k.bands).any fun g => overlaps g.1 g.2 off n

/-- An operation of a band ends. -/
def Core.bandDone (k : Core) (b : Nat) (o : BandOp) (bd : Band) (status : BitVec 8) : Core :=
  ({ k with bands := k.bands.set b { bd with ops := bd.ops.drop 1 } }.unlock o.id).modFacet bd.owner fun f =>
    f.modOrder o.id fun e => e.finish status

/-- An operation of a band of a core ends. -/
def State.bandDone (s : State) (c b : Nat) (o : BandOp) (bd : Band) (status : BitVec 8) : State := s.modCore c fun k => k.bandDone b o bd status

/-- R259: an earlier feed of a band is still queued. -/
def Core.bandFed (k : Core) (b id : Nat) : Bool :=
  (k.feedA ++ k.feedB).any fun x => decide (x.id < id) && match x.op with | .band n _ _ _ _ _ => n == b | _ => false

/-- R259: the next row of a fetch is written to its slot. -/
def State.bandRow (s : State) (c b : Nat) (bd : Band) (o : BandOp) : State :=
  let k := s.core c
  let f := k.facet bd.owner
  let i := o.first + o.arrived
  let off := bd.ringOff + (i % bd.rrows) * bd.rowBytes
  let win := s.window f.launch c
  let ps := (upto bd.rowBytes).map fun j => spPhys win (off + j)
  if s.slotRead c f.launch o.id off bd.rowBytes || k.lockedBefore o.id (banksOf ps) then s
  else
    let va := bd.v0 + i * bd.pitch
    let w := whoFacet c f.pasid
    let s := s.meetPages f.pasid va bd.rowBytes w.req
    let a := s.spansAt f.pasid false va bd.rowBytes
    let cs := s.cellsOf a.1 o.ports
    let go := s.engineGo o.ports cs.1
    if a.2 || cs.2.isSome then
      (let s := s.countPages f.pasid false va bd.rowBytes true
       match cs.2 with | some (l, c) => s.fabErr l c | none => s).bandDone c b o bd (if cs.2.isSome then 8 else 1)
    else if !go.2.1 then
      go.2.2.modCore c fun k => { k with bands := k.bands.set b { bd with ops := { o with ports := go.1 } :: bd.ops.drop 1 } }
    else
      let s := ((go.2.2.countPages f.pasid false va bd.rowBytes true).noteCells cs.1 w).hot (memPas cs.1) w
      let bs := cs.1.map s.cellByte
      let o' := { o with arrived := o.arrived + 1, ports := [] }
      let bd' := { bd with ops := o' :: bd.ops.drop 1 }
      let s := s.modCore c fun k =>
        (({ k with bands := k.bands.set b bd' }.startLock o.id).spadMove (ps.zip bs)).modFacet bd.owner fun f =>
          f.modOrder o.id fun e => e.credit bs 1
      if o'.arrived = o.rows then s.bandDone c b o' bd' 0 else s

/-- `BAND_ROW_ARRIVAL` (R259): the band's oldest operation fetches its next row, or a close ends its work once every
earlier operation on the band has; the band is free when the `win.close` completes (R258, log entry 53). -/
def execBandRowArrival (core band : Nat) (s : State) : Out :=
  .next (
    let bd := (s.core core).bands.get band {}
    match bd.ops with
    | [] => s
    | o :: _ =>
      if !s.clear o.after o.mir || o.ports.isEmpty && (s.core core).postHeld [6, 7] band then s
      else if o.close then
        (if (s.core core).bandFed band o.id then s else s.bandDone core band o bd 0)
      else s.bandRow core band bd o)

/-! ## Bulk engines -/

/-- Registers of bulk engine `e` (R266). -/
abbrev aBulk (e : Nat) : Nat := 0x80002000000 + 0x1000 * e

/-- Changes a bulk engine. -/
def State.modBulk (s : State) (e : Nat) (f : Bulk → Bulk) : State := { s with bulk := s.bulk.upd e {} f }

/-- The requester of a bulk command (R327, R334). -/
def BulkCmd.who (c : BulkCmd) (e : Nat) : Who :=
  if c.host then { req := 48 + e, pasid := some c.pasid, hot := 5 }
  else { req := 48 + e, geode := some (geodeOf c.core), pasid := some c.pasid }

/-- R263: the object of a barrier word lies in a window of the command on its core. -/
def State.barWin (s : State) (c : BulkCmd) (k : Nat) : Option (Nat × Nat) :=
  let w := c.word k
  let core := coreOfWord w
  if !w.testBit 30 then none
  else
    match (s.bulkWindows c core).find? fun p => decide (spOff w + 16 ≤ 4096 * p.length) with
    | some p => some (core, spPhys p (spOff w))
    | none => none

/-- R263: the source and destination footprints name the same bytes within one SPACE. -/
def BulkCmd.overlap (c : BulkCmd) : Bool :=
  let near := c.space 0 == c.space 1 && (c.space 0 != 1 || coreOfWord (c.word 0) == coreOfWord (c.word 1))
  near && (upto c.rows).any fun r => (upto c.rows).any fun q =>
    decide (c.rowAt 0 r < c.rowAt 1 q + c.rowBytes ∧ c.rowAt 1 q < c.rowAt 0 r + c.rowBytes)

/-- R263: the status of the checks made before any byte moves. -/
def State.bulkCheck (s : State) (c : BulkCmd) : BitVec 8 :=
  let sp (side : Nat) : Bool := c.space side != 1 || (s.bulkWin c side).isSome
  let bar (k : Nat) : Bool := !(c.word k).testBit 30 || (s.barWin c k).isSome
  if !bulkWordsOk c.words || !sp 0 || !sp 1 || !bar 4 || !bar 5 then 6
  else if c.overlap then 7
  else 0

/-- Cells of `n` bytes of a side from byte `o` of row `r`, and the status that cuts them short with the lode and cause of a
fabric failure. Beside a SPACE 2 side a page of another lode counts as one without permission (R451; log entry 28). -/
def State.bulkCells (s : State) (c : BulkCmd) (side r o n : Nat) (held : List PortReq := []) : List Cell × BitVec 8 × Option (Nat × Nat) :=
  let a := c.rowAt side r + o
  match c.space side with
  | 0 =>
    let x := s.spansAt c.pasid (side == 1) a n
    let near := x.1.takeWhile fun p => c.space (1 - side) != 2 || !p.leaf.rem || p.leaf.lode.toNat == s.ownLode
    let y := s.cellsOf near held
    (y.1, if y.2.isSome then 8 else if x.2 || decide (near.length < x.1.length) then 1 else 0, y.2)
  | 1 =>
    match s.bulkWin c side with
    | some w => ((upto n).map fun j => .sp (coreOfWord (c.word side)) (spPhys w (a.toNat + j)), 0, none)
    | none => ([], 6, none)
  | _ =>
    if a < 0 ∨ (2 : Int) ^ 41 < a + n then ([], 8, some (nbits (c.word side) 56 41, 1))
    else
      let y := s.lodeCells (nbits (c.word side) 56 41) a.toNat n false false held
      (y.1, if y.2 = 0 then 0 else 8, if y.2 = 0 then none else some (nbits (c.word side) 56 41, y.2))

/-- R267: a cell's bank is locked by a transfer issued before `id`. -/
def State.cellLocked (s : State) (id : Nat) : Cell → Bool
  | .sp c o => (s.core c).lockedBefore id (banksOf [o])
  | _ => false

/-- R252: the engine's command ends with a status, a cancelled one with status 5 (R265); its enabled countdowns remain to be made
(R264). -/
def State.bulkStop (s : State) (e : Nat) (c : BulkCmd) (st : BitVec 8) : State :=
  s.modBulk e fun b =>
    { b with finished := true, status := if b.cancelled then 5 else if st == 0 then b.status else st, ports := []
             outDue := (s.barWin c 4).isSome, inDue := (s.barWin c 5).isSome }

/-- R263, R330: the walks of the bytes of a virtual side meet the errors of their entries. -/
def State.meetSide (s : State) (c : BulkCmd) (side r o n req : Nat) : State :=
  if c.space side == 0 then s.meetPages c.pasid (c.rowAt side r + o) n req else s

/-- R339: the walks of the bytes of a virtual side count. -/
def State.countSide (s : State) (c : BulkCmd) (side r o n : Nat) : State :=
  if c.space side == 0 then s.countPages c.pasid (side == 1) (c.rowAt side r + o) n (o == 0) else s

/-- R216, R263: the windows of the command's scratchpad sides still stand. -/
def State.bulkStands (s : State) (c : BulkCmd) : Bool :=
  [0, 1].all fun side => c.space side != 1 || (s.bulkWin c side).isSome

/-- Destination address of the engine's next byte. -/
def Bulk.place (b : Bulk) (c : BulkCmd) : Nat := (c.rowAt 1 b.row + b.col).toNat

/-- R263, R265: the engine moves the bytes up to its next 64-byte boundary of the destination or the end of the row, the rows in ascending
order, though R295 lets their writes perform in any (log entry 56). -/
def State.bulkMove (s : State) (e : Nat) (c : BulkCmd) (b : Bulk) : State :=
  let n := min (64 - b.place c % 64) (c.rowBytes - b.col)
  let w := c.who e
  let s := (s.meetSide c 0 b.row b.col n w.req).meetSide c 1 b.row b.col n w.req
  let src := s.bulkCells c 0 b.row b.col n b.ports
  let dst := s.bulkCells c 1 b.row b.col n b.ports
  let cs := src.1.zip dst.1
  let go := s.engineGo b.ports (cs.map (·.1) ++ cs.map (·.2))
  if b.ports.isEmpty && cs.any fun x => s.cellLocked c.id x.1 || s.cellLocked c.id x.2 then s
  else if !s.durRoom (memPas dst.1) then s
  else if !go.2.1 then go.2.2.modBulk e fun b => { b with ports := go.1 }
  else
    let m := cs.length
    let s := ((go.2.2.countSide c 0 b.row b.col n).countSide c 1 b.row b.col n).noteCells (cs.map (·.1)) w
    let bs := cs.map fun x => s.cellByte x.1
    let s := if c.space 1 == 1 then s.modCore (coreOfWord (c.word 1)) fun k => k.startLock c.id else s
    let s := s.putCells ((cs.map (·.2)).zip bs) w
    let touched (l : List Cell) : List Nat :=
      let p := memPas l
      p.filter fun a => a % 65536 == 0 || b.col == 0 && p.head? == some a
    let s := (s.hot (touched (cs.map (·.1))) w).hot (touched (cs.map (·.2))) w
    let s := s.countPkg 0x07 ((b.moved + m) / 64 - b.moved / 64)
    let s := s.modBulk e fun b =>
      { b with moved := b.moved + m, data := if c.cm.getLsbD 17 then b.data ++ bs.map (·.b) else b.data
               status := if b.status == 0 && bs.any (·.poison) then 3 else b.status
               row := if b.col + m = c.rowBytes then b.row + 1 else b.row
               col := if b.col + m = c.rowBytes then 0 else b.col + m
               ports := [] }
    if m < n then
      let bad := if src.2.1 != 0 && decide (src.1.length ≤ dst.1.length) then src.2 else dst.2
      (match bad.2 with | some (l, q) => s.fabErr l q | none => s).bulkStop e c (if bad.1 == 0 then 1 else bad.1)
    else if b.col + m = c.rowBytes ∧ b.row + 1 = c.rows then s.bulkStop e c 0
    else s

/-- R266: a host command completes: STAT, RES and, with NOTIFY, a KIND 4 record. -/
def State.bulkHostEnd (s : State) (e : Nat) (c : BulkCmd) (b : Bulk) : State :=
  let s := s.devPut (aBulk e + 0x38) 7 0 b.status.toNat
  let s := (s.devPut (aBulk e + 0x40) 31 0 (if c.cm.getLsbD 17 then (crcFold 0 b.data).toNat else 0)).devPut (aBulk e + 0x40) 63 32 b.moved
  if c.notify then s.meqPost 4 0 0 0 ((c.cm.extractLsb' 0 16).toNat + b.status.toNat * 2 ^ 16 + e * 2 ^ 24) else s

/-- R267: the locks of an operation are released on every core, those in fossils among them. -/
def State.unlockAll (s : State) (id : Nat) : State :=
  let free (t : Tbl Core) : Tbl Core := t.map fun (k : Nat × Core) => (k.1, k.2.unlock id)
  { s with cores := free s.cores, fossils := s.fossils.map fun f => { f with cores := free f.cores } }

/-- Changes the operation of a facet's completion order wherever the facet stands; identifiers are never used twice. -/
def State.modOp (s : State) (core facet id : Nat) (g : OrderEntry → OrderEntry) : State :=
  let at' (k : Core) : Core :=
    if k.facets.any fun f => f.1 == facet then k.modFacet facet fun f => f.modOrder id g else k
  let of (t : Tbl Core) : Tbl Core := t.map fun (k : Nat × Core) => if k.1 == core then (k.1, at' k.2) else k
  { s with cores := of s.cores, fossils := s.fossils.map fun f => { f with cores := of f.cores } }

/-- R263, R264: a command whose countdowns are made is done; the engine is free for its shadow set, before the command completes in its
facet's order (log entry 57). -/
def State.bulkEnd (s : State) (e : Nat) : State :=
  let b := s.bulk.get e {}
  match b.active with
  | some c =>
    if b.finished && !b.outDue && !b.inDue then
      let s := s.unlockAll c.id
      let s := if c.host then s.bulkHostEnd e c b
        else s.modOp c.core c.facet c.id fun x => { x.finish b.status with data := if x.crcen then b.data else [], count := b.moved }
      s.modBulk e fun b => { shadow := b.shadow, ended := b.ended }
    else s
  | none => s

/-- `BULK_ENGINE_TAKE_COMMAND` (R263): an idle engine takes its shadow set; an active one makes its checks, then moves its
next bytes, until its command ends. -/
def execBulkEngineTakeCommand (e : Nat) (s : State) : Out :=
  .next (
    let b := s.bulk.get e {}
    match b.active with
    | none =>
      (match b.shadow with
       | some c => if s.cores.any fun k => k.2.postHeld [5] e then s else s.modBulk e fun b => { active := some c, ended := b.ended }
       | none => s)
    | some c =>
      if s.bulkHeld c then s
      else if b.finished then s.bulkEnd e
      else if b.cancelled && (b.place c % 64 == 0 || b.col == 0 && b.row != 0 || !s.bulkStands c) then (s.bulkStop e c 5).bulkEnd e
      else if !s.clear c.after c.mir then s
      else if !b.checked then
        (let st := s.bulkCheck c
         if st == 0 then s.modBulk e fun b => { b with checked := true } else (s.bulkStop e c st).bulkEnd e)
      else (s.bulkMove e c b).bulkEnd e)

/-- R264, R270: one countdown of a barrier object on its core. -/
def State.countdown (s : State) (c : BulkCmd) (k : Nat) : State :=
  match s.barWin c k with
  | some (core, o) => if k = 4 then s.updateBar core o 0 0 (-1) else s.updateBar core o 0 (-1) 0
  | none => s

/-- R264, R265: a command that a cancel has ended makes its countdowns and completes with status 5. -/
def State.endCancelled (s : State) (c : BulkCmd) : State :=
  (((s.countdown c 4).countdown c 5).unlockAll c.id).modOp c.core c.facet c.id fun x => x.finish 5

/-- R265, R279: the commands that a cancel has ended and whose geodes are not frozen make their countdowns. -/
def State.drainEnded (s : State) (e : Nat) : State :=
  (s.bulk.get e {}).ended.foldl (fun s c =>
    if s.bulkHeld c then s else (s.endCancelled c).modBulk e fun b => { b with ended := b.ended.erase c }) s

/-- `ENGINE_COUNTDOWN` (R264): the outbound countdown, then the inbound one; held while its geode is frozen (R279). -/
def execEngineCountdown (e : Nat) (s : State) : Out :=
  .next (
    let s := s.drainEnded e
    let b := s.bulk.get e {}
    match b.active with
    | none => s
    | some c =>
      if s.bulkHeld c then s
      else if b.finished && b.outDue then ((s.countdown c 4).modBulk e fun b => { b with outDue := false }).bulkEnd e
      else if b.finished && b.inDue then ((s.countdown c 5).modBulk e fun b => { b with inDue := false }).bulkEnd e
      else s)

/-- R265: `bulk.cancel` marks the facet's active command of a tag and ends its queued one, whose countdowns remain to be made
(`State.drainEnded`). -/
def State.bulkCancel (s : State) (en : BitVec 4) (tag : BitVec 16) : State :=
  let e := en.toNat
  let mine (c : BulkCmd) : Bool :=
    !c.host && c.core == s.cur && c.facet == s.fn && c.launch == s.me.launch && c.cm.extractLsb' 0 16 == tag
  let b := s.bulk.get e {}
  let s := match b.active with
    | some c => if mine c && !b.finished then s.modBulk e fun b => { b with cancelled := true } else s
    | none => s
  match b.shadow with
  | some c => if mine c then s.modBulk e fun b => { b with shadow := none, ended := b.ended ++ [c] } else s
  | none => s

/-- R265: `bulk.cancel`. -/
def execBulkCancel (g en : BitVec 4) (tag : BitVec 16) (s : State) : Out :=
  slotOp (.bulkCancel g en tag) s (s.bulkCancel en tag)

/-- `HOST_BULK_GO` (R266): a write of CTRL with GO; ignored with OVERRUN while the shadow set is occupied. -/
def execHostBulkGo (e : Nat) (v : BitVec 64) (s : State) : Out :=
  .next (
    if 16 ≤ e then s
    else if (s.bulk.get e {}).shadow.isSome then s.devPut (aBulk e + 0x38) 10 10 1
    else
      let a := aBulk e
      let s := s.devPut (a + 0x30) 37 0 (wbits v 37 0)
      let c : BulkCmd :=
        { words := (upto 6).map fun k => s.devGet (a + 8 * k)
          cm := BitVec.ofNat 20 (wbits v 15 0 + 2 ^ 17 * wbits v 16 16), host := true, notify := v.getLsbD 17
          pasid := BitVec.ofNat 20 (wbits v 37 18), id := s.nextId }
      ({ s with nextId := s.nextId + 1 }.bulkLock c).modBulk e fun b => { b with shadow := some c })

/-! ## When an access may perform -/

/-- R286, R448: two accesses of one facet that perform in program order: to one peer core, or sharing a word, line or register, on
another lode a 64-byte line. -/
def Access.ordered (a b : Access) : Bool :=
  a.core == b.core && a.facet == b.facet && a.launch == b.launch && a.home == b.home
    && match a.home with
      | .spad _ => true
      | .remote _ => a.op.addrs.any fun x => b.op.addrs.any fun y => x / 64 == y / 64
      | _ => (grains a.op.addrs).any fun g => (grains b.op.addrs).contains g

/-- R400: the core registers of a geode that a freeze has stopped, or that waits in transfer for its restore (R403). -/
def State.geodeHeld (s : State) (g : Nat) : Bool :=
  (s.geode g).frozen || s.geodeState g == 1 && s.fossils.any fun f => f.used && f.lgeo == g

/-- The geode whose core registers an address lies in. -/
def coreRegGeode (a : Nat) : Option Nat :=
  if 0x80001000000 ≤ a ∧ a < 0x80001000000 + 0x10000 * 40 then some ((a - 0x80001000000) / 0x10000) else none

/-- R400: an address of core registers whose accesses are held with their senders. -/
def State.regHeld (s : State) (a : Nat) : Bool := (coreRegGeode a).any s.geodeHeld

/-- R234, R267, R279, R285, R286, R296, R342, R400, R448: an access may perform now: what it waits for has performed, no earlier access
to its home is still to perform, no fossil holds it, no geode it needs is frozen, no transfer locks its banks, and the durable queue has
room. One to another lode goes on by its requests (`State.linesGo`). -/
def State.mayPerform (s : State) (a : Access) : Bool :=
  s.clear a.after a.mir
    && !(s.accs.any fun b => decide (b.id < a.id) && b.ordered a)
    && !(s.fossils.any fun f => f.used && f.held.contains a.id)
    && match a.home with
      | .spad c => !s.frozenAt c (· == a.launch) && !(s.core c).lockHolds a.id (banksOf a.op.addrs)
      | .durable => !a.op.writes || s.durRoom a.op.addrs
      | .device => !a.op.addrs.any s.regHeld
      | .remote _ => true
      | .main => true

end Sys2Proof.Machine
end

