-- ==== Sys2Proof/Machine/Durable.lean ====
section
/-! DEFINITION. The durable tier's write queue and persist point (12 R342 to R347) and mirrored regions (R350 to R353). -/

namespace Sys2Proof.Machine

/-- HPBAR (R345). -/
abbrev aHpbar : Nat := 0x80000060000
/-- DSTAT (R345). -/
abbrev aDstat : Nat := 0x80000060008

/-- `WRITE_QUEUE_TO_MEDIA` (R342): the oldest entry goes to the media. -/
def execWriteQueueToMedia (s : State) : Out := .next s.drainOldest

/-- R343: a confirmed request completes: the sealed entries are covered by it, and the `pbar` of its facet may go on, or BUSY falls. -/
def State.sealDone (s : State) (q : SealReq) : State :=
  let s := { s with durQ := s.durQ.map fun (e : DurEntry) => if e.sealed then { e with confirmed := true } else e }
  if q.host then s.devPut aDstat 0 0 0 else s.modFacet q.core q.facet fun f => if f.pbar = 1 && f.launch == q.launch then { f with pbar := 2 } else f

/-- R343, R347: every entry present is marked sealed when the request is first looked at; while the hold-up domain is
degraded the confirmation waits until every sealed entry is on the media. -/
def State.sealStep (s : State) (q : SealReq) : State :=
  let s := if q.marked then s else { s with durQ := s.durQ.map fun e => { e with sealed := true } }
  if s.devFld aDstat 1 1 = 1 && s.durQ.any (·.sealed) then
    { s with seals := { q with marked := true } :: s.seals.erase q }
  else { s with seals := s.seals.erase q }.sealDone q

/-- `SEAL_CONFIRM` (R343): the oldest request whose facet is not in a fossil (R348). -/
def execSealConfirm (s : State) : Out :=
  .next (
    match s.seals.find? fun q => q.host || !s.frozenTask q.core q.facet q.launch with
    | some q => s.sealStep q
    | none => s)

/-- `HPBAR_GO` (R344): ignored while BUSY. -/
def execHpbarGo (s : State) : Out :=
  .next (
    if s.devFld aDstat 0 0 = 1 then s
    else { s.devPut aDstat 0 0 1 with seals := s.seals ++ [{ host := true }] })

/-- `HOLDUP_TEST` (R347). -/
def execHoldupTest (ok : Bool) (s : State) : Out := .next (s.devPut aDstat 1 1 (if ok then 0 else 1))

/-- R346, R347: the tier keeps what R346 promises: the drain is complete, or none was needed: no entry is sealed, or the domain is
degraded and no confirmed seal covers an entry, since such a seal has all of its own on the media; LASTLOSS then says that the drain
is complete (log entry 54). -/
def State.drainSound (s : State) (drained : Bool) : Bool :=
  drained || !s.durQ.any (·.sealed) || s.devFld aDstat 1 1 == 1 && !s.durQ.any (·.confirmed)

/-- R346, R347: what the hold-up domain leaves of the write queue: every sealed entry on the media; where none was needed the media as
it stands; and else contents that must be treated as lost. -/
def State.drainQueue (s : State) (drained : Bool) : State :=
  if drained then { (s.durQ.filter (·.sealed)).foldl State.toMedia s with durQ := [] }
  else if s.drainSound drained then { s with durQ := [] }
  else { s with durQ := [], media := [], mediaLost := some s.freeCtr, mediaKnown := [], freeCtr := s.freeCtr + 1 }

/-! ## Mirrored regions -/

/-- R350: first byte of a range. -/
def State.mirBase (s : State) (k : Nat) : Nat := 2 ^ 21 * s.devFld (aMir k) 38 21
/-- R350: bytes of a range. -/
def State.mirSize (s : State) (k : Nat) : Nat := 2 ^ 21 * s.devFld (aMir k + 8) 18 0
/-- EN of a range. -/
def State.mirEn (s : State) (k : Nat) : Nat := s.devFld (aMir k + 0x10) 0 0

/-- R350: an EN write is refused. -/
def State.mirRefused (s : State) (k : Nat) : Bool :=
  s.mirSize k == 0 || decide (2 ^ 39 < s.mirBase k + s.mirSize k) || s.devFld (aMir k + 0x10) 63 48 == s.ownLode
    || (upto 16).any fun j => j != k && s.mirEn j == 1 && overlaps (s.mirBase j) (s.mirSize j) (s.mirBase k) (s.mirSize k)

/-- R330, R339, R352: the first copy of a range reads and sends its next word, in ascending order. -/
def State.mirSend (s : State) (k : Nat) : State :=
  let pos := s.mirPos.get k 0
  if s.mirSize k ≤ 32 * pos then s
  else
    let s := s.meetRange (s.mirBase k + 32 * pos) 32 40
    { s with mirQ := s.mirQ ++ [{ s.mirWrite k (s.mirBase k / 32 + pos) {} with sync := true }], mirPos := s.mirPos.set k (pos + 1) }.mirPort

/-- R352: every word of a range has been copied. -/
def State.mirCopied (s : State) (k : Nat) : Bool :=
  decide (s.mirSize k ≤ 32 * s.mirPos.get k 0) && !s.mirQ.any fun w => w.k == k && w.sync

/-- R352, R450: the partner of a range cannot be reached: forwarding and repairs stop, and its requests are held no more. -/
def State.mirBreak (s : State) (k : Nat) : State :=
  if k < 16 ∧ (s.mirState k = 1 ∨ s.mirState k = 2) then
    { s.devPut (aMir k + 0x10) 2 1 3 with
      mirQ := s.mirQ.map fun w => if w.k == k then { w with port := none } else w
      repairs := s.repairs.filter fun x => x.k != k }
  else s

/-- `MIRROR_ENABLE` (R350, R352): the range is syncing; its copy begins. -/
def execMirrorEnable (k : Nat) (s : State) : Out :=
  .next (
    if 16 ≤ k ∨ s.mirEn k = 1 then s
    else if s.mirRefused k then s.devPut (aMir k + 0x10) 3 3 1
    else { (s.devPut (aMir k + 0x10) 0 0 1).devPut (aMir k + 0x10) 2 1 1 with mirPos := s.mirPos.del k }.mirSend k)

/-- `MIRROR_DISABLE` (R352). -/
def execMirrorDisable (k : Nat) (s : State) : Out :=
  .next (
    if 16 ≤ k ∨ s.mirEn k = 0 then s
    else
      let s := (s.devPut (aMir k + 0x10) 0 0 0).devPut (aMir k + 0x10) 2 1 0
      { s with mirQ := s.mirQ.filter fun w => w.k != k, repairs := s.repairs.filter fun x => x.k != k })

/-- `MIRROR_SYNC_COMPLETE` (R352): the copy has ended. -/
def execMirrorSyncComplete (k : Nat) (s : State) : Out :=
  .next (if k < 16 ∧ s.mirState k = 1 ∧ s.mirCopied k then s.devPut (aMir k + 0x10) 2 1 2 else s)

/-- `MIRROR_WRITE_ACK` (R351, R448): the partner accepts the oldest mirror write of the range, once a port holds it and no earlier
request for its line is unanswered; one that waits takes a port, or breaks the range where no route is left (R450). -/
def execMirrorWriteAck (k : Nat) (s : State) : Out :=
  .next (
    if s.mirState k = 1 ∨ s.mirState k = 2 then
      (match s.mirQ.find? fun w => w.k == k with
       | some w =>
         match w.port with
         | some r =>
           if !s.lineFirst r then s
           else
             (let s := { s with mirQ := s.mirQ.erase w }.portAnswered r
              (if w.sync then s.mirSend k else s).mirPort)
         | none =>
           match s.route (s.mirLode k) w.addr with
           | .fail c => (s.fabErr (s.mirLode k) c).mirBreak k
           | _ => s.mirPort
       | none => s)
    else s)

/-- R450: the cause that FABERR logs where the fabric reports the partner of a range unreachable: that of the route, or no answer. -/
def State.lostCause (s : State) (k : Nat) : Nat :=
  match s.route (s.mirLode k) (s.mirPartner k (s.mirBase k / 32)) with
  | .fail c => c
  | _ => 4

/-- `MIRROR_PARTNER_UNREACHABLE` (R352, R450): the fabric reports the partner of a range unreachable. -/
def execMirrorPartnerUnreachable (k : Nat) (s : State) : Out :=
  .next (if k < 16 ∧ (s.mirState k = 1 ∨ s.mirState k = 2) then (s.fabErr (s.mirLode k) (s.lostCause k)).mirBreak k else s)

/-- A repair waits no more. -/
def State.dropRepair (s : State) (word : Nat) : State := { s with repairs := s.repairs.filter fun x => x.word != word }

/-- R353, R450: a repair fails for a cause: the word is treated as R330 has it. -/
def State.repairFails (s : State) (x : Repair) (c : Nat) : State :=
  let t := (s.dropRepair x.word).fabErr (s.mirLode x.k) c
  if s.poisoned (32 * x.word) then t else (t.forgetFlaw (32 * x.word)).foundBad (32 * x.word) x.kind x.req x.sym

/-- R353: the partner's word arrives: it takes the failed one's place. -/
def State.repairMade (s : State) (x : Repair) (bs : List (BitVec 8)) : State := (s.dropRepair x.word).repaired x.k x.word bs

/-- R353, R443, R448, R450: the partner's answer to a repair: its word, or that the read failed there; what the partner holds is not part
of the package (log entry 2). -/
def State.repairAnswer (s : State) (x : Repair) (r : PortReq) : State :=
  let t := { s with freeCtr := s.freeCtr + 1 }.portAnswered r
  if Config.freeBool s.freeCtr 19 then t.repairFails x (if Config.freeBool s.freeCtr 17 then 1 else 2)
  else t.repairMade x ((upto 32).map fun j => Config.remoteByte s.freeCtr (s.mirPartner x.k x.word + j))

/-- R353: a repair is still to be made: its word's error stands, and its range gives it the partner's word. -/
def State.repairStands (s : State) (x : Repair) : Bool :=
  s.repairable (32 * x.word) == some x.k && s.flaws.any fun e => e.1 == 32 * x.word

/-- R353, R443, R448, R450: a repair goes on: its read of the partner's word takes a port, and has its answer once no earlier request for
its line waits for one. -/
def State.repairGo (s : State) (word : Nat) : State :=
  match s.repairs.find? fun x => x.word == word with
  | none => s
  | some x =>
    if !s.repairStands x then s.dropRepair word
    else
      match x.port with
      | some r => if s.lineFirst r then s.repairAnswer x r else s
      | none =>
        match s.route (s.mirLode x.k) (s.mirPartner x.k word) with
        | .fail c => s.repairFails x c
        | _ =>
          match s.portTakes (s.mirLode x.k) (s.mirPartner x.k word) with
          | some r => { s with repairs := s.repairs.map fun (y : Repair) => if y.word == word then { y with port := some r } else y }.tookPort
          | none => s

/-- The repair of a word of a range: the one that waits, or that of the patrol's find which the row tells of. -/
def State.repairOf (s : State) (k word : Nat) : Repair :=
  (s.repairs.find? fun x => x.word == word).getD { k := k, word := word, kind := 4, req := 42, sym := Config.failingSymbol s.freeCtr }

/-- R448: the route of a repair's read; one that a port has accepted keeps its port. -/
def State.repairRoute (s : State) (x : Repair) : Route :=
  if x.port.isSome then .away else s.route (s.mirLode x.k) (s.mirPartner x.k x.word)

/-- The port request of a repair: the one taken, or the one that a port with room takes now. -/
def State.repairReq (s : State) (x : Repair) : Option PortReq :=
  match x.port with
  | some r => some r
  | none => s.portTakes (s.mirLode x.k) (s.mirPartner x.k x.word)

/-- `MIRROR_REPAIR` (R353): a word found uncorrectable in an active range takes the partner's value, read over a port (R443, R448); when the
partner cannot be read that is a failure of the fabric (R450), and the word is treated as the patrol's find (R330; log entry 30). -/
def execMirrorRepair (k word : Nat) (partner : Option (BitVec 256)) (s : State) : Out :=
  .next (
    let x := s.repairOf k word
    if s.repairable (32 * word) != some k then s
    else
      match s.repairRoute x with
      | .fail c => s.repairFails x c
      | _ =>
        match s.repairReq x with
        | none => s
        | some r =>
          if !s.lineFirst r then s
          else
            let t := (if x.port.isNone then s.tookPort else s).portAnswered r
            match partner with
            | some d => t.repairMade x (leBytes 32 d.toNat)
            | none => t.repairFails x 1)

end Sys2Proof.Machine
end

