-- ==== Sys2Proof/Machine/Ring.lean ====
section
/-! DEFINITION. The geode ring: `send`, `recv`, `tsync`, the arrival of messages and the completion of meetings (08 R238 to
R245). -/

namespace Sys2Proof.Machine

/-- STATUS bit of a lost ring message (R360). -/
def stRingLost : BitVec 16 := 4

/-- R245: the launch's completion carries "ring message lost". -/
def State.markLost (s : State) (launch : Nat) : State :=
  match s.launches.find launch with
  | some l => { s with launches := s.launches.set launch { l with status := l.status ||| stRingLost } }
  | none => s

/-- R243: the message that `send` injects. -/
def State.sendMsg (s : State) (a : BitVec 9) (rank : BitVec 4) (facet : BitVec 2) (lane : BitVec 3) (dir : BitVec 1) : State :=
  let f := s.me
  let m : Msg :=
    { id := s.nextId, launch := f.launch, src := rankOf s.cur, srcFacet := f.ordinal, dst := rank.toNat
      dstFacet := facet.toNat, lane := lane, dir := dir == 1, stamp := BitVec.ofNat 32 f.ringTime, val := s.readV a }
  { s.modGeode (geodeOf s.cur) fun g => { g with msgs := g.msgs ++ [m] } with nextId := s.nextId + 1 }

/-- R243: `recv` takes the buffered message whose stamp it expects; one whose parity failed lands poisoned (R337). -/
def State.takeMsg (s : State) (d : BitVec 9) (rank : BitVec 4) (facet : BitVec 2) (lane : BitVec 3) (dir : BitVec 1) : State :=
  let anti := dir == 1
  let st := s.recvStamp rank.toNat anti
  match (s.buffered rank.toNat facet.toNat lane.toNat anti).find? fun m => m.stamp.toNat == st with
  | some m =>
    (s.modGeode (geodeOf s.cur) fun g => { g with msgs := g.msgs.filter fun x => x.id != m.id }).land
      (.v (s.me.phys d) m.val) 1 0 0 m.poison
  | none => s

/-- R243: `send`. -/
def execSend (g : BitVec 4) (a : BitVec 9) (rank : BitVec 4) (facet : BitVec 2) (lane : BitVec 3) (dir : BitVec 1) (s : State) :
    Out :=
  slotOp (.send g a rank facet lane dir) s (s.sendMsg a rank facet lane dir)

/-- R243: `recv`. -/
def execRecv (g : BitVec 4) (d : BitVec 9) (rank : BitVec 4) (facet : BitVec 2) (lane : BitVec 3) (dir : BitVec 1) (s : State) :
    Out :=
  slotOp (.recv g d rank facet lane dir) s (s.takeMsg d rank facet lane dir)

/-- R239, R240: the participant sets its ring base to the logical cycle of its bundle. -/
def Facet.setRing (mask : BitVec 16) (f : Facet) : Facet :=
  { f with rbase := some f.logical, ringMask := mask, tsyncMet := false }

/-- R240, R415: `tsync`, once its meeting is complete, latches its level; a mask of the core's own rank alone completes at once. -/
def execTsync (g : BitVec 4) (mask : BitVec 16) (s : State) : Out :=
  slotOp (.tsync g mask) s (s.modMe fun f =>
    { f.setRing mask with
      level := if mask == BitVec.ofNat 16 (2 ^ rankOf s.cur) then BitVec.ofNat 3 (s.granted (geodeOf s.cur)) else f.metLevel })

/-- R243: the ring message entered its buffer, `bad` if its parity failed on the way (R337); a waiting `recv` of the facet makes
its check again. -/
def Geode.arrive (g : Geode) (id : Nat) (bad : Bool) : Geode :=
  { g with msgs := g.msgs.map fun m => if m.id == id then { m with buffered := true, poison := m.poison || bad } else m }

/-- R238, R243 to R245: a message enters its destination stop's buffer once it reaches it and while that has room; one addressed
to no task of its launch is discarded on its way. -/
def execRingMessageArrival (geode id : Nat) (s : State) : Out :=
  .next (
    let g := s.geode geode
    match g.msgs.find? fun m => m.id == id && !m.buffered with
    | none => s
    | some m =>
      if ((s.core (coreAt geode m.dst)).slotOfOrdinal m.launch m.dstFacet).isNone then
        (s.modGeode geode fun g => { g with msgs := g.msgs.filter fun e => e.id != id }).markLost m.launch
      else if !m.reaches g.msgs then s
      else { s.modGeode geode fun g => g.arrive id (Config.ringUpset s.freeCtr) with freeCtr := s.freeCtr + 1 })

/-- R240: the waiting participants of a meeting. -/
def Geode.participants (g : Geode) (launch : Nat) (mask : BitVec 16) : List Participant :=
  g.tsync.filter fun p => p.launch == launch && p.mask == mask && mask.getLsbD (rankOf p.core)

/-- R240: a meeting is complete when one facet of the launch on every rank of the mask waits with an equal mask; the
participants' bundles then issue together, each at the logical cycle at which it stands, and latch the level that the geode has now
(R415). -/
def execTsyncMeetingComplete (geode launch : Nat) (mask : BitVec 16) (s : State) : Out :=
  .next (
    let ps := (s.geode geode).participants launch mask
    if mask = 0 || !s.meetingReady launch mask geode then s
    else
      let s := s.modGeode geode fun g => { g with tsync := g.tsync.filter fun p => !ps.contains p }
      ps.foldl (fun s p => s.modFacet p.core p.facet fun f =>
        { f with tsyncMet := true, metLevel := BitVec.ofNat 3 (s.granted geode) }) s)

/-- R245: messages to a task that has gone are discarded and its launch reports the loss. -/
def State.dropMsgs (s : State) (c launch ord : Nat) : State :=
  let mine (m : Msg) : Bool := m.launch == launch && m.dst == rankOf c && m.dstFacet == ord
  let g := s.geode (geodeOf c)
  if g.msgs.any mine then
    (s.modGeode (geodeOf c) fun g => { g with msgs := g.msgs.filter fun m => !mine m }).markLost launch
  else s

end Sys2Proof.Machine
end

