-- ==== Sys2Proof/Machine/Scalar.lean ====
section
/-! DEFINITION. The S slot (05 R113 to R151) and its copies (04 R105). -/

namespace Sys2Proof.Machine

/-- Shift count of a register (R121). -/
def shiftOf (b : BitVec 64) : Nat := b.toNat % 64

/-- R122: `div`. -/
def divSigned (a b : BitVec 64) : BitVec 64 :=
  if b = 0 then BitVec.allOnes 64 else BitVec.ofInt 64 (a.toInt.tdiv b.toInt)

/-- R122: `divn`. -/
def divUnsigned (a b : BitVec 64) : BitVec 64 :=
  if b = 0 then BitVec.allOnes 64 else BitVec.ofNat 64 (a.toNat / b.toNat)

/-- R122: `rem`. -/
def remSigned (a b : BitVec 64) : BitVec 64 :=
  if b = 0 then a else BitVec.ofInt 64 (a.toInt.tmod b.toInt)

/-- R122: `remn`. -/
def remUnsigned (a b : BitVec 64) : BitVec 64 :=
  if b = 0 then a else BitVec.ofNat 64 (a.toNat % b.toNat)

/-- R123: low and high half of the sum of two pairs. -/
def add128Of (al ah bl bh : BitVec 64) : BitVec 64 × BitVec 64 :=
  (al + bl, ah + bh + BitVec.ofNat 64 ((al.toNat + bl.toNat) / 2 ^ 64))

/-- R105: eight bytes of a vector register replaced, their tail pairs 0b00. -/
def withLane (r : VReg) (lane : Nat) (v : BitVec 64) : VReg :=
  VReg.build 8 fun k => if k = lane then (v.toNat, 0) else (r.elem 8 k, r.tails 8 k)

/-- R131: the code address after the bundle. -/
def State.succ (s : State) : BitVec 64 := BitVec.ofNat 64 (codeAddr s.me.bank (s.me.pc + s.me.latch.size))

/-- R131: offset of a PC-relative target. -/
def State.relTarget (s : State) (off : BitVec 34) : Nat := ((s.me.pc : Int) + 4 * off.toInt).toNat

/-- A taken transfer to a place. -/
def State.take (s : State) (bank : Bool) (off : Nat) : State := s.modLatch fun l => { l with target := some (bank, off) }

/-- A taken transfer to a code address (R114). -/
def State.takeCode (s : State) (t : BitVec 64) : State := s.take (t.getLsbD 15) (wbits t 14 0)

/-- R136: the writes of g4 to g7 of a rotating loop, at bound 1. -/
def State.resetStages (s : State) (c : BitVec 64) (st : BitVec 2) : State :=
  let s := s.modMe fun f => { f with rotBase := 0 }
  let s := s.land (.g 4 (decide (st.toNat < c.toNat))) 1
  let s := s.land (.g 5 false) 1
  let s := s.land (.g 6 false) 1
  s.land (.g 7 false) 1

/-- R136: pushes an entry. -/
def Facet.pushLoop (f : Facet) (e : LoopEntry) : Facet := { f with lstk := f.lstk.set f.lsDepth e, lsDepth := f.lsDepth + 1 }

/-- R136: a loop instruction whose guard is true; the seventh entry has trapped before. -/
def State.openLoop (s : State) (c : BitVec 64) (st : BitVec 2) (rot : Bool) (e : BitVec 16) : State :=
  let stop := s.me.pc + 4 * e.toNat
  let s := if rot then s.resetStages c st else s
  if c = 0 then s.take s.me.bank stop
  else
    s.modMe fun f => f.pushLoop
      { start := f.pc + f.latch.size, bank := f.bank, stop := stop, count := c, rot := rot, stages := st }

/-- R141: the identifiers. -/
def State.identifier (s : State) (n : Nat) : BitVec 64 :=
  match n with
  | 0 => BitVec.ofNat 64 s.me.ordinal
  | 1 => BitVec.ofNat 64 (rankOf s.cur)
  | 2 => BitVec.ofNat 64 (geodeOf s.cur)
  | 3 => BitVec.ofNat 64 (geodeOf s.cur / 5)
  | 4 => BitVec.ofNat 64 (s.devFld aLodeId 15 0)
  | 5 => BitVec.ofNat 64 (s.devFld aLodeId 47 16)
  | 6 => BitVec.ofNat 64 s.me.task
  | _ => BitVec.ofNat 64 s.me.ntasks

/-- R142 to R144, R388: the system registers as `rdsys` reads them. -/
def State.sysReg (s : State) (ix : Nat) : BitVec 64 :=
  let f := s.me
  if ix = 0 then fstate s.here f
  else if ix = 1 then f.group
  else if ix = 2 then f.est
  else if ix = 0x10 then f.tbase
  else if ix = 0x11 then f.tframe
  else if ix = 0x12 then f.tcause
  else if ix = 0x13 then f.tinfo
  else if ix = 0x14 then (if f.intrap then 1 else 0)
  else
    let e := f.loopAt ((ix - 0x40) / 2)
    if ix % 2 = 0 then e.wordA else e.count

/-- R142 to R144, R388: the effect of a `wrsys` for the next bundle; read-only fields keep their values (R6). -/
def Facet.writeSys (f : Facet) (ix : Nat) (v : BitVec 64) : Facet :=
  if ix = 0 then f.setFstate v
  else if ix = 0x10 then { f with tbase := v &&& 0x800000000000FFFF }
  else if ix = 0x11 then { f with tframe := v &&& 0x01FFFFFFFFFFFFFF }
  else if ix < 0x40 then f
  else
    let k := (ix - 0x40) / 2
    let e := f.lstk.get k {}
    { f with lstk := f.lstk.set k (if ix % 2 = 0 then LoopEntry.ofWords v e.count else { e with count := v }) }

/-- R147: the oldest record of a facet is taken out of a queue. -/
def takeRecord (fn : Nat) : List EventRec → List EventRec
  | [] => []
  | r :: t => if r.facet = fn then t else r :: takeRecord fn t

/-- R147: the oldest record addressed to the facet goes to a register pair. -/
def State.popRecord (s : State) (d : BitVec 6) : State :=
  match s.here.recordsOf s.fn with
  | r :: _ => (s.modHere fun k => { k with evq := takeRecord s.fn k.evq }).putPair d (r.w0, r.w1) 1
  | [] => s

/-- R148: the estimate that `setest` sets. -/
def State.estimate (s : State) (a : BitVec 6) (ix : Nat) : BitVec 64 :=
  match s.me.estTable.find ix with
  | none => BitVec.allOnes 64
  | some base =>
    if a = 0 then base.zeroExtend 64
    else BitVec.ofNat 64 (min (base.toNat * (s.readS a).toNat) (2 ^ 64 - 2))

/-- R148: `setest`. -/
def State.setEstimate (s : State) (a : BitVec 6) (ix : Nat) : State :=
  let e := s.estimate a ix
  s.modMe fun f => { f with estSet := e, estAt := BitVec.ofNat 64 f.logical }

/-- R121: d := a + b. -/
def execAdd (g : BitVec 4) (d a b : BitVec 6) (s : State) : Out :=
  slotOp (.add g d a b) s (s.putS d (s.readS a + s.readS b) 1)

/-- R121: d := a - b. -/
def execSub (g : BitVec 4) (d a b : BitVec 6) (s : State) : Out :=
  slotOp (.sub g d a b) s (s.putS d (s.readS a - s.readS b) 1)

/-- R121: the low half of the product. -/
def execMul (g : BitVec 4) (d a b : BitVec 6) (s : State) : Out :=
  slotOp (.mul g d a b) s (s.putS d (s.readS a * s.readS b) 3)

/-- R121: the high half of the signed product. -/
def execMulh (g : BitVec 4) (d a b : BitVec 6) (s : State) : Out :=
  slotOp (.mulh g d a b) s (s.putS d (BitVec.ofInt 64 ((s.readS a).toInt * (s.readS b).toInt / 2 ^ 64)) 3)

/-- R121: the high half of the unsigned product. -/
def execMulhn (g : BitVec 4) (d a b : BitVec 6) (s : State) : Out :=
  slotOp (.mulhn g d a b) s (s.putS d (BitVec.ofNat 64 ((s.readS a).toNat * (s.readS b).toNat / 2 ^ 64)) 3)

/-- R122: signed quotient. -/
def execDiv (g : BitVec 4) (d a b : BitVec 6) (s : State) : Out :=
  slotOp (.div g d a b) s (s.putS d (divSigned (s.readS a) (s.readS b)) 20)

/-- R122: unsigned quotient. -/
def execDivn (g : BitVec 4) (d a b : BitVec 6) (s : State) : Out :=
  slotOp (.divn g d a b) s (s.putS d (divUnsigned (s.readS a) (s.readS b)) 20)

/-- R122: signed remainder. -/
def execRem (g : BitVec 4) (d a b : BitVec 6) (s : State) : Out :=
  slotOp (.rem g d a b) s (s.putS d (remSigned (s.readS a) (s.readS b)) 20)

/-- R122: unsigned remainder. -/
def execRemn (g : BitVec 4) (d a b : BitVec 6) (s : State) : Out :=
  slotOp (.remn g d a b) s (s.putS d (remUnsigned (s.readS a) (s.readS b)) 20)

/-- R121: bitwise AND. -/
def execAnd (g : BitVec 4) (d a b : BitVec 6) (s : State) : Out :=
  slotOp (.and g d a b) s (s.putS d (s.readS a &&& s.readS b) 1)

/-- R121: bitwise OR. -/
def execOr (g : BitVec 4) (d a b : BitVec 6) (s : State) : Out :=
  slotOp (.or g d a b) s (s.putS d (s.readS a ||| s.readS b) 1)

/-- R121: bitwise XOR. -/
def execXor (g : BitVec 4) (d a b : BitVec 6) (s : State) : Out :=
  slotOp (.xor g d a b) s (s.putS d (s.readS a ^^^ s.readS b) 1)

/-- R121: shift left by bits(b, 5, 0). -/
def execShl (g : BitVec 4) (d a b : BitVec 6) (s : State) : Out :=
  slotOp (.shl g d a b) s (s.putS d (s.readS a <<< shiftOf (s.readS b)) 1)

/-- R121: logical shift right. -/
def execShr (g : BitVec 4) (d a b : BitVec 6) (s : State) : Out :=
  slotOp (.shr g d a b) s (s.putS d (s.readS a >>> shiftOf (s.readS b)) 1)

/-- R121: arithmetic shift right. -/
def execSra (g : BitVec 4) (d a b : BitVec 6) (s : State) : Out :=
  slotOp (.sra g d a b) s (s.putS d ((s.readS a).sshiftRight (shiftOf (s.readS b))) 1)

/-- R121: rotate right. -/
def execRot (g : BitVec 4) (d a b : BitVec 6) (s : State) : Out :=
  slotOp (.rot g d a b) s (s.putS d ((s.readS a).rotateRight (shiftOf (s.readS b))) 1)

/-- R121: signed minimum. -/
def execMin (g : BitVec 4) (d a b : BitVec 6) (s : State) : Out :=
  slotOp (.min g d a b) s (s.putS d (if (s.readS a).toInt ≤ (s.readS b).toInt then s.readS a else s.readS b) 1)

/-- R121: signed maximum. -/
def execMax (g : BitVec 4) (d a b : BitVec 6) (s : State) : Out :=
  slotOp (.max g d a b) s (s.putS d (if (s.readS b).toInt ≤ (s.readS a).toInt then s.readS a else s.readS b) 1)

/-- R121: unsigned minimum. -/
def execMinn (g : BitVec 4) (d a b : BitVec 6) (s : State) : Out :=
  slotOp (.minn g d a b) s (s.putS d (if (s.readS a).toNat ≤ (s.readS b).toNat then s.readS a else s.readS b) 1)

/-- R121: unsigned maximum. -/
def execMaxn (g : BitVec 4) (d a b : BitVec 6) (s : State) : Out :=
  slotOp (.maxn g d a b) s (s.putS d (if (s.readS b).toNat ≤ (s.readS a).toNat then s.readS a else s.readS b) 1)

/-- R124: select by a guard and its negate. -/
def execSel (g : BitVec 4) (d a b : BitVec 6) (gs : BitVec 3) (ng : BitVec 1) (s : State) : Out :=
  slotOp (.sel g d a b gs ng) s (s.putS d (if xor (s.readG gs.toNat) (ng == 1) then s.readS a else s.readS b) 1)

/-- R123: 128-bit sum of register pairs. -/
def execAdd128 (g : BitVec 4) (d a b : BitVec 6) (s : State) : Out :=
  slotOp (.add128 g d a b) s (s.putPair d (add128Of (s.readS a) (s.readS (a + 1)) (s.readS b) (s.readS (b + 1))) 1)

/-- R125: d := a + i. -/
def execAddi (g : BitVec 4) (d a : BitVec 6) (imm : BitVec 34) (s : State) : Out :=
  slotOp (.addi g d a imm) s (s.putS d (s.readS a + imm.signExtend 64) 1)

/-- R125: d := a AND i. -/
def execAndi (g : BitVec 4) (d a : BitVec 6) (imm : BitVec 34) (s : State) : Out :=
  slotOp (.andi g d a imm) s (s.putS d (s.readS a &&& imm.signExtend 64) 1)

/-- R125: d := a OR i. -/
def execOri (g : BitVec 4) (d a : BitVec 6) (imm : BitVec 34) (s : State) : Out :=
  slotOp (.ori g d a imm) s (s.putS d (s.readS a ||| imm.signExtend 64) 1)

/-- R125: d := a XOR i. -/
def execXori (g : BitVec 4) (d a : BitVec 6) (imm : BitVec 34) (s : State) : Out :=
  slotOp (.xori g d a imm) s (s.putS d (s.readS a ^^^ imm.signExtend 64) 1)

/-- R125: shift left by a literal count. -/
def execShli (g : BitVec 4) (d a k : BitVec 6) (s : State) : Out :=
  slotOp (.shli g d a k) s (s.putS d (s.readS a <<< k.toNat) 1)

/-- R125: logical shift right by a literal count. -/
def execShri (g : BitVec 4) (d a k : BitVec 6) (s : State) : Out :=
  slotOp (.shri g d a k) s (s.putS d (s.readS a >>> k.toNat) 1)

/-- R125: arithmetic shift right by a literal count. -/
def execSrai (g : BitVec 4) (d a k : BitVec 6) (s : State) : Out :=
  slotOp (.srai g d a k) s (s.putS d ((s.readS a).sshiftRight k.toNat) 1)

/-- R125: d := i. -/
def execLi (g : BitVec 4) (d : BitVec 6) (imm : BitVec 34) (s : State) : Out :=
  slotOp (.li g d imm) s (s.putS d (imm.signExtend 64) 1)

/-- R125: the upper 34 bits; bits [29:0] stay. -/
def execLih (g : BitVec 4) (d : BitVec 6) (imm : BitVec 34) (s : State) : Out :=
  slotOp (.lih g d imm) s (s.putS d ((imm.zeroExtend 64 <<< 30) ||| (s.readS d &&& 0x3FFFFFFF)) 1)

/-- R125: the low half of a × i. -/
def execMuli (g : BitVec 4) (d a : BitVec 6) (imm : BitVec 34) (s : State) : Out :=
  slotOp (.muli g d a imm) s (s.putS d (s.readS a * imm.signExtend 64) 3)

/-- R126: leading zeros. -/
def execClz (g : BitVec 4) (d a : BitVec 6) (s : State) : Out :=
  slotOp (.clz g d a) s (s.putS d (BitVec.ofNat 64 (clzNat (s.readS a).toNat 64)) 1)

/-- R126: trailing zeros. -/
def execCtz (g : BitVec 4) (d a : BitVec 6) (s : State) : Out :=
  slotOp (.ctz g d a) s (s.putS d (BitVec.ofNat 64 (ctzFrom (s.readS a).toNat 64 0)) 1)

/-- R126: one bits. -/
def execPopc (g : BitVec 4) (d a : BitVec 6) (s : State) : Out :=
  slotOp (.popc g d a) s (s.putS d (BitVec.ofNat 64 (popNat (s.readS a).toNat 64)) 1)

/-- R126: bit k to 3k, k = 0 to 20. -/
def execBint3 (g : BitVec 4) (d a : BitVec 6) (s : State) : Out :=
  slotOp (.bint3 g d a) s (s.putS d (BitVec.ofNat 64 (spread (s.readS a).toNat id (3 * ·) 21)) 1)

/-- R126: bit 3k to k, k = 0 to 20. -/
def execBdint3 (g : BitVec 4) (d a : BitVec 6) (s : State) : Out :=
  slotOp (.bdint3 g d a) s (s.putS d (BitVec.ofNat 64 (spread (s.readS a).toNat (3 * ·) id 21)) 1)

/-- R126: bit k to 2k, k = 0 to 31. -/
def execBint2 (g : BitVec 4) (d a : BitVec 6) (s : State) : Out :=
  slotOp (.bint2 g d a) s (s.putS d (BitVec.ofNat 64 (spread (s.readS a).toNat id (2 * ·) 32)) 1)

/-- R126: bit 2k to k, k = 0 to 31. -/
def execBdint2 (g : BitVec 4) (d a : BitVec 6) (s : State) : Out :=
  slotOp (.bdint2 g d a) s (s.putS d (BitVec.ofNat 64 (spread (s.readS a).toNat (2 * ·) id 32)) 1)

/-- R126: bit reversal. -/
def execBrev (g : BitVec 4) (d a : BitVec 6) (s : State) : Out :=
  slotOp (.brev g d a) s (s.putS d (BitVec.ofNat 64 (brevNat (s.readS a).toNat)) 1)

/-- R126: sign extension from w bits. -/
def execSext (g : BitVec 4) (d a w : BitVec 6) (s : State) : Out :=
  slotOp (.sext g d a w) s (s.putS d (BitVec.ofInt 64 (sextNat (s.readS a).toNat w.toNat)) 1)

/-- R126: zero extension from w bits. -/
def execZext (g : BitVec 4) (d a w : BitVec 6) (s : State) : Out :=
  slotOp (.zext g d a w) s (s.putS d (BitVec.ofNat 64 ((s.readS a).toNat % 2 ^ w.toNat)) 1)

/-- R127: a = b. -/
def execCmpEq (g : BitVec 4) (gd : BitVec 3) (a b : BitVec 6) (s : State) : Out :=
  slotOp (.cmpEq g gd a b) s (s.putG gd (s.readS a == s.readS b) 1)

/-- R127: a ≠ b. -/
def execCmpNe (g : BitVec 4) (gd : BitVec 3) (a b : BitVec 6) (s : State) : Out :=
  slotOp (.cmpNe g gd a b) s (s.putG gd (s.readS a != s.readS b) 1)

/-- R127: a < b, signed. -/
def execCmpLt (g : BitVec 4) (gd : BitVec 3) (a b : BitVec 6) (s : State) : Out :=
  slotOp (.cmpLt g gd a b) s (s.putG gd ((s.readS a).slt (s.readS b)) 1)

/-- R127: a < b, unsigned. -/
def execCmpLtn (g : BitVec 4) (gd : BitVec 3) (a b : BitVec 6) (s : State) : Out :=
  slotOp (.cmpLtn g gd a b) s (s.putG gd ((s.readS a).ult (s.readS b)) 1)

/-- R127: a ≤ b, signed. -/
def execCmpLe (g : BitVec 4) (gd : BitVec 3) (a b : BitVec 6) (s : State) : Out :=
  slotOp (.cmpLe g gd a b) s (s.putG gd ((s.readS a).sle (s.readS b)) 1)

/-- R127: a ≤ b, unsigned. -/
def execCmpLen (g : BitVec 4) (gd : BitVec 3) (a b : BitVec 6) (s : State) : Out :=
  slotOp (.cmpLen g gd a b) s (s.putG gd ((s.readS a).ule (s.readS b)) 1)

/-- R127: a = i. -/
def execCmpiEq (g : BitVec 4) (gd : BitVec 3) (a : BitVec 6) (imm : BitVec 34) (s : State) : Out :=
  slotOp (.cmpiEq g gd a imm) s (s.putG gd (s.readS a == imm.signExtend 64) 1)

/-- R127: a < i, signed. -/
def execCmpiLt (g : BitVec 4) (gd : BitVec 3) (a : BitVec 6) (imm : BitVec 34) (s : State) : Out :=
  slotOp (.cmpiLt g gd a imm) s (s.putG gd ((s.readS a).slt (imm.signExtend 64)) 1)

/-- R128: guard AND. -/
def execGand (g : BitVec 4) (gd ga gb : BitVec 3) (s : State) : Out :=
  slotOp (.gand g gd ga gb) s (s.putG gd (s.readG ga.toNat && s.readG gb.toNat) 1)

/-- R128: guard OR. -/
def execGor (g : BitVec 4) (gd ga gb : BitVec 3) (s : State) : Out :=
  slotOp (.gor g gd ga gb) s (s.putG gd (s.readG ga.toNat || s.readG gb.toNat) 1)

/-- R128: guard NOT. -/
def execGnot (g : BitVec 4) (gd ga : BitVec 3) (s : State) : Out :=
  slotOp (.gnot g gd ga) s (s.putG gd (!s.readG ga.toNat) 1)

/-- R131: branch. -/
def execBr (g : BitVec 4) (off : BitVec 34) (s : State) : Out :=
  slotOp (.br g off) s (s.take s.me.bank (s.relTarget off))

/-- R131: branch to a register plus an offset. -/
def execBrs (g : BitVec 4) (a : BitVec 6) (off : BitVec 34) (s : State) : Out :=
  slotOp (.brs g a off) s (s.takeCode (s.readS a + BitVec.ofInt 64 (4 * off.toInt)))

/-- R131: branch with link. -/
def execCall (g : BitVec 4) (l : BitVec 6) (off : BitVec 34) (s : State) : Out :=
  slotOp (.call g l off) s ((s.putS l s.succ 1).take s.me.bank (s.relTarget off))

/-- R131: branch to a register. -/
def execRet (g : BitVec 4) (a : BitVec 6) (s : State) : Out :=
  slotOp (.ret g a) s (s.takeCode (s.readS a))

/-- R136: opens a loop whose count is a register. -/
def execLoop (g : BitVec 4) (st : BitVec 2) (ro : BitVec 1) (a : BitVec 6) (e : BitVec 16) (s : State) : Out :=
  slotOp (.loop g st ro a e) s (s.openLoop (s.readS a) st (ro == 1) e)

/-- R136: opens a loop whose count is a literal. -/
def execLoopi (g : BitVec 4) (st : BitVec 2) (ro : BitVec 1) (e : BitVec 16) (cnt : BitVec 18) (s : State) : Out :=
  slotOp (.loopi g st ro e cnt) s (s.openLoop (cnt.zeroExtend 64) st (ro == 1) e)

/-- R131, R138: pops the top entry and branches. -/
def execLexit (g : BitVec 4) (off : BitVec 34) (s : State) : Out :=
  slotOp (.lexit g off) s ((s.modMe fun f => { f with lsDepth := f.lsDepth - 1 }).take s.me.bank (s.relTarget off))

/-- R131: branch to the other bank, with a link unless sl is 0. -/
def execBrb (g : BitVec 4) (l : BitVec 6) (o : BitVec 13) (s : State) : Out :=
  slotOp (.brb g l o) s ((if l = 0 then s else s.putS l s.succ 1).take (!s.me.bank) (4 * o.toNat))

/-- R133: the facet stops at the commit. -/
def execHalt (g : BitVec 4) (s : State) : Out :=
  slotOp (.halt g) s (s.modLatch fun l => { l with halted := true })

/-- R134: the selector serves the next ready facet after the commit. -/
def execYield (g : BitVec 4) (s : State) : Out :=
  slotOp (.yield g) s (s.modLatch fun l => { l with yielded := true })

/-- R141: an identifier. -/
def execRdid (g : BitVec 4) (d : BitVec 6) (imm : BitVec 34) (s : State) : Out :=
  slotOp (.rdid g d imm) s (s.putS d (s.identifier imm.toNat) 1)

/-- R142: a system register. -/
def execRdsys (g : BitVec 4) (d : BitVec 6) (ix : BitVec 12) (s : State) : Out :=
  slotOp (.rdsys g d ix) s (s.putS d (s.sysReg ix.toNat) 1)

/-- R142: a write of a system register, in force for the next bundle. -/
def execWrsys (g : BitVec 4) (a : BitVec 6) (ix : BitVec 12) (s : State) : Out :=
  slotOp (.wrsys g a ix) s (s.modLatch fun l => { l with sysWrite := some (ix.toNat, s.readS a) })

/-- R145: the bundle commits and the facet then traps with the cause `sys`. -/
def execSys (g : BitVec 4) (imm : BitVec 34) (s : State) : Out :=
  slotOp (.sys g imm) s (s.modLatch fun l => { l with after := some (trapOf (.sys g imm) .sys 0 0 0 imm.toNat) })

/-- R145: the bundle commits and the facet then traps with the cause `trapi`. -/
def execTrapi (g : BitVec 4) (imm : BitVec 34) (s : State) : Out :=
  slotOp (.trapi g imm) s (s.modLatch fun l => { l with after := some (trapOf (.trapi g imm) .trapi 0 0 0 imm.toNat) })

/-- R146: returns from the handler when the bundle commits (R392). -/
def execEret (g : BitVec 4) (s : State) : Out :=
  slotOp (.eret g) s (s.modLatch fun l => { l with returned := true })

/-- R117: waits for the facet's earlier `ifetch` commands; no other effect. -/
def execIfence (g : BitVec 4) (s : State) : Out :=
  slotOp (.ifence g) s (s)

/-- R147: the oldest record addressed to the facet is removed and read. -/
def execEvpop (g : BitVec 4) (d : BitVec 6) (s : State) : Out :=
  slotOp (.evpop g d) s (s.popRecord d)

/-- R149: nanoseconds since reset (log entry 7). -/
def execRdtime (g : BitVec 4) (d : BitVec 6) (s : State) : Out :=
  slotOp (.rdtime g d) s (s.putS d s.nanos 1)

/-- R149, R386: the logical cycle of the bundle. -/
def execRdcyc (g : BitVec 4) (d : BitVec 6) (s : State) : Out :=
  slotOp (.rdcyc g d) s (s.putS d (BitVec.ofNat 64 s.me.logical) 1)

/-- R148: sets the estimate. -/
def execSetest (g : BitVec 4) (a : BitVec 6) (ix : BitVec 8) (s : State) : Out :=
  slotOp (.setest g a ix) s (s.setEstimate a ix.toNat)

/-- R150: reads the sticky flags. -/
def execFlagsRd (g : BitVec 4) (d : BitVec 6) (s : State) : Out :=
  slotOp (.flagsRd g d) s (s.putS d (s.me.flags.zeroExtend 64) 1)

/-- R150: clears sticky flags. -/
def execFlagsClr (g : BitVec 4) (k : BitVec 6) (s : State) : Out :=
  slotOp (.flagsClr g k) s (s.modMe fun f => { f with flags := f.flags &&& ~~~k })

/-- R147: waits for n records; removes none. -/
def execWfe (g : BitVec 4) (n : BitVec 7) (s : State) : Out :=
  slotOp (.wfe g n) s (s)

/-- R105: guard to scalar. -/
def execMovGs (g : BitVec 4) (d : BitVec 6) (gk : BitVec 3) (s : State) : Out :=
  slotOp (.movGs g d gk) s (s.putS d (if s.readG gk.toNat then 1 else 0) 2)

/-- R105: scalar to guard. -/
def execMovSg (g : BitVec 4) (gd : BitVec 3) (a : BitVec 6) (s : State) : Out :=
  slotOp (.movSg g gd a) s (s.putG gd (s.readS a != 0) 2)

/-- R105: scalar to one lane of eight bytes; all else of the register stays. -/
def execMovSv (g : BitVec 4) (d : BitVec 9) (a : BitVec 6) (lane : BitVec 4) (s : State) : Out :=
  slotOp (.movSv g d a lane) s (s.putV d (withLane (s.readV d) lane.toNat (s.readS a)) 2)

/-- R105: scalar to address register. -/
def execMovSx (g : BitVec 4) (d : BitVec 5) (a : BitVec 6) (s : State) : Out :=
  slotOp (.movSx g d a) s (s.land (.x d.toNat ((s.readS a).truncate 32)) 2)

/-- R105: scalar to matrix parameter. -/
def execMovSq (g : BitVec 4) (d : BitVec 3) (a : BitVec 6) (s : State) : Out :=
  slotOp (.movSq g d a) s (s.land (.q d.toNat (s.readS a)) 2)

/-- R105: scalar to descriptor. -/
def execMovSd (g d : BitVec 4) (a : BitVec 6) (s : State) : Out :=
  slotOp (.movSd g d a) s (s.land (.d d.toNat (s.readS a)) 2)

end Sys2Proof.Machine
end

