-- ==== Sys2Proof/Machine/Bundle.lean ====
section
/-! DEFINITION. Bundles: fetch and the decode checks (02 R40 to R42, R52 to R54), issue (R32, R38, R383, R414), commit and
loop matching (05 R131 to R140), landing (R49), timing-error replay (14 R380, R381), the watchdog (R396) and the selector of a
core (13 R373, R374). -/

namespace Sys2Proof.Machine

/-! ## Fetch and decode -/

/-- A fetched bundle: its header, its stored size, its operations in slot order and the trap of its decode checks. -/
structure Fetched where
  h : Header
  size : Nat
  ops : List Instr := []
  fault : Option TrapInfo := none
deriving DecidableEq, Repr

/-- A decode check that fails: the slot's number, the cause and the detail. -/
structure DecodeFault where
  slot : Nat
  cause : TrapCause
  detail : Nat := 0
deriving DecidableEq, Repr

/-- R142, R388: a system register that only a system segment reaches. -/
def systemIndex (ix : Nat) : Bool := decide (0x10 ≤ ix ∧ ix ≤ 0x14 ∨ 0x40 ≤ ix ∧ ix ≤ 0x4B)

/-- R52, R142: an operation that needs a system segment. -/
def privileged : Instr → Bool
  | .wrsys _ _ _ => true
  | .eret _ => true
  | .rdsys _ _ ix => systemIndex ix.toNat
  | _ => false

/-- R42: a PC-relative target within the bank. -/
def relOk (pc : Nat) (off : BitVec 34) : Bool :=
  let t := (pc : Int) + 4 * off.toInt
  decide (0 ≤ t ∧ t ≤ 32764)

/-- R42, R132, R135, R288: limits of an operation that depend on its bundle's place, size and scope. -/
def placeOk (pc size : Nat) (scope : BitVec 3) : Instr → Bool
  | .br _ off => relOk pc off
  | .call _ _ off => relOk pc off && pc + size != 32768
  | .lexit _ off => relOk pc off
  | .brb _ l _ => l == 0 || pc + size != 32768
  | .loop _ _ _ _ e => decide (pc + size < pc + 4 * e.toNat ∧ pc + 4 * e.toNat ≤ 32768)
  | .loopi _ _ _ e _ => decide (pc + size < pc + 4 * e.toNat ∧ pc + 4 * e.toNat ≤ 32768)
  | .pbar _ => scope == 5
  | _ => true

/-- R52: the checks of one present slot, in the order of its table: undefined opcode, privilege, fields, bank conflict,
allotment. -/
def slotFault (sys : Bool) (allot pc size : Nat) (scope : BitVec 3) (k : Slot) (w : Nat) : Option DecodeFault :=
  let bad (c : TrapCause) (d : Nat) : Option DecodeFault := some ⟨slotNo k, c, d⟩
  let priv : Bool := match readSlot k w with | some i => privileged i && !sys | none => false
  match decodeSlot k w with
  | .ok none => none
  | .error .undefinedOpcode => bad .undefinedOpcode 0
  | .error e =>
    if priv then bad .privileged 0 else if e = .bankConflict then bad .illegalEncoding 1 else bad .illegalEncoding 0
  | .ok (some i) =>
    if priv then bad .privileged 0
    else if !placeOk pc size scope i then bad .illegalEncoding 0
    else if (vnames i).all fun v => decide (v.toNat < allot) then none
    else bad .outsideAllotment 0

/-- The operation of a present slot that decodes. -/
def slotInstr (k : Slot) (w : Nat) : Option Instr := match decodeSlot k w with | .ok i => i | .error _ => none

/-- R54, R111: registers that an operation writes for the check of destination conflicts. -/
def conflictDests (f : Facet) (i : Instr) : List RegId := (dests f i).filter fun r => !(r == .s 0)

/-- R45: the bits beside the register number in the field of a slot word that names its destination, as their place and number: those
of X-F in S, and [51:43] in the other formats. The destinations of S, M and SY words, and of `translate` and `hdrop` (R309), have
fields of their own width elsewhere (R44, R185, R194). -/
def destBits (k : Slot) (w : Nat) (i : Instr) : Nat × Nat :=
  match k, i with
  | .s, _ => if fld w 56 8 < 0x70 then (0, 0) else (46, 6)
  | .m, _ => (0, 0)
  | .sy, _ => (0, 0)
  | _, .translate _ _ _ _ => (0, 0)
  | _, .hdrop _ _ => (0, 0)
  | _, _ => (43, 9)

/-- R45: the destination field of a slot word names a register of its file, the bits beside the number being zero; a number beyond
the file names none. -/
def destNamed (k : Slot) (w : Nat) (i : Instr) : Bool :=
  match encode i with
  | none => true
  | some e => fld (w ^^^ e) (destBits k w i).1 (destBits k w i).2 == 0

/-- R53, R54, R111: the slots that name a destination of another slot, those that fail a check of their own among them. -/
def conflicts (f : Facet) (ops : List Instr) : List DecodeFault :=
  (ops.filter fun i => ops.any fun j =>
    slotOf j != slotOf i && (conflictDests f i).any fun r => (conflictDests f j).contains r).map fun i =>
      ⟨slotOf i, .illegalEncoding, 0⟩

/-- R53, R389: a trap of the bundle as a whole: cause, detail and the fault mask of the slots that fail. -/
def bundleTrap (cause : TrapCause) (detail first : Nat) (slots : List Nat) (info : Nat := 0) : TrapInfo where
  cause := cause
  detail := BitVec.ofNat 5 detail
  fmask := (slots.map fun k => BitVec.ofNat 8 (2 ^ (7 - k))).foldl (· ||| ·) 0
  fslot := BitVec.ofNat 3 first
  info := BitVec.ofNat 64 info

/-- R52, R53: the trap of failing decode checks: the cause of the first, the mask of all. -/
def decodeTrap (headerBad : Bool) (fs : List DecodeFault) : Option TrapInfo :=
  let slots := fs.map (·.slot)
  if headerBad then some (bundleTrap .illegalEncoding 0 (slots.headD 0) slots)
  else
    match fs with
    | [] => none
    | x :: _ => some (bundleTrap x.cause x.detail x.slot slots)

/-- Registers of a facet's vector allotment (R98). -/
def Facet.allot (f : Facet) : Nat := 32 * f.vblocks.length

/-- R40, R41, R42, R52, R119: the bundle at the running facet's place, decoded and checked. It reads the store's bytes as they stand:
of the old and new words that R118 allows before an `ifence`, those that the store holds (log entry 47). -/
def State.fetched (s : State) : Fetched :=
  let f := s.me
  let here := codeAddr f.bank f.pc
  let bs := s.here.ist.bytes here (min 64 (Config.bankBytes - f.pc))
  let bad (n : Nat) : Bool := s.here.istPoison.any fun u => decide (here / 8 ≤ u ∧ 8 * u < here + n)
  let h := decodeHeader (leNat (bs.take 4))
  let size := storedSize h.present
  if bad 4 then { h := h, size := 4, fault := some (bundleTrap .poisonedOperand 0 0 []) }
  else
    match readBundle bs with
    | none => { h := h, size := size, fault := some (bundleTrap .illegalEncoding 0 0 []) }
    | some r =>
      if bad size then { h := h, size := size, fault := some (bundleTrap .poisonedOperand 0 0 []) }
      else
        let sys := s.here.sysAt f.bank f.pc
        let fs := r.words.filterMap fun kw => slotFault sys f.allot f.pc size h.scope kw.1 kw.2
        let ops := r.words.filterMap fun kw => slotInstr kw.1 kw.2
        let named := r.words.filterMap fun kw => (readSlot kw.1 kw.2).filter (destNamed kw.1 kw.2)
        { h := h, size := size, ops := ops, fault := decodeTrap (!headerOk r.header) (fs ++ conflicts f named) }

/-! ## Landing -/

/-- R49, R310: every result of a facet that is at its bound and present lands; a handle that lands pending is counted. -/
def State.settle (s : State) (c fn : Nat) : State :=
  let f := s.facet c fn
  let pend (l : Landing) : Bool :=
    decide (l.due ≤ f.clock) && l.access == 0 && !l.stale && (match l.write with | .h _ v => v.pend | _ => false)
  (s.setCore c ((s.core c).landDue fn)).countPkg 0x03 (f.landings.filter pend).length

/-- RESULT_LANDING (R49): the results of a facet that are at their bounds land. -/
def execResultLanding (core facet : Nat) (s : State) : Out :=
  .next (if (s.facet core facet).resident then s.settle core facet else s)

/-! ## Switch points -/

/-- R415: the level latched by a facet with a valid ring clock, or the geode's granted level. -/
def State.switchLevel (s : State) : Nat := if s.me.rbase.isSome then s.me.level.toNat else s.granted (geodeOf s.cur)

/-- R433: the code address that a pairing entry gives for a variant. -/
def pairAddr (w : BitVec 64) (v : BitVec 2) : Nat := wbits w (16 * v.toNat + 15) (16 * v.toNat)

/-- R414: the pairing entry of the switch point at a place: of the facet's variant, or else of the variant that the bundle is in. -/
def Kernel.pairAt (k : Kernel) (v : BitVec 2) (here : Nat) : Option (BitVec 64 × BitVec 64) :=
  (k.pairs.find? fun p => pairAddr p.2 v == here).or (k.pairs.find? fun p => [0, 1, 2].any fun i => pairAddr p.2 i == here)

/-- R414: at a switch point the facet takes FTGT of its level's entry, and the place of the paired switch point when the
entry names another variant. -/
def State.atSwitch (s : State) : State :=
  let f := s.me
  match s.launches.find f.launch with
  | none => s
  | some l =>
    match l.kernel.switch[s.switchLevel]? with
    | none => s
    | some e =>
      let v : BitVec 2 := e.truncate 2
      let s := s.modMe fun f => { f with ftgt := BitVec.ofNat 6 (e.toNat / 4) }
      match l.kernel.pairAt f.variant (codeAddr f.bank f.pc) with
      | some p =>
        let a := pairAddr p.2 v
        if a = 0xFFFF then s else s.modMe fun f => { f with variant := v, pc := a % 32768 }
      | none => s

/-! ## Issue -/

/-- R38, R193, R278, R386: what a safe point waits for, outside a handler. -/
def State.unsafeNow (s : State) : Bool :=
  let f := s.me
  f.outstanding || !f.items.isEmpty || f.order.any fun e => !e.complete

/-- A bundle makes a safe point here (R38, R386). -/
def State.safePoint (s : State) (b : Fetched) : Bool := b.h.safe && !s.me.intrap

/-- R137: the topmost entry whose end and bank match. -/
def Facet.loopMatch (f : Facet) (next : Nat) : Option Nat :=
  (upto f.lsDepth).reverse.find? fun k => (f.lstk.get k {}).stop == next && (f.lstk.get k {}).bank == f.bank

/-- A transfer or a halt that the bundle takes (R42, R131, R136, R146); a `yield`, which has no target, goes on at the next bundle (log
entry 48). -/
def State.transfers (s : State) (ops : List Instr) : Bool :=
  ops.any fun i =>
    s.guard i.guard && (match i with
      | .br _ _ => true
      | .brs _ _ _ => true
      | .call _ _ _ => true
      | .ret _ _ => true
      | .lexit _ _ => true
      | .brb _ _ _ => true
      | .eret _ => true
      | .halt _ => true
      | .loop _ _ _ a _ => s.readS a == 0
      | .loopi _ _ _ _ cnt => cnt == 0
      | _ => false)

/-- R130, R134: the bundle yields, a taken transfer to the next bundle, which R137 does not match. -/
def State.yields (s : State) (ops : List Instr) : Bool :=
  ops.any fun i => s.guard i.guard && (match i with | .yield _ => true | _ => false)

/-- R42: the bundle ends at 32,768 and would continue there. -/
def State.fallsOff (s : State) (b : Fetched) : Bool :=
  s.me.pc + b.size == 32768 && !s.transfers b.ops
    && (s.yields b.ops || match s.me.loopMatch 32768 with
      | some k => decide ((s.me.lstk.get k {}).count.toNat ≤ 1)
      | none => true)

/-- R244: due time of a buffered message. -/
def Msg.dueTime (m : Msg) : Nat := (m.stamp.toNat + ringHops m.src m.dst m.dir + 2) % 2 ^ 32

/-- R244: a buffered message of the running facet whose due time its ring time exceeds. -/
def State.overdue (s : State) : Option Msg :=
  if s.me.rbase.isNone then none
  else
    (s.geode (geodeOf s.cur)).msgs.find? fun m =>
      m.buffered && m.launch == s.me.launch && m.dst == rankOf s.cur && m.dstFacet == s.me.ordinal
        && stampLater s.me.ringTime m.dueTime

/-- R244, R389: the trap of an overdue message. -/
def overdueTrap (m : Msg) : TrapInfo :=
  bundleTrap .timingMismatch 0 0 []
    (m.src + m.srcFacet * 2 ^ 4 + m.lane.toNat * 2 ^ 6 + (if m.dir then 2 ^ 9 else 0) + m.dueTime * 2 ^ 32)

/-- R53: the traps of several slots as one: the first, with the mask of all. -/
def mergeTraps : List TrapInfo → Option TrapInfo
  | [] => none
  | t :: r => some { t with fmask := r.foldl (fun a x => a ||| x.fmask) t.fmask }

/-- R53, R383: the fault mask of the slots whose issue checks fail, which a trap of the bundle as a whole records too. -/
def State.failing (s : State) (ops : List Instr) : BitVec 8 := (ops.filterMap s.issueTrap).foldl (fun a t => a ||| t.fmask) 0

/-- R42, R383: the issue checks after the ring's: the end of the bank, then the slots in order. -/
def State.issueTraps (s : State) (b : Fetched) : Option TrapInfo :=
  if s.fallsOff b then some { bundleTrap .illegalEncoding 0 0 [] with fmask := s.failing b.ops }
  else mergeTraps (b.ops.filterMap s.issueTrap)

/-- R192: the operation that makes a bundle cover the facet's completed items; of several, the first in slot order, which FSLOT and
FMASK then name (log entry 51). -/
def State.coveringOp (s : State) (ops : List Instr) : Option Instr := ops.find? fun i => covers i && s.guard i.guard

/-- R192: a bundle issued now covers a completed item: a handler's covers those that the handler issued, the program's all. -/
def Facet.covers (f : Facet) (d : ItemDone) : Bool := !f.intrap || d.handler

/-- R192: the items that a bundle issued now covers. -/
def Facet.coveredItems (f : Facet) : List ItemDone := f.itemsDone.filter f.covers

/-- R373, R374: the running facet stands: its bundle holds, and the selector looks whether another is to run. -/
def State.stall (s : State) : State := { s.modHere fun k => { k with stalled := true } with due := [.facetSwitch s.cur] }

/-- R379, R192: the bundle has passed: the covered items' flags are raised, its latch is set, and its operations happen in the
order of their effects, then its commit (log entry 9). -/
def State.pass (s : State) (b : Fetched) : State :=
  let s :=
    if (s.coveringOp b.ops).isSome then
      s.modMe fun f =>
        { f with
          flags := f.coveredItems.foldl (fun a d => a ||| d.flags) f.flags
          itemsDone := f.itemsDone.filter fun d => !f.covers d }
    else s
  let isLoop := b.ops.any fun i => match i with | .loop _ _ _ _ _ => true | .loopi _ _ _ _ _ => true | _ => false
  let s := s.modMe fun f =>
    { f with latch := { pc := f.pc, size := b.size, idle := b.h.idle.toNat, scope := b.h.scope, gend := b.h.gend,
                        isLoop := isLoop, passed := true } }
  let order : List Nat := [1, 2, 3, 4, 5, 6, 7, 0]
  let ops := order.filterMap fun k => b.ops.find? fun i => slotOf i == k
  { s.modHere fun k => { k with stalled := false } with due := ops ++ [.bundleCommit s.cur] }

/-- R192: the errors of covered items: the bundle traps with the oldest's cause, the frame lists them all, and they are
cleared. -/
def State.coveredError (s : State) (b : Fetched) : Option State :=
  match s.coveringOp b.ops with
  | none => none
  | some i =>
    match s.me.coveredItems.filterMap (·.err) with
    | [] => none
    | e :: es =>
      let s := s.modMe fun f =>
        { f with
          merr := e :: es
          itemsDone := f.itemsDone.map fun d => if f.covers d then { d with err := none } else d }
      let fn := s.fn
      let c := s.cur
      some ((s.takeTrap (trapOf i e)).modFacet c fn fun f => { f with merr := [] })

/-- R32, R383: the issue of a bundle that has passed its decode checks: it holds while a value is on its way, traps on
its first failing check, holds while an operation's entry says so, traps on covered errors, and else passes. `back` is what a trap first
undoes. -/
def State.tryIssueFrom (back : State → State) (s : State) (b : Fetched) : State :=
  if b.ops.any s.waits then (s.countCore s.cur 0x03 (if b.ops.any s.late then Config.wallCycles s.freeCtr 3 else 0)).stall
  else
    match s.overdue with
    | some m =>
      ((back s).modGeode (geodeOf s.cur) fun g => { g with msgs := g.msgs.filter fun x => x.id != m.id }).takeTrap
        { overdueTrap m with fmask := s.failing b.ops }
    | none =>
      match s.issueTraps b with
      | some t => (back s).takeTrap t
      | none =>
        if b.ops.any s.holds || s.pathFull b.ops then
          ((b.ops.foldl State.offer s).countCore s.cur 0x07 (if b.ops.any s.bankHeld then Config.wallCycles s.freeCtr 7 else 0)).stall
        else
          match s.coveredError b with
          | some t => t
          | none => s.pass b

/-- R32, R383: the issue of a bundle that has passed its decode checks. -/
def State.tryIssue (s : State) (b : Fetched) : State := State.tryIssueFrom id s b

/-- R404: a safe point whose wait is over holds the facet of a launch that a checkpoint has asked for, unless its meeting is
complete (R240). -/
def State.checkpointHold (s : State) (b : Fetched) : Bool := s.safePoint b && s.me.ckRequested && !s.me.tsyncMet

/-- R414: the bundle is a switch point whose hold has just ended; once it has switched, it does not again. -/
def State.switches (s : State) (b : Fetched) : Bool := b.h.switch && s.safePoint b && !s.me.latch.switched

/-- R38, R404: a safe point holds its bundle. -/
def State.pointHolds (s : State) (b : Fetched) : Bool := s.safePoint b && s.unsafeNow || s.checkpointHold b

/-- R36: SCOPE of the running facet's next bundle, as its operations read it. -/
def State.readScope (s : State) : State := s.modMe fun f => { f with latch := { f.latch with scope := s.fetched.h.scope } }

/-- R38, R414, R415: the running facet at its next bundle: a switch point whose hold is over is taken, once, whether or not a checkpoint
then holds the facet there, and the bundle is the one at the place that its level's entry gives. -/
def State.reach (s : State) : State :=
  let s := s.readScope
  let b := s.fetched
  if b.fault.isSome || s.safePoint b && s.unsafeNow || !s.switches b then s
  else (s.atSwitch.modMe fun f => { f with latch := { f.latch with switched := true } }).readScope

/-- R404: a checkpoint holds the running facet at its safe point. -/
def State.holdHere (s : State) : State := (s.withdraw s.cur s.fn).modMe fun f => { f with ckHeld := true }

/-- R38, R414: the issue of the bundle at the running facet's place. -/
def State.issueHere (s : State) : State :=
  let s := s.reach
  let b := s.fetched
  match b.fault with
  | some t => s.takeTrap t
  | none =>
    if s.safePoint b && s.unsafeNow then s.stall
    else if s.checkpointHold b then s.holdHere.stall
    else s.tryIssue b

/-! ## The selector -/

/-- R373: the operations whose own hold blocks the facet; every other hold leaves it ready. -/
def holdBlocks : Instr → Bool
  | .eret _ => false
  | .flagsClr _ _ => false
  | .crcRd _ _ _ _ => false
  | .bulkSet _ _ _ _ => false
  | .bulkCancel _ _ _ => false
  | i => match i.slot? with | some .ld => (match i with | .recv _ _ _ _ _ _ => true | _ => false) | _ => true

/-- R373: an operation blocks the facet; a bank hold (R221) does not. -/
def State.blocks (s : State) (i : Instr) : Bool :=
  s.waits i || s.behindArrival i || s.guard i.guard && holdBlocks i && s.entryHolds i

/-- A facet of a core as it would be offered its next bundle: it runs, what is at its bounds has landed, and its switch point is
taken once its hold is over (R414). -/
def State.asRun (s : State) (c fn : Nat) : State := (({ s with cur := c }.modCore c fun k => { k with run := fn }).settle c fn).reach

/-- R373: the facet holds issue of its next bundle. -/
def State.blocked (s : State) (c fn : Nat) : Bool :=
  let f := s.facet c fn
  if !f.resident || f.parked then true
  else if f.latch.passed then false
  else
    let s := s.asRun c fn
    let b := s.fetched
    if b.fault.isSome then false
    else if s.pointHolds b || b.ops.any s.waits then true
    else if s.overdue.isSome || (s.issueTraps b).isSome then false
    else b.ops.any s.blocks || s.pathFull (b.ops.filter holdBlocks)

/-- R240, R343: an operation that is held has something to set going: a `pbar` asks for its seal, a `tsync` joins. -/
def State.setsGoing (s : State) (i : Instr) : Bool :=
  s.guard i.guard && match i with
    | .pbar _ => s.me.pbar == 0 && s.drained s.cur s.fn 3
    | .tsync _ mask => mask != BitVec.ofNat 16 (2 ^ rankOf s.cur) && !s.me.tsyncMet && !s.meets && !s.otherMeets
    | _ => false

/-- R404: the running facet has reached the safe point that a checkpoint is to hold it at. -/
def State.reachesHold (s : State) (b : Fetched) : Bool := s.checkpointHold b && !s.unsafeNow && !s.me.ckHeld

/-- R240, R343, R404: a facet that is held without being offered its bundle has something to set going: its operations have, or a
checkpoint finds it at its safe point. -/
def State.wantsOffer (s : State) (c fn : Nat) : Bool :=
  let f := s.facet c fn
  f.resident && !f.parked && !f.latch.passed && !(s.geode (geodeOf c)).frozen
    && (let s := s.asRun c fn
        let b := s.fetched
        b.fault.isNone
          && (s.reachesHold b
            || !s.pointHolds b && !b.ops.any s.waits && s.overdue.isNone && (s.issueTraps b).isNone && b.ops.any s.setsGoing))

/-- What a facet of a core does without being selected: `act` on it as it would be offered its next bundle, with the core's running
facet as it was. -/
def State.aside (s : State) (c fn : Nat) (act : State → State) : State :=
  let run := (s.core c).run
  { (act (s.asRun c fn)).modCore c fun k => { k with run := run } with cur := s.cur }

/-- A facet of a core is not offered its next bundle as the running one is: it does not run, or the core is idle (R374). -/
def Core.waitsAside (k : Core) (fn : Nat) : Bool := fn != k.run || k.idle

/-- The facets of a core that are held set going what they have to. -/
def State.offerHeld (s : State) (c : Nat) : State :=
  (upto 4).foldl (fun s fn =>
    if (s.core c).waitsAside fn && s.wantsOffer c fn then
      s.aside c fn fun t => if t.reachesHold t.fetched then t.holdHere else t.fetched.ops.foldl State.offer t
    else s) s

/-- R415: the facets of a geode that have reached a switch point whose hold is over take it, at the level as it stands. -/
def State.latchSwitches (s : State) (g : Nat) : State :=
  (s.cores.filter fun k => geodeOf k.1 == g).foldl (fun s k =>
    (upto 4).foldl (fun s fn =>
      let f := s.facet k.1 fn
      if f.resident && !f.parked && !f.latch.passed && !f.latch.switched && !(s.geode g).frozen
          && (let t := s.asRun k.1 fn; (t.facet k.1 fn).latch.switched)
      then s.aside k.1 fn id else s) s) s

/-- R374: the next ready facet after the running one, in ascending order from it. -/
def State.nextReady (s : State) (c : Nat) : Option Nat :=
  let r := (s.core c).run
  [(r + 1) % 4, (r + 2) % 4, (r + 3) % 4].find? fun fn => !s.blocked c fn

/-- The running facet of a core can be offered a bundle: it is there, not parked, no bundle of it is in issue, the selector
has neither to look for a ready facet nor to switch at its quantum (R374), and its geode is neither frozen nor held by the current
limiter (R399, R417). -/
def State.canIssue (s : State) (c : Nat) : Bool :=
  let f := s.facet c (s.core c).run
  !(s.core c).idle && f.resident && !f.parked && !f.latch.passed && !(s.geode (geodeOf c)).frozen && !(s.geode (geodeOf c)).limited
    && !(decide (4096 ≤ (s.core c).quantum) && (s.nextReady c).isSome)

/-- BUNDLE_ISSUE (R32, R52, R379 to R383): the running facet of a core is offered its next bundle. -/
def execBundleIssue (core : Nat) (s : State) : Out :=
  .next (
    if !s.canIssue core then s
    else
      let s := { s with cur := core, freeCtr := s.freeCtr + 1, nanos := s.nanos + Config.freeTick s.freeCtr }
      (s.settle core (s.core core).run).issueHere)

/-- R374, R339: selects a facet; one that ran last and is selected again counts as a switch too (log entry 53). -/
def State.select (s : State) (c fn : Nat) : State :=
  (s.modCore c fun k => { k with run := fn, quantum := 0, stalled := false, idle := false }).countCore c 0x04 1

/-- R374: the running facet is blocked, parked or gone. -/
def State.runBlocked (s : State) (c : Nat) : Bool :=
  let k := s.core c
  let f := k.facet k.run
  !f.resident || f.parked || k.stalled && s.blocked c k.run

/-- R374: with no facet ready, the first to become so in the order after the one that ran last, that one itself at the end (log entry
53). -/
def State.firstReady (s : State) (c : Nat) : Option Nat :=
  match s.nextReady c with
  | some fn => some fn
  | none => if s.blocked c (s.core c).run then none else some (s.core c).run

/-- FACET_SWITCH (R374): the running facet is blocked or gone, and the next ready one is selected; with none ready the core issues
nothing until one is. -/
def execFacetSwitch (core : Nat) (s : State) : Out :=
  .next (
    let s := s.offerHeld core
    if (s.core core).idle then
      match s.firstReady core with
      | some fn => s.select core fn
      | none => s
    else if !s.runBlocked core then s
    else
      match s.nextReady core with
      | some fn => s.select core fn
      | none => s.modCore core fun k => { k with idle := true })

/-- QUANTUM_EXPIRY (R374): the running facet has issued 4,096 bundles and another is ready. -/
def execQuantumExpiry (core : Nat) (s : State) : Out :=
  .next (
    let k := s.core core
    if k.quantum < 4096 || (k.facet k.run).latch.passed then s
    else
      match s.nextReady core with
      | some fn => s.select core fn
      | none => s)

/-! ## The end of a task -/

/-- R96, R133: what is left of a facet whose task has ended; its registers keep their last values until a dispatch. -/
def Facet.gone (f : Facet) : Facet :=
  { f with
    resident := false
    landings := []
    replay := []
    items := []
    itemsDone := []
    order := []
    fifoA := []
    fifoB := []
    lsDepth := 0
    rotBase := 0
    pbar := 0
    tsyncMet := false
    intrap := false
    parked := false
    frameOk := false
    framePage := none
    framePorts := []
    frameFailed := false
    origin := []
    resumeAsked := false
    ckRequested := false
    ckHeld := false
    latch := {} }

/-- R183: routine words whose kernel has no facet left on the core return to the pool; `image` gives the kernel image of a launch. -/
def Core.dropRoutines (k : Core) (image : Nat → Nat) (im : Nat) : Core :=
  if k.facets.any fun f => f.2.resident && image f.2.launch == im then k
  else { k with routines := k.routines.filter fun r => r.image != im }

/-- R96, R133, R258, R434: a facet of a core is vacated: its records, bands and copies of segments are given back. -/
def Core.vacate (k : Core) (fn : Nat) : Core :=
  let launch := (k.facet fn).launch
  let k := k.modFacet fn Facet.gone
  { k with
    idle := k.idle || fn == k.run
    evq := k.evq.filter fun r => r.facet != fn
    bands := k.bands.map fun b => if b.2.isOpen && b.2.owner == fn then (b.1, {}) else b
    segs := k.segs.map fun g => { g with users := g.users.filter fun u => u != launch || k.facets.any fun x => x.2.resident && x.2.launch == launch } }

/-- R306: an access is on its way to a window of a launch on a geode. -/
def Access.toWindow (a : Access) (launch g : Nat) : Bool := a.launch == launch && match a.home with | .spad c => geodeOf c == g | _ => false

/-- R216, R306: the windows of a launch on a geode are reclaimed when its last task there is gone and every access to them has performed
(log entry 45). -/
def State.dropWindows (s : State) (launch g : Nat) : State :=
  if ((upto 16).any fun r => (s.core (coreAt g r)).facets.any fun f => f.2.resident && f.2.launch == launch)
      || s.accs.any fun a => a.toWindow launch g then s
  else
    match s.launches.find launch with
    | some l => { s with launches := s.launches.set launch { l with windows := l.windows.filter fun w => geodeOf w.1 != g } }
    | none => s

/-- R397: the drains that wait for a task of a geode wait for it no more. -/
def State.leaves (s : State) (g launch task : Nat) : State :=
  { s with slots := s.slots.map fun q => (q.1, { q.2 with drainFor := q.2.drainFor.filter fun d => d != (g, launch, task) }) }

/-- R96, R133, R216, R258: a facet is vacated: its records, blocks, bands, routine words and windows are given back, and
messages to it are lost. -/
def State.vacate (s : State) (c fn : Nat) : State :=
  let f := s.facet c fn
  let s := s.withdraw c fn
  let s := s.modCore c fun k => (k.vacate fn).dropRoutines s.image (s.image f.launch)
  ((s.dropMsgs c f.launch f.ordinal).dropWindows f.launch (geodeOf c)).leaves (geodeOf c) f.launch f.task

/-- R370: the completion inputs of tasks of a launch rise. -/
def State.tasksDone (s : State) (launch : Nat) (ts : List Nat) (st : BitVec 16) : State :=
  match s.launches.find launch with
  | some l => { s with launches := s.launches.set launch { l with done := l.done ++ ts, status := l.status ||| st } }
  | none => s

/-- R133, R370: the task of a facet ends. -/
def State.endTask (s : State) (c fn : Nat) : State :=
  let f := s.facet c fn
  (s.vacate c fn).tasksDone f.launch [f.task] 0

/-! ## Commit -/

/-- R108: the rotation base after a rotating loop-back. -/
def Facet.rotate (f : Facet) : Facet :=
  match f.rotRegion with
  | some (_, n) => { f with rotBase := (f.rotBase + n / 2 - 1) % max (n / 2) 1 }
  | none => f

/-- R94: the parity of a guard moves with the shift of the stage guards; g4 is written anew. -/
def shiftPoison : RegId → Option RegId
  | .g n => if n < 4 then some (.g n) else if n < 7 then some (.g (n + 1)) else none
  | r => some r

/-- R140: the shift of the stage guards, all four of them, after a rotating entry has been counted down to `count` (log entry 55). -/
def Facet.shiftStages (f : Facet) (count : BitVec 64) (stages : BitVec 2) : Facet :=
  { f with
    g := (f.g &&& 0x0F) ||| (f.g <<< 1 &&& 0xE0) ||| (if stages.toNat < count.toNat then 0x10 else 0)
    poison := f.poison.filterMap shiftPoison }

/-- R137: matches a committed bundle against the loop stack; `next` is where it ends. -/
def Facet.endMatch (f : Facet) (next : Nat) : Facet :=
  match f.loopMatch next with
  | none => { f with pc := next }
  | some k =>
    let e := f.lstk.get k {}
    if 1 < e.count.toNat then
      let e := { e with count := e.count - 1 }
      let f := { f with lstk := f.lstk.set k e, lsDepth := k + 1, pc := e.start }
      if e.rot then f.rotate.shiftStages e.count e.stages else f
    else { f with lsDepth := k, pc := next }

/-- R34, R130, R131, R137: where a committed bundle continues; `eret`, a taken transfer, goes to its frame's resume point (R146), and a
`yield`, one too, to the next bundle with no end matched (log entry 48). -/
def Facet.continueAt (f : Facet) (l : Latch) : Facet :=
  match l.target with
  | some (b, o) => { f with bank := b, pc := o }
  | none => if l.isLoop || l.yielded then { f with pc := l.pc + l.size } else if l.returned then f else f.endMatch (l.pc + l.size)

/-- What follows the commit of a bundle (R133, R134, R145, R146, R388). -/
def State.afterCommit (s : State) (c fn : Nat) (l : Latch) : State :=
  if l.halted then (s.modCore c fun k => k.landAll fn).endTask c fn
  else
    match l.after with
    | some t => s.takeTrap t
    | none =>
      if l.returned then s.returnFrom c fn
      else if l.parked then s.parkRequest c fn
      else if l.yielded then
        match s.nextReady c with
        | some n => s.select c n
        | none => s
      else s

/-- R142, R388: a `wrsys` takes effect after the bundle; TCTL.PARK parks. -/
def State.sysWrites (s : State) (l : Latch) : State × Latch :=
  match l.sysWrite with
  | none => (s, l)
  | some (ix, v) => if ix = 0x14 then (s, { l with parked := v.getLsbD 1 }) else (s.modMe fun f => f.writeSys ix v, l)

/-- R392: `eret` waits for the handler's results and accesses, those of its own bundle among them. -/
def State.returnHeld (s : State) (c fn : Nat) : Bool := (s.facet c fn).outstanding || !(s.openAccesses c fn 3).isEmpty

/-- R234, R448: a store of a facet to the frame at an address of another lode, the frame's own among them, has still to perform. -/
def State.frameStored (s : State) (c fn lode pa : Nat) : Bool :=
  s.accs.any fun a => a.core == c && a.facet == fn && a.launch == (s.facet c fn).launch
    && a.reaches.any fun p => p.1 == lode && decide (pa ≤ p.2 ∧ p.2 < pa + 4096)

/-- R392, R450: a read of a facet's frame on another lode has failed. -/
def State.frameFails (s : State) (c fn lode cause : Nat) : State :=
  (s.fabErr lode cause).modFacet c fn fun f => { f with framePorts := [], frameFailed := true }

/-- R392, R443, R448, R450: a return from a frame on another lode first reads its lines there, over ports; whether it goes on, with the
frame or without it, and the state then. -/
def State.returnGo (s : State) (c fn : Nat) : Bool × State :=
  let f := s.facet c fn
  match s.framePlace f with
  | some (.away lode pa) =>
    if f.frameFailed then (true, s)
    else if s.frameStored c fn lode pa then (false, s)
    else
      let ls := frameReadWords.map fun i => (lode, pa + 32 * i)
      match (linesLeft f.framePorts ls).findSome? fun l => (s.route l.1 l.2).cause with
      | some q => (true, s.frameFails c fn lode q)
      | none =>
        let go := s.linesGo f.framePorts ls
        let t := go.2.2.modFacet c fn fun f => { f with framePorts := go.1 }
        if !go.2.1 then (false, t)
        else
          let t := { t with freeCtr := s.freeCtr + 1 }
          (true, if Config.freeBool s.freeCtr 18 then t.frameFails c fn lode (if Config.freeBool s.freeCtr 17 then 1 else 2) else t)
  | _ => (true, s)

/-- R34, R39, R131, R137: the bundle in issue of a core's running facet has committed: the group index, the logical clock and the
next place. -/
def State.committed (s : State) (core : Nat) : State :=
  let fn := (s.core core).run
  let l := (s.facet core fn).latch
  let s := { s with cur := core }
  let s := s.modMe fun f =>
    { f with
      latch := {}
      replays := 0
      group := if l.gend then f.group + 1 else f.group
      clock := f.clock + 1 + l.idle }
  let s := (s.settle core fn).modMe fun f => f.continueAt l
  let s := (s.modHere fun k => { k with quantum := k.quantum + 1 }).countCore core 0x01 1
  s.countCore core 0x02 (1 + l.idle)

/-- BUNDLE_COMMIT (R379): the bundle in issue commits, then what its S slot asked for happens. -/
def execBundleCommit (core : Nat) (s : State) : Out :=
  .next (
    let fn := (s.core core).run
    let l := (s.facet core fn).latch
    if !(s.facet core fn).resident || !l.passed || (s.geode (geodeOf core)).frozen then s
    else if l.returned && s.returnHeld core fn then s
    else if l.returned && !(s.returnGo core fn).1 then (s.returnGo core fn).2
    else
      let s := if l.returned then (s.returnGo core fn).2 else s
      let x := (s.committed core).sysWrites l
      x.1.afterCommit core fn x.2)

/-! ## Replay and the watchdog -/

/-- R381: the replay limit parks the facet, with no frame (log entry 53). -/
def State.parkReplay (s : State) (c fn : Nat) : State :=
  let f := s.facet c fn
  let s := s.withdraw c fn
  if f.intrap then s.park c fn 0x23
  else (s.modFacet c fn fun f => { f.toReplay with frameOk := false, framePage := none }).park c fn 0x23

/-- TIMING_ERROR_REPLAY (R380, R381): a stage of the running bundle is executed again from its replay registers; the eighth
in a row cancels the bundle and parks the facet. -/
def execTimingErrorReplay (core : Nat) (s : State) : Out :=
  .next (
    if !s.canIssue core then s
    else
      let fn := (s.core core).run
      let s := (s.modFacet core fn fun f => { f with replays := f.replays + 1 }).countCore core 0x06 1
      if (s.facet core fn).replays < 8 then s else (s.modFacet core fn fun f => { f with replays := 0 }).parkReplay core fn)

/-! ## The host's requests to a facet -/

/-- PARKf of a core (R395). -/
abbrev aPark (c fn : Nat) : Nat := aCore c + 0x080 + 8 * fn

/-- RESUME (R395, R392): the effect of `eret` from the frame, on a parked facet whose frame was written; it waits for the
handler's results and accesses. -/
def execResume (core facet : Nat) (s : State) : Out :=
  .next (
    let f := s.facet core facet
    if !f.resident || !f.parked || !f.frameOk || (s.geode (geodeOf core)).frozen then s
    else if s.returnHeld core facet then s.modFacet core facet fun f => { f with resumeAsked := true }
    else
      let go := s.returnGo core facet
      let t := go.2.modFacet core facet fun f => { f with resumeAsked := !go.1 }
      if go.1 then t.returnFrom core facet else t)

/-- ENTER (R395): enters the handler from the frame step, conditions 1 and 2 of R384 tested again. -/
def execEnter (core facet : Nat) (s : State) : Out :=
  .next (
    let f := s.facet core facet
    if !f.resident || !f.parked || !f.frameOk || (s.geode (geodeOf core)).frozen then s
    else if f.intrap then s.park core facet 0x21
    else if !tbaseOk (s.core core) f then s.park core facet 0x20
    else s.modFacet core facet Facet.enterHandler)

/-- PARKREQ (R395): a facet that is not parked parks with code 0x24 before its next bundle. -/
def execParkreq (core facet : Nat) (s : State) : Out :=
  .next (
    let f := s.facet core facet
    if !f.resident || f.parked || (s.geode (geodeOf core)).frozen then s
    else ((s.settle core facet).withdraw core facet).parkRequest core facet)

end Sys2Proof.Machine
end

