-- ==== Sys2Proof/Machine/Kernel.lean ====
section
/-! DEFINITION. Kernel images as a launch reads them (16 R432, R433) and the limits of an empty core (02 R62, R63, 04 R100). -/

namespace Sys2Proof.Machine

/-- Why a packet is malformed: a broken limit (ERR 1) or an address that fails (ERR 2) (R363, R432). -/
inductive ImageErr where
  | limit
  | page
deriving DecidableEq, Repr

/-- The ERR code of a malformed packet (R354, R363). -/
def ImageErr.code : ImageErr → Nat
  | .limit => 1
  | .page => 2

/-- A local byte address that an address space grants for reading or writing by the packet processor: no device and no
page of another lode (log entry 39). -/
def State.imagePa (s : State) (pasid : BitVec 20) (va : Nat) (w : Bool) : Option Nat :=
  if 2 ^ 57 ≤ va then none
  else
    match s.walk pasid va with
    | .ok l => if (if w then l.w else l.r) && !l.dev then s.leafPa l va else none
    | .error _ => none

/-- R432: bytes of an image, read in pieces that stay within a page of the smallest size; a poisoned word fails like a page
that does not translate (log entry 39). -/
def State.imageChunks (s : State) (pasid : BitVec 20) : Nat → Nat → Nat → Except ImageErr (List (BitVec 8))
  | 0, _, _ => .ok []
  | fuel + 1, va, n =>
    if n = 0 then .ok []
    else
      let k := min n (65536 - va % 65536)
      match s.imagePa pasid va false with
      | none => .error .page
      | some pa =>
        if (upto (cdiv (pa % 32 + k) 32)).any fun i => s.poisoned (pa / 32 * 32 + 32 * i) then .error .page
        else
          match s.imageChunks pasid fuel (va + k) (n - k) with
          | .error e => .error e
          | .ok r => .ok (s.bytesAt pa k ++ r)

/-- R432: bytes of an image. -/
def State.imageBytes (s : State) (pasid : BitVec 20) (va n : Nat) : Except ImageErr (List (BitVec 8)) :=
  s.imageChunks pasid (n / 65536 + 2) va n

/-- Little-endian words of eight bytes. -/
def words8 : Nat → List (BitVec 8) → List (BitVec 64)
  | 0, _ => []
  | n + 1, bs => BitVec.ofNat 64 (leNat (bs.take 8)) :: words8 n (bs.drop 8)

/-- Pairs of words. -/
def wordPairs : List (BitVec 64) → List (BitVec 64 × BitVec 64)
  | a :: b :: r => (a, b) :: wordPairs r
  | _ => []

/-- R432: the vector allotment of DECL. -/
def declVregs (d : BitVec 64) : Nat := [96, 128, 192, 384].getD (wbits d 4 3) 96

/-- R432: the rotating region of DECL. -/
def declRot (d : BitVec 64) : Option (Nat × Nat) :=
  if d.getLsbD 31 then some (wbits d 28 20, 8 * 2 ^ wbits d 30 29) else none

/-- R432: the limits of the header words, their offsets apart; those of an empty core are not among them (`Kernel.refused`). -/
def headerLimits (w : List (BitVec 64)) : Bool :=
  let g (k : Nat) : BitVec 64 := w.getD k 0
  let d := g 1
  wbits (g 0) 31 0 == 0x4D494B5A && wbits (g 0) 47 32 == 1 && wbits (g 0) 63 48 == 0
    && decide (1 ≤ wbits d 2 0 ∧ wbits d 2 0 ≤ 4) && (match declRot d with | some (_, n) => decide (n ≤ 32) | none => true)
    && decide (1 ≤ wbits (g 2) 35 32 ∧ wbits (g 2) 35 32 ≤ 8) && wbits (g 2) 63 36 == 0
    && wbits (g 3) 63 16 == 0 && wbits (g 3) 1 0 == 0
    && wbits (g 4) 62 16 == 0 && wbits (g 4) 1 0 == 0
    && wbits (g 5) 63 57 == 0 && wbits (g 5) 11 0 == 0
    && wbits (g 6) 63 32 == 0 && wbits (g 7) 63 48 == 0
    && decide (wbits (g 10) 63 32 ≤ 64)
    && wbits (g 13) 63 57 == 0

/-- R433: a segment table entry keeps its limits, in a kernel whose window has so many bytes. -/
def segmentOk (window : Nat) (e : BitVec 64 × BitVec 64) : Bool :=
  decide (wbits e.1 1 0 ≤ 1) && wbits e.1 63 48 == 0
    && decide (wbits e.1 23 4 + wbits e.1 47 24 ≤ (if wbits e.1 1 0 = 0 then Config.bankBytes else window))

/-- R432: the routine list, entry by entry from an offset. -/
def State.readRoutines (s : State) (pasid : BitVec 20) : Nat → Nat → Except ImageErr (List (Nat × List (BitVec 128)))
  | 0, _ => .ok []
  | n + 1, va =>
    match s.imageBytes pasid va 8 with
    | .error e => .error e
    | .ok b =>
      let h := leNat b
      let ix := nbits h 31 0
      let c := nbits h 63 32
      if 64 ≤ ix ∨ c = 0 ∨ 1024 < c then .error .limit
      else
        match s.imageBytes pasid (va + 8) (16 * c) with
        | .error e => .error e
        | .ok ws =>
          match s.readRoutines pasid n (va + 8 + 16 * c) with
          | .error e => .error e
          | .ok r => .ok ((ix, (upto c).map fun i => BitVec.ofNat 128 (leNat ((ws.drop (16 * i)).take 16))) :: r)

/-- A section of an image of `n` bytes at an offset. -/
def State.section8 (s : State) (pasid : BitVec 20) (va off n : Nat) : Except ImageErr (List (BitVec 64)) :=
  match s.imageBytes pasid (va + off) n with
  | .error e => .error e
  | .ok b => .ok (words8 (n / 8) b)

/-- R432: a section that is absent when its offset is 0. -/
def State.optional8 (s : State) (pasid : BitVec 20) (va off n : Nat) : Except ImageErr (List (BitVec 64)) :=
  if off = 0 then .ok [] else s.section8 pasid va off n

/-- R63: queues that an instruction names, numbered in the order of R63: the event queue 0, the feeders from 1, the bands from 4,
the shadow sets from 12, the ring lanes from 28. A band feed's band stands in a register and is named by its `win.open`. -/
def Instr.namedQueues (i : Instr) : List Nat :=
  let posted (cm : BitVec 20) : List Nat := if cm.getLsbD 16 then [] else [0]
  match i with
  | .evpop _ _ => [0]
  | .wfe _ _ => [0]
  | .crcRd _ _ _ _ => [0]
  | .mucodeLd _ _ _ _ => [0]
  | .sync _ _ => [0]
  | .feed _ _ _ _ _ _ tgt cm => (1 + tgt.toNat) :: posted cm
  | .lcopy _ _ _ cm => 3 :: posted cm
  | .ifetch _ _ _ cm => 3 :: posted cm
  | .winOpen _ _ _ band _ _ cm => (4 + band.toNat) :: posted cm
  | .winAdv _ band _ cm => (4 + band.toNat) :: posted cm
  | .winClose _ band cm => (4 + band.toNat) :: posted cm
  | .bulkGo _ en cm => (12 + en.toNat) :: posted cm
  | .bulkCancel _ en _ => [12 + en.toNat]
  | .send _ _ _ _ lane dir => [28 + 8 * dir.toNat + lane.toNat]
  | .recv _ _ _ _ lane dir => [28 + 8 * dir.toNat + lane.toNat]
  | _ => []

/-- R63: queues that a slot word names; a word with no legal instruction names none. -/
def slotQueues (k : Slot) (w : Nat) : List Nat :=
  match decodeSlot k w with
  | .ok (some i) => Instr.namedQueues i
  | _ => []

/-- R63: queues that the bundles of a code segment name, bundle by bundle in its stored form (R40). -/
def codeQueues : Nat → List (BitVec 8) → List Nat
  | 0, _ => []
  | fuel + 1, bs =>
    match readBundle bs with
    | none => []
    | some b => b.words.flatMap (fun w => slotQueues w.1 w.2) ++ codeQueues fuel (bs.drop (storedSize (decodeHeader b.header).present))

/-- R63: the event queue, when a routine has a `sync` word. -/
def routineQueues (rs : List (Nat × List (BitVec 128))) : List Nat :=
  rs.flatMap fun r => r.2.flatMap fun w => match decodeMicro w.toNat with | some i => Instr.namedQueues i | none => []

/-- R432, R433: the kernel that an image declares. -/
def State.readKernel (s : State) (pasid : BitVec 20) (va : Nat) : Except ImageErr Kernel := do
  if va % 4096 ≠ 0 then throw .limit
  let w := words8 14 (← s.imageBytes pasid va 112)
  let g (k : Nat) : BitVec 64 := w.getD k 0
  if !headerLimits w then throw .limit
  let d := g 1
  let occ ← s.imageBytes pasid (va + wbits d 63 32) 44
  let segs := wordPairs (← s.section8 pasid va (wbits (g 2) 31 0) (16 * wbits (g 2) 35 32))
  if !segs.all (segmentOk (4096 * wbits d 19 11)) then throw .limit
  let switch ← if wbits (g 6) 31 0 = 0 then pure [] else s.imageBytes pasid (va + wbits (g 6) 31 0) 8
  let pairs := wordPairs (← s.optional8 pasid va (wbits (g 7) 31 0) (16 * wbits (g 7) 47 32))
  let posmap := wordPairs (← s.section8 pasid va (wbits (g 8) 31 0) (16 * wbits (g 8) 63 32))
  let est ← s.section8 pasid va (wbits (g 9) 31 0) (8 * wbits (g 9) 63 32)
  let routines ←
    if wbits (g 10) 31 0 = 0 then pure [] else s.readRoutines pasid (wbits (g 10) 63 32) (va + wbits (g 10) 31 0)
  if (routines.map (·.1)).eraseDups.length ≠ routines.length ∨ 1024 < (routines.map (·.2.length)).sum then throw .limit
  let _ ← s.optional8 pasid va (wbits (g 11) 31 0) (wbits (g 11) 63 32)
  let _ ← s.optional8 pasid va (wbits (g 12) 31 0) (wbits (g 12) 63 32)
  let code ← segs.mapM fun e => s.imageBytes pasid (va + e.2.toNat) (wbits e.1 47 24)
  let named := routineQueues routines ++ (segs.zip code).flatMap fun p =>
    if wbits p.1.1 1 0 = 0 then codeQueues (p.2.length / 4 + 1) p.2 else []
  pure
    { facets := wbits d 2 0, vregs := declVregs d, cols := 16 * wbits d 10 5, scratch := wbits d 19 11, rot := declRot d
      occ := occ, entry := g 3, tbase := g 4, frames := (g 5).truncate 57, switch := switch, pairs := pairs
      posmap := posmap, est := est.map fun e => (wbits e 7 0, BitVec.ofNat 40 (wbits e 47 8)), routines := routines
      segs := segs, ckrec := (g 13).truncate 57, undeclared := named.any fun q => occ.getD q 0xFF == 0xFF }

/-! ## Errors that the reads of an image meet (R330) -/

/-- Bytes of an image that are read, page by page until one does not translate: their walks and words meet the errors that stand
there, and count (R339) where `counts`. -/
def State.meetImage (counts : Bool) (s : State) (pasid : BitVec 20) : Nat → Nat → Nat → State
  | 0, _, _ => s
  | fuel + 1, va, n =>
    if n = 0 ∨ 2 ^ 57 ≤ va then s
    else
      let k := min n (65536 - va % 65536)
      let t := if counts then s.meetWalk pasid va 40 else s.meetEntries pasid va 40
      match t.imagePa pasid va false with
      | none => t
      | some pa => State.meetImage counts (if counts then t.meetRange pa k 40 else t.meetRun pa k 40) pasid fuel (va + k) (n - k)

/-- Bytes of an image that are read meet the errors that stand there. -/
def State.meetBytes (s : State) (pasid : BitVec 20) (va n : Nat) : State := State.meetImage true s pasid (n / 65536 + 2) va n

/-- Places and lengths of the routines of an image. -/
def State.routineRanges (s : State) (pasid : BitVec 20) : Nat → Nat → List (Nat × Nat)
  | 0, _ => []
  | n + 1, va =>
    match s.imageBytes pasid va 8 with
    | .error _ => [(va, 8)]
    | .ok b =>
      let c := nbits (leNat b) 63 32
      if c = 0 ∨ 1024 < c then [(va, 8)] else (va, 8 + 16 * c) :: s.routineRanges pasid n (va + 8 + 16 * c)

/-- R432: places and lengths of what is read of an image, as its bytes stand. -/
def State.imageRanges (s : State) (pasid : BitVec 20) (va : Nat) : List (Nat × Nat) :=
  (va, 112) :: match s.imageBytes pasid va 112 with
    | .error _ => []
    | .ok b =>
      let w := words8 14 b
      let g (k : Nat) : BitVec 64 := w.getD k 0
      let at' (k n : Nat) : Nat × Nat := (va + wbits (g k) 31 0, n)
      if !headerLimits w then []
      else
        let segs := match s.section8 pasid va (wbits (g 2) 31 0) (16 * wbits (g 2) 35 32) with | .ok l => wordPairs l | .error _ => []
        let opt (k n : Nat) : List (Nat × Nat) := if wbits (g k) 31 0 = 0 then [] else [at' k n]
        (va + wbits (g 1) 63 32, 44) :: at' 2 (16 * wbits (g 2) 35 32) :: opt 6 8 ++ opt 7 (16 * wbits (g 7) 47 32)
          ++ at' 8 (16 * wbits (g 8) 63 32) :: at' 9 (8 * wbits (g 9) 63 32)
          :: (if wbits (g 10) 31 0 = 0 then [] else s.routineRanges pasid (wbits (g 10) 63 32) (va + wbits (g 10) 31 0))
          ++ opt 11 (wbits (g 11) 63 32) ++ opt 12 (wbits (g 12) 63 32)
          ++ segs.map fun e => (va + e.2.toNat, wbits e.1 47 24)

/-- The reads of an image meet the errors that stand there. -/
def State.meetRanges (counts : Bool) (s : State) (pasid : BitVec 20) (va : Nat) : State :=
  (s.imageRanges pasid va).foldl (fun s x => State.meetImage counts s pasid (x.2 / 65536 + 2) x.1 x.2) s

/-- R330, R339, R432: an image is read: its header, the tables that this names and what those name. -/
def State.meetKernel (s : State) (pasid : BitVec 20) (va : Nat) : State :=
  State.meetRanges true (State.meetRanges false (State.meetRanges false s pasid va) pasid va) pasid va

/-- R63: physical depth of queue `k` in the order of R63: the event queue, the feeders, the bands, the shadow sets, the ring
lanes. -/
def queueDepth (k : Nat) : Nat := if k = 0 then 64 else if k < 4 then 16 else if k < 12 then 8 else if k < 28 then 1 else 4

/-- R63: a queue is declared. -/
def Kernel.declares (k : Kernel) (q : Nat) : Bool := k.occ.getD q 0xFF != 0xFF

/-- R63: declared depth of a queue, 0 when undeclared. -/
def Kernel.depth (k : Kernel) (q : Nat) : Nat := if k.declares q then (k.occ.getD q 0xFF).toNat else 0

/-- R414: the kernel has a variant: some paired position has a code address in it; the dense one always is (log entry 39). -/
def Kernel.hasVariant (k : Kernel) (v : Nat) : Bool :=
  v == 0 || (k.pairs ++ k.posmap).any fun p => wbits p.2 (16 * v + 15) (16 * v) != 0xFFFF

/-- R414: the switch table names what it may. -/
def Kernel.switchOk (k : Kernel) : Bool :=
  k.switch.all fun e => e.toNat % 4 != 3 && !(decide (53 ≤ e.toNat / 4 ∧ e.toNat / 4 ≤ 62)) && k.hasVariant (e.toNat % 4)

/-- R62, R108: the rotating region lies at a multiple of its size within the allotment. -/
def Kernel.rotOk (k : Kernel) : Bool :=
  match k.rot with
  | some (b, n) => b % n == 0 && decide (b + n ≤ k.vregs)
  | none => true

/-- R62, R63, R100, R366, R414: some declaration can never be honoured, or a named queue is not declared. -/
def Kernel.refused (k : Kernel) : Bool :=
  decide (384 < k.facets * k.vregs) || decide (512 < k.facets * k.cols) || decide (256 < k.scratch) || !k.rotOk
    || (upto 44).any (fun q => decide (queueDepth q < k.depth q)) || k.undeclared || !k.switchOk

end Sys2Proof.Machine
end

