-- ==== Sys2Proof/Machine/Peer.lean ====
section
/-! DEFINITION. Results of accesses reach their facets (14 R400), and accesses perform at scratchpads (08 R217, R232, R235; 10 R306). -/

namespace Sys2Proof.Machine

/-- The destination that an access supplies takes its value, flags and poison, in flight or in replay. -/
def Facet.deliver (f : Facet) (id : Nat) (w : RegWrite) (flags : BitVec 6) (poison : Bool) : Facet :=
  let fill (l : Landing) : Landing :=
    if l.access = id then { l with write := w, flags := flags, poison := poison, access := 0 } else l
  { f with landings := f.landings.map fill, replay := f.replay.map fill }

/-- The access has performed or failed: it is outstanding no more. -/
def State.dropAccess (s : State) (id : Nat) : State := { s with accs := s.accs.filter fun a => a.id != id }

/-- R400: changes the facet of a task wherever it stands: on its core, or in a fossil, whose boundary buffer keeps its replies. -/
def State.modTask (s : State) (c fn launch : Nat) (g : Facet → Facet) : State :=
  if s.frozenTask c fn launch then
    { s with fossils := s.fossils.map fun f =>
        if f.used then
          { f with cores := f.cores.map fun k =>
              if k.1 == c && (k.2.facet fn).resident && (k.2.facet fn).launch == launch then (c, k.2.modFacet fn g) else k }
        else f }
  else s.modFacet c fn g

/-- An access has performed and delivers a result to its facet. -/
def State.supply (s : State) (a : Access) (w : RegWrite) (flags : BitVec 6) (poison : Bool) : State :=
  (s.dropAccess a.id).modTask a.core a.facet a.launch fun f => f.deliver a.id w flags poison

/-- R217: the window of the access's launch on a core still holds its bytes. -/
def State.windowHolds (s : State) (a : Access) (c : Nat) : Bool :=
  a.op.addrs.all fun o => (s.window a.launch c).contains (o / 4096)

/-- R337: the reply of a peer lands poisoned where its parity fails on the peer network. -/
def State.replyBad (s : State) (a : Access) (c : Nat) : Bool := a.core != c && Config.ringUpset s.freeCtr

/-- R305: the store of an access, as the mirror knows it. -/
def Access.author (a : Access) : Author := { id := a.id, launch := a.launch, task := a.task }

/-- An access in a window of its launch (R217, R232, R235, R270). -/
def State.atSpad (s : State) (a : Access) (c : Nat) : State :=
  let bad := s.replyBad a c
  let s := { s with freeCtr := s.freeCtr + 1 }
  match a.op with
  | .load l dst =>
    let r := loadWrite dst (l.map fun o => (s.core c).spad.get o)
    (s.supply a r.1 r.2 ((s.core c).spadBad l || bad)).noteSpadErr c l
  | .store ws => (s.dropAccess a.id).modCore c fun k => k.spadWrite ws
  | .atomic o w op t mode opd cmp d =>
    let s := s.noteSpadErr c a.op.addrs
    let r := (s.core c).spadAtomic o w op t mode opd.toNat cmp.toNat
    (s.modCore c fun _ => r.1).supply a (.s d (atomicOld t w r.2.1)) r.2.2.1 (r.2.2.2 || bad)
  | .arrive o inn out => (s.dropAccess a.id).updateBar c o (-1) inn out

/-- An access at a scratchpad; the last one on its way to windows of a launch that has no task left there gives them back (R216, R306).
One whose window has been reclaimed performs nothing (log entry 45). -/
def State.performSpad (s : State) (a : Access) (c : Nat) : State :=
  if s.windowHolds a c then (s.atSpad a c).dropWindows a.launch (geodeOf c) else s.dropAccess a.id

end Sys2Proof.Machine
end

