-- ==== Sys2Proof/Machine/Sha.lean ====
section
/-! DEFINITION. SHA-384, the digest of the firmware manifest, of system segments and of the attestation report (16 R435, R437,
R440). PRESUMED: the manual names the function and the standard gives it (log entry 38). -/

namespace Sys2Proof.Machine

/-- The round constants. -/
def shaK : List (BitVec 64) :=
  [0x428A2F98D728AE22, 0x7137449123EF65CD, 0xB5C0FBCFEC4D3B2F, 0xE9B5DBA58189DBBC, 0x3956C25BF348B538,
     0x59F111F1B605D019, 0x923F82A4AF194F9B, 0xAB1C5ED5DA6D8118, 0xD807AA98A3030242, 0x12835B0145706FBE,
     0x243185BE4EE4B28C, 0x550C7DC3D5FFB4E2, 0x72BE5D74F27B896F, 0x80DEB1FE3B1696B1, 0x9BDC06A725C71235,
     0xC19BF174CF692694, 0xE49B69C19EF14AD2, 0xEFBE4786384F25E3, 0x0FC19DC68B8CD5B5, 0x240CA1CC77AC9C65]
    ++ [0x2DE92C6F592B0275, 0x4A7484AA6EA6E483, 0x5CB0A9DCBD41FBD4, 0x76F988DA831153B5, 0x983E5152EE66DFAB,
     0xA831C66D2DB43210, 0xB00327C898FB213F, 0xBF597FC7BEEF0EE4, 0xC6E00BF33DA88FC2, 0xD5A79147930AA725,
     0x06CA6351E003826F, 0x142929670A0E6E70, 0x27B70A8546D22FFC, 0x2E1B21385C26C926, 0x4D2C6DFC5AC42AED,
     0x53380D139D95B3DF, 0x650A73548BAF63DE, 0x766A0ABB3C77B2A8, 0x81C2C92E47EDAEE6, 0x92722C851482353B]
    ++ [0xA2BFE8A14CF10364, 0xA81A664BBC423001, 0xC24B8B70D0F89791, 0xC76C51A30654BE30, 0xD192E819D6EF5218,
     0xD69906245565A910, 0xF40E35855771202A, 0x106AA07032BBD1B8, 0x19A4C116B8D2D0C8, 0x1E376C085141AB53,
     0x2748774CDF8EEB99, 0x34B0BCB5E19B48A8, 0x391C0CB3C5C95A63, 0x4ED8AA4AE3418ACB, 0x5B9CCA4F7763E373,
     0x682E6FF3D6B2B8A3, 0x748F82EE5DEFB2FC, 0x78A5636F43172F60, 0x84C87814A1F0AB72, 0x8CC702081A6439EC]
    ++ [0x90BEFFFA23631E28, 0xA4506CEBDE82BDE9, 0xBEF9A3F7B2C67915, 0xC67178F2E372532B, 0xCA273ECEEA26619C,
     0xD186B8C721C0C207, 0xEADA7DD6CDE0EB1E, 0xF57D4F7FEE6ED178, 0x06F067AA72176FBA, 0x0A637DC5A2C898A6,
     0x113F9804BEF90DAE, 0x1B710B35131C471B, 0x28DB77F523047D84, 0x32CAAB7B40C72493, 0x3C9EBE0A15C9BEBC,
     0x431D67C49C100D4C, 0x4CC5D4BECB3E42B6, 0x597F299CFC657E2A, 0x5FCB6FAB3AD6FAEC, 0x6C44198C4A475817]

/-- The initial hash value. -/
def shaIv : List (BitVec 64) :=
  [0xCBBB9D5DC1059ED8, 0x629A292A367CD507, 0x9159015A3070DD17, 0x152FECD8F70E5939,
   0x67332667FFC00B31, 0x8EB44A8768581511, 0xDB0C2E0D64F98FA7, 0x47B5481DBEFA4FA4]

/-- Message schedule word from the sixteen before it, the newest first. -/
def shaNext (w : List (BitVec 64)) : BitVec 64 :=
  let x := w.getD 14 0
  let y := w.getD 1 0
  let s0 := x.rotateRight 1 ^^^ x.rotateRight 8 ^^^ (x >>> 7)
  let s1 := y.rotateRight 19 ^^^ y.rotateRight 61 ^^^ (y >>> 6)
  w.getD 15 0 + s0 + w.getD 6 0 + s1

/-- The schedule of a block, the newest first. -/
def shaSchedule : Nat → List (BitVec 64) → List (BitVec 64)
  | 0, w => w
  | n + 1, w => shaSchedule n (shaNext w :: w)

/-- The working variables. -/
structure Sha where
  a : BitVec 64
  b : BitVec 64
  c : BitVec 64
  d : BitVec 64
  e : BitVec 64
  f : BitVec 64
  g : BitVec 64
  h : BitVec 64

/-- One round with its constant and schedule word. -/
def Sha.round (v : Sha) (kw : BitVec 64 × BitVec 64) : Sha :=
  let s1 := v.e.rotateRight 14 ^^^ v.e.rotateRight 18 ^^^ v.e.rotateRight 41
  let ch := (v.e &&& v.f) ^^^ (~~~v.e &&& v.g)
  let t1 := v.h + s1 + ch + kw.1 + kw.2
  let s0 := v.a.rotateRight 28 ^^^ v.a.rotateRight 34 ^^^ v.a.rotateRight 39
  let mj := (v.a &&& v.b) ^^^ (v.a &&& v.c) ^^^ (v.b &&& v.c)
  { a := t1 + (s0 + mj), b := v.a, c := v.b, d := v.c, e := v.d + t1, f := v.e, g := v.f, h := v.g }

/-- A big-endian number. -/
def beNat (l : List (BitVec 8)) : Nat := l.foldl (fun a b => a * 256 + b.toNat) 0

/-- One block of 128 bytes. -/
def shaBlock (hs : List (BitVec 64)) (blk : List (BitVec 8)) : List (BitVec 64) :=
  let w := ((upto 16).map fun i => BitVec.ofNat 64 (beNat ((blk.drop (8 * i)).take 8))).reverse
  let ws := (shaSchedule 64 w).reverse
  let g (k : Nat) : BitVec 64 := hs.getD k 0
  let v := (shaK.zip ws).foldl Sha.round ⟨g 0, g 1, g 2, g 3, g 4, g 5, g 6, g 7⟩
  [g 0 + v.a, g 1 + v.b, g 2 + v.c, g 3 + v.d, g 4 + v.e, g 5 + v.f, g 6 + v.g, g 7 + v.h]

/-- The blocks of a padded message. -/
def shaBlocks : Nat → List (BitVec 64) → List (BitVec 8) → List (BitVec 64)
  | 0, hs, _ => hs
  | n + 1, hs, m => shaBlocks n (shaBlock hs (m.take 128)) (m.drop 128)

/-- Big-endian bytes of a number. -/
def beBytes (n v : Nat) : List (BitVec 8) := (leBytes n v).reverse

/-- The padded message. -/
def shaPad (m : List (BitVec 8)) : List (BitVec 8) :=
  m ++ [0x80] ++ List.replicate ((128 - (m.length + 17) % 128) % 128) 0 ++ beBytes 16 (8 * m.length)

/-- SHA-384 of a byte string, its first byte most significant. -/
def sha384 (m : List (BitVec 8)) : BitVec 384 :=
  let p := shaPad m
  let hs := shaBlocks (p.length / 128) shaIv p
  BitVec.ofNat 384 ((hs.take 6).foldl (fun a h => a * 2 ^ 64 + h.toNat) 0)

end Sys2Proof.Machine
end

