-- ==== Sys2Proof/Machine/Launch.lean ====
section
/-! DEFINITION. Queues, packets and launches: the hardware slots (13 R354 to R359), packets (R360 to R363), priority and tokens
(R364, R365), dispatch (R366 to R369, 16 R434, R435), completion (R370, R371) and kills (14 R408). -/

namespace Sys2Proof.Machine

/-! ## Slots -/

/-- A hardware slot. -/
def State.qslot (s : State) (k : Nat) : QSlot := s.slots.get k {}

/-- Changes a hardware slot. -/
def State.modSlot (s : State) (k : Nat) (f : QSlot → QSlot) : State := { s with slots := s.slots.upd k {} f }

/-- R354: registers of a queue header, by offset. -/
def QSlot.header (q : QSlot) (off : Nat) : Nat := q.qaddr.toNat + off

/-- R355: physical address of packet `ridx`. -/
def QSlot.packetPa (q : QSlot) : Nat := q.base + 64 * (q.ridx.toNat % 2 ^ q.log2)

/-- R331: an 8-byte word of memory that the scheduler reads; of a poisoned one no value is given (log entries 2 and 30). -/
def State.ownWord (s : State) (pa : Nat) : BitVec 64 := if s.poisoned pa then Config.freeWord s.freeCtr pa else BitVec.ofNat 64 (s.numAt pa 8)

/-- R330: the scheduler reads `n` bytes of memory: they meet the errors that stand there, and the values of poisoned words are drawn. -/
def State.readOwn (s : State) (pa n : Nat) : State := let t := s.meetRange pa n 40; { t with freeCtr := t.freeCtr + 1 }

/-- R372: a record of the slot's partition. -/
def State.slotPost (s : State) (k kind code idx : Nat) : State := s.heqPost (s.qslot k).part.toNat kind k code idx 0

/-- R355, R372: the queue's ERR is written, the slot enters STATE 3 unless it is unmapping, and one KIND 2 record is posted for
the packet concerned. -/
def State.slotErr (s : State) (k code idx : Nat) : State :=
  let q := s.qslot k
  let s := s.meetRange (q.header 0x18) 8 40
  let w := setBits (BitVec.ofNat 64 (s.numAt (q.header 0x18) 8)) 23 20 code
  let s := s.putOwnNum (q.header 0x18) 8 w.toNat
  let s := s.modSlot k fun q => { q with state := if q.state == 2 then 2 else 3, forceErr := false }
  s.slotPost k 2 code idx

/-- R355: a queue header or a ring outside local main memory. -/
def ringBad (qaddr base log2 : Nat) : Bool :=
  place qaddr != .main || log2 == 0 || decide (0x8000000000 < base + 64 * 2 ^ log2)

/-- MAP (R358): the slot takes the queue's header and registers its NOTIFY word; QCTL.ERR stands as it is (R354; log entry 57). -/
def execMap (slot : Nat) (s : State) : Out :=
  .next (
    let q := s.qslot slot
    if 64 ≤ slot || q.state != 0 then s
    else
      let s := s.readOwn (q.header 0) 32
      let rd (off : Nat) : BitVec 64 := s.ownWord (q.header off)
      let lg := wbits (rd 0x10) 3 0
      let base := 4096 * wbits (rd 0x10) 47 12
      let widx := (rd 0).truncate 32
      let ridx := (rd 8).truncate 32
      let s := s.modSlot slot fun q =>
        { q with state := 1, widx := widx, ridx := ridx, log2 := lg, base := base, pasid := (rd 0x18).truncate 20
                 cur := none, finished := false, forceErr := false }
      if ringBad q.qaddr.toNat base lg then s.slotErr slot 4 ridx.toNat
      else if 2 ^ lg < (widx - ridx).toNat then s.slotErr slot 3 ridx.toNat
      else s)

/-- UNMAP (R358): the slot starts no further packet. -/
def execUnmap (slot : Nat) (s : State) : Out :=
  .next (
    let q := s.qslot slot
    if q.state == 1 || q.state == 3 then s.modSlot slot fun q => { q with state := 2 } else s)

/-- UNMAP_COMPLETE (R358, R359): no packet is in progress and every NOTIFY write has been forwarded; an overrun noticed on one of them is
forgotten (R355; log entry 57). -/
def execUnmapComplete (slot : Nat) (s : State) : Out :=
  .next (
    let q := s.qslot slot
    if q.state != 2 || q.cur.isSome then s
    else
      let s := s.modSlot slot fun q => { q with state := 0, forceErr := false }
      let s := s.putOwnNum (q.header 8) 4 q.ridx.toNat
      s.slotPost slot 3 0 q.ridx.toNat)

/-! ## Packets -/

/-- STATUS bits (R360). -/
abbrev stRefused : BitVec 16 := 1
/-- Geode unavailable. -/
abbrev stUnavail : BitVec 16 := 2
/-- A task or the wait was killed. -/
abbrev stKilled : BitVec 16 := 8
/-- The packet broke R361 or R362. -/
abbrev stMalformed : BitVec 16 := 16

/-- R361, R362: a legal signal address. -/
def sigOk (a : BitVec 64) : Bool := wbits a 2 0 == 0 && wbits a 63 57 == 0

/-- R363, R446: a signal as it translates with the permission wanted; a device page gives none (log entry 39). -/
def State.signalAt (s : State) (pasid : BitVec 20) (a v : BitVec 64) (w : Bool) : Option Signal :=
  match s.walk pasid a.toNat with
  | .ok l =>
    if (if w then l.w else l.r) && !l.dev then
      some { remote := if (s.leafPa l a.toNat).isSome then none else some l.lode, pa := l.pa a.toNat, val := v, tol := l.tol, tpol := l.tpol }
    else none
  | .error _ => none

/-- A word of a packet. -/
def pw (ws : List (BitVec 64)) (k : Nat) : BitVec 64 := ws.getD k 0

/-- R361: fields of a launch packet. -/
def cmask (ws : List (BitVec 64)) : Nat := wbits (pw ws 0) 47 32
/-- R361: the geodes of a launch packet. -/
def gmask (ws : List (BitVec 64)) : Nat := wbits (pw ws 1) 39 0
/-- R361: GANG. -/
def gang (ws : List (BitVec 64)) : Bool := (pw ws 0).getLsbD 8
/-- R361: TOKENS. -/
def tokens (ws : List (BitVec 64)) : Nat := wbits (pw ws 0) 23 16
/-- Numbers of the set bits of a mask below `n`. -/
def setBitsOf (m n : Nat) : List Nat := (upto n).filter fun k => m.testBit k

/-- R361, R363: limits of a launch packet; its STATUS word is ignored (log entry 57). -/
def State.launchOk (s : State) (part : Nat) (ws : List (BitVec 64)) : Bool :=
  wbits (pw ws 0) 15 10 == 0 && wbits (pw ws 0) 31 24 == 0 && wbits (pw ws 0) 63 48 == 0 && cmask ws != 0
    && wbits (pw ws 1) 63 40 == 0 && gmask ws != 0 && wbits (pw ws 2) 63 57 == 0 && sigOk (pw ws 3)
    && (setBitsOf (gmask ws) 40).all fun g => s.geodePart g == part && s.devFld (aGeodeMap g) 11 11 == 1

/-- R362: limits of a wait packet. -/
def waitOk (ws : List (BitVec 64)) : Bool :=
  let n := wbits (pw ws 0) 9 8
  n != 0 && wbits (pw ws 0) 63 10 == 0
    && (upto 3).all fun k => if k < n then sigOk (pw ws (2 * k + 1)) else pw ws (2 * k + 1) == 0 && pw ws (2 * k + 2) == 0

/-- R362: limits of a signal packet. -/
def signalOk (ws : List (BitVec 64)) : Bool :=
  wbits (pw ws 0) 63 8 == 0 && pw ws 1 == 0 && pw ws 2 == 0 && sigOk (pw ws 3) && pw ws 5 == 0 && pw ws 6 == 0

/-- R363: the packet completes as malformed. -/
def State.malformed (s : State) (k : Nat) (e : ImageErr) : State :=
  s.modSlot k fun q => { q with finished := true, status := stMalformed, err := BitVec.ofNat 4 e.code, sigs := [] }

/-- R462: the complete checkpoint record that a kernel names, if any (its place among the records). -/
def State.recordOf (s : State) (pasid : BitVec 20) (k : Kernel) : Option Nat :=
  match s.imagePa pasid k.ckrec.toNat false with
  | some pa => (upto s.ckpts.length).find? fun i => match s.ckpts[i]? with | some c => c.pa == pa && c.state == 1 | none => false
  | none => none

/-- R330, R406: the record of a launch is read, whether it is whole (an address of it that is poisoned fails, log entry 39), and the
state then. -/
def State.readRecord (s : State) (i : Nat) : State × Bool :=
  match s.ckpts[i]? with
  | some c => let t := s.meetRange c.pa c.bytes 40; (t, !t.poisonIn c.pa c.bytes)
  | none => (s, true)

/-- R462: a record fits a launch: as many tasks, the same position map, and a core of CMASK for every window. -/
def Ckpt.fits (c : Ckpt) (k : Kernel) (ntasks cm : Nat) : Bool :=
  c.ntasks == ntasks && c.posmap == k.posmap && c.windows.all fun w => cm.testBit (w.1 % 16)

/-- R366: a launch that passes its checks is in progress, its tasks still to be placed. -/
def State.openLaunch (s : State) (k : Nat) (ws : List (BitVec 64)) (kn : Kernel) (ck : Option Nat) : State :=
  let q := s.qslot k
  let l : Launch :=
    { slot := k, words := ws, pasid := q.pasid, kernel := kn, image := q.pasid.toNat * 2 ^ 57 + (pw ws 2).toNat
      toPlace := setBitsOf (gmask ws) 40
      ntasks := (setBitsOf (gmask ws) 40).length * (setBitsOf (cmask ws) 16).length * kn.facets, ckpt := ck
      done := match ck.bind fun i => s.ckpts[i]? with | some c => c.done | none => [] }
  { s with launches := s.launches.set s.nextId l, nextId := s.nextId + 1 }.modSlot k fun q => { q with launch := s.nextId }

/-- R363, R366: the checks of a launch packet, in order; the first that fails gives ERR (log entry 57). -/
def State.startLaunch (s : State) (k : Nat) (ws : List (BitVec 64)) : State :=
  let q := s.qslot k
  if !s.launchOk q.part.toNat ws then s.malformed k .limit
  else
    let s := if pw ws 3 == 0 then s else s.meetWalk q.pasid (pw ws 3).toNat 40
    let sig := if pw ws 3 == 0 then some [] else (s.signalAt q.pasid (pw ws 3) (pw ws 4) true).map fun x => [x]
    match sig with
    | none => s.malformed k .page
    | some sg =>
      let s := (s.modSlot k fun q => { q with sigs := sg }).meetKernel q.pasid (pw ws 2).toNat
      match s.readKernel q.pasid (pw ws 2).toNat with
      | .error e => s.malformed k e
      | .ok kn =>
        let n := (setBitsOf (gmask ws) 40).length * (setBitsOf (cmask ws) 16).length * kn.facets
        let s := if kn.ckrec == 0 then s else s.meetWalk q.pasid kn.ckrec.toNat 40
        let ck := if kn.ckrec == 0 then some none else
          match s.recordOf q.pasid kn with
          | some i => if (match s.ckpts[i]? with | some c => c.fits kn n (cmask ws) | none => false) then some (some i) else none
          | none => none
        let rd := match ck with | some (some i) => s.readRecord i | _ => (s, true)
        let s := rd.1
        match ck with
        | none => s.malformed k .limit
        | some c =>
          if !rd.2 then s.malformed k .page else
          if kn.refused then s.modSlot k fun q => { q with finished := true, status := stRefused }
          else if (setBitsOf (gmask ws) 40).any fun g => s.geodeState g == 2 then
            s.modSlot k fun q => { q with finished := true, status := stUnavail }
          else s.openLaunch k ws kn c

/-- R362, R363: the checks of a wait packet. -/
def State.startWait (s : State) (k : Nat) (ws : List (BitVec 64)) : State :=
  let q := s.qslot k
  if !waitOk ws then s.malformed k .limit
  else
    let s := (upto (wbits (pw ws 0) 9 8)).foldl (fun s i => s.meetWalk q.pasid (pw ws (2 * i + 1)).toNat 40) s
    let l := (upto (wbits (pw ws 0) 9 8)).map fun i => s.signalAt q.pasid (pw ws (2 * i + 1)) (pw ws (2 * i + 2)) false
    if l.any Option.isNone then s.malformed k .page else s.modSlot k fun q => { q with sigs := l.filterMap id }

/-- R362, R363: the checks of a signal packet; its completion is its write, at virtual address 0 too (log entry 57). -/
def State.startSignal (s : State) (k : Nat) (ws : List (BitVec 64)) : State :=
  let q := s.qslot k
  if !signalOk ws then s.malformed k .limit
  else
    let s := s.meetWalk q.pasid (pw ws 3).toNat 40
    match s.signalAt q.pasid (pw ws 3) (pw ws 4) true with
    | none => s.malformed k .page
    | some x => s.modSlot k fun q => { q with sigs := [x], finished := true }

/-- PACKET_START (R355, R358, R360 to R363): a mapped slot without a packet takes packet RIDX once it is pending. -/
def execPacketStart (slot : Nat) (s : State) : Out :=
  .next (
    let q := s.qslot slot
    if 64 ≤ slot || q.state != 1 || q.cur.isSome || !s.accepting then s
    else if q.forceErr then s.slotErr slot 3 q.ridx.toNat
    else if q.widx == q.ridx then s
    else
      let s := s.readOwn q.packetPa 64
      let ws := (upto 8).map fun i => s.ownWord (q.packetPa + 8 * i)
      let s := s.modSlot slot fun q =>
        { q with cur := some ws, sigs := [], launch := 0, finished := false, status := 0, err := 0 }
      match wbits (pw ws 0) 7 0 with
      | 1 => s.startLaunch slot ws
      | 2 => s.startWait slot ws
      | 3 => s.startSignal slot ws
      | _ => s.malformed slot .limit)

/-- R443, R445: a signal on another lode waits for a port, which takes its read or its write. -/
def State.sigWaits (s : State) (x : Signal) : Bool :=
  match x.remote with
  | some l => x.port.isNone && s.route l.toNat x.pa == .away
  | none => false

/-- R448: the request of a signal that waits for a port with room. -/
def State.sigTakes (s : State) (x : Signal) : Option PortReq :=
  match x.remote with
  | some l => if s.sigWaits x then s.portTakes l.toNat x.pa else none
  | none => none

/-- R448: the first signal of a slot that waits for a port takes one that has room. -/
def State.sigsPort (s : State) (k : Nat) : State :=
  match (s.qslot k).sigs.findIdx? fun x => (s.sigTakes x).isSome with
  | some i => (s.modSlot k fun q => { q with sigs := q.sigs.modify i fun x => { x with port := s.sigTakes x } }).tookPort
  | none => s

/-- R448: no earlier request for the lines of signals is unanswered. -/
def State.sigsFirst (s : State) (sigs : List Signal) : Bool := sigs.all fun x => x.port.all s.lineFirst

/-- R330, R362, R450: what the read of a signal leaves: the errors met at its home, or the answer of another lode, or a failure where no
route reaches it. -/
def State.readSignal (s : State) (x : Signal) : State :=
  match x.remote, x.port with
  | some _, some r => s.portAnswered r
  | some l, none => (match s.route l.toNat x.pa with | .fail c => s.fabErr l.toNat c | _ => s)
  | none, _ =>
    let t := s.meetRange x.pa 8 40
    if t.poisoned x.pa && x.tol then t.subst x.pa else t

/-- R331, R362: a signal's word as the scheduler reads it at its home, substituted where it is poisoned in a tolerant region; another
lode's is not known here (log entry 2), and one that no route reaches is not read. -/
def State.signalNow (s : State) (x : Signal) : Option (BitVec 64) :=
  match x.remote with
  | some _ =>
    if x.port.isSome then some (BitVec.ofNat 64 (leNat ((upto 8).map fun i => Config.remoteByte s.freeCtr (x.pa + i)))) else none
  | none =>
    some (if s.poisoned x.pa && x.tol then BitVec.ofNat 64 (leNat (List.replicate 8 (substByte x.tpol))) else s.ownWord x.pa)

/-- R362: a signal holds at least its value. -/
def State.signalThere (s : State) (x : Signal) : Bool :=
  match s.signalNow x with
  | some v => decide (x.val.toNat ≤ v.toNat)
  | none => false

/-- R362: the scheduler reads the signals of a wait packet; it ends once every one holds at least its value. -/
def State.pollWait (s : State) (k : Nat) : State :=
  let sigs := (s.qslot k).sigs
  let t := sigs.foldl State.readSignal s
  { t.modSlot k fun q => { q with finished := sigs.all t.signalThere, sigs := sigs.map fun x => { x with port := none } } with
    freeCtr := t.freeCtr + 1 }

/-- WAIT_PACKET_SATISFIED (R362): every named signal holds at least its value. Those on other lodes are read over the fabric: ports take
the requests, and the packet goes on once they have their answers (R445, R448). -/
def execWaitPacketSatisfied (slot : Nat) (s : State) : Out :=
  .next (
    let q := s.qslot slot
    match q.cur with
    | some ws =>
      if wbits (pw ws 0) 7 0 != 2 || q.finished then s
      else if q.sigs.any s.sigWaits then s.sigsPort slot
      else if s.sigsFirst q.sigs then s.pollWait slot
      else s
    | none => s)

/-! ## Placement -/

/-- Free numbers below `n`, ascending. -/
def freeOf (n : Nat) (used : List Nat) : List Nat := (upto n).filter fun k => !used.contains k

/-- Launches with a task resident on a core. -/
def Core.launches (k : Core) : List Nat := ((k.facets.filter fun f => f.2.resident).map fun f => f.2.launch).eraseDups

/-- Facet slots of a core that are free (R367). -/
def Core.freeSlots (k : Core) : List Nat := (upto 4).filter fun n => !(k.facet n).resident
/-- Vector blocks of a core that are free (R98). -/
def Core.freeVblocks (k : Core) : List Nat := freeOf 12 ((k.facets.filter fun f => f.2.resident).flatMap fun f => f.2.vblocks)
/-- Column blocks of a core that are free (R99). -/
def Core.freeCblocks (k : Core) : List Nat := freeOf 32 ((k.facets.filter fun f => f.2.resident).flatMap fun f => f.2.cblocks)
/-- Scratchpad pages of a core that are free (R216). -/
def State.freePages (s : State) (c : Nat) : List Nat := freeOf 256 (s.launches.flatMap fun l => l.2.windows.get c [])

/-- R183: a kernel's routines find words and entries. -/
def Core.routinesFit (k : Core) (l : Launch) : Bool :=
  if k.routines.any fun r => r.image == l.image then true
  else
    decide ((k.routines.map fun r => r.words.length).sum + (l.kernel.routines.map fun r => r.2.length).sum ≤ 1024)
      && l.kernel.routines.all fun r => !k.routines.any fun q => q.index == r.1

/-- R258, R277: the declared queues fit beside those of the kernels resident on a core. -/
def State.queuesFit (s : State) (c : Nat) (l : Launch) : Bool :=
  let ls := (s.core c).launches.filterMap fun i => s.launches.find i
  (upto 44).all fun q =>
    let here := (ls.map fun x => x.kernel.depth q).sum
    if 4 ≤ q ∧ q < 12 then !(l.kernel.declares q && ls.any fun x => x.kernel.declares q)
    else if 12 ≤ q ∧ q < 28 then true
    else decide (here + l.kernel.depth q ≤ queueDepth q)

/-- R433: place of a code segment: bank, offset and length. -/
def segPlace (e : BitVec 64 × BitVec 64) : Bool × Nat × Nat := (e.1.getLsbD 3, wbits e.1 23 4, wbits e.1 47 24)

/-- A placed segment shares bytes with a destination. -/
def Segment.meets (g : Segment) (p : Bool × Nat × Nat) : Bool := g.bank == p.1 && overlaps g.off g.len p.2.1 p.2.2

/-- R300: a placed copy of the same segment that a launch may share. -/
def Segment.shared (g : Segment) (id image : Nat) (p : Bool × Nat × Nat) : Bool :=
  g.image == image && g.bank == p.1 && g.off == p.2.1 && g.len == p.2.2 && decide (id < g.stamp)

/-- R434: the destination bytes of a segment are free, or hold a copy to share. -/
def Core.segFits (k : Core) (id image : Nat) (p : Bool × Nat × Nat) : Bool :=
  k.segs.all fun g => !g.meets p || g.shared id image p || g.users.isEmpty

/-- Code segments of a kernel. -/
def Kernel.code (k : Kernel) : List (BitVec 64 × BitVec 64) := k.segs.filter fun e => wbits e.1 1 0 == 0

/-- R367: one core can take its tasks of a launch. -/
def State.coreTakes (s : State) (id : Nat) (l : Launch) (c : Nat) : Bool :=
  let k := s.core c
  let kn := l.kernel
  decide (kn.facets ≤ k.freeSlots.length) && decide (kn.facets * (kn.vregs / 32) ≤ k.freeVblocks.length)
    && decide (kn.facets * (kn.cols / 16) ≤ k.freeCblocks.length) && k.routinesFit l && s.queuesFit c l
    && decide (kn.scratch ≤ (s.freePages c).length) && kn.code.all fun e => k.segFits id l.image (segPlace e)

/-- PRIO of the slot of a launch. -/
def State.prioOf (s : State) (launch : Nat) : Nat :=
  match s.launches.find launch with | some l => (s.qslot l.slot).prio.toNat | none => 0

/-- Launches with a task resident on a geode. -/
def State.launchesOn (s : State) (g : Nat) : List Nat := ((upto 16).flatMap fun r => (s.core (coreAt g r)).launches).eraseDups

/-- R397: V, the launches on a geode of slots of lower PRIO in the partition. -/
def State.victims (s : State) (slot g : Nat) : List Nat :=
  (s.launchesOn g).filter fun i => decide (s.prioOf i < (s.qslot slot).prio.toNat)

/-- R397: a task that a drain waits for is still on its geode. -/
def State.drainWaits (s : State) (d : Nat × Nat × Nat) : Bool :=
  (upto 16).any fun r => (s.core (coreAt d.1 r)).facets.any fun f => f.2.resident && f.2.launch == d.2.1 && f.2.task == d.2.2

/-- R397: a slot drains a geode: a task of V on it has yet to halt. -/
def State.drains (s : State) (q : QSlot) (g : Nat) : Bool := q.drainFor.any fun d => d.1 == g && s.drainWaits d

/-- R397: a drain places nothing on the geode until every task of its V there has halted. -/
def State.draining (s : State) (g : Nat) : Bool := s.slots.any fun q => s.drains q.2 g

/-- Launches of the tasks that a fossil holds. -/
def Fossil.launches (f : Fossil) : List Nat := (f.cores.flatMap fun k => k.2.launches).eraseDups

/-- R402: a pre-emption fossil of the geode comes before a launch unless the launch's PRIO is higher than every frozen task's. -/
def State.fossilFirst (s : State) (g prio : Nat) : Bool :=
  s.fossils.any fun f => f.used && f.lgeo == g && f.reason == 0 && f.state != 3 && f.launches.any fun i => decide (prio ≤ s.prioOf i)

/-- R367, R19, R402: a geode can take a launch now. -/
def State.geodeTakes (s : State) (id : Nat) (l : Launch) (g : Nat) : Bool :=
  !l.ckAsk && s.geodeState g == 0 && !(s.geode g).frozen && !s.draining g && !s.fossilFirst g (s.qslot l.slot).prio.toNat
    && (setBitsOf (cmask l.words) 16).all fun r => s.coreTakes id l (coreAt g r)

/-- R367: geodes that a launch's next placement takes: one, or with GANG all. -/
def State.nextGeodes (s : State) (id : Nat) (l : Launch) : List Nat :=
  if gang l.words then (if l.toPlace.all (s.geodeTakes id l) then l.toPlace else [])
  else (l.toPlace.find? (s.geodeTakes id l)).toList

/-- R369, R95, R388, R414: the variant that a facet begins in and where: the entry's position in that variant, where the
position map holds one, and else the entry itself (log entry 39). -/
def Kernel.begin (k : Kernel) (level : Nat) (entry : BitVec 64) : BitVec 2 × BitVec 64 × BitVec 6 :=
  match k.switch[level]? with
  | none => (0, entry, 63)
  | some e =>
    let v : BitVec 2 := e.truncate 2
    let f := BitVec.ofNat 6 (e.toNat / 4)
    match k.posmap.find? fun p => (List.range 3).any fun i => wbits p.2 (16 * i + 15) (16 * i) == entry.toNat with
    | some p =>
      let a := wbits p.2 (16 * v.toNat + 15) (16 * v.toNat)
      (v, if a = 0xFFFF then entry else BitVec.ofNat 64 a, f)
    | none => (v, entry, f)

/-- R95, R368, R369, R388: a facet as dispatch leaves it. -/
def Launch.facet (l : Launch) (id task ordinal level : Nat) (vb cb : List Nat) : Facet :=
  let b := l.kernel.begin level l.kernel.entry
  { resident := true, launch := id, task := task, ntasks := l.ntasks, ordinal := ordinal, pasid := l.pasid
    pc := wbits b.2.1 14 0, bank := b.2.1.getLsbD 15
    s := Tbl.set (Tbl.set [] 1 (pw l.words 5)) 2 (pw l.words 6)
    vblocks := vb, cblocks := cb, rotRegion := l.kernel.rot, estTable := l.kernel.est
    tbase := l.kernel.tbase, tframe := l.kernel.frames.zeroExtend 64 + BitVec.ofNat 64 (4096 * task)
    ftgt := b.2.2, variant := b.1 }

/-- R433: the code address of an entry of the position map in a variant. -/
def Kernel.posOf (k : Kernel) (pos : Nat) (v : BitVec 2) : Nat :=
  match k.posmap[pos]? with
  | some p => wbits p.2 (16 * v.toNat + 15) (16 * v.toNat)
  | none => 0xFFFF

/-- R406, R414: the variant in which a recorded task resumes: its level's, where its safe point has a place in it. -/
def Kernel.resumeIn (k : Kernel) (level pos : Nat) : BitVec 2 :=
  match k.switch[level]? with
  | none => 0
  | some e => if k.posOf pos (e.truncate 2) = 0xFFFF then 0 else e.truncate 2

/-- R406, R278: a task of a record, of launch `of`, as it resumes in a new facet at a level: everything recorded, at its safe point, its
loop entries at their positions, its handles retranslated, its ring clock invalid; operations that are complete and wait for room for
their records keep their places. The saved task's writes are its own (R306). -/
def CkTask.resumed (t : CkTask) (of : Nat) (k : Kernel) (level : Nat) (f : Facet) (re : Handle → Handle) : Facet :=
  let v := k.resumeIn level t.pos
  let e := k.posOf t.pos v
  let at' (i : Nat) : LoopEntry :=
    let x := t.facet.lstk.get i {}
    match t.loopPos[i]? with
    | some (some p) =>
      let a := k.posOf p.1 v
      let b := decide (32768 ≤ a)
      { x with start := a % 32768, bank := b, stop := (k.posOf p.2 v + 65536 - (if b then 32768 else 0)) % 65536 }
    | _ => x
  { t.facet with
    resident := true, launch := f.launch, ordinal := f.ordinal, pasid := f.pasid, origin := (of, t.task) :: t.facet.origin
    vblocks := f.vblocks, cblocks := f.cblocks, rotRegion := f.rotRegion, estTable := f.estTable, variant := v, ftgt := f.ftgt
    pc := e % 32768, bank := decide (32768 ≤ e)
    lstk := (upto t.facet.lsDepth).map fun i => (i, at' i)
    h := t.facet.h.map fun x => (x.1, re x.2)
    tbase := f.tbase, tframe := f.tframe, rbase := none, ringMask := 0, landings := [], replay := [], items := []
    parked := false, intrap := false, latch := {}, pbar := 0, tsyncMet := false, poison := [], ckRequested := false, ckHeld := false }

/-- R216, R217: a window of pages on a core, its bytes zero. -/
def Core.clearPages (k : Core) (ps : List Nat) : Core :=
  { k with
    spad := k.spad.filter fun x => !ps.contains (x.1 / 4096)
    spadPoison := k.spadPoison.filter fun u => !ps.contains (u / 512)
    spadFlaws := k.spadFlaws.filter fun u => !ps.contains (u / 512) }

/-- Writes at program offsets of a window. -/
def Core.fillWindow (k : Core) (ps : List Nat) (off : Nat) (bs : List (BitVec 8)) : Core :=
  { k with spad := (bs.mapIdx fun i b => (spPhys ps (off + i), b)).foldl (fun m x => m.set x.1 x.2) k.spad }

/-- R95: blocks as a task receives them, every value zero. -/
def Core.clearBlocks (k : Core) (vb cb : List Nat) : Core :=
  { k with
    vfile := k.vfile.filter fun x => !vb.contains (x.1 / 32)
    acc := k.acc.filter fun x => !cb.contains (x.1 % 512 / 16)
    accPoison := k.accPoison.filter fun x => !cb.contains (x % 512 / 16) }

/-- R434, R435: a code segment is placed, or a copy shared; its handle carries the system bit when the table and the manifest
agree. -/
def State.placeSeg (s : State) (id : Nat) (l : Launch) (c : Nat) (e : BitVec 64 × BitVec 64) : State :=
  let p := segPlace e
  let k := s.core c
  if k.segs.any fun g => g.shared id l.image p then
    s.setCore c { k with segs := k.segs.map fun g => if g.shared id l.image p then { g with users := id :: g.users } else g }
  else
    let s := s.meetBytes l.pasid ((pw l.words 2).toNat + e.2.toNat) p.2.2
    match s.imageBytes l.pasid ((pw l.words 2).toNat + e.2.toNat) p.2.2 with
    | .error _ => s
    | .ok bs =>
      let a := codeAddr p.1 p.2.1
      let sys := e.1.getLsbD 2 && s.manifest.contains (sha384 bs)
      let keep (x : Nat) : Bool := decide (x < a ∨ a + p.2.2 ≤ x)
      let g : Segment := { stamp := s.nextId, image := l.image, sys := sys, bank := p.1, off := p.2.1, len := p.2.2, users := [id] }
      { s.setCore c { k with
          ist := Memory.put (k.ist.filter fun x => keep x.1) a bs
          istPoison := k.istPoison.filter fun u => decide (8 * u + 8 ≤ a ∨ a + p.2.2 ≤ 8 * u)
          segs := (k.segs.filter fun g => !g.meets p) ++ [g] } with nextId := s.nextId + 1 }

/-- R457, R433: a data segment is written into the window. -/
def State.placeData (s : State) (l : Launch) (c : Nat) (ps : List Nat) (e : BitVec 64 × BitVec 64) : State :=
  let s := s.meetBytes l.pasid ((pw l.words 2).toNat + e.2.toNat) (wbits e.1 47 24)
  match s.imageBytes l.pasid ((pw l.words 2).toNat + e.2.toNat) (wbits e.1 47 24) with
  | .error _ => s
  | .ok bs => s.modCore c fun k => k.fillWindow ps (wbits e.1 23 4) bs

/-- Place of a number among the set bits of a mask. -/
def placeIn (m n k : Nat) : Nat := ((setBitsOf m n).takeWhile fun x => x != k).length

/-- R368: the first task that a core of a record's launch held, of `n` tasks on each core. -/
def Ckpt.firstTask (r : Ckpt) (c n : Nat) : Nat :=
  (placeIn r.gmask 40 (geodeOf c) * (setBitsOf r.cmask 16).length + placeIn r.cmask 16 (rankOf c)) * n

/-- R462: the recorded window that a core of a launch takes, with the first of its tasks: of the windows of its rank the one that this
task used, and else the first (log entry 40). -/
def Ckpt.windowFor (r : Ckpt) (c task : Nat) : Option Memory :=
  let n := r.ntasks / max 1 ((setBitsOf r.gmask 40).length * (setBitsOf r.cmask 16).length)
  let ws := r.windows.filter fun w => rankOf w.1 == rankOf c
  let used (w : Nat × Memory) : Bool := decide (r.firstTask w.1 n ≤ task ∧ task < r.firstTask w.1 n + n)
  ((ws.find? used).or ws.head?).map (·.2)

/-- R324, R406: a handle that has permissions, or is valid, translated afresh for its address space (log entry 56). -/
def State.retranslate (s : State) (g : Nat) (pasid : BitVec 20) (h : Handle) : Handle :=
  if !(h.valid || h.r || h.w) then h
  else
    match (s.geode g).cached pasid h.va.toNat with
    | some l => l.handle h.va.toNat h.r h.w
    | none => Handle.pending h.va.toNat h.r h.w

/-- R405, R406: a recorded task takes its place in a facet: registers, vector images, columns, records and bands. -/
def State.resumeTask (s : State) (l : Launch) (of c fn : Nat) (t : CkTask) : State :=
  let f := t.resumed of l.kernel (s.granted (geodeOf c)) (s.facet c fn) (s.retranslate (geodeOf c) l.pasid)
  s.modCore c fun k =>
    let vs := (upto t.vregs.length).map fun i => (f.vblocks.getD (i / 32) 0 * 32 + i % 32, t.vregs.getD i {})
    { k.modFacet fn fun _ => f with
      vfile := vs.foldl (fun m x => m.set x.1 x.2) k.vfile
      acc := t.acc.foldl (fun m x => m.set (f.accKey (x.1 / 512) (x.1 % 512)) x.2) k.acc
      evq := k.evq ++ t.records.map fun r => { r with facet := fn }
      bands := t.bands.foldl (fun b x => b.set x.1 { x.2 with owner := fn }) k.bands }

/-- R367 to R369: a launch's tasks on one core, the `κ`-th of CMASK on the `γ`-th geode of GMASK; a task that has halted is not
placed again (R406), and a core whose selected facet was free selects among the new ones (R374). -/
def State.placeCore (s : State) (id : Nat) (l : Launch) (c γ κ : Nat) : State :=
  let kn := l.kernel
  let k := s.core c
  let ps := (s.freePages c).take kn.scratch
  let s := if kn.scratch = 0 then s else { s with launches := s.launches.upd id l fun x => { x with windows := x.windows.set c ps } }
  let s := s.modCore c fun k => k.clearPages ps
  let s := kn.code.foldl (fun s e => s.placeSeg id l c e) s
  let s := (kn.segs.filter fun e => wbits e.1 1 0 == 1).foldl (fun s e => s.placeData l c ps e) s
  let s := s.modCore c fun k =>
    if k.routines.any fun r => r.image == l.image then k
    else { k with routines := k.routines ++ kn.routines.map fun r => { image := l.image, index := r.1, words := r.2 } }
  let nv := kn.vregs / 32
  let nc := kn.cols / 16
  let ncores := (setBitsOf (cmask l.words) 16).length
  let s := match l.ckpt with | some i => (s.readRecord i).1 | none => s
  let rec? : Option Ckpt := l.ckpt.bind fun i => s.ckpts[i]?
  let s : State := match rec?.bind fun r => r.windowFor c ((γ * ncores + κ) * kn.facets) with
    | some w => s.modCore c fun k => k.fillWindow ps 0 ((upto (4096 * kn.scratch)).map fun i => w.get i)
    | none => s
  let s := s.modCore c fun k => { k with idle := k.idle || !(k.facet k.run).resident }
  (upto kn.facets).foldl (fun s f =>
    let vb := (k.freeVblocks.drop (f * nv)).take nv
    let cb := (k.freeCblocks.drop (f * nc)).take nc
    let task := (γ * ncores + κ) * kn.facets + f
    let fn := k.freeSlots.getD f 0
    if l.done.contains task then s
    else
      let s := s.modCore c fun k =>
        (k.clearBlocks vb cb).modFacet fn fun _ => l.facet id task f (s.granted (geodeOf c)) vb cb
      match rec?.bind fun r => (r.tasks.find? fun t => t.task == task).map fun t => (r.launch, t) with
      | some (of, t) => s.resumeTask l of c fn t
      | none => s) s

/-- Tasks of a launch on a geode. -/
def Launch.tasksOn (l : Launch) (g : Nat) : List Nat :=
  let n := (setBitsOf (cmask l.words) 16).length * l.kernel.facets
  let γ := ((setBitsOf (gmask l.words) 40).takeWhile fun x => x != g).length
  (upto n).map fun i => γ * n + i

/-- R367: a launch's tasks on one geode. -/
def State.placeGeode (s : State) (id : Nat) (l : Launch) (g : Nat) : State :=
  let γ := ((setBitsOf (gmask l.words) 40).takeWhile fun x => x != g).length
  let ranks := setBitsOf (cmask l.words) 16
  let s := if (l.tasksOn g).all fun t => l.done.contains t then s
    else (upto ranks.length).foldl (fun s κ => s.placeCore id l (coreAt g (ranks.getD κ 0)) γ κ) s
  { s with launches := s.launches.upd id l fun x => { x with toPlace := x.toPlace.filter fun y => y != g } }

/-- R19: held tasks of geodes that went offline complete with UNAVAIL. -/
def Launch.dropOffline (l : Launch) (off : Nat → Bool) : Launch :=
  let gone := l.toPlace.filter off
  if gone.isEmpty then l
  else
    { l with
      toPlace := l.toPlace.filter fun g => !off g
      done := l.done ++ gone.flatMap l.tasksOn
      status := l.status ||| stUnavail }

/-- R364: the slot whose launch is served next: among those that can place a task, the highest PRIO, then round-robin after
the slot served last. -/
def State.nextToPlace (s : State) : Option Nat :=
  let can (k : Nat) : Bool :=
    match s.launches.find (s.qslot k).launch with
    | some l => (s.qslot k).cur.isSome && (!(s.nextGeodes (s.qslot k).launch l).isEmpty || l.toPlace.any fun g => s.geodeState g == 2)
    | none => false
  let ks := ((upto 64).map fun i => (s.lastSlot + 1 + i) % 64).filter can
  ks.find? fun k => ks.all fun j => decide ((s.qslot j).prio.toNat ≤ (s.qslot k).prio.toNat)

/-- LAUNCH_DISPATCH (R364, R366 to R369): the slot whose turn it is places its launch's next tasks. -/
def execLaunchDispatch (slot : Nat) (s : State) : Out :=
  .next (
    let id := (s.qslot slot).launch
    match s.launches.find id with
    | none => s
    | some l =>
      if s.nextToPlace != some slot then s
      else
        let l := l.dropOffline fun g => s.geodeState g == 2
        let s := { s with launches := s.launches.set id l, lastSlot := slot }
        (s.nextGeodes id l).foldl (fun s g => s.placeGeode id l g) s)

/-- TOKEN_REFILL (R365): a millisecond's tokens, saturating at MAX. -/
def execTokenRefill (p : Nat) (s : State) : Out :=
  .next (
    let a := aPart p + 8
    if 8 ≤ p then s else s.devPut a 15 0 (min (s.devFld a 15 0 + s.devFld a 47 32) (s.devFld a 31 16)))

/-! ## Completion -/

/-- The commands that a bulk engine has yet to complete. -/
def Bulk.cmds (b : Bulk) : List BulkCmd := b.active.toList ++ b.shadow.toList ++ b.ended

/-- R302, R306: everything the launch's tasks have sent has performed, homes on other lodes apart, whose accesses a kill waits for. -/
def State.launchQuiet (s : State) (id : Nat) : Bool :=
  let killed : Bool := match s.launches.find id with | some l => l.status &&& stKilled != 0 | none => false
  !(s.accs.any fun a => a.launch == id && (killed || match a.home with | .remote _ => false | _ => true))
    && !(s.geodes.any fun g => g.2.msgs.any fun m => !m.buffered && m.launch == id)
    && !(s.bulk.any fun b => b.2.cmds.any fun c => !c.host && c.launch == id)

/-- R370: every input of the completion tree is high. -/
def Launch.complete (l : Launch) : Bool := l.toPlace.isEmpty && (upto l.ntasks).all fun t => l.done.contains t

/-- R370, R371: the packet of a slot may complete now. -/
def State.canComplete (s : State) (k : Nat) : Bool :=
  let q := s.qslot k
  q.cur.isSome && (q.finished || match s.launches.find q.launch with | some l => l.complete && s.launchQuiet q.launch | none => false)

/-- R371: SIGVAL is written to a signal; on another lode, once the port that holds the write has its acknowledgement. -/
def State.writeSignal (s : State) (x : Signal) : State :=
  match x.remote, x.port with
  | some _, some r => s.portAnswered r
  | some l, none => (match s.route l.toNat x.pa with | .fail c => s.fabErr l.toNat c | _ => s)
  | none, _ => s.putOwnNum x.pa 8 x.val.toNat x.tol x.tpol

/-- PACKET_COMPLETION (R371): STATUS, the signal, RIDX, the event record, and for a malformed packet the slot's error. A signal on
another lode performs between the two: the completion goes on once its port has its acknowledgement (R445). -/
def execPacketCompletion (slot : Nat) (s : State) : Out :=
  .next (
    let q := s.qslot slot
    if !s.canComplete slot then s
    else
      let ws := q.cur.getD []
      let ty := wbits (pw ws 0) 7 0
      let l := s.launches.find q.launch
      let st := q.status ||| (match l with | some l => l.status | none => 0) ||| 0x8000
      let sigs := if ty = 2 || q.status &&& stMalformed != 0 then [] else q.sigs
      let told := s.putOwnNum (q.packetPa + 56) 8 st.toNat
      if sigs.any s.sigWaits then
        (if sigs.any fun x => (s.sigTakes x).isSome then told.sigsPort slot else s)
      else if !s.sigsFirst sigs then s
      else
      let s := sigs.foldl State.writeSignal (if sigs.any (·.port.isSome) then s else told)
      let ridx := q.ridx + 1
      let s := s.putOwnNum (q.header 8) 4 ridx.toNat
      let s := { s.modSlot slot fun q => { q with ridx := ridx, cur := none, finished := false, launch := 0, sigs := [] } with
                 launches := s.launches.del q.launch }
      let s := if ty = 1 && (pw ws 0).getLsbD 9 then s.slotPost slot 1 st.toNat q.ridx.toNat else s
      if q.status &&& stMalformed != 0 then s.slotErr slot q.err.toNat q.ridx.toNat
      else if (s.qslot slot).forceErr && (s.qslot slot).state == 1 then s.slotErr slot 3 ridx.toNat
      else s)

/-! ## Kills -/

/-- R279, R408: the bulk commands of a killed facet: a queued one is discarded, an active one stops at its next 64-byte boundary
with its countdowns made, as a cancel stops it (R265). -/
def State.killBulk (s : State) (c fn launch : Nat) (e : Nat) : State :=
  let mine (x : BulkCmd) : Bool := !x.host && x.core == c && x.facet == fn && x.launch == launch
  let b := s.bulk.get e {}
  let s := match b.shadow with
    | some x => if mine x then (s.unlockAll x.id).modBulk e fun b => { b with shadow := none } else s
    | none => s
  match b.active with
  | some x => if mine x && !b.finished then s.modBulk e fun b => { b with cancelled := true } else s
  | none => s

/-- R213, R279, R408: what the kill of a facet takes from its core: its feeder commands, the locks of its work, those of bulk
commands apart, and its running invocation. -/
def Core.stopWork (k : Core) (fn : Nat) : Core :=
  let f := k.facet fn
  let ids := (f.order.filter fun e => e.kind != 5).map (·.id) ++ f.items.map (·.lock)
    ++ (match k.inv with | some v => if v.facet == fn then [v.item.lock] else [] | none => [])
  let others (l : List EngineCmd) : List EngineCmd := l.filter fun x => x.facet != fn
  { k with
    feedA := others k.feedA
    feedB := others k.feedB
    feedL := others k.feedL
    locks := k.locks.filter fun l => !ids.contains l.id
    inv := k.inv.filter fun v => v.facet != fn }

/-- R408: the task of a facet is killed: its work in the engines and the matrix unit stops, its results in flight are
discarded, and it ends. -/
def State.killTask (s : State) (c fn : Nat) : State :=
  let s := (upto 16).foldl (fun s e => s.killBulk c fn (s.facet c fn).launch e) s
  (s.modCore c fun k => k.stopWork fn).endTask c fn

/-- Resident tasks of a fossil: core, facet, launch and id.task. -/
def Fossil.tasks (f : Fossil) : List (Nat × Nat × Nat × Nat) :=
  f.cores.flatMap fun k => (k.2.facets.filter fun x => x.2.resident).map fun x => (k.1, x.1, x.2.launch, x.2.task)

/-- R245: messages of a fossil's ring that are addressed to one of its facets. -/
def Fossil.msgsTo (f : Fossil) (c : Nat) (x : Facet) : List Nat :=
  (f.geode.msgs.filter fun m => m.launch == x.launch && m.dst == rankOf c && m.dstFacet == x.ordinal).map (·.id)

/-- R96, R183, R213, R216, R258, R408: a killed facet leaves the fossil that holds it, as it would leave its core: `image` gives the
kernel image of a launch, `own` the facet's accesses, which are held no more. -/
def Fossil.killFacet (f : Fossil) (image : Nat → Nat) (own : List Nat) (c fn : Nat) : Fossil :=
  let x := (f.cores.get c {}).facet fn
  let gone := f.msgsTo c x
  let f := { f with
    cores := f.cores.map fun k => if k.1 == c then (c, ((k.2.stopWork fn).vacate fn).dropRoutines image (image x.launch)) else k
    held := f.held.filter fun i => !own.contains i
    geode := { f.geode with
      msgs := f.geode.msgs.filter fun m => !gone.contains m.id
      tsync := f.geode.tsync.filter fun p => !(p.core == c && p.facet == fn) } }
  if f.tasks.any fun t => t.2.2.1 == x.launch then f else { f with windows := f.windows.filter fun w => w.1 != x.launch }

/-- The registers of a geode's cores that a fossil keeps (R399): SPAD_ERR and the event counters. -/
def geodeReg (g a : Nat) : Bool :=
  decide (aCore (16 * g) ≤ a ∧ a < aCore (16 * g) + 0x10000) && (a % 0x1000 == 0x40 || decide (0x100 ≤ a % 0x1000 ∧ a % 0x1000 < 0x180))

/-- R399, R402: what a fossil holds, its cores as `re` gives them, stands on its geode. -/
def State.unpack (s : State) (f : Fossil) (re : Core → Core) : State :=
  { s with
    cores := f.cores.foldl (fun (t : Tbl Core) (k : Nat × Core) => t.set k.1 (re k.2)) s.cores
    dev := f.regs.foldl (fun (t : Tbl (BitVec 64)) (x : Nat × BitVec 64) => t.set x.1 x.2) (s.dev.filter fun x => !geodeReg f.lgeo x.1)
    launches := f.windows.foldl (fun (t : Tbl Launch) (w : Nat × Tbl (List Nat)) =>
      match t.find w.1 with
      | some l => t.set w.1 { l with windows := w.2.foldl (fun (m : Tbl (List Nat)) (x : Nat × List Nat) => m.set x.1 x.2) l.windows }
      | none => t) s.launches }

/-- R306, R408: the accesses of a frozen facet that is killed perform at the scratchpads that its fossil holds. -/
def State.performFrozen (s : State) (i c fn launch : Nat) : State :=
  match s.fossils[i]? with
  | none => s
  | some f =>
    let own := s.accs.filter fun a => a.core == c && a.facet == fn && a.launch == launch
    let t := own.foldl (fun (t : State) (a : Access) =>
      match a.home with
      | .spad d => if t.windowHolds a d then t.atSpad a d else t
      | _ => t) (s.unpack f id)
    { t with
      cores := s.cores, dev := s.dev, launches := s.launches
      fossils := s.fossils.modify i fun f =>
        { f with cores := t.cores.filter fun k => f.cores.any fun x => x.1 == k.1, regs := t.dev.filter fun x => geodeReg f.lgeo x.1 } }

/-- R408: the task of a facet in fossil `i` is killed, once its accesses within the geode have performed (R306). -/
def State.killFrozen (s : State) (i c fn : Nat) (st : BitVec 16) : State :=
  match s.fossils[i]? with
  | none => s
  | some f =>
    let x := (f.cores.get c {}).facet fn
    let own := (s.accs.filter fun a => a.core == c && a.facet == fn && a.launch == x.launch).map (·.id)
    let s := (upto 16).foldl (fun s e => s.killBulk c fn x.launch e) (s.performFrozen i c fn x.launch)
    let s := { s with
      fossils := s.fossils.modify i fun f => f.killFacet s.image own c fn
      seals := s.seals.filter fun q => q.host || !(q.core == c && q.facet == fn && q.launch == x.launch) }
    ((if (f.msgsTo c x).isEmpty then s else s.markLost x.launch).leaves f.lgeo x.launch x.task).tasksDone x.launch [x.task] st

/-- R306, R358, R408: every task of a launch is killed, held, running, frozen or checkpointed; the windows that its accesses are on their
way to stand until these have performed. -/
def State.killLaunch (s : State) (id : Nat) : State :=
  let here := s.cores.flatMap fun k => (k.2.facets.filter fun f => f.2.resident && f.2.launch == id).map fun f => (k.1, f.1)
  let s := here.foldl (fun s p => s.killTask p.1 p.2) s
  let frozen := (s.fossils.mapIdx fun i f => if f.used then (f.tasks.filter fun t => t.2.2.1 == id).map fun t => (i, t.1, t.2.1) else []).flatten
  let s := frozen.foldl (fun s p => s.killFrozen p.1 p.2.1 p.2.2 stKilled) s
  match s.launches.find id with
  | some l =>
    { s with
      launches := s.launches.set id
        { l with status := l.status ||| stKilled, toPlace := [], done := upto l.ntasks, ckAsk := false } }
  | none => s

/-! ## The watchdog -/

/-- R279, R400: a freeze holds an access: one to a core of a frozen geode, its registers among them, or one that stands in a fossil. -/
def State.frozenAccess (s : State) (a : Access) : Bool :=
  (s.fossils.any fun f => f.used && f.held.contains a.id)
    || match a.home with
      | .spad d => s.frozenAt d (· == a.launch)
      | .device => a.op.addrs.any s.regHeld
      | _ => false

/-- R263, R279: the bulk commands of an engine that a freeze holds: those it holds itself, and all of an engine whose active command it
holds. -/
def State.frozenCmds (s : State) (b : Bulk) : List BulkCmd :=
  if b.active.any s.bulkHeld then b.cmds else b.cmds.filter s.bulkHeld

/-- R32, R250, R253: a core as it would be with the accesses `accs` performed and the operations `ops` done: what they supply is there, and
the operations of its facets that can then complete have completed and posted. -/
def Core.thaw (k : Core) (accs ops : List Nat) : Core :=
  let k := { k with facets := k.facets.map fun (f : Nat × Facet) =>
    (f.1, { f.2 with
      landings := f.2.landings.map fun l => if accs.contains l.access then { l with access := 0 } else l
      order := f.2.order.map fun e => if ops.contains e.id then { e with done := true } else e }) }
  (upto 4).foldl (fun k fn => (k.facet fn).order.foldl (fun k _ => (k.completeOldest fn).postOldest fn) k) k

/-- R279, R396: the state as a core would see it with every transfer over that a freeze holds. -/
def State.thawed (s : State) (c : Nat) : State :=
  let accs := s.accs.filter s.frozenAccess
  let freed (b : Bulk) : Bulk :=
    let ids := (s.frozenCmds b).map (·.id)
    { b with active := b.active.filter fun x => !ids.contains x.id, shadow := b.shadow.filter fun x => !ids.contains x.id
             ended := b.ended.filter fun x => !ids.contains x.id }
  let ops : List Nat := s.bulk.flatMap fun b => (s.frozenCmds b.2).map (·.id)
  let t : State := { s with accs := s.accs.filter fun a => !s.frozenAccess a, bulk := s.bulk.map fun b => (b.1, freed b.2) }
  t.modCore c fun k => k.thaw (accs.map (·.id)) ops

/-- R279, R396: an operation of the running facet holds on what a frozen transfer is to set going: a barrier object that a held command
counts down, or a seal that waits for held accesses; `t` is the state with the frozen transfers over. -/
def State.frozenWait (s t : State) (i : Instr) : Bool :=
  s.guard i.guard && s.entryHolds i && match i with
    | .pbar _ => !s.drained s.cur s.fn 3 && t.drained s.cur s.fn 3
    | .barWait _ xb _ =>
      let a := spAddr (s.readX xb) 0
      s.bulk.any fun b => (s.frozenCmds b.2).any fun x => [4, 5].any fun k =>
        (x.word k).testBit 30 && coreOfWord (x.word k) == s.spCore a && spOff (nbits (x.word k) 23 0) == spOff a
    | _ => false

/-- R279, R396: the facet is held on a transfer that a freeze holds: it would be ready if those were over, or its bundle waits for what one
of them is to set going. -/
def State.heldByFreeze (s : State) (c fn : Nat) : Bool :=
  let t := s.thawed c
  !t.blocked c fn && s.blocked c fn
    || (let v := s.asRun c fn; v.fetched.ops.any (v.frozenWait (t.asRun c fn)))

/-- WATCHDOG_EXPIRY (R396): a facet that has stayed blocked for LIMIT parks with cause 12; the count stands while its geode is
frozen and while a freeze holds what it waits for. -/
def execWatchdogExpiry (core facet : Nat) (s : State) : Out :=
  .next (
    let f := s.facet core facet
    if !f.resident || f.parked || (s.geode (geodeOf core)).frozen || s.heldByFreeze core facet || !s.blocked core facet then s
    else ((s.settle core facet).withdraw core facet).takeTrapOf core facet { cause := .watchdog })

/-- KILL (R358): every task of the slot's current launch is killed; a wait packet completes at once. -/
def execKill (slot : Nat) (s : State) : Out :=
  .next (
    let q := s.qslot slot
    match q.cur with
    | none => s
    | some ws =>
      if q.finished then s
      else if wbits (pw ws 0) 7 0 = 1 then s.killLaunch q.launch
      else s.modSlot slot fun q => { q with finished := true, status := q.status ||| stKilled })

end Sys2Proof.Machine
end

