-- ==== Sys2Proof/Machine/Matrix.lean ====
section
/-! DEFINITION. The matrix slot and the items of the command queue (07 R180 to R202, R211). -/

namespace Sys2Proof.Machine

/-! ## Accumulator entries -/

/-- An accumulator entry of a facet (R99, R181). -/
def Core.accGet (k : Core) (f : Facet) (row col : Nat) : AccEntry := k.acc.get (f.accKey row col) {}

/-- Whether an accumulator entry fails its parity check (R94). -/
def Core.accBad (k : Core) (f : Facet) (row col : Nat) : Bool := k.accPoison.contains (f.accKey row col)

/-- Writes accumulator entries with their parity (R94), the first of the list first. -/
def Core.accPut (k : Core) (f : Facet) (es : List (Nat × Nat × AccEntry)) : Core :=
  let ks := es.map fun e => (f.accKey e.1 e.2.1, e.2.2)
  { k with
    acc := ks.foldl (fun t e => t.set e.1 e.2) k.acc
    accPoison := k.accPoison.filter fun p => !ks.any fun e => e.1 == p }

/-- Rows and columns of a rectangle of entries. -/
def rect (row rows col cols : Nat) : List (Nat × Nat) :=
  (upto rows).flatMap fun r => (upto cols).map fun j => (row + r, col + j)

/-- R197: +0 with tail 0b00 in a rectangle. -/
def Core.accZero (k : Core) (f : Facet) (row rows col cols : Nat) : Core :=
  k.accPut f ((rect row rows col cols).map fun p => (p.1, p.2, {}))

/-- The i32 of an entry (R181). -/
def AccEntry.int (e : AccEntry) : Int := e.val.toInt

/-- The number of an entry (R181). -/
def AccEntry.num (e : AccEntry) : Num := exactNum (fmtOf 1) e.val.toNat e.tail.toNat

/-! ## Issue -/

/-- Q snapshot of the running facet (R186). -/
def State.qSnapshot (s : State) : List (BitVec 64) := (upto 8).map s.readQ

/-- R185: delivery of N through q7. -/
def State.deliverN (s : State) (sn : BitVec 6) : State := if sn = 0 then s else s.land (.q 7 (s.readS sn)) 2

/-- R190: an item enters the facet's queue. -/
def State.enqueue (s : State) (kind : ItemKind) (n : Nat) (place : Nat := 0) (lock : Nat := 0) : State :=
  s.modMe fun f =>
    { f with items := f.items ++ [{ kind := kind, q := s.qSnapshot, n := n, handler := f.intrap, place := place, lock := lock }] }

/-- A 16-byte micro-word of local scratchpad at a program offset. -/
def spadWord (k : Core) (win : List Nat) (off : Nat) : BitVec 128 :=
  BitVec.ofNat 128 (leNat ((upto 16).map fun j => k.spad.get (spPhys win (off + j))))

/-- R201: a routine's words after a `mucode.ld` of the first `n` of them from scratchpad. -/
def loadedWords (k : Core) (win : List Nat) (ws : List (BitVec 128)) (n off : Nat) : List (BitVec 128) :=
  ((upto n).map fun j => spadWord k win (off + 16 * j)) ++ ws.drop n

/-- R250: the words of a routine as the running facet sees them at issue, its earlier `mucode.ld` items applied. -/
def State.wordsAtIssue (s : State) (ix : Nat) : List (BitVec 128) :=
  let win := s.window s.me.launch s.cur
  s.me.items.foldl (fun ws it =>
    match it.kind with
    | .ucode j n off => if j = ix then loadedWords s.here win ws n off else ws
    | _ => ws) ((s.here.routine (s.image s.me.launch) ix).getD [])

/-- R250: the routine holds a `sync` word. -/
def State.takesPlace (s : State) (ix : Nat) : Bool := (s.wordsAtIssue ix).any fun w => w.toNat / 2 ^ 124 == 13

/-- R195: `mcall`. -/
def State.callRoutine (s : State) (ix sn : BitVec 6) (imm : BitVec 34) : State :=
  let n := (s.nWord sn).toNat
  if s.takesPlace ix.toNat then
    let s1 := (s.enqueue (.call ix.toNat imm) n s.nextId).modMe fun f =>
      { f with order := f.order ++ [{ id := s.nextId, kind := 8, norec := true }] }
    State.deliverN { s1 with nextId := s.nextId + 1 } sn
  else (s.enqueue (.call ix.toNat imm) n).deliverN sn

/-- R199, R267: `mdrain.p` locks the banks of its footprint and enters the queue. -/
def State.queueDrain (s : State) (sn : BitVec 6) (mode : BitVec 3) (fmt : BitVec 5) (col : BitVec 9) (row rows : BitVec 7)
    (z : Bool) : State :=
  let n := (s.nWord sn).toNat
  let w := drainWidth (pairInt (wbits (s.readQ 0) 4 0)) fmt.toNat
  let win := s.window s.me.launch s.cur
  let offs := (drainRows (s.readQ 6).toNat n w (rows.toNat + 1)).flatMap fun g => (upto g.2).map fun j => spPhys win (g.1 + j)
  let s1 := (s.enqueue (.drain mode fmt col.toNat row.toNat (rows.toNat + 1) z) n 0 s.nextId).modHere fun k =>
    { k with locks := k.locks ++ [{ id := s.nextId, banks := banksOf offs }] }
  State.deliverN { s1 with nextId := s.nextId + 1 } sn

/-- R198: the register that `mdrain.v` writes. -/
def drainVector (k : Core) (f : Facet) (row col : Nat) : VReg :=
  VReg.build 4 fun j => let e := k.accGet f row (col + j); (e.val.toNat, e.tail.toNat)

/-- R195: `mcall`. -/
def execMcall (g : BitVec 4) (ix sn : BitVec 6) (imm : BitVec 34) (s : State) : Out :=
  slotOp (.mcall g ix sn imm) s (s.callRoutine ix sn imm)

/-- R196: `mparami`. -/
def execMparami (g : BitVec 4) (k : BitVec 3) (imm : BitVec 31) (s : State) : Out :=
  slotOp (.mparami g k imm) s (s.land (.q k.toNat (imm.signExtend 64)) 1)

/-- R197: `mzero` enters the queue. -/
def execMzero (g : BitVec 4) (sn : BitVec 6) (col : BitVec 9) (s : State) : Out :=
  slotOp (.mzero g sn col) s ((s.enqueue (.zero col.toNat) (s.nWord sn).toNat).deliverN sn)

/-- R198: `mdrain.v` reads at issue; with Z the entries become +0 after the read. -/
def execMdrainV (g : BitVec 4) (d : BitVec 9) (row : BitVec 7) (col : BitVec 9) (z : BitVec 1) (s : State) : Out :=
  slotOp (.mdrainV g d row col z) s
    (let s1 := s.putV d (drainVector s.here s.me row.toNat col.toNat) 4
     if z = 1 then s1.modHere fun k => k.accZero s.me row.toNat 1 col.toNat 32 else s1)

/-- R199: `mdrain.p` enters the queue. -/
def execMdrainP (g : BitVec 4) (sn : BitVec 6) (mode : BitVec 3) (fmt : BitVec 5) (col : BitVec 9) (row rows : BitVec 7)
    (z : BitVec 1) (s : State) : Out :=
  slotOp (.mdrainP g sn mode fmt col row rows z) s (s.queueDrain sn mode fmt col row rows (z == 1))

/-- R200: `mwait` holds issue and covers (R192); no other effect. -/
def execMwait (g k : BitVec 4) (s : State) : Out := slotOp (.mwait g k) s s

/-- R201: `mucode.ld` enters the queue. -/
def execMucodeLd (g : BitVec 4) (ix : BitVec 6) (words : BitVec 10) (off : BitVec 20) (s : State) : Out :=
  slotOp (.mucodeLd g ix words off) s (s.enqueue (.ucode ix.toNat (words.toNat + 1) off.toNat) 0)

/-- R202: `mwit` enters the queue. -/
def execMwit (g : BitVec 4) (on : BitVec 1) (s : State) : Out := slotOp (.mwit g on) s (s.enqueue (.witness (on == 1)) 0)

/-- R202: `mflush` enters the queue. -/
def execMflush (g : BitVec 4) (s : State) : Out := slotOp (.mflush g) s (s.enqueue .flush 0)

/-- R202: `mstat` enters the queue. -/
def execMstat (g : BitVec 4) (cl : BitVec 1) (off : BitVec 20) (s : State) : Out :=
  slotOp (.mstat g cl off) s (s.enqueue (.stat (cl == 1) off.toNat) 0)

/-! ## Items at the unit -/

/-- R192: the oldest item of a facet completes with its flags and error; a place in the completion order is done, and a
bank lock is released. -/
def State.finishItem (s : State) (c fn : Nat) (it : Item) (flags : BitVec 6) (err : Option TrapCause) : State :=
  (s.modFacet c fn fun f =>
    { f with
      items := f.items.tail
      itemsDone := f.itemsDone ++ [{ flags := flags, err := err, handler := it.handler }]
      order := f.order.map fun e => if it.place != 0 && e.id == it.place then { e with done := true } else e }).modCore c
    fun k => { k with inv := none, lastItemFacet := fn, locks := k.locks.filter fun l => it.lock == 0 || l.id != it.lock }

/-- R199: the value of an entry as `mdrain.p` writes it, its flags, and whether it was clamped. -/
def drainValue (int : Bool) (mode : BitVec 3) (fmt : BitVec 5) (e : AccEntry) : Nat × BitVec 6 × Bool :=
  if int then
    let c := clampInt e.int (intMin fmt) (intMax fmt)
    (wrapInt c.1 (8 * tyBytes fmt), 0, c.2)
  else
    let r := finalRound e.num fmt mode
    (r.1, r.2, false)

/-- R199: `mdrain.p` at the unit, rows in ascending order. -/
def State.runDrain (s : State) (c fn : Nat) (it : Item) (mode : BitVec 3) (fmt : BitVec 5) (col row rows : Nat) (z : Bool) :
    State :=
  let k := s.core c
  let f := s.facet c fn
  let win := s.window f.launch c
  let int := pairInt (wbits (it.q.getD 0 0) 4 0)
  let w := tyBytes fmt
  let ps := rect row rows col it.n
  if ps.any fun p => k.accBad f p.1 p.2 then s.finishItem c fn it 0 (some .poisonedOperand)
  else
    let vs := ps.map fun p => (p, drainValue int mode fmt (k.accGet f p.1 p.2))
    let addr (p : Nat × Nat) : Nat := wbits (it.q.getD 6 0) 19 0 + (p.1 - row) * wbits (it.q.getD 6 0) 39 24 + (p.2 - col) * w
    let ws := vs.flatMap fun v => (leBytes w v.2.1).mapIdx fun j b => { addr := spPhys win (addr v.1 + j), b := b : ByteWrite }
    let fl := vs.foldl (fun a v => a ||| v.2.2.1) 0
    let s := s.modCore c fun k => (if z then k.accZero f row rows col it.n else k).spadWrite ws
    let s := s.modFacet c fn fun f => { f with sat := f.sat || vs.any fun v => v.2.2.2 }
    s.finishItem c fn it fl none

/-- R201: a micro-word passes the check of a routine of `len` words (R203, R204, R206). -/
def microOk (len : Nat) (w : BitVec 128) : Bool :=
  match decodeMicro w.toNat with
  | some (.microLoop t _ _ _) => decide (t.toNat < len)
  | some (.jump t) => decide (t.toNat < len)
  | some _ => true
  | none => false

/-- R201: `mucode.ld` at the unit. -/
def State.runUcode (s : State) (c fn : Nat) (it : Item) (ix n off : Nat) : State :=
  let k := s.core c
  let f := s.facet c fn
  let win := s.window f.launch c
  let image := s.image f.launch
  match k.ownRoutine image ix with
  | none => s.finishItem c fn it 0 (some .illegalEncoding)
  | some r =>
    let ws := loadedWords k win r.words n off
    let offs := (upto (16 * n)).map fun j => spPhys win (off + j)
    let s := s.noteSpadErr c offs
    if k.spadBad offs then s.finishItem c fn it 0 (some .poisonedOperand)
    else if !(ws.take n).all (microOk r.words.length) then s.finishItem c fn it 0 (some .illegalEncoding)
    else
      (s.modCore c fun k =>
        { k with routines := k.routines.map fun q => if q.image == image && q.index == ix then { q with words := ws } else q }).finishItem
        c fn it 0 none

/-- R211: the status record. -/
def Facet.statusWord (f : Facet) : Nat :=
  let b (x : Bool) : Nat := if x then 1 else 0
  b f.sat + b f.wmis * 2 + b f.witOn * 2 ^ 8 + f.passes.toNat * 2 ^ 32 + f.wrow.toNat * 2 ^ 64 + f.wphy.toNat * 2 ^ 72
    + f.wcount.toNat * 2 ^ 96

/-- R202: `mstat` at the unit. -/
def State.runStat (s : State) (c fn : Nat) (it : Item) (clear : Bool) (off : Nat) : State :=
  let f := s.facet c fn
  let win := s.window f.launch c
  let ws := (leBytes 16 f.statusWord).mapIdx fun j b => { addr := spPhys win (off + j), b := b : ByteWrite }
  let s := s.modCore c fun k => k.spadWrite ws
  (s.modFacet c fn fun f =>
    if clear then { f with sat := false, wmis := false, wrow := 0, wphy := 0 } else f).finishItem c fn it 0 none

/-- R191, R195, R205: an item begins at the unit: a call becomes the running invocation, on the words that its routine holds now
(R201; log entry 56), and every other kind runs whole, a drain once no earlier transfer locks its banks (R267). A drain that waits for a
lock leaves the unit between items, and the unit selects again (log entry 53). -/
def State.startItem (s : State) (c fn : Nat) (it : Item) : State :=
  let f := s.facet c fn
  match it.kind with
  | .call ix _ =>
    s.modCore c fun k =>
      { k with inv := some { facet := fn, item := it, words := (k.routine (s.image f.launch) ix).getD []
                             cb := (wbits (it.q.getD 1 0) 8 0 : Nat) } }
  | .zero col => (s.modCore c fun k => k.accZero f 0 128 col it.n).finishItem c fn it 0 none
  | .drain mode fmt col row rows z =>
    let mine := (s.core c).locks.filter fun l => l.id == it.lock
    if mine.any fun l => (s.core c).lockedBefore it.lock l.banks then s else s.runDrain c fn it mode fmt col row rows z
  | .ucode ix n off => s.runUcode c fn it ix n off
  | .witness on => (s.modFacet c fn fun f => { f with witOn := on }).finishItem c fn it 0 none
  | .flush => (s.modFacet c fn fun f => { f with fifoA := [], fifoB := [] }).finishItem c fn it 0 none
  | .stat clear off => s.runStat c fn it clear off

/-- R191: the facet whose item runs next, in round-robin order from the facet of the last item that has completed. -/
def Core.nextItem (k : Core) : Option (Nat × Item) :=
  (upto 4).findSome? fun i =>
    let fn := (k.lastItemFacet + 1 + i) % 4
    match (k.facet fn).items with
    | it :: _ => some (fn, it)
    | [] => none

end Sys2Proof.Machine
end

