-- ==== Sys2Proof/Machine/Microcode.lean ====
section
/-! DEFINITION. Microcode and the passes of the matrix unit (07 R188, R189, R203 to R210; 03 R85, R86, R88). -/

namespace Sys2Proof.Machine

/-- Element type of A in an invocation's snapshot (R184). -/
def Invocation.aty (v : Invocation) : Nat := wbits (v.item.q.getD 0 0) 4 0
/-- Element type of B. -/
def Invocation.bty (v : Invocation) : Nat := wbits (v.item.q.getD 0 0) 9 5
/-- SPN. -/
def Invocation.spn (v : Invocation) : Nat := wbits (v.item.q.getD 0 0) 11 10
/-- First column of the window. -/
def Invocation.col (v : Invocation) : Nat := wbits (v.item.q.getD 1 0) 8 0
/-- Width of the window. -/
def Invocation.width (v : Invocation) : Nat := winCols (v.item.q.getD 1 0).toNat v.item.n
/-- The routine immediate. -/
def Invocation.imm (v : Invocation) : Nat := match v.item.kind with | .call _ i => i.toNat | _ => 0

/-- R203: the operand that SRC selects; `q` is the parameter register for SRC 3. -/
def Invocation.operand (v : Invocation) (src : BitVec 2) (val : BitVec 16) (q : Nat) : Nat :=
  match src.toNat with
  | 0 => val.toNat
  | 1 => v.imm % 2 ^ 16
  | 2 => v.imm / 2 ^ 16 % 2 ^ 16
  | _ => wbits (v.item.q.getD q 0) 15 0

/-- R206: `n` columns from `c` lie in the window. -/
def Invocation.inWindow (v : Invocation) (c : Int) : Bool := decide ((v.col : Int) ≤ c ∧ c + v.item.n ≤ v.col + v.width)

/-- Replaces the running invocation of the current core. -/
def State.setInv (s : State) (v : Invocation) : State := s.modHere fun k => { k with inv := some v }

/-- R192, R206: an error stops the invocation before the micro-operation takes effect; an item keeps its first error (log entry 53). -/
def State.microFail (s : State) (v : Invocation) (c : TrapCause) : State :=
  s.setInv { v with ended := true, err := some (v.err.getD c) }

/-- The invocation goes on to its next word. -/
def Invocation.next (v : Invocation) : Invocation := { v with pc := v.pc + 1 }

/-- R188, R70: element `k` of a row or column of a tile, as a number. -/
def tileNum (t : Nat) (bs : List (BitVec 8)) (k : Nat) : Num :=
  let byte (i : Nat) : Nat := (bs.getD i 0).toNat
  let f := fmtOf (BitVec.ofNat 5 t)
  let blk (f : Fmt) (v e : Nat) : Num := if e = 255 then .nan else (exactNum f v 0).scale ((e : Int) - 127)
  if t = 2 ∨ t = 3 then exactNum f (byte (2 * k) + 256 * byte (2 * k + 1)) 0
  else if t = 6 then exactNum f (byte (k / 2) / 16 ^ (k % 2) % 16) 0
  else if t = 7 then blk (fmtOf 6) (byte (5 * (k / 8) + k % 8 / 2) / 16 ^ (k % 2) % 16) (byte (5 * (k / 8) + 4))
  else if t = 8 then blk (fmtOf 4) (byte (9 * (k / 8) + k % 8)) (byte (9 * (k / 8) + 8))
  else exactNum f (byte k) 0

/-- R188, R72: element `k` as an integer. -/
def tileInt (t : Nat) (bs : List (BitVec 8)) (k : Nat) : Int :=
  let byte (i : Nat) : Nat := (bs.getD i 0).toNat
  if t = 16 then sextNat (byte (k / 2) / 16 ^ (k % 2)) 4
  else if t = 17 then sextNat (byte k) 8
  else (byte k : Int)

/-- R85: the exact sum of an entry and its products, NaN and infinities decided. -/
def sumProducts (e : Num) (ps : List (Num × BitVec 6)) : Num × BitVec 6 :=
  let terms := e :: ps.map (·.1)
  let inf (neg : Bool) : Bool := terms.any fun x => x == .inf neg
  if ps.any (fun p => p.2 != 0) || inf true && inf false then (.nan, fInvalid)
  else if terms.any fun x => x == .nan then (.nan, 0)
  else if inf true then (.inf true, 0)
  else if inf false then (.inf false, 0)
  else ((ps.foldl (fun a p => (a.add p.1).1) e), 0)

/-- R85: an entry after a floating-point pass. -/
def floatEntry (e : AccEntry) (ovr : Bool) (xs : List (Num × Num)) : AccEntry × BitVec 6 :=
  let z := sumProducts (if ovr then .fin false 0 0 else e.num) (xs.map fun x => x.1.mul x.2)
  let r := ro z.1 (fmtOf 1)
  (⟨BitVec.ofNat 32 r.1, BitVec.ofNat 2 r.2.1⟩, r.2.2 ||| z.2)

/-- R86: an entry after an integer pass, and whether it was clamped. -/
def intEntry (e : AccEntry) (ovr : Bool) (xs : List (Int × Int)) : AccEntry × Bool :=
  let c := clampInt ((if ovr then 0 else e.int) + (xs.map fun x => x.1 * x.2).sum) (intMin 19) (intMax 19)
  (⟨BitVec.ofInt 32 c.1, 0⟩, c.2)

/-- Values of tile bytes. -/
def plain (l : List FByte) : List (BitVec 8) := l.map (·.b)

/-- R88: logical positions of the stored elements of a row, from its bitmaps. -/
def rowPositions (klog : Nat) (map : List (BitVec 8)) : List Nat := let x := leNat map; (upto klog).filter fun i => x.testBit i

/-- R88: every group of 24 positions has exactly N of them. -/
def rowFormed (spn : Nat) (ps : List Nat) : Bool :=
  let n := if spn = 1 then 4 else if spn = 2 then 8 else 16
  (upto (64 / n)).all fun g => (ps.filter fun p => p / 24 == g).length == n

/-- A row of an A tile: the logical position of each stored element, and the row's element bytes (R188). -/
def aRow (v : Invocation) (ta : List (BitVec 8)) (i : Nat) : List Nat × List (BitVec 8) :=
  let mb := mapBytes v.spn
  let rb := mb + rowBytes v.aty 64
  let row := (ta.drop (i * rb)).take rb
  (if v.spn = 0 then upto 64 else rowPositions (kLog v.spn) (row.take mb), row.drop mb)

/-- A column of a B tile (R188). -/
def bCol (v : Invocation) (tb : List (BitVec 8)) (j : Nat) : List (BitVec 8) :=
  let cb := rowBytes v.bty (kLog v.spn)
  (tb.drop (j * cb)).take cb

/-- R189: the entries a pass writes, with their flags and whether each was clamped. -/
def passEntries (k : Core) (f : Facet) (v : Invocation) (ta tb : List (BitVec 8)) (ovr : Bool) :
    List (Nat × Nat × AccEntry × BitVec 6 × Bool) :=
  (upto 128).flatMap fun i =>
    let r := aRow v ta i
    (upto v.item.n).map fun j =>
      let c := v.cb.toNat + j
      let e := k.accGet f i c
      let col := bCol v tb j
      if pairInt v.aty then
        let x := intEntry e ovr (r.1.mapIdx fun q p => (tileInt v.aty r.2 q, tileInt v.bty col p))
        (i, c, x.1, 0, x.2)
      else
        let x := floatEntry e ovr (r.1.mapIdx fun q p => (tileNum v.aty r.2 q, tileNum v.bty col p))
        (i, c, x.1, x.2, false)

/-- R209: logical and witness physical row of witnessed pass `p`. -/
def witnessRows (p : Nat) : Nat × Nat := (p % 128, (p % 128 + 1 + p / 128 % 127) % 128)

/-- R187, R209: array wall cycles that a pass takes. -/
def passCycles (aty n : Nat) (wit : Bool) : Nat :=
  let t := if aty = 2 ∨ aty = 3 then n else if aty = 6 ∨ aty = 7 ∨ aty = 16 then n / 4 else n / 2
  if wit then t + cdiv t 128 else t

/-- RSTEP, 0 acting as 16 (R422). -/
def State.rstep (s : State) : Nat := if s.devFld (aPower + 0x40) 31 24 = 0 then 16 else s.devFld (aPower + 0x40) 31 24

/-- R418: array wall cycles that the passes of a geode take from its current window on; its cores' arrays work side by side. -/
def State.busyOf (s : State) (g : Nat) : Nat :=
  (s.cores.map fun k => if geodeOf k.1 == g then k.2.arr else 0).foldl max 0

/-- R418: `n` array wall cycles of a geode's passes have gone by. -/
def State.spend (s : State) (g n : Nat) : State :=
  { s with cores := s.cores.map fun k => if geodeOf k.1 == g then (k.1, { k.2 with arr := k.2.arr - n }) else k }

/-- R418: the activity that a geode may come to in its current window. -/
def State.rampTop (s : State) (g : Nat) : Nat := min 256 ((s.geode g).activity + s.rstep)

/-- R418: a pass may not start in the geode's current window: its activity would rise by more than RSTEP, or the window is used up. -/
def State.rampHeld (s : State) (g : Nat) : Bool := decide (s.rampTop g ≤ s.busyOf g)

/-- R418: the window in which a pass may not start goes by; what its passes still take belongs to the next. -/
def State.windowPasses (s : State) (g : Nat) : State :=
  let a := s.rampTop g
  (s.spend g a).modGeode g fun e => { e with activity := a }

/-- R418: a pass that is ready ends a ballast pass of its geode. -/
def State.noBallast (s : State) (g : Nat) : State := if s.devFld (aGstat g) 24 24 = 0 then s else s.devPut (aGstat g) 24 24 0

/-- R189, R206, R209, R210, R339: a pass. A `wit` word witnesses the next pass alone (R204), and a tile with a malformed bitmap is a
microcode error even where it holds a poisoned unit (log entry 50). -/
def State.runPass (s : State) (v : Invocation) (sparse ovr : Bool) : State :=
  let k := s.here
  let f := k.facet v.facet
  if sparse == (v.spn == 0) || !v.inWindow v.cb then s.microFail v .illegalEncoding
  else
    match v.tileA, v.tileB with
    | some ta, some tb =>
      if sparse && !(upto 128).all (fun i => rowFormed v.spn (aRow v (plain ta) i).1) then s.microFail v .illegalEncoding
      else if (ta ++ tb).any (·.poison)
          || !ovr && (rect 0 128 v.cb.toNat v.item.n).any (fun p => k.accBad f p.1 p.2) then s.microFail v .poisonedOperand
      else
        let es := passEntries k f v (plain ta) (plain tb) ovr
        let wit := f.witOn || v.wit
        let rows := witnessRows k.witCount
        let bad := wit && Config.witnessDiffers s.cur k.witCount rows.1
        let s := s.modHere fun k =>
          { k.accPut f (es.map fun e => (e.1, e.2.1, e.2.2.1)) with
            witCount := if wit then k.witCount + 1 else k.witCount
            arr := k.arr + passCycles v.aty v.item.n wit }
        let s := s.modFacet s.cur v.facet fun f =>
          { f with
            passes := f.passes + 1
            sat := f.sat || es.any fun e => e.2.2.2.2
            wcount := if wit then f.wcount + 1 else f.wcount
            wmis := f.wmis || bad
            wrow := if bad then BitVec.ofNat 7 rows.1 else f.wrow
            wphy := if bad then BitVec.ofNat 7 rows.2 else f.wphy }
        (s.countCore s.cur 0x05 1).setInv { v.next with
          tileA := none
          tileB := none
          wit := false
          flags := es.foldl (fun a e => a ||| e.2.2.2.1) v.flags
          err := if bad then some (v.err.getD .witnessMismatch) else v.err }
    | _, _ => s.microFail v .illegalEncoding

/-- R182, R204: moves what a share holds of a tile into staging; the tile is complete when all its bytes have come. -/
def State.runPop (s : State) (v : Invocation) (isA : Bool) : State :=
  let f := s.here.facet v.facet
  let size := if isA then aTileBytes v.aty v.spn else bTileBytes v.bty v.spn v.item.n
  let share := if isA then f.fifoA else f.fifoB
  let n := min (size - v.part.length) share.length
  let got := v.part ++ share.take n
  let s := s.modFacet s.cur v.facet fun f => if isA then { f with fifoA := f.fifoA.drop n } else { f with fifoB := f.fifoB.drop n }
  if got.length < size then s.setInv { v with part := got }
  else s.setInv { v.next with part := [], tileA := if isA then some got else v.tileA, tileB := if isA then v.tileB else some got }

/-- R204, R207: `acc`: every entry of both ranges is read before any is written. -/
def State.runAcc (s : State) (v : Invocation) (x : Int) : State :=
  let k := s.here
  let f := k.facet v.facet
  let other := v.cb + 16 * x
  if !(v.inWindow v.cb && v.inWindow other) then s.microFail v .illegalEncoding
  else
    let d := v.cb.toNat
    let e := other.toNat
    if (rect 0 128 d v.item.n ++ rect 0 128 e v.item.n).any fun p => k.accBad f p.1 p.2 then s.microFail v .poisonedOperand
    else
      let es := (rect 0 128 0 v.item.n).map fun p =>
        let a := k.accGet f p.1 (d + p.2)
        let b := k.accGet f p.1 (e + p.2)
        if pairInt v.aty then
          let c := clampInt (a.int + b.int) (intMin 19) (intMax 19)
          (p.1, d + p.2, (⟨BitVec.ofInt 32 c.1, 0⟩ : AccEntry), (0 : BitVec 6), c.2)
        else
          let z := a.num.add b.num
          let r := ro z.1 (fmtOf 1)
          (p.1, d + p.2, (⟨BitVec.ofNat 32 r.1, BitVec.ofNat 2 r.2.1⟩ : AccEntry), r.2.2 ||| z.2, false)
      let s := s.modHere fun k => k.accPut f (es.map fun e => (e.1, e.2.1, e.2.2.1))
      let s := s.modFacet s.cur v.facet fun f => { f with sat := f.sat || es.any fun e => e.2.2.2.2 }
      s.setInv { v.next with flags := es.foldl (fun a e => a ||| e.2.2.2.1) v.flags }

/-- R204: `scale`: entries times 2^X, rounded to odd; floating point only (R206). -/
def State.runScale (s : State) (v : Invocation) (x : Int) : State :=
  let k := s.here
  let f := k.facet v.facet
  if pairInt v.aty || !v.inWindow v.cb then s.microFail v .illegalEncoding
  else
    let ps := rect 0 128 v.cb.toNat v.item.n
    if ps.any fun p => k.accBad f p.1 p.2 then s.microFail v .poisonedOperand
    else
      let es := ps.map fun p => (p, ro ((k.accGet f p.1 p.2).num.scale x) (fmtOf 1))
      let s := s.modHere fun k =>
        k.accPut f (es.map fun e => (e.1.1, e.1.2, ⟨BitVec.ofNat 32 e.2.1, BitVec.ofNat 2 e.2.2.1⟩))
      s.setInv { v.next with flags := es.foldl (fun a e => a ||| e.2.2.2) v.flags }

/-- R204, R250: `sync`: posts the record when the invocation's place is the oldest of its facet's order and the event
queue has room; without a place it has no effect. -/
def State.runSync (s : State) (v : Invocation) (x : Nat) : State :=
  let f := s.here.facet v.facet
  if v.item.place = 0 then s.setInv v.next
  else if (f.order.head?.map (·.id)) == some v.item.place && decide (s.here.evq.length < 64) then
    (s.modHere fun k =>
      { k with evq := k.evq ++ [⟨v.facet, BitVec.ofNat 64 (8 + x % 2 ^ 16 * 2 ^ 16), 0⟩] }).setInv v.next
  else s

/-- Runs one micro-operation of the current core's running invocation (R207). -/
def microOp (s : State) (effect : Invocation → State) : Out :=
  .next (match s.here.inv with
    | some v => if v.ended then s else effect v
    | none => s)

/-- R204: `nop`. -/
def execNop (s : State) : Out := microOp s fun v => s.setInv v.next
/-- R204: `pop.a`. -/
def execPopA (s : State) : Out := microOp s fun v => s.runPop v true
/-- R204: `pop.b`. -/
def execPopB (s : State) : Out := microOp s fun v => s.runPop v false
/-- R204: `pass`. -/
def execPass (ovr : BitVec 1) (s : State) : Out := microOp s fun v => s.runPass v false (ovr == 1)
/-- R204: `pass.sp`. -/
def execPassSp (ovr : BitVec 1) (s : State) : Out := microOp s fun v => s.runPass v true (ovr == 1)
/-- R204: `acc`. -/
def execAcc (val : BitVec 16) (src : BitVec 2) (s : State) : Out :=
  microOp s fun v => s.runAcc v (sextNat (v.operand src val 2) 16)
/-- R204: `zero`. -/
def execZero (s : State) : Out :=
  microOp s fun v =>
    if v.inWindow v.cb then (s.modHere fun k => k.accZero (k.facet v.facet) 0 128 v.cb.toNat v.item.n).setInv v.next
    else s.microFail v .illegalEncoding
/-- R204: `shift`. -/
def execShift (val : BitVec 16) (src : BitVec 2) (s : State) : Out :=
  microOp s fun v => s.setInv { v.next with cb := v.cb + v.item.n * sextNat (v.operand src val 2) 16 }

/-- R205: a loop counter at a `loop` word: the counter after it, and whether the body runs again. -/
def loopStep (c : Option Nat) (x : Nat) : Option Nat × Bool :=
  let n := c.getD (max x 1 - 1)
  if n = 0 then (none, false) else (some (n - 1), true)

/-- R205: `loop`. -/
def execMicroLoop (tgt : BitVec 10) (ctr : BitVec 1) (val : BitVec 16) (src : BitVec 2) (s : State) : Out :=
  microOp s fun v =>
    if v.words.length ≤ tgt.toNat then s.microFail v .illegalEncoding
    else
      let r := loopStep (if ctr = 0 then v.ctr0 else v.ctr1) (v.operand src val (2 + ctr.toNat))
      let v := if ctr = 0 then { v with ctr0 := r.1 } else { v with ctr1 := r.1 }
      s.setInv (if r.2 then { v with pc := tgt.toNat } else v.next)
/-- R204: `jump`. -/
def execJump (tgt : BitVec 10) (s : State) : Out :=
  microOp s fun v =>
    if v.words.length ≤ tgt.toNat then s.microFail v .illegalEncoding else s.setInv { v with pc := tgt.toNat }
/-- R204: `end`. -/
def execMicroEnd (s : State) : Out := microOp s fun v => s.setInv { v with ended := true }
/-- R204: `scale`. -/
def execScale (val : BitVec 16) (src : BitVec 2) (s : State) : Out :=
  microOp s fun v => s.runScale v (sextNat (v.operand src val 2) 16)
/-- R204: `wit`. -/
def execWit (s : State) : Out := microOp s fun v => s.setInv { v.next with wit := true }
/-- R204: `sync`. -/
def execSync (val : BitVec 16) (src : BitVec 2) (s : State) : Out := microOp s fun v => s.runSync v (v.operand src val 2)

/-- A micro-operation that starts a pass (R417). -/
def startsPass : Instr → Bool
  | .pass _ => true
  | .passSp _ => true
  | _ => false

/-- R191, R206: the unit's next step on a core: the next item begins, an ended invocation completes its item, and a
running one takes its next word (past the last word it ends, a malformed word is an error); the start of a pass is held by the
current limiter (R417) and by the ramp of the geode's activity (R418). -/
def execMatrixItemRun (core : Nat) (s : State) : Out :=
  .next (
    let k := s.core core
    match k.inv with
    | some v =>
      if v.ended then s.finishItem core v.facet v.item v.flags v.err
      else
        match v.words[v.pc]? with
        | none => s.modCore core fun k => { k with inv := some { v with ended := true } }
        | some w =>
          match decodeMicro w.toNat with
          | some i =>
            if !startsPass i then { s with cur := core, due := [i] }
            else
              let s := s.noBallast (geodeOf core)
              if (s.geode (geodeOf core)).limited then s
              else if s.rampHeld (geodeOf core) then s.windowPasses (geodeOf core)
              else { s with cur := core, due := [i] }
          | none =>
            s.modCore core fun k => { k with inv := some { v with ended := true, err := some (v.err.getD .illegalEncoding) } }
    | none =>
      match k.nextItem with
      | some (fn, it) => s.startItem core fn it
      | none => s)

end Sys2Proof.Machine
end

