-- ==== Sys2Proof/Machine/Power.lean ====
section
/-! DEFINITION. Power, current and energy accounting (15 R410 to R421): frequency steps, level grants at an epoch's end,
critical temperature, the current limiter and matrix ballast, with the power event rings. -/

namespace Sys2Proof.Machine

/-- LEVELk.FMAX (R422). -/
def State.fmax (s : State) (k : Nat) : Nat := s.devFld (aPower + 8 * k) 5 0

/-- LEVELk.GPOW (R422). -/
def State.gpow (s : State) (k : Nat) : Nat := s.devFld (aPower + 8 * k) 21 8

/-- FTGT of the resident facets of a geode (R411). -/
def State.ftgts (s : State) (g : Nat) : List (BitVec 6) :=
  (upto 16).flatMap fun r => (s.core (coreAt g r)).facets.filterMap fun f => if f.2.resident then some f.2.ftgt else none

/-- R411: the target code of a geode. -/
def State.targetCode (s : State) (g : Nat) : Nat :=
  let ceiling := s.fmax (s.granted g)
  let want := (s.ftgts g).foldl (fun a f => max a (if f == 63 then ceiling else f.toNat)) 0
  if s.devFld (aPower + 0x48) 37 30 ≤ s.devFld (aGstat g) 23 16 then 0 else min ceiling want

/-- The fused voltage of a code, never above VMAXF (R410, R419). -/
def State.voltage (s : State) (code : Nat) : Nat := min (Config.voltageOf code).toNat (s.devFld (aPower + 0x48) 17 8)

/-- FREQUENCY_STEP (R410): one code towards the target; the voltage rises before the first step up and falls after the last
step down, and where a change ends because the target has come to the code the voltage becomes that code's. -/
def execFrequencyStep (geode : Nat) (s : State) : Out :=
  .next (
    if 40 ≤ geode then s
    else
      let c := s.devFld (aGstat geode) 8 3
      let t := s.targetCode geode
      let moving (b : Bool) (s : State) : State :=
        if (s.geode geode).changing = b then s else s.modGeode geode fun e => { e with changing := b }
      if c < t then moving (c + 1 != t) ((s.devPut (aGstat geode) 41 32 (s.voltage t)).devPut (aGstat geode) 8 3 (c + 1))
      else if t < c then
        let s := s.devPut (aGstat geode) 8 3 (c - 1)
        moving (c - 1 != t) (if c - 1 = t then s.devPut (aGstat geode) 41 32 (s.voltage t) else s)
      else moving false (s.devPut (aGstat geode) 41 32 (s.voltage t)))

/-- R420, R372: a record of a partition's power event ring: dropped without counting below LOG2 4, counted in LOST when the
ring is full. -/
def State.peqPost (s : State) (p kind geo old new value : Nat) : State :=
  s.ringPost (aPart p + 0x40) 4
    [kind + geo * 2 ^ 8 + old * 2 ^ 16 + new * 2 ^ 19, s.nanos.toNat, value, (s.devGet (aPart p + 0x60)).toNat]

/-- The partition of a geode, if one is assigned (R18). -/
def State.partOf (s : State) (g : Nat) : Option Nat :=
  if s.devFld (aGeodeMap g) 11 11 = 1 then some (s.geodePart g) else none

/-- A record about a geode, to the ring of its partition. -/
def State.peqGeode (s : State) (g kind old new value : Nat) : State :=
  match s.partOf g with
  | some p => s.peqPost p kind g old new value
  | none => s

/-- Logical geodes of a partition (R376). -/
def State.geodesOf (s : State) (p : Nat) : List Nat := (upto 40).filter fun g => s.partOf g == some p

/-- R378, R421: energy of an epoch that a partition is charged with: its geodes' regulators, its tasks' traffic, its scheduler work
and the pre-emptions that it initiated. -/
def State.epochOf (s : State) (r : EpochReport) (p : Nat) : Nat :=
  ((s.geodesOf p).map fun g => r.geodeEnergy.getD g 0).sum + r.traffic.getD p 0 + r.scheduler.getD p 0
    + r.preempt.getD p 0

/-- R421: energy of an epoch that the overhead account is charged with. -/
def State.epochOverhead (s : State) (r : EpochReport) : Nat :=
  r.overhead + (((upto 40).filter fun g => s.partOf g == none).map fun g => r.geodeEnergy.getD g 0).sum

/-- R421: package energy of an epoch. -/
def State.epochTotal (s : State) (r : EpochReport) : Nat := ((upto 8).map (s.epochOf r)).sum + s.epochOverhead r

/-- Adds to a 64-bit counter, modulo 2^64. -/
def State.devCount (s : State) (a n : Nat) : State := s.devSet a (s.devGet a + BitVec.ofNat 64 n)

/-- R421: the accounts after an epoch. -/
def State.account (s : State) (r : EpochReport) : State :=
  let t := (upto 8).foldl (fun t p =>
    ((t.devCount (aPart p + 0x60) (s.epochOf r p)).devCount (aPart p + 0x68) (r.preempt.getD p 0)).devCount (aPart p + 0x70)
      (r.ballast.getD p 0)) s
  (t.devCount (aPower + 0x58) (s.epochOverhead r)).devCount (aPower + 0x50) (s.epochTotal r)

/-- R412 step 1: the highest level whose assumed power fits the cap. -/
def State.fitLevel (s : State) (p : Nat) : Option Nat :=
  (upto 8).reverse.find? fun k =>
    decide (k ≤ s.devFld (aPart p + 0x58) 18 16 ∧ (s.geodesOf p).length * s.gpow k ≤ s.devFld (aPart p + 0x58) 15 0)

/-- R412 step 1: the partition level, with a KIND 6 record when no level fits. -/
def State.partLevel (s : State) (p : Nat) : State :=
  match s.fitLevel p with
  | some k => s.devPut (aPart p + 0x58) 26 24 k
  | none => (s.devPut (aPart p + 0x58) 26 24 0).peqPost p 6 63 0 0 (s.devFld (aPart p + 0x58) 15 0)

/-- Steps of package allowance that a partition has lost (R412). -/
def State.lost (s : State) (p : Nat) : Nat := s.pkgLoss.get p 0

/-- R412 step 2: the partition with the most energy, ties to the lower number. -/
def State.epochMost (s : State) (r : EpochReport) : Nat :=
  (upto 8).foldl (fun b p => if s.epochOf r b < s.epochOf r p then p else b) 0

/-- R412 step 2: the package allowances. -/
def State.packageStep (s : State) (r : EpochReport) : State :=
  let budget := s.devFld (aPower + 0x40) 15 0 * 100
  if budget < s.epochTotal r then
    let p := s.epochMost r
    { s with pkgLoss := s.pkgLoss.set p (min 7 (s.lost p + 1)) }
  else if s.epochTotal r * 100 < budget * 95 then
    match (upto 8).find? fun p => s.lost p != 0 with
    | some p => { s with pkgLoss := s.pkgLoss.set p (s.lost p - 1) }
    | none => s
  else s

/-- R412 step 3, R420: a geode's temperature, its thermal allowance, and the records of a warning and of its end. -/
def State.thermalStep (s : State) (r : EpochReport) (g : Nat) : State :=
  let temp := (r.temps.getD g 0).toNat
  let warn := s.devFld (aPower + 0x40) 23 16
  let s := s.devPut (aGstat g) 23 16 temp
  if warn ≤ temp then
    let t := s.modGeode g fun e => { e with thermalLoss := min 7 (e.thermalLoss + 1), warned := true }
    if (s.geode g).warned then t else t.peqGeode g 4 0 0 temp
  else if temp + 5 ≤ warn then
    let t := s.modGeode g fun e => { e with thermalLoss := e.thermalLoss - 1, warned := false }
    if (s.geode g).warned then t.peqGeode g 5 0 0 temp else t
  else s

/-- R412: the level granted to a geode. -/
def State.grantOf (s : State) (g : Nat) : Nat :=
  match s.partOf g with
  | some p => min (s.devFld (aPart p + 0x58) 26 24) (min (7 - s.lost p) (7 - (s.geode g).thermalLoss))
  | none => 0

/-- R412, R420: a geode takes its level, with a KIND 1 record when it changes. -/
def State.grant (s : State) (g : Nat) : State :=
  let old := s.granted g
  let new := s.grantOf g
  let t := s.devPut (aGstat g) 2 0 new
  if old = new then t else t.peqGeode g 1 old new (t.fmax new)

/-- EPOCH_END (R412, R421): energy is counted, then the three steps grant a level to every geode; a switch point whose hold ended before
keeps the level that it ended at (R415). -/
def execEpochEnd (r : EpochReport) (s : State) : Out :=
  .next (
    let s := s.account r
    let s := (upto 8).foldl State.partLevel s
    let s := s.packageStep r
    let s := (upto 40).foldl (fun s g => s.thermalStep r g) s
    let s := (upto 40).foldl State.latchSwitches s
    (upto 40).foldl State.grant s)

/-- TEMPERATURE_CRITICAL (R411, R420): a reading at or above TCRIT; the target is 0 from now on, and a KIND 7 record is
posted. -/
def execTemperatureCritical (geode : Nat) (temp : BitVec 8) (s : State) : Out :=
  .next (
    if 40 ≤ geode ∨ temp.toNat < s.devFld (aPower + 0x48) 37 30 then s
    else (s.devPut (aGstat geode) 23 16 temp.toNat).peqGeode geode 7 0 0 temp.toNat)

/-- The partitions of some geodes, each once. -/
def State.partsOf (s : State) (gs : List Nat) : List Nat := (gs.filterMap s.partOf).eraseDups

/-- R417: ends the hold on every geode. -/
def State.unlimit (s : State) : State :=
  (upto 40).foldl (fun s g => if (s.geode g).limited then s.modGeode g fun e => { e with limited := false } else s) s

/-- CURRENT_REPORT (R417, R420, R422): the rail current; the hold begins at 95 % of ILIM on the geodes with the highest current
and ends at 90 %. -/
def execCurrentReport (amps : List Nat) (other : Nat) (s : State) : Out :=
  .next (
    let ilim := s.devFld (aPower + 0x48) 29 18
    let sum := (amps.take 40).sum + other
    if ilim < sum then s
    else
      let s := s.devPut (aPower + 0x60) 11 0 sum
      let held := s.devFld (aPower + 0x60) 12 12 = 1
      if !held ∧ 95 * ilim ≤ 100 * sum then
        let top := (amps.take 40).foldl max 0
        let gs := (upto 40).filter fun g => amps[g]? == some top
        let s := gs.foldl (fun s g => s.modGeode g fun e => { e with limited := true }) s
        let s := (s.devPut (aPower + 0x60) 12 12 1).devAdd (aPower + 0x60) 63 32 1
        (s.partsOf gs).foldl (fun s p => s.peqPost p 2 63 0 0 sum) s
      else if held ∧ 100 * sum ≤ 90 * ilim then
        let gs := (upto 40).filter fun g => (s.geode g).limited
        let s := s.unlimit.devPut (aPower + 0x60) 12 12 0
        (s.partsOf gs).foldl (fun s p => s.peqPost p 3 63 0 0 sum) s
      else s)

/-- R418: the array wall cycles of a geode's passes that fall into the window that ends, with `later` of them to come after it. -/
def State.windowBusy (s : State) (g later : Nat) : Nat := s.busyOf g - min later (s.busyOf g)

/-- ACTIVITY_WINDOW (R418): the activity of a window is what its passes kept the arrays busy, and it moves by at most RSTEP: pass starts
are delayed, whose cycles then belong to the next window, or ballast fills. -/
def execActivityWindow (geode later : Nat) (s : State) : Out :=
  .next (
    if 40 ≤ geode then s
    else
      let n := s.windowBusy geode later
      let old := (s.geode geode).activity
      (s.spend geode (min n (s.rampTop geode))).modGeode geode fun e =>
        { e with activity := max (old - s.rstep) (min (s.rampTop geode) n) })

/-- R418: the window's passes would make the geode's activity fall by more than RSTEP. -/
def State.falling (s : State) (g : Nat) : Bool := decide (s.busyOf g + s.rstep < (s.geode g).activity)

/-- BALLAST_PASS (R418): a ballast pass begins where activity would fall too far, or is abandoned; it changes GSTAT.BALLAST only. -/
def execBallastPass (geode : Nat) (on : Bool) (s : State) : Out :=
  .next (if 40 ≤ geode || on && !s.falling geode then s else s.devPut (aGstat geode) 24 24 (if on then 1 else 0))

end Sys2Proof.Machine
end

