-- ==== Sys2Proof/Machine/Preempt.lean ====
section
/-! DEFINITION. The pre-emption policy (14 R397, R398), fossils and sparing (R399 to R403) and portable checkpoints (R404 to
R407). What a fossil's body and a checkpoint record hold is data beside their bytes in memory (log entry 14). -/

namespace Sys2Proof.Machine

/-! ## Fossils -/

/-- R398: fossil slots of a partition, and their bytes. -/
abbrev fossilBytes : Nat := 0x2000000

/-- R398: fossils that a partition holds. -/
def State.fossilsOf (s : State) (p : Nat) : List Fossil := s.fossils.filter fun f => f.used && f.part.toNat == p

/-- R398: address of a free fossil slot of a partition. -/
def State.freeFossil (s : State) (p : Nat) : Option Nat :=
  let base := 2 ^ 25 * s.devFld (aPart p + 0xC0) 47 25
  ((upto (s.devFld (aPart p + 0xC0) 7 0)).map fun i => base + fossilBytes * i).find? fun a =>
    !(s.fossils.any fun f => f.used && f.pa == a)

/-- R398: FSU.USED follows the fossils. -/
def State.countFossils (s : State) (p : Nat) : State := s.devPut (aPart p + 0xC8) 7 0 (s.fossilsOf p).length

/-- R401: the body of a fossil: its length and its bytes, which no rule lays out (log entry 14). -/
def Fossil.body (f : Fossil) : List (BitVec 8) :=
  (upto (Config.bodyBytes f.draw % (26320 * 1024 + 1))).map (Config.bodyByte f.draw)

/-- R401: the words of a fossil's header. -/
def Fossil.words (f : Fossil) : List Nat :=
  [1 + f.state.toNat * 2 ^ 16 + f.reason.toNat * 2 ^ 18, f.trev.toNat + f.step.toNat * 2 ^ 4 + f.lgeo * 2 ^ 12 + f.part.toNat * 2 ^ 18,
   f.lhash.toNat, f.ftime.toNat, Config.bodyBytes f.draw % (26320 * 1024 + 1), (crcFold 0 f.body).toNat, f.inb + f.outb * 2 ^ 32]

/-- R401: the header of a fossil in its slot. -/
def State.putFossilHeader (s : State) (f : Fossil) : State := s.putOwn f.pa (f.words.flatMap (leBytes 8))

/-- R402: a geode holds no task. -/
def State.geodeEmpty (s : State) (g : Nat) : Bool := (s.launchesOn g).isEmpty && !(s.geode g).frozen

/-- The windows of each launch on the cores of a geode (R399). -/
def State.windowsAt (s : State) (g : Nat) : Tbl (Tbl (List Nat)) :=
  let at' (l : Nat × Launch) : Nat × Tbl (List Nat) := (l.1, l.2.windows.filter fun w => geodeOf w.1 == g)
  (s.launches.map at').filter fun w => !w.2.isEmpty

/-- R400: an access that does not cross the boundary of its geode: to a scratchpad, or to a register of a core of the geode. -/
def Access.within (a : Access) : Bool :=
  match a.home with
  | .spad _ => true
  | .device => a.op.addrs.any fun p => coreRegGeode p == some (geodeOf a.core)
  | _ => false

/-- R400: an access of a frozen geode that stays in the fossil, not accepted outside: within the geode, not taken by a port, or, inside
the lode, one that may not perform yet. -/
def State.staysIn (s : State) (a : Access) : Bool :=
  a.within || match a.home with
    | .remote _ => a.ports.isEmpty
    | _ => !s.mayPerform a

/-- R400, R443: the requests of a geode's feeders, bands and frame returns that ports hold unanswered. -/
def State.owedReqs (s : State) (g : Nat) : List PortReq :=
  ((s.cores.filter fun k => geodeOf k.1 == g).flatMap fun k => k.2.portReqs).filter fun r => !r.done

/-- R399, R400: the state of a geode as a fossil keeps it. -/
def State.fossilOf (s : State) (g : Nat) (reason : BitVec 2) (pa : Nat) : Fossil :=
  let mine := s.accs.filter fun a => geodeOf a.core == g
  let held := mine.filter s.staysIn
  let owed := mine.filter fun a => !s.staysIn a && match a.op with | .load _ _ => true | .atomic _ _ _ _ _ _ _ _ => true | _ => false
  { state := 1, reason := reason, trev := BitVec.ofNat 4 (s.devFld (aGeodeMap g) 15 12), step := Config.fuseStep, lgeo := g
    part := BitVec.ofNat 3 (s.geodePart g), lhash := Config.slotLhash (g / 20) (s.devFld (aGeodeMap g) 4 0), ftime := s.nanos
    inb := owed.length + (s.owedReqs g).length
    outb := (held.filter fun a => !a.within).length
    pa := pa, cores := s.cores.filter fun k => geodeOf k.1 == g, geode := s.geode g
    windows := s.windowsAt g, regs := s.dev.filter fun x => geodeReg g x.1, held := held.map (·.id), owed := owed.map (·.id)
    draw := s.freeCtr }

/-- R399: what stays outside the fossil of a geode: its clock and its level. -/
def Geode.outside (g : Geode) : Geode :=
  { thermalLoss := g.thermalLoss, warned := g.warned, activity := g.activity, limited := g.limited
    changing := g.changing }

/-- R399: a geode's state leaves it for a fossil. -/
def State.takeFossil (s : State) (f : Fossil) : State :=
  let g := f.lgeo
  let s := s.modGeode g fun e => { e.outside with frozen := true }
  let s := { s with
    cores := s.cores.filter fun k => geodeOf k.1 != g
    launches := s.launches.map fun (l : Nat × Launch) => (l.1, { l.2 with windows := l.2.windows.filter fun w => geodeOf w.1 != g })
    fossils := s.fossils ++ [f]
    freeCtr := s.freeCtr + 1 }
  (s.countFossils f.part.toNat).putFossilHeader f

/-- R399, R415: a geode is frozen into a fossil slot: its facets that have reached a switch point whose hold is over have taken their
level, and its state leaves it. -/
def State.freezeInto (s : State) (g : Nat) (reason : BitVec 2) (pa : Nat) (spare : Option SpareSlot := none) : State :=
  let s := s.latchSwitches g
  s.takeFossil { s.fossilOf g reason pa with spare := spare }

/-- GEODE_FREEZE (R399 to R401): the geode stops and its state streams into a free fossil slot of its partition. -/
def execGeodeFreeze (geode : Nat) (reason : BitVec 2) (s : State) : Out :=
  .next (
    if 40 ≤ geode || (s.geode geode).frozen then s
    else
      match s.freeFossil (s.geodePart geode) with
      | none => s
      | some pa => s.freezeInto geode reason pa)

/-- Changes a fossil. -/
def State.modFossil (s : State) (i : Nat) (f : Fossil → Fossil) : State := { s with fossils := s.fossils.modify i f }

/-- R402, R403: the tasks of a fossil are killed and its slot is free. -/
def State.killFossil (s : State) (i : Nat) (f : Fossil) (st : BitVec 16) : State :=
  let s := f.tasks.foldl (fun s t => s.killFrozen i t.1 t.2.1 (stKilled ||| st)) s
  let s := (s.modFossil i fun f => { f with used := false }).countFossils f.part.toNat
  if f.state == 1 then s.modGeode f.lgeo fun e => { e with frozen := false } else s

/-! ## Sparing -/

/-- The slots of a geode's die that hold no geode, its offline ones apart, and have not been taken out of use (R15, R442). -/
def State.slotFree (s : State) (die slot : Nat) : Bool :=
  decide (slot < 22) && !Config.fusedOut die slot && !s.failedSlots.contains (32 * die + slot)
    && !(upto 40).any (fun n => n / 20 == die && s.devFld (aGeodeMap n) 4 0 == slot && s.geodeState n != 2)

/-- R403, R15, R441: a spare of the geode's die that holds a tile revision and a layout hash. -/
def State.spareOk (s : State) (g slot : Nat) (trev : BitVec 4) (lhash : BitVec 64) : Bool :=
  s.slotFree (g / 20) slot && Config.slotTrev (g / 20) slot == trev && Config.slotLhash (g / 20) slot == lhash

/-- R403: the spare that takes a fossil's geode: the one that firmware chose, if it will do, or the first that will. -/
def State.pickSpare (s : State) (f : Fossil) : Option Nat :=
  ((match f.spare with | some x => [x.slot.toNat] | none => []) ++ upto 22).find? fun k => s.spareOk f.lgeo k f.trev f.lhash

/-- R17, R403: a geode goes offline: its slot is out of use and the tasks of its fossils are killed. -/
def State.goOffline (s : State) (g : Nat) : State :=
  let s := { s with failedSlots := (32 * (g / 20) + s.devFld (aGeodeMap g) 4 0) :: s.failedSlots }.devPut (aGeodeMap g) 7 6 2
  ((s.fossils.mapIdx fun i f => (i, f)).filter fun x => x.2.used && x.2.lgeo == g).foldl (fun s x => s.killFossil x.1 x.2 stUnavail) s

/-- R403: the geode takes a spare slot; the one it leaves is out of use. -/
def State.takeSpare (s : State) (g slot : Nat) : State :=
  let s := { s with failedSlots := (32 * (g / 20) + s.devFld (aGeodeMap g) 4 0) :: s.failedSlots }
  let s := s.devPut 0x80000000000 27 24 (s.devFld 0x80000000000 27 24 - 1)
  (s.devPut (aGeodeMap g) 4 0 slot).devPut (aGeodeMap g) 15 12 (Config.slotTrev (g / 20) slot).toNat

/-- SPARING_SEQUENCE (R403, R17, R441): firmware sets STATE to 1 and freezes the geode into a free fossil slot; the end of the stream
moves it to a spare. A failing geode with neither a spare nor a free fossil slot goes offline with its tasks killed; a move for a
test needs both (log entry 35). -/
def execSparingSequence (geode : Nat) (spare : Option SpareSlot) (s : State) : Out :=
  .next (
    if 40 ≤ geode || s.geodeState geode != 0 || (s.geode geode).frozen then s
    else
      let test := match spare with | some x => x.forTest | none => false
      let reason : BitVec 2 := if test then 2 else 1
      match s.freeFossil (s.geodePart geode), s.pickSpare { s.fossilOf geode reason 0 with spare := spare } with
      | some pa, some _ => (s.devPut (aGeodeMap geode) 7 6 1).freezeInto geode reason pa spare
      | some pa, none => if test then s else (s.devPut (aGeodeMap geode) 7 6 1).freezeInto geode reason pa spare
      | none, some _ => s
      | none, none =>
        if test then s
        else
          let ts := s.cores.flatMap fun k =>
            if geodeOf k.1 == geode then (k.2.facets.filter fun x => x.2.resident).map fun x => (k.1, x.1) else []
          ts.foldl (fun s p =>
            let x := s.facet p.1 p.2
            (s.killTask p.1 p.2).tasksDone x.launch [] (stKilled ||| stUnavail)) (s.goOffline geode))

/-- R400: the accesses to the core registers of a geode that the freeze has held with their senders. -/
def State.regAccesses (s : State) (g : Nat) : List Nat :=
  (s.accs.filter fun a => a.home == .device && a.op.addrs.any fun p => coreRegGeode p == some g).map (·.id)

/-- FOSSIL_WRITE_COMPLETE (R401, R96, R403): the stream ends, the body stands behind its header, STATE becomes complete and the geode
is free for others; accesses that the freeze has held wait for the restore (R400). A geode that is being replaced takes its spare, or goes
offline. -/
def execFossilWriteComplete (i : Nat) (s : State) : Out :=
  .next (
    match s.fossils[i]? with
    | none => s
    | some f =>
      if !f.used || f.state != 1 then s
      else
        let f := { f with state := 2, held := f.held ++ s.regAccesses f.lgeo }
        let s := (s.modFossil i fun _ => f).modGeode f.lgeo fun e => { e with frozen := false }
        let s := (s.putOwn (f.pa + 4096) f.body).putFossilHeader f
        if s.geodeState f.lgeo != 1 || f.reason == 0 then s
        else
          match s.pickSpare f with
          | some k => s.takeSpare f.lgeo k
          | none => s.goOffline f.lgeo)

/-! ## Restore -/

/-- R324, R317: the walk that translates a handle again for a geode. -/
def State.rewalk (s : State) (g : Nat) (pasid : BitVec 20) (h : Handle) : State :=
  let s := s.meetWalk pasid h.va.toNat g
  match s.walk pasid h.va.toNat with
  | .ok l => if l.grants h.r h.w then s.modGeode g fun e => e.fill pasid h.va.toNat l else s
  | .error _ => s

/-- R324: a valid handle that is not pinned, translated again; a translation that fails leaves it faulted. -/
def State.rehandle (s : State) (pasid : BitVec 20) (h : Handle) : Handle :=
  if h.valid && !h.pin then
    match s.walk pasid h.va.toNat with
    | .ok l => l.handle h.va.toNat h.r h.w
    | .error c => Handle.faulted h.va.toNat c
  else h

/-- R402, R324, R403: the state of a fossil returns to its geode, its handles translated again before the geode runs, the results in
flight and in replay among them; a geode that was migrating is active. -/
def State.restoreFossil (s : State) (i : Nat) (f : Fossil) : State :=
  let g := f.lgeo
  let out := s.geode g
  let s := s.modGeode g fun _ =>
    { f.geode with thermalLoss := out.thermalLoss, warned := out.warned, activity := out.activity
                   limited := out.limited, changing := out.changing, tcache := [], frozen := false }
  let xs := f.cores.flatMap fun k => (k.2.facets.filter fun x => x.2.resident).map (·.2)
  let s := xs.foldl (fun (s : State) (x : Facet) =>
    (x.handles.filter fun h => h.valid && !h.pin).foldl (fun s h => s.rewalk g x.pasid h) s) s
  let re (x : Facet) : Facet := x.mapHandles (fun _ => true) (s.rehandle x.pasid)
  let s := s.unpack f fun k => { k with facets := k.facets.map fun (x : Nat × Facet) => (x.1, re x.2) }
  let s := if s.geodeState g == 1 then s.devPut (aGeodeMap g) 7 6 0 else s
  ((s.modFossil i fun _ => { f with state := 3, used := false }).countFossils f.part.toNat).putFossilHeader { f with state := 3 }

/-- R400, R402: the transfers that the boundary buffers hold for a fossil: all that its geode was owed but the replies to accesses still on
their way. -/
def State.boundary (s : State) (f : Fossil) : Nat := f.inb - (f.owed.filter fun i => s.accs.any fun a => a.id == i).length

/-- R402: bytes of a fossil's body, as its header says. -/
def State.fossilLen (s : State) (f : Fossil) : Nat := s.numAt (f.pa + 32) 8

/-- R330, R402: the header and the body of a fossil are read. -/
def State.readFossil (s : State) (f : Fossil) : State :=
  let s := s.meetRange f.pa 56 40
  if s.fossilLen f ≤ fossilBytes - 4096 then s.meetRange (f.pa + 4096) (s.fossilLen f) 40 else s

/-- R402: a complete fossil matches the slot of its geode, as its header and its body stand in memory, none of it poisoned. -/
def State.fossilMatches (s : State) (f : Fossil) : Bool :=
  let w (k : Nat) : Nat := s.numAt (f.pa + 8 * k) 8
  let slot := s.devFld (aGeodeMap f.lgeo) 4 0
  !s.poisonIn f.pa 56 && !s.poisonIn (f.pa + 4096) (w 4) && s.geodeState f.lgeo != 2
    && nbits (w 0) 17 16 == 2 && nbits (w 1) 3 0 == s.devFld (aGeodeMap f.lgeo) 15 12
    && w 2 == (Config.slotLhash (f.lgeo / 20) slot).toNat && decide (w 4 ≤ fossilBytes - 4096)
    && nbits (w 5) 31 0 == (crcFold 0 (s.bytesAt (f.pa + 4096) (w 4))).toNat && nbits (w 6) 31 0 == s.boundary f

/-- R402: a fossil whose stream has ended comes up for its restore once its geode holds no task; a pre-emption fossil waits while the
geode is being replaced. -/
def State.fossilReady (s : State) (f : Fossil) : Bool :=
  f.used && f.state == 2 && s.geodeEmpty f.lgeo && (s.geodeState f.lgeo != 1 || f.reason != 0)

/-- FOSSIL_RESTORE (R402): a complete fossil returns to its geode once that holds no task; one that fails a condition, boundary buffers
that do not hold what its header counts among them, is unrestorable and its tasks are killed. A geode that is being replaced then keeps
its STATE, since no rule changes it (log entry 53). -/
def execFossilRestore (i : Nat) (s : State) : Out :=
  .next (
    match s.fossils[i]? with
    | none => s
    | some f =>
      if !s.fossilReady f then s
      else
        let s := s.readFossil f
        if s.fossilMatches f then s.restoreFossil i f else s.killFossil i f 0)

/-! ## Checkpoints -/

/-- Resident facets of a launch. -/
def State.facetsOf (s : State) (id : Nat) : List (Nat × Nat × Facet) :=
  s.cores.flatMap fun k => (k.2.facets.filter fun x => x.2.resident && x.2.launch == id).map fun x => (k.1, x.1, x.2)

/-- Resident facets of a launch that stand in fossils. -/
def State.frozenOf (s : State) (id : Nat) : List Facet :=
  (s.fossils.filter (·.used)).flatMap fun f => f.cores.flatMap fun k => (k.2.facets.map (·.2)).filter fun x => x.resident && x.launch == id

/-- Changes every facet of a launch, those in fossils among them. -/
def State.modFacetsOf (s : State) (id : Nat) (f : Facet → Facet) : State :=
  let of (t : Tbl Core) : Tbl Core := t.map fun (k : Nat × Core) =>
    (k.1, { k.2 with facets := k.2.facets.map fun x => if x.2.resident && x.2.launch == id then (x.1, f x.2) else x })
  { s with cores := of s.cores, fossils := s.fossils.map fun x => { x with cores := of x.cores } }

/-- R404, R407: a facet of a launch is parked. -/
def State.someParked (s : State) (id : Nat) : Bool := (s.facetsOf id).any (fun x => x.2.2.parked) || (s.frozenOf id).any (·.parked)

/-- R397, R398: an action of the policy in PSTAT. -/
def State.policyActed (s : State) (p last fallback : Nat) : State :=
  let a := aPart p + 0xF0
  ((s.devPut a 2 0 last).devPut a 3 3 fallback).devAdd a 63 32 1

/-- R398: where the next record of a partition goes, and the end of the area; a failed record gives up its place (log entry 14). -/
def State.recordPlace (s : State) (p : Nat) : Nat × Nat :=
  let base := 65536 * s.devFld (aPart p + 0xD0) 47 16
  let stop := base + 65536 * s.devFld (aPart p + 0xD8) 31 0
  let last := s.ckpts.foldl (fun a c =>
    if base ≤ c.pa ∧ c.pa < stop ∧ c.part.toNat = p ∧ c.state ≠ 2 then max a (c.pa + c.bytes) else a) base
  (65536 * cdiv last 65536, stop)

/-- Bytes of a record's header (R405). -/
abbrev recordHeader : Nat := 256

/-- R405: the header of a record in memory, its fields a word each in the order of the rule (log entry 14). -/
def State.putRecordHeader (s : State) (r : Ckpt) (crc : BitVec 32) : State :=
  let ws := [1 + r.state.toNat * 2 ^ 16, r.pasid.toNat, r.slot + r.packet.toNat * 2 ^ 32, r.kernel.toNat,
    r.ntasks + r.windows.length * 2 ^ 32, crc.toNat]
  s.putOwn r.pa (ws.flatMap (leBytes 8) ++ List.replicate (recordHeader - 48) 0)

/-- R405: a record goes to its place in memory: its header, and the sections behind it, whose bytes no rule lays out (log entry 14). -/
def State.putRecord (s : State) (r : Ckpt) : State :=
  let body := (upto (r.bytes - recordHeader)).map (Config.recordByte s.freeCtr)
  { (s.putRecordHeader r (crcFold 0 body)).putOwn (r.pa + recordHeader) body with
    ckpts := s.ckpts ++ [r], freeCtr := s.freeCtr + 1 }

/-- R405: the record of a launch that is being written. -/
def State.writing (s : State) (id : Nat) : Option Nat :=
  (upto s.ckpts.length).find? fun i => match s.ckpts[i]? with | some c => c.launch == id && c.state == 0 | none => false

/-- R404, R405, R407: STATE of a record changes. -/
def State.markRecord (s : State) (i : Nat) (st : BitVec 2) : State :=
  match s.ckpts[i]? with
  | some c =>
    { s.putRecordHeader { c with state := st } (BitVec.ofNat 32 (s.numAt (c.pa + 40) 4)) with ckpts := s.ckpts.modify i fun c => { c with state := st } }
  | none => s

/-- R407: the record of a checkpoint that fails says so: the one being written, or a header alone where the area has room for it. -/
def State.failRecord (s : State) (id : Nat) (l : Launch) : State :=
  match s.writing id with
  | some i => s.markRecord i 2
  | none =>
    let q := s.qslot l.slot
    let pl := s.recordPlace q.part.toNat
    if pl.2 < pl.1 + recordHeader then s
    else
      s.putRecord
        { state := 2, part := q.part, pasid := l.pasid, slot := l.slot, packet := q.ridx, kernel := (pw l.words 2).truncate 57
          posmap := l.kernel.posmap, pa := pl.1, bytes := recordHeader, ntasks := l.ntasks, launch := id, tasks := [], windows := [] }

/-- R407: a checkpoint fails: held facets issue on, and each geode of the launch is frozen, or the launch killed where one
cannot be. -/
def State.checkpointFails (s : State) (id : Nat) : State :=
  match s.launches.find id with
  | none => s
  | some l =>
    let p := (s.qslot l.slot).part.toNat
    let s := { s.failRecord id l with launches := s.launches.set id { l with ckAsk := false } }
    let s := s.modFacetsOf id fun f => { f with ckRequested := false, ckHeld := false }
    let gs : List Nat := ((s.facetsOf id).map fun x => geodeOf x.1).eraseDups
    let freezable := gs.all fun g =>
      ((s.launchesOn g).all fun i => i == id || (s.victims l.ckBy g).contains i) && (s.freeFossil p).isSome
    if freezable && Nat.ble (gs.length + (s.fossilsOf p).length) (s.devFld (aPart p + 0xC0) 7 0) then
      gs.foldl (fun s g =>
        match s.freeFossil p with
        | some pa => s.freezeInto g 0 pa
        | none => s) (s.policyActed p 3 1)
    else (s.policyActed p 4 1).killLaunch id

/-- CHECKPOINT_REQUEST (R404, R407): every facet of the slot's launch, in a fossil or not, is to be held at its next safe point; a
parked facet fails the checkpoint. -/
def execCheckpointRequest (slot : Nat) (s : State) : Out :=
  .next (
    let id := (s.qslot slot).launch
    match s.launches.find id with
    | none => s
    | some l =>
      if l.ckAsk || (s.facetsOf id).isEmpty && (s.frozenOf id).isEmpty then s
      else if s.someParked id then s.checkpointFails id
      else
        let s := { s with launches := s.launches.set id { l with ckAsk := true } }
        s.modFacetsOf id fun f => { f with ckRequested := true })

/-- R404: every facet of a launch is held at a safe point, none stands in a fossil, and the save's drain at lode scope is over. -/
def State.allHeld (s : State) (id : Nat) : Bool :=
  (s.frozenOf id).isEmpty && (s.facetsOf id).all fun x => x.2.2.ckHeld && s.drained x.1 x.2.1 3

/-- R407: a register, an accumulator or a FIFO byte of a task that the save would read is uncorrectable. -/
def Core.taskBad (k : Core) (fn : Nat) : Bool :=
  let f := (k.landAll fn).facet fn
  !f.poison.isEmpty || (k.accPoison.any fun x => f.cblocks.contains (x % 512 / 16)) || (f.fifoA ++ f.fifoB).any (·.poison)

/-- R235, R237: what the reads of a launch's windows leave in the error registers. -/
def State.noteWindows (s : State) (l : Launch) : State :=
  l.windows.foldl (fun s w =>
    let k := s.core w.1
    s.noteSpadErr w.1 (((k.spadFlaws ++ k.spadPoison).filter fun u => w.2.contains (u / 512)).map (8 * ·))) s

/-- R407: the save would read a unit or a register that is uncorrectable. -/
def State.saveBad (s : State) (id : Nat) (l : Launch) : Bool :=
  ((s.facetsOf id).any fun x => (s.core x.1).taskBad x.2.1)
    || l.windows.any fun w => (s.core w.1).spadPoison.any fun u => w.2.contains (u / 512)

/-- R433: the entry of the position map for a code address in a variant, which gives the static group index of the place; several places
may share one. -/
def Kernel.groupAt (k : Kernel) (v : BitVec 2) (a : Nat) : Option Nat :=
  k.posmap.findIdx? fun p => wbits p.2 (16 * v.toNat + 15) (16 * v.toNat) == a

/-- R324, R405: a handle as a record keeps it: its VA, R, W and VALID. -/
def Handle.kept (h : Handle) : Handle := { valid := h.valid, r := h.r, w := h.w, va := h.va, fcode := if h.valid then 0 else 8 }

/-- R405: a task as its record holds it; `none` when the position map lacks its safe point. A fixed-bound result whose bound lies ahead is
recorded as landed, with its flags (log entry 53). -/
def State.ckTask (s : State) (kn : Kernel) (c fn : Nat) : Option CkTask :=
  let k := (s.core c).landAll fn
  let f := k.facet fn
  (kn.groupAt f.variant (codeAddr f.bank f.pc)).map fun pos =>
    { task := f.task, pos := pos
      facet := { f with h := f.h.map fun x => (x.1, x.2.kept) }
      loopPos := (upto f.lsDepth).map fun i =>
        let e := f.lstk.get i {}
        match kn.groupAt f.variant (codeAddr e.bank e.start), kn.groupAt f.variant (codeAddr e.bank e.stop % 65536) with
        | some a, some b => some (a, b)
        | _, _ => none
      vregs := (upto (32 * f.vblocks.length)).map fun i => k.vfile.get (f.vblocks.getD (i / 32) 0 * 32 + i % 32) {}
      acc := (upto 128).flatMap fun r => ((upto f.cols).map fun j => (512 * r + j, k.acc.get (f.accKey r j) {})).filter fun x => x.2 != {}
      bands := k.bands.filter fun b => b.2.isOpen && b.2.owner == fn
      records := k.recordsOf fn }

/-- R405: the windows of a launch by core, their bytes by program offset. -/
def State.ckWindows (s : State) (l : Launch) : List (Nat × Memory) :=
  l.windows.map fun w =>
    (w.1, (upto w.2.length).foldl (fun m j =>
      m ++ ((s.core w.1).spad.filter fun x => x.1 / 4096 == w.2.getD j 0).map fun x => (4096 * j + x.1 % 4096, x.2)) [])

/-- R404 to R406: what the record that a launch resumes from still holds for the geodes that are not placed yet: its tasks there that
have not ended, and the window of each core. -/
def State.carried (s : State) (l : Launch) : List CkTask × List (Nat × Memory) :=
  match l.ckpt.bind fun i => s.ckpts[i]? with
  | none => ([], [])
  | some r =>
    let left := (l.toPlace.flatMap l.tasksOn).filter fun t => !l.done.contains t
    let mine (t : CkTask) : CkTask := { t with facet := { t.facet with origin := (r.launch, t.task) :: t.facet.origin } }
    ((r.tasks.filter fun t => left.contains t.task).map mine,
     l.toPlace.flatMap fun g => ((setBitsOf (cmask l.words) 16).zipIdx).filterMap fun x =>
       (r.windowFor (coreAt g x.1) ((l.tasksOn g).getD (x.2 * l.kernel.facets) 0)).map fun w => (coreAt g x.1, w))

/-- R404 to R407: the record of a launch is written, or its checkpoint fails; what an earlier record holds for tasks that have not been
placed since goes into it. -/
def State.saveRecord (s : State) (id : Nat) (l : Launch) : State :=
  let q := s.qslot l.slot
  let s := s.noteWindows l
  let ts := (s.facetsOf id).map fun x => s.ckTask l.kernel x.1 x.2.1
  let old := s.carried l
  let n := recordHeader + (Config.recordBytes s.freeCtr (ts.length + old.1.length) (l.windows.length + old.2.length)).toNat
  let pl := s.recordPlace q.part.toNat
  if s.saveBad id l || ts.any Option.isNone || decide (pl.2 < pl.1 + n) then s.checkpointFails id
  else
    s.putRecord
      { state := 0, part := q.part, pasid := l.pasid, slot := l.slot, packet := q.ridx, kernel := (pw l.words 2).truncate 57
        posmap := l.kernel.posmap, pa := pl.1, bytes := n, ntasks := l.ntasks, launch := id, done := l.done
        gmask := gmask l.words, cmask := cmask l.words
        tasks := ts.filterMap (fun x => x) ++ old.1, windows := s.ckWindows l ++ old.2 }

/-- R404: once the record is written its tasks' resources and messages are given up, its STATE is complete, and the launch is to be
placed again from it. -/
def State.endSave (s : State) (id i : Nat) : State :=
  let fs := s.facetsOf id
  let s := (fs.foldl (fun s x => s.vacate x.1 x.2.1) s).markRecord i 1
  { s with
    launches := s.launches.map fun l =>
      if l.1 == id then
        (id, { l.2 with ckAsk := false, windows := [], ckpt := some i, toPlace := (fs.map fun x => geodeOf x.1).eraseDups ++ l.2.toPlace })
      else l }

/-- CHECKPOINT_SAVE (R404 to R407): once every facet is held and drained, the launch is recorded, then its resources return, once every
access of its tasks has performed (R306); it is placed again from its record. A facet that parks fails the checkpoint. Where every task
that was placed has ended meanwhile, the record holds the rest of the launch; a launch that is complete is not recorded. -/
def execCheckpointSave (slot : Nat) (s : State) : Out :=
  .next (
    let id := (s.qslot slot).launch
    match s.launches.find id with
    | none => s
    | some l =>
      if !l.ckAsk then s
      else if s.someParked id then s.checkpointFails id
      else if (s.facetsOf id).isEmpty && l.toPlace.isEmpty || !s.allHeld id then s
      else
        match s.writing id with
        | some i => if s.accs.any fun a => a.launch == id then s else s.endSave id i
        | none => s.saveRecord id l)

/-- CHECKPOINT_TIMEOUT (R407): a facet has not reached a safe point in time. -/
def execCheckpointTimeout (slot : Nat) (s : State) : Out :=
  .next (
    let id := (s.qslot slot).launch
    match s.launches.find id with
    | some l =>
      if l.ckAsk && !((s.facetsOf id).all (fun x => x.2.2.ckHeld) && (s.frozenOf id).all (·.ckHeld)) then s.checkpointFails id else s
    | none => s)

/-! ## The policy -/

/-- The actions of the policy (R397). -/
inductive Action where
  | drain
  | checkpoint
  | freeze
  | kill
deriving DecidableEq, Repr

/-- R398: PSTAT.LAST of an action. -/
def Action.code : Action → Nat
  | .drain => 1
  | .checkpoint => 2
  | .freeze => 3
  | .kill => 4

/-- R410: frequency of a geode in MHz. -/
def State.mhz (s : State) (g : Nat) : Nat := 800 + 25 * s.devFld (aGstat g) 8 3

/-- R397: E, the largest remaining-time estimate of the victims on a geode. -/
def State.estOf (s : State) (vs : List Nat) (g : Nat) : Nat :=
  (((upto 16).flatMap fun r => (s.core (coreAt g r)).facets.filterMap fun f =>
    if f.2.resident && vs.contains f.2.launch then some f.2.est.toNat else none)).foldl max 0

/-- R397: the action that the policy chooses for a slot's launch on a geode. -/
def State.policy (s : State) (slot g tok : Nat) : Action :=
  let p := (s.qslot slot).part.toNat
  let a := aPart p + 0xE0
  let vs := s.victims slot g
  let e := s.estOf vs g
  let freezable := (s.launchesOn g).all vs.contains && (s.freeFossil p).isSome
  if e != 2 ^ 64 - 1 && decide (e * 256 ≤ s.devFld a 23 0 * (256 - tok) * s.mhz g) then .drain
  else if s.devFld a 39 32 ≤ tok then .kill
  else if s.devFld a 31 24 ≤ tok && freezable then .freeze
  else if s.devFld a 63 40 ≠ 0 then .checkpoint
  else if freezable then .freeze
  else .drain

/-- R365: a slot's launch may ask for pre-emption on a geode. -/
def State.mayAsk (s : State) (slot g : Nat) : Bool :=
  let q := s.qslot slot
  match s.launches.find q.launch with
  | none => false
  | some l =>
    let tok := tokens l.words
    l.toPlace.contains g && !s.geodeTakes q.launch l g && tok != 0
      && decide (tok ≤ s.devFld (aPart q.part.toNat + 8) 15 0) && !(s.victims slot g).isEmpty && !(l.drains.contains g && s.drains q g)

/-- R397: V on a geode: the tasks there of launches from lower-PRIO slots of the partition, by geode, launch and task. -/
def State.victimTasks (s : State) (slot g : Nat) : List (Nat × Nat × Nat) :=
  (upto 16).flatMap fun r => ((s.core (coreAt g r)).facets.filter fun f => f.2.resident && (s.victims slot g).contains f.2.launch).map fun f =>
    (g, f.2.launch, f.2.task)

/-- R397: the policy's action; a drain waits for the tasks of V as they are now, though its launch ends before them. -/
def State.act (s : State) (slot g : Nat) : Action → State
  | .drain =>
    let t := s.modSlot slot fun q => { q with drainFor := s.victimTasks slot g ++ q.drainFor }
    { t with launches := t.launches.map fun l => if l.1 == (s.qslot slot).launch then (l.1, { l.2 with drains := g :: l.2.drains }) else l }
  | .kill => (s.victims slot g).foldl State.killLaunch s
  | .freeze =>
    match s.freeFossil (s.qslot slot).part.toNat with
    | some pa => s.freezeInto g 0 pa
    | none => s
  | .checkpoint =>
    (s.victims slot g).foldl (fun s i =>
      match s.launches.find i with
      | none => s
      | some l =>
        if l.ckAsk then s
        else
          let s := { s with launches := s.launches.set i { l with ckBy := slot } }
          if s.someParked i then s.checkpointFails i
          else
            { s with launches := s.launches.set i { l with ckBy := slot, ckAsk := true } }.modFacetsOf i fun f =>
              { f with ckRequested := true }) s

/-- PREEMPTION_POLICY (R365, R397, R398): a launch that may ask has the policy act on a geode, for its tokens. -/
def execPreemptionPolicy (slot geode : Nat) (s : State) : Out :=
  .next (
    if 40 ≤ geode || !s.mayAsk slot geode then s
    else
      let p := (s.qslot slot).part.toNat
      let tok := match s.launches.find (s.qslot slot).launch with | some l => tokens l.words | none => 0
      let a := s.policy slot geode tok
      let s := s.devPut (aPart p + 8) 15 0 (s.devFld (aPart p + 8) 15 0 - tok)
      (s.policyActed p a.code 0).act slot geode a)

end Sys2Proof.Machine
end

