-- ==== Sys2Proof/Machine/Trust.lean ====
section
/-! DEFINITION. Trust and test (16 R436 to R442): the manifest, signed envelopes, measurement, attestation and the in-field
test; and firmware's writes of the geode map (01 R18) and of LODE_ID (01 R465). -/

namespace Sys2Proof.Machine

/-- The measurement block (R439). -/
abbrev aMeas : Nat := 0x800000B0000

/-- BOOT (R439). -/
abbrev aBoot : Nat := aMeas + 0x248

/-- TEST (R442). -/
abbrev aTest : Nat := 0x800000B1000

/-- Six consecutive registers as 48 bytes. -/
def State.digestAt (s : State) (a : Nat) : List (BitVec 8) := (upto 6).flatMap fun j => leBytes 8 (s.devGet (a + 8 * j)).toNat

/-- R439: MEASk becomes the SHA-384 digest of its bytes followed by `data`. -/
def State.extendMeas (s : State) (k : Nat) (data : List (BitVec 8)) : State :=
  let a := aMeas + 0x40 * k
  let d := beBytes 48 (sha384 (s.digestAt a ++ data)).toNat
  (upto 6).foldl (fun s j => s.devSet (a + 8 * j) (BitVec.ofNat 64 (leNat ((d.drop (8 * j)).take 8)))) s

/-- EXTCTL_GO (R439): firmware extends the register that IDX names with EXTDATA. -/
def execExtctlGo (v : BitVec 64) (fw : Bool) (s : State) : Out :=
  .next (if fw && v.getLsbD 63 then s.extendMeas (wbits v 2 0) (s.digestAt (aMeas + 0x210)) else s)

/-- R440: the report: nonce, MEAS0 to MEAS7, PKG_ID, SVN.FUSED and the geode map, each at its own width, then both
signatures, of 384 and 16,224 bytes (R437). -/
def State.attestation (s : State) (nonce : BitVec 384) : List (BitVec 8) :=
  let body := beBytes 48 nonce.toNat ++ ((upto 8).flatMap fun k => s.digestAt (aMeas + 0x40 * k))
    ++ leBytes 4 (s.devGet 0x80000000000).toNat ++ leBytes 6 (s.devFld (aMeas + 0x240) 47 0)
    ++ (upto 40).flatMap fun n => leBytes 4 (s.devGet (aGeodeMap n)).toNat
  body ++ (upto 16608).map (Config.identityByte body)

/-- ATTESTATION_REPORT (R440): a report is written to a buffer of local memory. -/
def execAttestationReport (nonce : BitVec 384) (pa : Nat) (s : State) : Out :=
  .next (
    let r := s.attestation nonce
    let held (p : Place) : Bool := place pa == p && place (pa + r.length - 1) == p
    if held .main || held .durable then s.putOwn pa r else s)

/-- R437: bytes `off` to `off + n - 1` of an envelope's header as a number. -/
def envField (e : Envelope) (off n : Nat) : Nat := leNat ((e.header.drop off).take n)

/-- KIND of an envelope (R437). -/
def envKind (e : Envelope) : Nat := envField e 4 2

/-- SVN.FUSED of a kind (R439). -/
def State.fusedSvn (s : State) (kind : Nat) : Nat := s.devFld (aMeas + 0x240) (16 * kind - 1) (16 * (kind - 1))

/-- R437: the package accepts an envelope. -/
def State.accepts (s : State) (e : Envelope) : Bool :=
  e.header.length == 128 && e.sigRsa.length == 384 && e.sigSlh.length == 16224
    && envField e 0 4 == 0x56534E5A && decide (1 ≤ envKind e ∧ envKind e ≤ 3) && envField e 8 8 == e.payload.length
    && (e.header.drop 16).take 48 == beBytes 48 (sha384 e.payload).toNat && (e.header.drop 64).all (· == 0)
    && Config.signaturesVerify e.header e.sigRsa e.sigSlh && decide (s.fusedSvn (envKind e) ≤ envField e 6 2)

/-- ENVELOPE_RECEIVE (R437, R438, R455): an accepted firmware image is written to the slot not running, which the next reset then uses;
an accepted manifest or test package is held for firmware and galena (R436, R441). The management port carries firmware alone, and in
recovery nothing else is accepted. -/
def execEnvelopeReceive (e : Envelope) (mgmt : Bool) (s : State) : Out :=
  .next (
    if !s.accepts e || mgmt && envKind e != 1 || s.recovery && !mgmt then { s with replyOk := false }
    else
      let s := { s with replyOk := true }
      if envKind e == 2 then { s with manifestEnv := some e }
      else if envKind e == 3 then { s with testEnv := some e }
      else if s.recovery then { s with fwA := some e }
      else if s.devFld aBoot 0 0 = 1 then { s with fwA := some e, update := some false }
      else { s with fwB := some e, update := some true })

/-- No facet of the lode is resident; one whose fossil is still being written is (R96). -/
def State.lodeIdle (s : State) : Bool :=
  !s.cores.any (fun k => k.2.facets.any fun f => f.2.resident) && !s.fossils.any fun f => f.used && f.state == 1 && !f.tasks.isEmpty

/-- MANIFEST_REPLACE (R436, R437, R439): firmware replaces the manifest as a whole by the digests of the accepted manifest of this
SVN and payload, while no facet is resident; MEAS2 receives it. -/
def execManifestReplace (digests : List (BitVec 384)) (svn : BitVec 16) (payload : List (BitVec 8)) (s : State) : Out :=
  .next (
    match s.manifestEnv with
    | none => s
    | some e =>
      if !s.lodeIdle || s.recovery || !s.accepts e || envField e 6 2 != svn.toNat || e.payload != payload then s
      else { s with manifest := digests, manifestEnv := none }.extendMeas 2 (beBytes 48 (sha384 e.payload).toNat))

/-- R441: a physical slot holds a logical geode. -/
def State.slotTaken (s : State) (die slot : Nat) : Bool :=
  (upto 40).any fun n => n / 20 == die && s.devFld (aGeodeMap n) 4 0 == slot && s.geodeState n != 2

/-- IN_FIELD_TEST (R437, R441, R442, R439): the accepted test package on a slot that holds no geode and whose revision and layout hash
it names; a slot that passes is a spare again, unless the fuses have taken it out (R15). -/
def execInFieldTest (t : ScanTest) (s : State) : Out :=
  .next (
    let die := if t.die then 1 else 0
    match s.testEnv with
    | none => s
    | some e =>
    if 22 ≤ t.slot.toNat || s.slotTaken die t.slot.toNat || !s.accepts e || t.trev != Config.slotTrev die t.slot.toNat
        || t.lhash != Config.slotLhash die t.slot.toNat then s
    else
      let s := s.extendMeas 3 (beBytes 48 (sha384 e.payload).toNat)
      let bad := (t.patterns.takeWhile fun p => p.1 == p.2).length
      let pass := bad == t.patterns.length
      let id := 32 * die + t.slot.toNat
      let spares := s.devFld 0x80000000000 27 24
      let out := s.failedSlots.contains id
      let s := s.devSet aTest (BitVec.ofNat 64 (1 + (if pass then 2 else 0) + t.slot.toNat * 4 + die * 2 ^ 7 + (if pass then 0 else bad * 2 ^ 32)))
      if Config.fusedOut die t.slot.toNat then s
      else if pass && out then
        { s with failedSlots := s.failedSlots.filter (· != id) }.devPut 0x80000000000 27 24 (spares + 1)
      else if !pass && !out then { s with failedSlots := id :: s.failedSlots }.devPut 0x80000000000 27 24 (spares - 1)
      else s)

/-- R18: a packet in progress whose GMASK names a geode. -/
def State.namedInProgress (s : State) (n : Nat) : Bool :=
  s.slots.any fun q => match q.2.cur with | some ws => wbits (pw ws 0) 7 0 == 1 && (gmask ws).testBit n | none => false

/-- GEODE_MAP_WRITE (R18): firmware writes PART and ASSIGNED, unless the geode holds a task, is not active, or is named by a
packet in progress. -/
def execGeodeMapWrite (n : Nat) (v : BitVec 32) (fw : Bool) (s : State) : Out :=
  .next (
    if !fw || 40 ≤ n || s.geodeState n != 0 || !(s.launchesOn n).isEmpty || (s.geode n).frozen || s.namedInProgress n then s
    else s.devPut (aGeodeMap n) 11 8 (nbits v.toNat 11 8))

/-- LODE_ID_WRITE (R465): firmware writes LODE and FIELD, while no facet of the lode is resident. -/
def execLodeIdWrite (v : BitVec 64) (fw : Bool) (s : State) : Out :=
  .next (if fw && s.lodeIdle then s.devPut aLodeId 47 0 (wbits v 47 0) else s)

end Sys2Proof.Machine
end

