-- ==== Sys2Proof/Machine/Registers.lean ====
section
/-! DEFINITION. Device registers as software reaches them (11 R320): what a read returns and what a write does, register by
register (R18, R20, R236, R266, R326, R336, R338, R345, R350, R357, R377, R395, R398, R422, R423, R439, R442, R444, R447, R449,
R450, R465). An address that no register holds reads as zero and ignores writes. -/

namespace Sys2Proof.Machine

/-- The state after a meaning that always goes on. -/
def after (o : Out) (s : State) : State := match o with | .next t => t | _ => s

/-- Bits `hi` down to `lo` set. -/
def bitsMask (hi lo : Nat) : Nat := 2 ^ (hi + 1) - 2 ^ lo

/-- A word whose bits under a mask are replaced. -/
def masked (old v : BitVec 64) (mask : Nat) : BitVec 64 := (old &&& ~~~(BitVec.ofNat 64 mask)) ||| (v &&& BitVec.ofNat 64 mask)

/-- Bases of the blocks that repeat. -/
abbrev aCores : Nat := 0x80001000000
/-- Veins. -/
abbrev aVeins : Nat := 0x80003000000
/-- Bulk engines. -/
abbrev aBulks : Nat := 0x80002000000
/-- Hardware slots. -/
abbrev aSlots : Nat := 0x80000080000
/-- Partitions. -/
abbrev aParts : Nat := 0x80000090000
/-- Mirrored ranges. -/
abbrev aMirs : Nat := 0x80000070000
/-- Fabric ports. -/
abbrev aPorts : Nat := 0x800000C0000

/-- `a` lies in the `n` blocks of `size` bytes from `base`. -/
def inBlocks (a base size n : Nat) : Bool := decide (base ≤ a ∧ a < base + size * n)

/-- Core of an address of the core registers. -/
def coreOfReg (a : Nat) : Nat := coreAt ((a - aCores) / 0x10000) ((a - aCores) / 0x1000 % 16)

/-- The counter block that holds an address: its offset in the block (R338). -/
def counterOff (a : Nat) : Option Nat :=
  if inBlocks a aPkgCnt 0x100 1 then some (a - aPkgCnt)
  else if inBlocks a aCores 0x10000 40 then
    (let o := (a - aCores) % 0x1000
     if 0x100 ≤ o ∧ o < 0x180 then some (o - 0x100) else none)
  else if inBlocks a aVeins 0x10000 8 then
    (let o := (a - aVeins) % 0x10000
     if 0x500 ≤ o ∧ o < 0x580 then some (o - 0x500) else none)
  else none

/-- The error unit that holds an address and the offset in it (R336, R349). -/
def errorUnit (a : Nat) : Option (Nat × Nat) :=
  if inBlocks a aVeins 0x10000 8 then some ((a - aVeins) / 0x10000, (a - aVeins) % 0x10000)
  else if inBlocks a (unitBase 8) 0x48 1 then some (8, a - unitBase 8)
  else none

/-! ## Reads -/

/-- STATE, PRIO and PART of CTL; STAT and STAT2 (R357). -/
def State.slotRegRead (s : State) (k off : Nat) : Nat :=
  let q := s.qslot k
  match off with
  | 0x00 => q.qaddr.toNat
  | 0x08 => q.prio.toNat + q.part.toNat * 2 ^ 3 + q.state.toNat * 2 ^ 9
  | 0x10 => (if q.cur.isSome then 1 else 0) + q.ridx.toNat * 2 ^ 32
  | 0x18 => q.widx.toNat
  | _ => 0

/-- PARKf as it reads (R395). -/
def Facet.parkWord (f : Facet) : Nat := (if f.parked then 1 else 0) + (if f.frameOk then 2 else 0) + f.parkCode.toNat * 4

/-- LOGCNT and LOGHEAD of an error unit (R333, R336). -/
def State.logRead (s : State) (u off : Nat) : Option Nat :=
  let log := s.logs.get u []
  match off with
  | 0x18 => some log.length
  | 0x20 => some (match log with | e :: _ => e.w0.toNat | [] => 0)
  | 0x28 => some (match log with | e :: _ => e.w1.toNat | [] => 0)
  | _ => none

/-- What a read of the 8-byte register at `a` returns (R320). -/
def State.regRead (s : State) (a : Nat) : BitVec 64 :=
  let raw := s.devGet a
  if inBlocks a (aGeodeMap 0) 4 40 then
    BitVec.ofNat 64 ((s.devGet a).toNat + (s.devGet (a + 4)).toNat * 2 ^ 32)
  else if a = aDstat then
    setBits (setBits raw 32 16 s.durQ.length) 49 33 (s.durQ.filter (·.sealed)).length
  else if inBlocks a aMirs 0x20 16 && a % 0x20 = 0x18 then
    setBits raw 47 32 (min 0xFFFF (s.mirQ.filter fun w => w.k == (a - aMirs) / 0x20 && w.fwd).length)
  else if inBlocks a aSlots 0x20 64 then BitVec.ofNat 64 (s.slotRegRead ((a - aSlots) / 0x20) (a % 0x20))
  else if inBlocks a aParts 0x100 8 && a % 0x100 = 0 then setBits raw 6 1 (s.geodesOf ((a - aParts) / 0x100)).length
  else if inBlocks a (aMeas + 0x200) 0x40 1 then 0
  else if a = aBoot then setBits raw 1 1 (if s.recovery then 1 else 0)
  else if inBlocks a aCores 0x10000 40 && decide (0x80 ≤ a % 0x1000 ∧ a % 0x1000 < 0xA0) then
    BitVec.ofNat 64 (s.facet (coreOfReg a) ((a % 0x1000 - 0x80) / 8)).parkWord
  else if inBlocks a aBulks 0x1000 16 && a % 0x1000 = 0x38 then
    let b := s.bulk.get ((a - aBulks) / 0x1000) {}
    setBits (setBits raw 8 8 (if b.active.isSome then 1 else 0)) 9 9 (if b.shadow.isSome then 1 else 0)
  else
    match errorUnit a with
    | some (u, off) => (match s.logRead u off with | some x => BitVec.ofNat 64 x | none => raw)
    | none => raw

/-! ## Writes -/

/-- R326, R350, R377, R398, R420: fields of the shape of a ring's BASE register. -/
abbrev ringMask : Nat := bitsMask 3 0 + bitsMask 47 12

/-- Bits of a partition's register that a write replaces (R377, R398, R423). -/
def partMask (off : Nat) (fw : Bool) : Nat :=
  match off with
  | 0x00 => if fw then 1 else 0
  | 0x08 => bitsMask 47 0
  | 0x10 => ringMask
  | 0x18 => bitsMask 31 0
  | 0x40 => ringMask
  | 0x48 => bitsMask 31 0
  | 0x58 => bitsMask 18 0
  | 0xC0 => if fw then bitsMask 7 0 + bitsMask 47 25 else 0
  | 0xD0 => if fw then bitsMask 47 16 else 0
  | 0xD8 => if fw then bitsMask 31 0 else 0
  | 0xE0 => bitsMask 63 0
  | 0xE8 => bitsMask 31 0
  | _ => 0

/-- Bits of a lode memory-management register that a write replaces, INVAL apart (R326). -/
def mmrMask (off : Nat) : Nat :=
  match off with
  | 0x00 => bitsMask 47 23
  | 0x08 => bitsMask 56 0
  | 0x20 => ringMask
  | 0x28 => bitsMask 31 0
  | _ => if 0x40 ≤ off ∧ off < 0x80 then bitsMask 2 0 + bitsMask 63 8 else 0

/-- Bits of an export window's register that firmware replaces (R449). -/
def exportMask (off : Nat) : Nat :=
  match off with
  | 0x00 => bitsMask 40 16
  | 0x08 => bitsMask 24 0
  | 0x10 => bitsMask 33 0
  | _ => 0

/-- Bits of a register that a write replaces, where no further rule governs it. -/
def plainMask (a : Nat) (fw : Bool) : Nat :=
  if inBlocks a aMmr 0x80 1 then mmrMask (a - aMmr)
  else if inBlocks a aParts 0x100 8 then partMask (a % 0x100) fw
  else if a = aPower + 0x40 then (if fw then bitsMask 31 0 else 0)
  else if inBlocks a (aMeas + 0x210) 0x30 1 then (if fw then bitsMask 63 0 else 0)
  else if inBlocks a (aPorts + 0x800) 0x20 16 then (if fw then exportMask (a % 0x20) else 0)
  else if a = aPorts + 0xC08 then (if fw then bitsMask 10 0 else 0)
  else
    match errorUnit a with
    | some (_, 0x38) => bitsMask 0 0 + bitsMask 38 24
    | some (_, 0x40) => 1
    | _ => 0

/-- R350, R352: a write of a mirrored range's registers. -/
def State.mirRegWrite (s : State) (k off : Nat) (v : BitVec 64) : State :=
  let a := aMir k
  let off? := s.mirEn k = 0
  match off with
  | 0x00 => if off? then s.devSet a (masked (s.devGet a) v (bitsMask 38 21)) else s
  | 0x08 => if off? then s.devSet (a + 8) (masked (s.devGet (a + 8)) v (bitsMask 18 0)) else s
  | 0x10 =>
    let s := if v.getLsbD 3 then s.devPut (a + 0x10) 3 3 0 else s
    let s := if off? then s.devSet (a + 0x10) (masked (s.devGet (a + 0x10)) v (bitsMask 38 21 + bitsMask 63 48)) else s
    if v.getLsbD 0 then after (execMirrorEnable k s) s else after (execMirrorDisable k s) s
  | _ => s

/-- R357, R358: a write of a slot's registers; one that sets more than one control bit is ignored. -/
def State.slotRegWrite (s : State) (k off : Nat) (v : BitVec 64) (fw : Bool) : State :=
  let free := (s.qslot k).state == 0
  let one := [0, 1, 2, 4].contains (wbits v 8 6)
  match off with
  | 0x00 => if free then s.modSlot k fun q => { q with qaddr := masked 0 v (bitsMask 47 6) } else s
  | 0x08 =>
    let s :=
      if free && one then
        s.modSlot k fun q => { q with prio := BitVec.ofNat 3 (wbits v 2 0), part := if fw then BitVec.ofNat 3 (wbits v 5 3) else q.part }
      else s
    match wbits v 8 6 with
    | 1 => after (execMap k s) s
    | 2 => after (execUnmap k s) s
    | 4 => after (execKill k s) s
    | _ => s
  | _ => s

/-- R395: a write of PARKf: exactly one of RESUME, ENTER and PARKREQ. -/
def State.parkWrite (s : State) (c fn : Nat) (v : BitVec 64) : State :=
  match wbits v 63 61 with
  | 1 => after (execResume c fn s) s
  | 2 => after (execEnter c fn s) s
  | 4 => after (execParkreq c fn s) s
  | _ => s

/-- R266: a write of a bulk engine's registers. -/
def State.bulkWrite (s : State) (e off : Nat) (v : BitVec 64) : State :=
  let a := aBulk e
  if off = 0x38 then (if v.getLsbD 10 then s.devPut (a + 0x38) 10 10 0 else s)
  else if 0x30 < off then s
  else if (s.bulk.get e {}).shadow.isSome then s.devPut (a + 0x38) 10 10 1
  else if off = 0x30 then (if v.getLsbD 63 then after (execHostBulkGo e v s) s else s.devPut (a + 0x30) 37 0 (wbits v 37 0))
  else s.devSet (a + off) v

/-- R338: a write of a counter pair's registers. -/
def State.counterWrite (s : State) (a off : Nat) (v : BitVec 64) : State :=
  if off % 16 = 0 then s.devPut a 8 0 (wbits v 8 0)
  else if off % 16 = 8 then
    let s := s.devPut a 47 0 (wbits v 47 0)
    if v.getLsbD 48 then s.devPut a 48 48 0 else s
  else s

/-- R444: firmware's write of EN: with EN 0 the port is down, and written from 0 to 1 it trains. -/
def State.portWrite (s : State) (k : Nat) (v : BitVec 64) : State :=
  if v.getLsbD 0 then (if s.devFld (aPort k) 0 0 = 1 then s else (s.devPut (aPort k) 0 0 1).devPut (aPort k) 2 1 1) else ({ s with flitRuns := s.flitRuns.del k }.devPut (aPort k) 0 0 0).devPut (aPort k) 2 1 0

/-- R419, R422: firmware's write of LEVELk; FMAX never above FMAXF. -/
def State.levelWrite (s : State) (a : Nat) (v : BitVec 64) : State :=
  (s.devPut a 5 0 (min (wbits v 5 0) (s.devFld (aPower + 0x48) 5 0))).devPut a 21 8 (wbits v 21 8)

/-- What a write of the 8-byte register at `a` does; `fw` says that signed firmware makes it. -/
def State.regWrite (s : State) (a : Nat) (v : BitVec 64) (fw : Bool) : State :=
  if a = aLodeId then after (execLodeIdWrite v fw s) s
  else if inBlocks a (aGeodeMap 0) 4 40 then
    let n := (a - aGeodeMap 0) / 4
    let s := after (execGeodeMapWrite n (v.truncate 32) fw s) s
    after (execGeodeMapWrite (n + 1) ((v >>> 32).truncate 32) fw s) s
  else if a = aMmr + 0x10 then (if v.getLsbD 63 then s.invalGo v else s.devPut a 23 0 (wbits v 23 0))
  else if a = aMmr + 0x18 then (if v.getLsbD 2 then s.devPut a 2 2 0 else s)
  else if a = aHpbar then (if v.getLsbD 0 then after (execHpbarGo s) s else s)
  else if inBlocks a aMirs 0x20 16 then s.mirRegWrite ((a - aMirs) / 0x20) (a % 0x20) v
  else if inBlocks a aSlots 0x20 64 then s.slotRegWrite ((a - aSlots) / 0x20) (a % 0x20) v fw
  else if inBlocks a aPower 8 8 then (if fw then s.levelWrite a v else s)
  else if a = aMeas + 0x200 then after (execExtctlGo v fw s) s
  else if inBlocks a aPorts 0x40 24 then (if fw && a % 0x40 = 0 then s.portWrite ((a - aPorts) / 0x40) v else s)
  else if inBlocks a aCores 0x10000 40 && decide (0x80 ≤ a % 0x1000 ∧ a % 0x1000 < 0xA0) then
    s.parkWrite (coreOfReg a) ((a % 0x1000 - 0x80) / 8) v
  else if inBlocks a aBulks 0x1000 16 then s.bulkWrite ((a - aBulks) / 0x1000) (a % 0x1000) v
  else
    match counterOff a with
    | some off => s.counterWrite a off v
    | none =>
      match errorUnit a with
      | some (u, 0x18) => if v.getLsbD 63 then after (execLogcntPop u s) s else s
      | _ => if plainMask a fw = 0 then s else s.devSet a (masked (s.devGet a) v (plainMask a fw))

/-- Lines of 64 bytes that a host core's private cache of 2 MiB holds (R13). -/
abbrev hostLines : Nat := 32768

/-- R13, R280: the lines of `n` bytes from an address are in a host core's cache, the least recently used ones leave it (log entry 41). -/
def HostCore.touch (h : HostCore) (pa n : Nat) : HostCore :=
  let new := (upto (cdiv (pa % 64 + n) 64)).map (pa / 64 + ·)
  { h with lines := (new ++ h.lines.filter fun l => !new.contains l).take hostLines }

/-- A host core's access ends: what it returns, or its access fault; `mem` is the memory that it has reached, if any. -/
def State.hostDone (s : State) (core : Nat) (bs : List (BitVec 8)) (faulted : Bool) (mem : Option (Nat × Nat) := none) : State :=
  let h := { s.hosts.get core {} with reply := bs, faulted := faulted }
  { s with hosts := s.hosts.set core (match mem with | some (pa, n) => h.touch pa n | none => h) }

/-- R307: the memory that a range of bytes lies in as a whole. -/
def memPlace (pa n : Nat) : Bool :=
  (place pa == .main || place pa == .durable) && place (pa + n - 1) == place pa

/-- R280, R281, R331, R332: a host core's store to memory, at its home and strict. -/
def State.hostStore (s : State) (core pa : Nat) (bs : List (BitVec 8)) : State :=
  if memPlace pa bs.length then (s.storeMain (bytesAtBase pa bs) false false whoHost {}).hostDone core [] false (some (pa, bs.length))
  else s.hostDone core [] true

/-- R280, R281, R331: a host core's load from memory, at its home and strict: poison is a load access fault. -/
def State.hostLoad (s : State) (core pa n : Nat) : State :=
  if !memPlace pa n then s.hostDone core [] true
  else
    let pas := (upto n).map (pa + ·)
    let s := s.noteWords pas false whoHost
    let bad := pas.any s.poisoned
    let bs := if bad then [] else s.bytesAt pa n
    (s.hot pas whoHost).hostDone core bs bad (some (pa, n))

/-- R303, R320, R331, R453: a host core's access. A device register is read and written 8 bytes at a multiple of 8; any other access to
device register space, or one outside memory (R307; log entry 56), faults on the host core and affects nothing. -/
def State.hostAccess (s : State) (addr : Nat) (v : HostAccess) (fw : Bool) : State :=
  let core := v.core
  if 24 ≤ core then s
  else if place addr == .device then
    if addr % 8 != 0 then s.hostDone core [] true
    else
      match v.op with
      | .word v => (s.regWrite addr v fw).hostDone core [] false
      | .load 8 => s.hostDone core (leBytes 8 (s.regRead addr).toNat) false
      | _ => s.hostDone core [] true
  else
    match v.op with
    | .word v => s.hostStore core addr (leBytes 8 v.toNat)
    | .store bs => s.hostStore core addr bs
    | .load n => s.hostLoad core addr n

/-- The host core that sends an access from outside; none for the management port. -/
def HeldRow.sender (r : HeldRow) : Option Nat := match r with | .host _ v _ => some v.core | .telemetry _ => none

/-- The address that an access from outside reaches. -/
def HeldRow.reach (r : HeldRow) : Nat := match r with | .host a _ _ => a | .telemetry a => a

/-- R279, R400: an access from outside waits with its sender: it reaches a core register of a frozen geode, or one of the sender's before
it waits. -/
def State.rowHeld (s : State) (r : HeldRow) : Bool := s.regHeld r.reach || s.heldRows.any fun q => q.sender == r.sender

/-- R400, R402: a waiting access from outside reaches core registers of a geode that a fossil holds still: it goes on at the restore. -/
def State.rowWaits (s : State) (r : HeldRow) : Bool :=
  s.regHeld r.reach || (coreRegGeode r.reach).any fun g => s.fossils.any fun f => f.used && f.lgeo == g

/-- An access from outside waits (R400). -/
def State.holdRow (s : State) (r : HeldRow) : State := { s with heldRows := s.heldRows ++ [r] }

/-- REGISTER_WRITE (R303, R320, R331, R400, R453): a host core's access, held with its core while it reaches a frozen geode. -/
def execRegisterWrite (addr : Nat) (v : HostAccess) (fw : Bool) (s : State) : Out :=
  .next (
    if s.rowHeld (.host addr v fw) then s.holdRow (.host addr v fw) else s.hostAccess addr v fw)

end Sys2Proof.Machine
end

