-- ==== Sys2Proof/Machine/Access.lean ====
section
/-! DEFINITION. Accesses that have left their core perform at their homes (10 R280 to R292), deliver what they read (R32, R49),
or fail on the fabric (17 R445, R448, R450). -/

namespace Sys2Proof.Machine

/-- An access at local main memory or the durable tier. -/
def State.performMain (s : State) (a : Access) : State :=
  let w := whoFacet a.core a.pasid
  match a.op with
  | .load l dst =>
    let s := s.noteWords l a.tol w
    let bs := l.map fun pa => s.readByte pa a.tol a.tpol
    let r := loadWrite dst (bs.map (·.b))
    (s.supply a r.1 r.2 (bs.any (·.poison))).hot l w
  | .store ws => (s.dropAccess a.id).storeMain ws a.tol a.tpol w a.author
  | .atomic pa n op t mode opd cmp d =>
    let r := s.atomicMain pa n op t mode opd.toNat cmp.toNat a.tol a.tpol w a.author
    r.1.supply a (.s d (atomicOld t n r.2.1)) r.2.2.1 r.2.2.2
  | .arrive _ _ _ => s.dropAccess a.id

/-- R320: an access of 8 bytes at a device register. -/
def State.performDevice (s : State) (a : Access) : State :=
  match a.op with
  | .load l dst =>
    let r := loadWrite dst (leBytes 8 (s.regRead (l.headD 0)).toNat)
    s.supply a r.1 r.2 false
  | .store ws => (s.dropAccess a.id).regWrite (a.op.first) (BitVec.ofNat 64 (leNat (ws.map (·.b)))) false
  | _ => s.dropAccess a.id

/-- R450: a remote access that has failed ends: a load or atomic lands poisoned, a store writes nothing. -/
def State.endAccess (s : State) (a : Access) : State :=
  match a.op with
  | .load _ dst => s.supply a dst.reg 0 true
  | .atomic _ _ _ _ _ _ _ d => s.supply a (.s d 0) 0 true
  | _ => s.dropAccess a.id

/-- R450: a remote access fails, and FABERR logs it. -/
def State.failAccess (s : State) (a : Access) (cause : Nat) : State :=
  (s.fabErr (match a.home with | .remote l => l.toNat | _ => 0) cause).endAccess a

/-- R281, R450: the answer of another lode to an accepted request: its bytes, or a refusal or poison, are not part of the
package. -/
def State.answer (s : State) (a : Access) : State :=
  let t := { s with freeCtr := s.freeCtr + 1 }
  let byte (pa : Nat) : BitVec 8 := Config.remoteByte s.freeCtr pa
  let fails := Config.freeBool s.freeCtr 16
  let cause := if Config.freeBool s.freeCtr 17 then 1 else 2
  match a.op with
  | .load l dst =>
    if fails then t.failAccess a cause
    else
      let r := loadWrite dst (l.map byte)
      t.supply a r.1 r.2 false
  | .atomic pa n op ty mode opd cmp d =>
    if fails then t.failAccess a cause
    else
      let old := leNat ((upto n).map fun k => byte (pa + k))
      t.supply a (.s d (atomicOld ty n old)) (atomicNew n op ty mode old opd.toNat cmp.toNat).2 false
  | _ => t.dropAccess a.id

/-- R443, R446 to R448: an access to another lode: ports accept the requests for its lines, or it fails at once; once they have their
answers, it has its own. -/
def State.performRemote (s : State) (a : Access) (lode : Nat) : State :=
  let go := s.linesGo a.ports a.reaches
  let goes : State :=
    if go.2.1 then go.2.2.answer a
    else { go.2.2 with accs := go.2.2.accs.map fun (b : Access) => if b.id = a.id then { b with ports := go.1 } else b }
  if (linesLeft a.ports a.reaches).isEmpty then goes
  else
    match s.route lode a.op.first with
    | .here => s.performMain a
    | .fail c => s.failAccess a c
    | .away => goes

/-- R315: some address of a local access is unpopulated. -/
def Access.unpopulated (a : Access) : Bool :=
  match a.home with
  | .main => a.op.addrs.any fun pa => place pa == .hole
  | .durable => a.op.addrs.any fun pa => place pa == .hole
  | _ => false

/-- ACCESS_PERFORM_AT_HOME (R281): an outstanding access performs, once nothing it must follow is outstanding. -/
def execAccessPerformAtHome (id : Nat) (s : State) : Out :=
  match s.accs.find? fun a => a.id == id with
  | none => .next s
  | some a =>
    if !s.mayPerform a then .next s
    else if a.unpopulated then .fault .unpopulatedAddress
    else
      .next (
        match a.home with
        | .spad c => s.performSpad a c
        | .main => s.performMain a
        | .durable => s.performMain a
        | .device => s.performDevice a
        | .remote l => s.performRemote a l.toNat)

/-! ## Failures of the fabric -/

/-- R445: the requests that ports hold unacknowledged, those of frozen geodes among them. -/
def State.allReqs (s : State) : List PortReq :=
  s.portReqs ++ ((s.fossils.filter (·.used)).flatMap fun f => f.cores.flatMap fun k => k.2.portReqs).filter fun r => !r.done

/-- R450: a failure of each of some requests is logged. -/
def State.fabErrs (s : State) (rs : List PortReq) (cause : Nat) : State := rs.foldl (fun s r => s.fabErr r.lode cause) s

/-- R445, R450: the accesses whose requests `hit` names fail. -/
def State.failAccs (s : State) (hit : PortReq → Bool) (cause : Nat) : State :=
  (s.accs.filter fun a => a.ports.any hit).foldl (fun s a => (s.fabErrs (a.ports.filter hit) cause).endAccess a) s

/-- R252, R450: the bulk engines whose requests `hit` names end their commands with status 8. -/
def State.failBulk (s : State) (hit : PortReq → Bool) (cause : Nat) : State :=
  (upto 16).foldl (fun s e =>
    let b := s.bulk.get e {}
    match b.active with
    | some c => if b.ports.any hit then ((s.fabErrs (b.ports.filter hit) cause).bulkStop e c 8).bulkEnd e else s
    | none => s) s

/-- R392, R450: the reads of frames that `hit` names fail. -/
def Core.failFrames (k : Core) (hit : PortReq → Bool) : Core :=
  { k with
    facets := k.facets.map fun f => (f.1, if f.2.framePorts.any hit then { f.2 with framePorts := [], frameFailed := true } else f.2) }

/-- R252, R392, R450: the feeders and bands of a core whose requests `hit` names end their commands with status 8, and the reads of
frames fail. -/
def Core.failReqs (k : Core) (hit : PortReq → Bool) : Core :=
  let k := k.failFrames hit
  let k := [FeedTarget.a, FeedTarget.b].foldl (fun k t =>
    match k.feeder t with
    | x :: _ => if x.ports.any hit then k.feedDone t x 8 else k
    | [] => k) k
  (upto 8).foldl (fun k b =>
    let bd := k.bands.get b {}
    match bd.ops with
    | o :: _ => if o.ports.any hit then k.bandDone b o bd 8 else k
    | [] => k) k

/-- R252, R400, R450: the requests of cores that `hit` names fail, on their geodes or in fossils, which take the answers. -/
def State.failCores (s : State) (hit : PortReq → Bool) (cause : Nat) : State :=
  let of (t : Tbl Core) : Tbl Core := t.map fun (k : Nat × Core) => if k.2.portReqs.any hit then (k.1, k.2.failReqs hit) else k
  let all := s.cores ++ (s.fossils.filter (·.used)).flatMap fun f => f.cores
  { s.fabErrs (all.flatMap fun k => k.2.portReqs.filter hit) cause with
    cores := of s.cores, fossils := s.fossils.map fun f => if f.used then { f with cores := of f.cores } else f }

/-- R352, R450: the mirror writes whose requests `hit` names fail: their ranges break. -/
def State.failMirror (s : State) (hit : PortReq → Bool) (cause : Nat) : State :=
  (s.mirQ.filter fun w => w.port.any hit).foldl (fun s w => (s.fabErr (s.mirLode w.k) cause).mirBreak w.k) s

/-- R353, R450: the repairs whose requests `hit` names fail: their words are treated as R330 has it. -/
def State.failRepairs (s : State) (hit : PortReq → Bool) (cause : Nat) : State :=
  (s.repairs.filter fun x => x.port.any hit).foldl (fun s x => s.repairFails x cause) s

/-- R362, R450: the signals whose requests `hit` names fail: a write leaves nothing at its target, a wait packet's read is made again. -/
def State.failSignals (s : State) (hit : PortReq → Bool) (cause : Nat) : State :=
  let waits (q : QSlot) : Bool := match q.cur with | some ws => wbits (pw ws 0) 7 0 == 2 | none => false
  let rs := s.slots.flatMap fun q => (q.2.sigs.filterMap (·.port)).filter hit
  { s.fabErrs rs cause with
    slots := s.slots.map fun q =>
      (q.1, { q.2 with
        sigs := if waits q.2 then q.2.sigs.map fun x => if x.port.any hit then { x with port := none } else x
          else q.2.sigs.filter fun x => !x.port.any hit }) }

/-- R450, R454: the PCIe requests whose requests to another lode `hit` names end in an error. -/
def State.failPcie (s : State) (hit : PortReq → Bool) (cause : Nat) : State :=
  if s.pcieOut.any fun x => x.ports.any hit then
    { s.fabErrs ((s.pcieOut.flatMap (·.ports)).filter hit) cause with
      pcieOut := s.pcieOut.filter fun x => !x.ports.any hit, reply := [], replyOk := false }
  else s

/-- R445, R450: every request that ports hold unanswered and that `hit` names fails for a cause. -/
def State.failReqs (s : State) (hit : PortReq → Bool) (cause : Nat) : State :=
  let live (r : PortReq) : Bool := !r.done && hit r
  let s := (((s.failAccs live cause).failBulk live cause).failCores live cause).failMirror live cause
  ((s.failRepairs live cause).failSignals live cause).failPcie live cause

/-- FABRIC_TIMEOUT (R450): a request that no answer reached within 2 ms. -/
def execFabricTimeout (id : Nat) (s : State) : Out := .next (s.failReqs (fun r => r.seq == id) 4)

/-- The first of some requests to be accepted that goes to a lode. -/
def oldestTo (lode : Nat) (rs : List PortReq) : Option PortReq :=
  rs.foldl (fun b r => if r.lode != lode then b else match b with | some q => if r.seq < q.seq then some r else b | none => some r) none

/-- FABRIC_ERROR (R450): the oldest accepted request to a lode is refused or meets poison there. -/
def execFabricError (lode : BitVec 16) (cause : BitVec 4) (s : State) : Out :=
  .next (
    match oldestTo lode.toNat s.allReqs with
    | some r => if cause = 1 ∨ cause = 2 then s.failReqs (fun q => q == r) cause.toNat else s
    | none => s)

/-- R445: a port fails: every request that it holds unacknowledged ends with a fabric error. -/
def State.failPort (s : State) (k : Nat) : State := (s.devPut (aPort k) 2 1 3).failReqs (fun r => r.port == k) 3

/-- FLIT_CRC_ERROR (R444, R445): a flit is discarded and resent; the 32nd retry in a row fails the port. -/
def execFlitCrcError (k : Nat) (s : State) : Out :=
  .next (
    if 24 ≤ k || s.devFld (aPort k) 2 1 != 2 then s
    else
      let a := aPort k
      let s := s.devPut a 31 16 (min 0xFFFF (s.devFld a 31 16 + 1))
      let s := (s.devPut a 47 32 (min 0xFFFF (s.devFld a 47 32 + 1))).countPkg 0x06 1
      let n := s.flitRuns.get k 0 + 1
      if n < 32 then { s with flitRuns := s.flitRuns.set k n } else { s with flitRuns := s.flitRuns.del k }.failPort k)

end Sys2Proof.Machine
end

