-- ==== Sys2Proof/Machine/Fabric.lean ====
section
/-! DEFINITION. Fabric ports and inbound requests (17 R443, R446, R449), PCIe (R454), the management port (R455), and power-good
with the bring-up (R456, 12 R346, 01 R28). -/

namespace Sys2Proof.Machine

/-- PORT_TRAIN (R443, R444): the training of an enabled port ends: four lanes at 200 Gb/s bring it up, anything else leaves it down. -/
def execPortTrain (k lanes gbps : Nat) (s : State) : Out :=
  .next (
    if 24 ≤ k || s.devFld (aPort k) 0 0 = 0 || s.devFld (aPort k) 2 1 = 3 then s
    else { s with flitRuns := s.flitRuns.del k }.devPut (aPort k) 2 1 (if lanes = 4 ∧ gbps = 200 then 2 else 0))

/-! ## Inbound requests -/

/-- An export window's registers (R449). -/
abbrev aExport (k : Nat) : Nat := aPorts + 0x800 + 0x20 * k

/-- R449: window `k` is enabled, admits the lode, holds the byte and grants what the request needs. -/
def State.exports (s : State) (k lode pa : Nat) (r w : Bool) : Bool :=
  let a := aExport k
  let base := 65536 * s.devFld a 40 16
  let size := 65536 * s.devFld (a + 8) 24 0
  decide (size ≠ 0 ∧ base ≤ pa ∧ pa < base + size)
    && decide (s.devFld (a + 16) 15 0 ≤ lode ∧ lode ≤ s.devFld (a + 16) 31 16)
    && (!r || s.devFld (a + 16) 32 32 == 1) && (!w || s.devFld (a + 16) 33 33 == 1)

/-- R446, R449: every byte lies in memory that some window exports to the lode. -/
def State.admits (s : State) (lode pa n : Nat) (r w : Bool) : Bool :=
  (upto n).all fun i =>
    (place (pa + i) == .main || place (pa + i) == .durable) && (upto 16).any fun k => s.exports k lode (pa + i) r w

/-- Bytes of an atomic request (R443): its type's width. -/
def atomicBytes (t : BitVec 5) : Nat := tyBytes t

/-- The answer to the last request. -/
def State.answered (s : State) (ok : Bool) (bs : List (BitVec 8)) : State := { s with reply := bs, replyOk := ok }

/-- R449, R450, R351: an inbound request is admitted through the export windows or refused. A write that finds the durable queue full
waits while its oldest entry goes to the media (R342). -/
def State.inbound (s : State) (r : FabricRequest) : State :=
    let lode := r.lode.toNat
    match r.op with
    | .read n =>
      if !s.admits lode r.pa n true false then s.answered false []
      else
        let pas := (upto n).map (r.pa + ·)
        let s := s.noteWords pas false whoLode
        let bs := pas.map fun a => s.readByte a false false
        (s.hot pas whoLode).answered (!bs.any (·.poison)) (bs.map (·.b))
    | .write bs =>
      if !s.admits lode r.pa bs.length false true then s.answered false []
      else (s.storeMain (bytesAtBase r.pa bs) false false whoLode {}).answered true []
    | .atomic op t mode opd cmp =>
      let n := atomicBytes t
      if !s.admits lode r.pa n true true then s.answered false []
      else
        let x := s.atomicMain r.pa n op t mode (opd.toNat % 2 ^ (8 * n)) (cmp.toNat % 2 ^ (8 * n)) false false whoLode {}
        x.1.answered (!x.2.2.2) (leBytes n x.2.1)
    | .mirror bs poison =>
      if !s.admits lode r.pa bs.length false true then s.answered false []
      else
        ((s.storeWords (bytesAtBase r.pa bs) (if poison then (upto bs.length).map (r.pa + ·) else []) false false whoLode {}).hot
          ((upto bs.length).map (r.pa + ·)) whoLode).answered true []

/-- FABRIC_REQUEST_ARRIVAL (R339, R449): an inbound request, whose answer is sent. -/
def execFabricRequestArrival (r : FabricRequest) (s : State) : Out := .next ((s.inbound r).countPkg 0x05 1)

/-! ## PCIe -/

/-- PCIE_LINK_TRAIN (R454): up to x16 and 128 GT/s, or narrower and slower. -/
def execPcieLinkTrain (lanes gts : Nat) (s : State) : Out :=
  .next (if [0, 1, 2, 4, 8, 16].contains lanes && decide (gts ≤ 128) then { s with pcieLanes := lanes, pcieGts := gts } else s)

/-- R454: a PCIe request whose cells are known reads or writes them, as a request of the host complex (R327, R334; log entry 57). -/
def State.pcieMove (s : State) (r : PcieRequest) (cs : List Cell) : State :=
  match r.write with
  | some bs => ((s.putCells (cs.zip (bs.map fun b => ⟨b, false⟩)) whoHost).hot (memPas cs) whoHost).answered true []
  | none =>
    let s := s.noteCells cs whoHost
    let bs := cs.map s.cellByte
    (s.hot (memPas cs) whoHost).answered (!bs.any (·.poison)) (bs.map (·.b))

/-- R320, R443, R448, R454: a PCIe request is translated under the requester's PASID, or is an Unsupported Request; one that reaches
other lodes goes over ports first. The ports that hold its requests, whether it has ended, and the state then; the walks count when it is
`new`. -/
def State.pcieGo (s : State) (x : PcieOut) (new : Bool) : List PortReq × Bool × State :=
  let r := x.req
  match Config.requesterPasid r.requester with
  | none => ([], true, s.answered false [])
  | some pasid =>
    let n := match r.write with | some bs => bs.length | none => r.len
    let s := s.meetPages pasid r.va.toNat n whoHost.req
    let s := if new then s.countPages pasid r.write.isSome r.va.toNat n true else s
    let sp := s.spansAt pasid r.write.isSome r.va.toNat n
    let y := s.cellsOf sp.1 x.ports
    if sp.2 then ([], true, s.answered false [])
    else
      match y.2 with
      | some (l, c) => ([], true, (s.fabErr l c).answered false [])
      | none =>
        let go := s.engineGo x.ports y.1
        if go.2.1 then ([], true, go.2.2.pcieMove r y.1) else go

/-- PCIE_INBOUND_REQUEST (R454, R320): one that reaches other lodes waits for their answers. -/
def execPcieInboundRequest (r : PcieRequest) (s : State) : Out :=
  .next (
    let go := s.pcieGo { req := r } true
    if go.2.1 then go.2.2 else { go.2.2 with pcieOut := go.2.2.pcieOut ++ [{ req := r, ports := go.1 }] })

/-- R446, R448, R454: the oldest PCIe request that waits for another lode goes on. -/
def State.pcieAway (s : State) : State :=
  match s.pcieOut with
  | [] => s
  | x :: _ =>
    let go := s.pcieGo x false
    let t := go.2.2
    { t with pcieOut := if go.2.1 then t.pcieOut.tail else { x with ports := go.1 } :: t.pcieOut.tail }

/-! ## The management port -/

/-- R455: registers that the management port reads: event counters, power registers (R422), FABPORT, FABERR and the error registers. -/
def telemetry (a : Nat) : Bool :=
  (counterOff a).isSome || inBlocks a aPower 0x300 1 || inBlocks a aPorts 0x40 24 || a == aPorts + 0xC00
    || (match errorUnit a with | some (u, off) => decide (u < 8 ∧ off < 0x500) | none => false)

/-- R455: a telemetry read. -/
def State.telemetryRead (s : State) (a : Nat) : State :=
  if a % 8 = 0 ∧ telemetry a then s.answered true (leBytes 8 (s.regRead a).toNat) else s.answered false []

/-- MANAGEMENT_FRAME (R455): an envelope, an attestation report or a telemetry read, which waits for a frozen geode (R400); anything
else is refused. -/
def execManagementFrame (f : MgmtFrame) (s : State) : Out :=
  match f with
  | .envelope e => execEnvelopeReceive e true s
  | .attest nonce => .next (s.answered true (s.attestation nonce))
  | .telemetry a =>
    .next (if s.rowHeld (.telemetry a) then s.holdRow (.telemetry a) else s.telemetryRead a)

/-- R279, R400: the place of the oldest waiting access from outside that goes on. -/
def State.heldGo (s : State) : Option Nat :=
  (s.heldRows.mapIdx fun i r => (i, r)).findSome? fun x =>
    if s.rowWaits x.2 || (s.heldRows.take x.1).any fun q => q.sender == x.2.sender then none else some x.1

/-- R400: an access from outside that waited is accepted. -/
def State.heldRow (s : State) : State :=
  match s.heldGo with
  | none => s
  | some i =>
    let t := { s with heldRows := s.heldRows.eraseIdx i }
    match s.heldRows[i]? with
    | some (.host a v fw) => t.hostAccess a v fw
    | some (.telemetry a) => t.telemetryRead a
    | none => t

/-! ## Power -/

/-- POWER_GOOD_DEASSERT (R346): the sealed entries reach the media, all else is lost; LASTLOSS says whether the tier keeps what R346
promises, and fuses keep what they hold (R438). -/
def execPowerGoodDeassert (drained : Bool) (s : State) : Out :=
  .next (
    if !s.powered then { s with pgood := none }
    else
      let t := s.drainQueue drained
      let sound := s.drainSound drained
      { State.reset with
        freeCtr := t.freeCtr
        nextId := t.nextId
        media := t.media
        mediaLost := t.mediaLost
        mediaKnown := t.mediaKnown
        durPoison := if sound then t.durPoison else []
        fwA := t.fwA
        fwB := t.fwB
        update := t.update
        wake := t.wake
        flaws := if sound then t.flaws.filter fun x => place x.1 == .durable else []
        dev := Tbl.set [(aDstat, BitVec.ofNat 64 (if sound then 4 else 8))] (aMeas + 0x240) (t.devGet (aMeas + 0x240))
        powered := false
        accepting := false
        bootStep := 0 })

/-- The image of a firmware slot, A (`false`) or B, where an update has replaced the one that the package was delivered with. -/
def State.fwOf (s : State) (slot : Bool) : Option Envelope := if slot then s.fwB else s.fwA

/-- Security version number of a firmware slot's image (R437). -/
def State.slotSvn (s : State) (slot : Bool) : Nat :=
  match s.fwOf slot with
  | some x => envField x 6 2
  | none => (Config.factorySvn slot).toNat

/-- R437, R438: the boot ROM accepts a firmware slot. -/
def State.bootable (s : State) (slot : Bool) : Bool :=
  match s.fwOf slot with
  | some x => envKind x == 1 && s.accepts x
  | none => Config.factoryVerifies slot && decide (s.fusedSvn 1 ≤ s.slotSvn slot)

/-- R439: MEAS0 receives the image of a slot. -/
def State.measureSlot (s : State) (slot : Bool) : State :=
  s.extendMeas 0 (match s.fwOf slot with
    | some x => beBytes 48 (sha384 x.payload).toNat
    | none => beBytes 48 (Config.factoryDigest slot).toNat)

/-- R438: the firmware slots in the order in which the boot ROM tries them: the one that an update waits in, then A, then B. -/
def State.bootOrder (s : State) : List Bool := (match s.update with | some b => [b] | none => []) ++ [false, true]

/-- R438, R456 step 1: the boot ROM runs the first slot accepted. -/
def State.bootRom (s : State) : Option State :=
  (s.bootOrder.find? s.bootable).map fun b =>
    ({ s with update := none }.devPut aBoot 0 0 (if b then 1 else 0)).measureSlot b

/-- R456: the registers that firmware loads at a step: LODE_ID (R465), the export windows and FPODGW at step 5; partitions and the
level table at step 6, a slot's PART among them. -/
def bootLoads (step a : Nat) (v : BitVec 64) : Bool :=
  if step = 5 then a == aLodeId || inBlocks a (aExport 0) 0x20 16 || a == aPodGw
  else
    inBlocks a (aGeodeMap 0) 4 40 || inBlocks a aParts 0x100 8 || inBlocks a aPower 8 9
      || inBlocks a aSlots 0x20 64 && a % 0x20 == 8 && wbits v 8 6 == 0

/-- R456: firmware's register writes at a step, which are its own affair; it may make none. -/
def State.bootWrites (s : State) (step : Nat) : State :=
  (Config.bootWrites s.freeCtr step).foldl (fun s x => if bootLoads step x.1 x.2 then s.regWrite x.1 x.2 true else s)
    { s with freeCtr := s.freeCtr + 1 }

/-- R436, R439, R456: the manifest that firmware loads at step 6. -/
def State.bootManifest (s : State) : State :=
  let t := { s with freeCtr := s.freeCtr + 1 }
  match Config.bootManifest s.freeCtr with
  | some m => { t with manifest := m.1 }.extendMeas 2 (beBytes 48 m.2.toNat)
  | none => t

/-- R443, R444: every port that may train begins to. -/
def State.trainPorts (s : State) : State :=
  (upto 24).foldl (fun s k => if s.devFld (aPort k) 0 0 = 1 then s.devPut (aPort k) 2 1 1 else s) s

/-- R438: FUSED rises to the SVN of the image that has booted where firmware so requests, which is its own affair. -/
def State.raiseFused (s : State) : State :=
  let t := if Config.freeBool s.freeCtr 20 then
      s.devPut (aMeas + 0x240) 15 0 (max (s.fusedSvn 1) (s.slotSvn (s.devFld aBoot 0 0 == 1)))
    else s
  { t with freeCtr := s.freeCtr + 1 }

/-- R456: one step of the bring-up (1 to 7), none where it fails. -/
def State.bringUpStep (s : State) (holdup : Bool) (k : Nat) : Option State :=
  match k with
  | 1 => s.bootRom
  | 3 => some { s with mem := [], memPoison := [] }
  | 4 => some (s.devPut aDstat 1 1 (if holdup then 0 else 1))
  | 5 => some (s.trainPorts.bootWrites 5)
  | 6 =>
    let s := (s.bootWrites 6).bootManifest
    some { s.extendMeas 1 (beBytes 48 (Config.configurationDigest s.freeCtr).toNat) with freeCtr := s.freeCtr + 1 }
  | 7 => some { s.raiseFused with accepting := true }
  | _ => some s

/-- R456: the steps from `k` on, `n` of them, until one fails; then the package is held in recovery. -/
def State.bringUp (s : State) (fails : Option Nat) (holdup : Bool) : Nat → Nat → State
  | 0, _ => s
  | n + 1, k =>
    match if fails = some k then none else s.bringUpStep holdup k with
    | some t => State.bringUp { t with bootStep := k } fails holdup n (k + 1)
    | none => { s with recovery := true }

/-- R28, R456: the package leaves power-down: the bring-up, in order. -/
def State.powerUp (s : State) (fails : Option Nat) (holdup : Bool) : State :=
  { s with powered := true, recovery := false, bootStep := 0, pgood := none }.bringUp fails holdup 7 1

/-- POWER_GOOD_ASSERT (R28, R456): the bring-up begins once power-good and the wake pin are both high (log entry 37). -/
def execPowerGoodAssert (fails : Option Nat) (holdup : Bool) (s : State) : Out :=
  .next (if s.powered then s else if s.wake then s.powerUp fails holdup else { s with pgood := some (fails, holdup) })

/-- WAKE_PIN (R28): the pin's level; with power-good high it brings the package out of power-down. -/
def execWakePin (level : Bool) (s : State) : Out :=
  .next (
    let s := { s with wake := level }
    match level, s.pgood with
    | true, some (fails, holdup) => if s.powered then s else s.powerUp fails holdup
    | _, _ => s)

end Sys2Proof.Machine
end

