-- ==== Sys2Proof/Machine/MemPair.lean ====
section
/-! DEFINITION. The loads and stores of the LD and ST slots and the address registers (08 R220 to R232, 04 R102 to R105,
11 R318). -/

namespace Sys2Proof.Machine

/-- R225: a load of separate elements; without an active element it takes the bound of the base's rank. -/
def State.loadElems (s : State) (d : BitVec 9) (m : BitVec 4) (t : BitVec 5) (x : BitVec 32) (addr : Nat → Nat) : State :=
  let w := tyBytes t
  let act := activeList (s.readM m) w
  let at0 := match act with | i :: _ => addr i | [] => spAddr x 0
  s.spadLoad (act.map fun i => (addr i, w)) (.vector (s.me.phys d) w act act (s.readV d)) (s.spBound at0)

/-- R224: scalar load. -/
def execLdS (g : BitVec 4) (d : BitVec 6) (xb : BitVec 5) (off : BitVec 22) (sx : BitVec 1) (sz : BitVec 2) (s : State) : Out :=
  slotOp (.ldS g d xb off sx sz) s (s.spadLoad [((spAddr (s.readX xb) off.toInt), 2 ^ sz.toNat)] (.scalar d.toNat (2 ^ sz.toNat) (sx == 1)) (s.spBound (spAddr (s.readX xb) off.toInt)))

/-- R225: contiguous vector load. -/
def execLdV (g : BitVec 4) (d : BitVec 9) (xb : BitVec 5) (off : BitVec 22) (m : BitVec 4) (t : BitVec 5) (s : State) : Out :=
  slotOp (.ldV g d xb off m t) s (s.spadLoad [((spAddr (s.readX xb) off.toInt), 128)] (.vector (s.me.phys d) (tyBytes t) (upto (elems t)) (activeList (s.readM m) (tyBytes t)) (s.readV d)) (s.spBound (spAddr (s.readX xb) off.toInt)))

/-- R225: strided vector load. -/
def execLdVs (g : BitVec 4) (d : BitVec 9) (xb : BitVec 5) (off : BitVec 22) (m : BitVec 4) (t : BitVec 5) (s : State) : Out :=
  slotOp (.ldVs g d xb off m t) s (s.loadElems d m t (s.readX xb) (strideAddr (s.readX xb) off))

/-- R225: gather. -/
def execLdVg (g : BitVec 4) (d : BitVec 9) (xb : BitVec 5) (vi : BitVec 9) (m : BitVec 4) (t : BitVec 5) (s : State) : Out :=
  slotOp (.ldVg g d xb vi m t) s (s.loadElems d m t (s.readX xb) (indexAddr (s.readX xb) (s.readV vi)))

/-- R226: mask load. -/
def execLdM (g md : BitVec 4) (xb : BitVec 5) (off : BitVec 22) (s : State) : Out :=
  slotOp (.ldM g md xb off) s (s.spadLoad [((spAddr (s.readX xb) off.toInt), 16)] (.mask md.toNat) (s.spBound (spAddr (s.readX xb) off.toInt)))

/-- R227, R228: widening load. -/
def execLdQ (g : BitVec 4) (d : BitVec 9) (xb : BitVec 5) (off : BitVec 22) (m : BitVec 4) (t : BitVec 5) (mf : BitVec 4) (s : State) : Out :=
  slotOp (.ldQ g d xb off m t mf) s (s.spadLoad [((spAddr (s.readX xb) off.toInt), ldqBytes mf (elems t))] (.widen (s.me.phys d) mf t (activeList (s.readM m) (tyBytes t)) (s.readV d)) (s.spBound (spAddr (s.readX xb) off.toInt)))

/-- R103: loads a register image. -/
def execVfill (g : BitVec 4) (d : BitVec 9) (xb : BitVec 5) (off : BitVec 22) (s : State) : Out :=
  slotOp (.vfill g d xb off) s (s.spadLoad [((spAddr (s.readX xb) off.toInt) / 32 * 32, 160)] (.image (s.me.phys d)) (s.spBound (spAddr (s.readX xb) off.toInt)))

/-- R318: scalar load through a handle. -/
def execLdhS (g : BitVec 4) (d : BitVec 6) (h xo : BitVec 5) (imm : BitVec 17) (sx : BitVec 1) (sz : BitVec 2) (s : State) : Out :=
  slotOp (.ldhS g d h xo imm sx sz) s (s.handleLoad (s.readH h) (hAddr (s.readH h) (s.readX xo) imm) (2 ^ sz.toNat) (.scalar d.toNat (2 ^ sz.toNat) (sx == 1)))

/-- R318: vector load through a handle. -/
def execLdhV (g : BitVec 4) (d : BitVec 9) (h xo : BitVec 5) (imm : BitVec 17) (m : BitVec 4) (t : BitVec 5) (s : State) : Out :=
  slotOp (.ldhV g d h xo imm m t) s (s.handleLoad (s.readH h) (hAddr (s.readH h) (s.readX xo) imm) 128 (.vector (s.me.phys d) (tyBytes t) (upto (elems t)) (activeList (s.readM m) (tyBytes t)) (s.readV d)))

/-- R105: address register to scalar. -/
def execMovXs (g : BitVec 4) (d : BitVec 6) (a : BitVec 5) (s : State) : Out :=
  slotOp (.movXs g d a) s (s.putS d ((s.readX a).zeroExtend 64) 2)

/-- R220: sum of address registers. -/
def execXadd (st : Bool) (g : BitVec 4) (d a b : BitVec 5) (s : State) : Out :=
  slotOp (.xadd st g d a b) s (s.land (.x d.toNat (s.readX a + s.readX b)) 1)

/-- R220: sum with an immediate. -/
def execXaddi (st : Bool) (g : BitVec 4) (d a : BitVec 5) (imm : BitVec 22) (s : State) : Out :=
  slotOp (.xaddi st g d a imm) s (s.land (.x d.toNat (s.readX a + imm.signExtend 32)) 1)

/-- R220: an immediate. -/
def execXli (st : Bool) (g : BitVec 4) (d : BitVec 5) (imm : BitVec 22) (s : State) : Out :=
  slotOp (.xli st g d imm) s (s.land (.x d.toNat (imm.signExtend 32)) 1)

/-- R220: difference of address registers. -/
def execXsub (st : Bool) (g : BitVec 4) (d a b : BitVec 5) (s : State) : Out :=
  slotOp (.xsub st g d a b) s (s.land (.x d.toNat (s.readX a - s.readX b)) 1)

/-- R231: scalar store. -/
def execStS (g : BitVec 4) (a : BitVec 6) (xb : BitVec 5) (off : BitVec 22) (t : BitVec 5) (mode : BitVec 3) (sz : BitVec 2) (s : State) : Out :=
  slotOp (.stS g a xb off t mode sz) s ((let r := scalarStore t mode sz (s.readS a); (s.spadStore (bytesAtBase (spAddr (s.readX xb) off.toInt) r.1)).raise r.2))

/-- R230: contiguous vector store. -/
def execStV (g : BitVec 4) (a : BitVec 9) (xb : BitVec 5) (off : BitVec 22) (m : BitVec 4) (t : BitVec 5) (mode : BitVec 3) (src : BitVec 4) (s : State) : Out :=
  slotOp (.stV g a xb off m t mode src) s ((let r := stvWrites t src mode (s.readM m) (s.readV a) (s.readV (a + 1)); (s.spadStore (atBase (spAddr (s.readX xb) off.toInt) r.1)).raise r.2))

/-- R230: strided vector store. -/
def execStVs (g : BitVec 4) (a : BitVec 9) (xb : BitVec 5) (off : BitVec 22) (m : BitVec 4) (t : BitVec 5) (mode : BitVec 3) (src : BitVec 4) (s : State) : Out :=
  slotOp (.stVs g a xb off m t mode src) s ((let r := stxWrites t src mode (s.readM m) (s.readV a) (strideAddr (s.readX xb) off); (s.spadStore r.1).raise r.2))

/-- R230: scatter. -/
def execStVx (g : BitVec 4) (a : BitVec 9) (xb : BitVec 5) (vi : BitVec 9) (m : BitVec 4) (t : BitVec 5) (mode : BitVec 3) (src : BitVec 4) (s : State) : Out :=
  slotOp (.stVx g a xb vi m t mode src) s ((let r := stxWrites t src mode (s.readM m) (s.readV a) (indexAddr (s.readX xb) (s.readV vi)); (s.spadStore r.1).raise r.2))

/-- R231: mask store. -/
def execStM (g ms : BitVec 4) (xb : BitVec 5) (off : BitVec 22) (s : State) : Out :=
  slotOp (.stM g ms xb off) s (s.spadStore (bytesAtBase (spAddr (s.readX xb) off.toInt) (leBytes 16 (s.readM ms).toNat)))

/-- R103: stores a register image. -/
def execVspill (g : BitVec 4) (a : BitVec 9) (xb : BitVec 5) (off : BitVec 22) (s : State) : Out :=
  slotOp (.vspill g a xb off) s (s.spadStore (bytesAtBase ((spAddr (s.readX xb) off.toInt) / 32 * 32) (s.readV a).image))

/-- R318: scalar store through a handle. -/
def execSthS (g : BitVec 4) (a : BitVec 6) (h xo : BitVec 5) (imm : BitVec 17) (t : BitVec 5) (mode : BitVec 3) (sz : BitVec 2) (s : State) : Out :=
  slotOp (.sthS g a h xo imm t mode sz) s ((let r := scalarStore t mode sz (s.readS a); (s.handleStore (s.readH h) (hAddr (s.readH h) (s.readX xo) imm) (bytesAtBase 0 r.1)).raise r.2))

/-- R318: vector store through a handle. -/
def execSthV (g : BitVec 4) (a : BitVec 9) (h xo : BitVec 5) (imm : BitVec 17) (m : BitVec 4) (t : BitVec 5) (mode : BitVec 3) (src : BitVec 4) (s : State) : Out :=
  slotOp (.sthV g a h xo imm m t mode src) s ((let r := stvWrites t src mode (s.readM m) (s.readV a) (s.readV (a + 1)); (s.handleStore (s.readH h) (hAddr (s.readH h) (s.readX xo) imm) r.1).raise r.2))

/-- R232: scratchpad atomic. -/
def execAmoP (g : BitVec 4) (d : BitVec 6) (xb : BitVec 5) (off : BitVec 22) (t : BitVec 5) (mode : BitVec 3) (op : BitVec 4) (s : State) : Out :=
  slotOp (.amoP g d xb off t mode op) s (s.spadAmo ((spAddr (s.readX xb) off.toInt) / tyBytes t * tyBytes t) (tyBytes t) op t mode d)

/-- R318: atomic through a handle. -/
def execAmoH (g : BitVec 4) (d : BitVec 6) (h xo : BitVec 5) (imm : BitVec 17) (t : BitVec 5) (mode : BitVec 3) (op : BitVec 4) (s : State) : Out :=
  slotOp (.amoH g d h xo imm t mode op) s (s.handleAmo (s.readH h) (hAddr (s.readH h) (s.readX xo) imm / tyBytes t * tyBytes t) (tyBytes t) op t mode d)

/-- R318, R289: a signal write of 8 bytes that releases at the bundle's scope. -/
def execSigw (g : BitVec 4) (a : BitVec 6) (h xo : BitVec 5) (imm : BitVec 17) (s : State) : Out :=
  slotOp (.sigw g a h xo imm) s (s.handleStore (s.readH h) (hAddr (s.readH h) (s.readX xo) imm / 8 * 8) (bytesAtBase 0 (leBytes 8 (s.readS a).toNat)) s.covered s.coversMirror)

end Sys2Proof.Machine
end

