-- ==== Sys2Proof/Machine/VectorFloat.lean ====
section
/-! DEFINITION. The vector slots: floating point, conversions, classes, compares, reductions and block scales (06 R152 to
R167). -/

namespace Sys2Proof.Machine

/-- R153: a governed result of type `t`. -/
def State.governed (s : State) (d : BitVec 9) (m : BitVec 4) (t : BitVec 5) (lat : Nat) (f : Nat → Nat × Nat × BitVec 6) : State :=
  let r := govern (tyBytes t) (s.readM m) (s.readV d) f
  s.putV d r.1 lat r.2

/-- R156: an exact result rounded to odd once, with the flags of both. -/
def rounded (t : BitVec 5) (x : Num × BitVec 6) : Nat × Nat × BitVec 6 :=
  let r := ro x.1 (fmtOf t)
  (r.1, r.2.1, r.2.2 ||| x.2)

/-- R156: one operand. -/
def State.float1 (s : State) (d a : BitVec 9) (m : BitVec 4) (t : BitVec 5) (lat : Nat) (f : Num → Num × BitVec 6) : State :=
  s.governed d m t lat fun i => rounded t (f ((s.readV a).num t i))

/-- R156: two operands. -/
def State.float2 (s : State) (d a b : BitVec 9) (m : BitVec 4) (t : BitVec 5) (lat : Nat) (f : Num → Num → Num × BitVec 6) :
    State :=
  s.governed d m t lat fun i => rounded t (f ((s.readV a).num t i) ((s.readV b).num t i))

/-- R156: three operands. -/
def State.float3 (s : State) (d a b c : BitVec 9) (m : BitVec 4) (t : BitVec 5) (f : Num → Num → Num → Num × BitVec 6) :
    State :=
  s.governed d m t 4 fun i => rounded t (f ((s.readV a).num t i) ((s.readV b).num t i) ((s.readV c).num t i))

/-- R159: A × 2^k. An infinity with a non-zero tail goes through the rounding as any, so its tail becomes 0b00 (log entry 49). -/
def scaleElem (t : BitVec 5) (x : Num) (k : Int) : Nat × Nat × BitVec 6 := ro (x.scale k) (fmtOf t)

/-- R158: `fabs` (clears the sign) or `fneg` (inverts it); a NaN gives the canonical NaN. -/
def signElem (neg : Bool) (f : Fmt) (x : Nat × Nat) : Nat × Nat × BitVec 6 :=
  if f.isNan x.1 then (f.nan, 0, 0)
  else
    let low := x.1 % 2 ^ (f.width - 1)
    (if neg && !f.sign x.1 then low + 2 ^ (f.width - 1) else low, x.2, 0)

/-- R160: the destination elements of a conversion: for destination element `j`, the source element, if any. -/
def convSource (ws wd part j : Nat) : Option Nat :=
  if wd < ws then (if part * (128 / ws) ≤ j ∧ j < (part + 1) * (128 / ws) then some (j - part * (128 / ws)) else none)
  else if ws < wd then some (part * (128 / wd) + j)
  else some j

/-- R160: a conversion from type `st` to type `t`; the bound is 3. -/
def State.converted (s : State) (d : BitVec 9) (m : BitVec 4) (st t : BitVec 5) (part : Nat)
    (conv : Nat → Nat × Nat × BitVec 6) : State :=
  let w := tyBytes t
  let old := s.readV d
  let mk := s.readM m
  let es := (upto (128 / w)).map fun j =>
    match convSource (tyBytes st) w part j with
    | some i => if active mk w j then conv i else (old.elem w j, old.tails w j, 0)
    | none => (old.elem w j, old.tails w j, 0)
  s.putV d (VReg.ofElems w (es.map fun e => (e.1, e.2.1))) 3 (es.foldl (fun a e => a ||| e.2.2) 0)

/-- R162: number of the class of an element. -/
def classOf (f : Fmt) (x : Nat × Nat) : Nat :=
  let pick (neg pos : Nat) : Nat := if f.sign x.1 then neg else pos
  if f.isNan x.1 then 8
  else if f.isInf x.1 then pick 0 7
  else if f.expo x.1 != 0 then pick 1 6
  else if f.frac x.1 = 0 ∧ x.2 = 0 then pick 3 4
  else pick 2 5

/-- R162: the class set and the tail qualifier admit an element. -/
def classIn (f : Fmt) (cls : BitVec 9) (q : Nat) (x : Nat × Nat) : Bool :=
  cls.getLsbD (classOf f x) && (q == 0 || q == 1 && x.2 != 0 || q == 2 && x.2 == 0)

/-- R163: the conditions; `none` for a NaN operand. -/
def condHolds (cond : Nat) (o : Option Ordering) : Bool :=
  match cond, o with
  | 0, some r => r == .eq
  | 1, some r => r != .eq
  | 2, some r => r == .lt
  | 3, some r => r != .gt
  | 4, some r => r == .gt
  | 5, some r => r != .lt
  | 6, some _ => false
  | _, some _ => true
  | c, none => c == 1 || c == 6

/-- A node of the tree of R164: value, tail and flags. -/
abbrev Node := Nat × Nat × BitVec 6

/-- R164: two nodes combined. A lone one passes unchanged, a NaN's payload and sign with it, as R164's pseudocode says; that R68's
canonical NaN is not put in its place is the model's choice (log entry 46). -/
def combine (f : Node → Node → Node) : Option Node → Option Node → Option Node
  | none, y => y
  | x, none => x
  | some x, some y => some (f x y)

/-- R164: one level of the tree. -/
def treeLevel (f : Node → Node → Node) : List (Option Node) → List (Option Node)
  | x :: y :: r => combine f x y :: treeLevel f r
  | l => l

/-- R164: the levels of the tree. -/
def treeGo (f : Node → Node → Node) : Nat → List (Option Node) → List (Option Node)
  | 0, l => l
  | k + 1, l => treeGo f k (treeLevel f l)

/-- R164: `ro` of the sum of two nodes, flags gathered. -/
def fredSum (t : BitVec 5) (x y : Node) : Node :=
  let r := rounded t ((exactNum (fmtOf t) x.1 x.2.1).add (exactNum (fmtOf t) y.1 y.2.1))
  (r.1, r.2.1, r.2.2 ||| x.2.2 ||| y.2.2)

/-- R164: a reduction to element 0, every other element +0. -/
def State.reduced (s : State) (d a : BitVec 9) (m : BitVec 4) (t : BitVec 5) (f : Node → Node → Node) : State :=
  let w := tyBytes t
  let va := s.readV a
  let mk := s.readM m
  let leaf (i : Nat) : Option Node := if active mk w i then some (va.elem w i, va.tailAt w i, 0) else none
  let r := ((treeGo f 7 ((upto (elems t)).map leaf)).headD none).getD (0, 0, 0)
  s.putV d (VReg.ofElems w [(r.1, r.2.1)]) 8 r.2.2

/-- Whether the magnitude of a number exceeds that of another. -/
def magLess (x y : Num) : Bool :=
  match x, y with
  | .fin _ m e, .fin _ n f => cmpMag m e n f == .lt
  | _, _ => false

/-- R166: the scale byte of a block whose participating elements are given; `L` is the format's largest value. -/
def scaleByte (L : Nat) (xs : List Num) : Nat :=
  if xs.isEmpty then 127
  else if xs.any fun x => match x with | .fin .. => false | _ => true then 255
  else
    match xs.foldl (fun a x => if magLess a x then x else a) (.fin false 0 0) with
    | .fin _ m e => if m = 0 then 127 else (min (max (127 + ceilLog2Div m e L) 0) 254).toNat
    | _ => 255

/-- R166: the register of scale bytes. -/
def scaleBytes (L : Nat) (t : BitVec 5) (m : BitVec 128) (a : VReg) : VReg :=
  VReg.ofElems 1 ((upto (elems t / 8)).map fun g =>
    (scaleByte L (((upto 8).filter fun k => active m (tyBytes t) (8 * g + k)).map fun k => a.num t (8 * g + k)), 0))

/-- R156: A + B. -/
def execFadd (u : VUnit) (g : BitVec 4) (d a b : BitVec 9) (m : BitVec 4) (t : BitVec 5) (s : State) : Out :=
  slotOp (.fadd u g d a b m t) s (s.float2 d a b m t 4 (fun x y => x.add y))

/-- R156: A - B. -/
def execFsub (u : VUnit) (g : BitVec 4) (d a b : BitVec 9) (m : BitVec 4) (t : BitVec 5) (s : State) : Out :=
  slotOp (.fsub u g d a b m t) s (s.float2 d a b m t 4 (fun x y => x.add y.neg))

/-- R156: A × B. -/
def execFmul (u : VUnit) (g : BitVec 4) (d a b : BitVec 9) (m : BitVec 4) (t : BitVec 5) (s : State) : Out :=
  slotOp (.fmul u g d a b m t) s (s.float2 d a b m t 4 (fun x y => x.mul y))

/-- R156: A / B. -/
def execFdiv (u : VUnit) (g : BitVec 4) (d a b : BitVec 9) (m : BitVec 4) (t : BitVec 5) (s : State) : Out :=
  slotOp (.fdiv u g d a b m t) s (s.float2 d a b m t 12 (fun x y => x.div y))

/-- R158: the lesser operand, its value bits and tail unchanged. -/
def execFmin (u : VUnit) (g : BitVec 4) (d a b : BitVec 9) (m : BitVec 4) (t : BitVec 5) (s : State) : Out :=
  slotOp (.fmin u g d a b m t) s (s.governed d m t 4 fun i => let r := fminmax (fmtOf t) false ((s.readV a).pick (tyBytes t) i) ((s.readV b).pick (tyBytes t) i); (r.1, r.2, 0))

/-- R158: the greater operand, its value bits and tail unchanged. -/
def execFmax (u : VUnit) (g : BitVec 4) (d a b : BitVec 9) (m : BitVec 4) (t : BitVec 5) (s : State) : Out :=
  slotOp (.fmax u g d a b m t) s (s.governed d m t 4 fun i => let r := fminmax (fmtOf t) true ((s.readV a).pick (tyBytes t) i) ((s.readV b).pick (tyBytes t) i); (r.1, r.2, 0))

/-- R159: A × 2^k, k the element of vb as a signed integer. -/
def execFscale (u : VUnit) (g : BitVec 4) (d a b : BitVec 9) (m : BitVec 4) (t : BitVec 5) (s : State) : Out :=
  slotOp (.fscale u g d a b m t) s (s.governed d m t 4 fun i => scaleElem t ((s.readV a).num t i) (sextNat ((s.readV b).elem (tyBytes t) i) (8 * tyBytes t)))

/-- R156: A × B + C. -/
def execFma (u : VUnit) (g : BitVec 4) (d a b c : BitVec 9) (m : BitVec 4) (t : BitVec 5) (s : State) : Out :=
  slotOp (.fma u g d a b c m t) s (s.float3 d a b c m t (fun x y z => x.fma y z))

/-- R156: A × B - C. -/
def execFms (u : VUnit) (g : BitVec 4) (d a b c : BitVec 9) (m : BitVec 4) (t : BitVec 5) (s : State) : Out :=
  slotOp (.fms u g d a b c m t) s (s.float3 d a b c m t (fun x y z => x.fma y z.neg))

/-- R156: -(A × B) + C. -/
def execFnma (u : VUnit) (g : BitVec 4) (d a b c : BitVec 9) (m : BitVec 4) (t : BitVec 5) (s : State) : Out :=
  slotOp (.fnma u g d a b c m t) s (s.float3 d a b c m t (fun x y z => x.neg.fma y z))

/-- R158: clears the sign bit. -/
def execFabs (u : VUnit) (g : BitVec 4) (d a : BitVec 9) (m : BitVec 4) (t : BitVec 5) (s : State) : Out :=
  slotOp (.fabs u g d a m t) s (s.governed d m t 4 fun i => signElem false (fmtOf t) ((s.readV a).pick (tyBytes t) i))

/-- R158: inverts the sign bit. -/
def execFneg (u : VUnit) (g : BitVec 4) (d a : BitVec 9) (m : BitVec 4) (t : BitVec 5) (s : State) : Out :=
  slotOp (.fneg u g d a m t) s (s.governed d m t 4 fun i => signElem true (fmtOf t) ((s.readV a).pick (tyBytes t) i))

/-- R156: √A. -/
def execFsqrt (u : VUnit) (g : BitVec 4) (d a : BitVec 9) (m : BitVec 4) (t : BitVec 5) (s : State) : Out :=
  slotOp (.fsqrt u g d a m t) s (s.float1 d a m t 12 (Num.sqrt))

/-- R156: 1 / A. -/
def execFrcp (u : VUnit) (g : BitVec 4) (d a : BitVec 9) (m : BitVec 4) (t : BitVec 5) (s : State) : Out :=
  slotOp (.frcp u g d a m t) s (s.float1 d a m t 12 (fun x => Num.div (.fin false 1 0) x))

/-- R156: 1 / √A. -/
def execFrsq (u : VUnit) (g : BitVec 4) (d a : BitVec 9) (m : BitVec 4) (t : BitVec 5) (s : State) : Out :=
  slotOp (.frsq u g d a m t) s (s.float1 d a m t 12 (Num.rsqrt))

/-- R156: 2^A. -/
def execFexp2 (u : VUnit) (g : BitVec 4) (d a : BitVec 9) (m : BitVec 4) (t : BitVec 5) (s : State) : Out :=
  slotOp (.fexp2 u g d a m t) s (s.float1 d a m t 12 (fun x => (x.exp2, 0)))

/-- R156: log2 A. -/
def execFlog2 (u : VUnit) (g : BitVec 4) (d a : BitVec 9) (m : BitVec 4) (t : BitVec 5) (s : State) : Out :=
  slotOp (.flog2 u g d a m t) s (s.float1 d a m t 12 (Num.log2))

/-- R161: conversion between floating-point types. -/
def execFcvt (u : VUnit) (g : BitVec 4) (d a : BitVec 9) (st : BitVec 5) (part : BitVec 9) (m : BitVec 4) (t : BitVec 5) (s : State) : Out :=
  slotOp (.fcvt u g d a st part m t) s (s.converted d m st t part.toNat fun i => ro ((s.readV a).num st i) (fmtOf t))

/-- R161: explicit final rounding; tail 0b00. -/
def execFround (u : VUnit) (g : BitVec 4) (d a : BitVec 9) (st : BitVec 5) (part : BitVec 9) (m : BitVec 4) (t : BitVec 5) (md : BitVec 3) (s : State) : Out :=
  slotOp (.fround u g d a st part m t md) s (s.converted d m st t part.toNat fun i => let r := finalRound ((s.readV a).num st i) t md; (r.1, 0, r.2))

/-- R162: classes and tail qualifier into a mask. -/
def execFclass (u : VUnit) (g md : BitVec 4) (a cls : BitVec 9) (m : BitVec 4) (t : BitVec 5) (q : BitVec 3) (s : State) : Out :=
  slotOp (.fclass u g md a cls m t q) s (s.putM md (maskOf (tyBytes t) fun i => active (s.readM m) (tyBytes t) i && classIn (fmtOf t) cls q.toNat ((s.readV a).pick (tyBytes t) i)) 4)

/-- R163: compare into a mask. -/
def execFcmp (u : VUnit) (g md : BitVec 4) (a b : BitVec 9) (m : BitVec 4) (t : BitVec 5) (cond : BitVec 3) (s : State) : Out :=
  slotOp (.fcmp u g md a b m t cond) s (s.putM md (maskOf (tyBytes t) fun i => active (s.readM m) (tyBytes t) i && condHolds cond.toNat (((s.readV a).num t i).cmp ((s.readV b).num t i))) 4)

/-- R164: the sum over the fixed tree, in element 0. -/
def execFredAdd (u : VUnit) (g : BitVec 4) (d a : BitVec 9) (m : BitVec 4) (t : BitVec 5) (s : State) : Out :=
  slotOp (.fredAdd u g d a m t) s (s.reduced d a m t (fredSum t))

/-- R164: the maximum over the fixed tree, in element 0. -/
def execFredMax (u : VUnit) (g : BitVec 4) (d a : BitVec 9) (m : BitVec 4) (t : BitVec 5) (s : State) : Out :=
  slotOp (.fredMax u g d a m t) s (s.reduced d a m t (fun x y => let r := fminmax (fmtOf t) true (x.1, x.2.1) (y.1, y.2.1); (r.1, r.2, x.2.2 ||| y.2.2)))

/-- R164: the minimum over the fixed tree, in element 0. -/
def execFredMin (u : VUnit) (g : BitVec 4) (d a : BitVec 9) (m : BitVec 4) (t : BitVec 5) (s : State) : Out :=
  slotOp (.fredMin u g d a m t) s (s.reduced d a m t (fun x y => let r := fminmax (fmtOf t) false (x.1, x.2.1) (y.1, y.2.1); (r.1, r.2, x.2.2 ||| y.2.2)))

/-- R166: the scale bytes of the blocks. -/
def execBscale (u : VUnit) (g : BitVec 4) (d a : BitVec 9) (m : BitVec 4) (t : BitVec 5) (sb : BitVec 3) (s : State) : Out :=
  slotOp (.bscale u g d a m t sb) s (s.putV d (scaleBytes (if sb = 0 then 6 else 448) t (s.readM m) (s.readV a)) 8)

end Sys2Proof.Machine
end

