-- ==== Sys2Proof/Machine/VectorInt.lean ====
section
/-! DEFINITION. The vector slots: integers and random numbers (06 R161, R163, R165, R168 to R171, R175, R176). -/

namespace Sys2Proof.Machine

/-- R168: a governed integer result, modulo 2^W with tail 0b00; the Bool says that it was clamped (R171). -/
def intElem (t : BitVec 5) (r : Int × Bool) : Nat × Nat × BitVec 6 :=
  (wrapInt r.1 (8 * tyBytes t), 0, if r.2 then fSat else 0)

/-- R168: one operand, given by its value bits. -/
def State.int1 (s : State) (d a : BitVec 9) (m : BitVec 4) (t : BitVec 5) (f : Nat → Int) : State :=
  s.governed d m t 4 fun i => intElem t (f ((s.readV a).elem (tyBytes t) i), false)

/-- R168: two operands, given by their value bits. -/
def State.int2 (s : State) (d a b : BitVec 9) (m : BitVec 4) (t : BitVec 5) (f : Nat → Nat → Int × Bool) : State :=
  s.governed d m t 4 fun i => intElem t (f ((s.readV a).elem (tyBytes t) i) ((s.readV b).elem (tyBytes t) i))

/-- R165: the sum of the participating elements, clamped to the range of i64 or n64. -/
def sumClamp (t : BitVec 5) (m : BitVec 128) (a : VReg) : Int × Bool :=
  let z := (activeList m (tyBytes t)).foldl (fun z i => z + intOf t (a.elem (tyBytes t) i)) 0
  if signedTy t then clampInt z (intMin 20) (intMax 20) else clampInt z 0 (intMax 27)

/-- R161: `icvt`: to a floating-point type by rounding to odd, to an integer type by wrapping or clamping. -/
def convertInt (t : BitVec 5) (sat : Bool) (v : Int) : Nat × Nat × BitVec 6 :=
  if tyF t then ro (.fin (decide (v < 0)) v.natAbs 0) (fmtOf t)
  else if sat then intElem t (clampInt v (intMin t) (intMax t))
  else intElem t (v, false)

/-- R175: the rounds of Philox4x32-10. -/
def philoxGo : Nat → Nat → Nat → Nat → Nat → Nat → Nat → Nat × Nat × Nat × Nat
  | 0, c0, c1, c2, c3, _, _ => (c0, c1, c2, c3)
  | n + 1, c0, c1, c2, c3, k0, k1 =>
    let p0 := 0xD2511F53 * c0
    let p1 := 0xCD9E8D57 * c2
    philoxGo n ((p1 / 2 ^ 32) ^^^ c1 ^^^ k0) (p1 % 2 ^ 32) ((p0 / 2 ^ 32) ^^^ c3 ^^^ k1) (p0 % 2 ^ 32)
      ((k0 + 0x9E3779B9) % 2 ^ 32) ((k1 + 0xBB67AE85) % 2 ^ 32)

/-- R175: the 128 bits of a group from its counter and the low 64 bits of its key. -/
def philox (c k : Nat) : Nat :=
  let w (x i : Nat) : Nat := x / 2 ^ (32 * i) % 2 ^ 32
  let r := philoxGo 10 (w c 0) (w c 1) (w c 2) (w c 3) (w k 0) (w k 1)
  r.1 + r.2.1 * 2 ^ 32 + r.2.2.1 * 2 ^ 64 + r.2.2.2 * 2 ^ 96

/-- R168: sum modulo 2^W. -/
def execIadd (u : VUnit) (g : BitVec 4) (d a b : BitVec 9) (m : BitVec 4) (t : BitVec 5) (s : State) : Out :=
  slotOp (.iadd u g d a b m t) s (s.int2 d a b m t fun x y => (intOf t x + intOf t y, false))

/-- R168: difference modulo 2^W. -/
def execIsub (u : VUnit) (g : BitVec 4) (d a b : BitVec 9) (m : BitVec 4) (t : BitVec 5) (s : State) : Out :=
  slotOp (.isub u g d a b m t) s (s.int2 d a b m t fun x y => (intOf t x - intOf t y, false))

/-- R168: low half of the product. -/
def execImul (u : VUnit) (g : BitVec 4) (d a b : BitVec 9) (m : BitVec 4) (t : BitVec 5) (s : State) : Out :=
  slotOp (.imul u g d a b m t) s (s.int2 d a b m t fun x y => (intOf t x * intOf t y, false))

/-- R168: high half of the product. -/
def execImulh (u : VUnit) (g : BitVec 4) (d a b : BitVec 9) (m : BitVec 4) (t : BitVec 5) (s : State) : Out :=
  slotOp (.imulh u g d a b m t) s (s.int2 d a b m t fun x y => (intOf t x * intOf t y / 2 ^ (8 * tyBytes t), false))

/-- R168: bitwise AND. -/
def execIand (u : VUnit) (g : BitVec 4) (d a b : BitVec 9) (m : BitVec 4) (t : BitVec 5) (s : State) : Out :=
  slotOp (.iand u g d a b m t) s (s.int2 d a b m t fun x y => ((x &&& y : Nat), false))

/-- R168: bitwise OR. -/
def execIor (u : VUnit) (g : BitVec 4) (d a b : BitVec 9) (m : BitVec 4) (t : BitVec 5) (s : State) : Out :=
  slotOp (.ior u g d a b m t) s (s.int2 d a b m t fun x y => ((x ||| y : Nat), false))

/-- R168: bitwise XOR. -/
def execIxor (u : VUnit) (g : BitVec 4) (d a b : BitVec 9) (m : BitVec 4) (t : BitVec 5) (s : State) : Out :=
  slotOp (.ixor u g d a b m t) s (s.int2 d a b m t fun x y => ((x ^^^ y : Nat), false))

/-- R168: shift left. -/
def execIshl (u : VUnit) (g : BitVec 4) (d a b : BitVec 9) (m : BitVec 4) (t : BitVec 5) (s : State) : Out :=
  slotOp (.ishl u g d a b m t) s (s.int2 d a b m t fun x y => ((x * 2 ^ (y % (8 * tyBytes t)) : Nat), false))

/-- R168: logical shift right. -/
def execIshr (u : VUnit) (g : BitVec 4) (d a b : BitVec 9) (m : BitVec 4) (t : BitVec 5) (s : State) : Out :=
  slotOp (.ishr u g d a b m t) s (s.int2 d a b m t fun x y => ((x / 2 ^ (y % (8 * tyBytes t)) : Nat), false))

/-- R168: arithmetic shift right, in both signednesses. -/
def execIsra (u : VUnit) (g : BitVec 4) (d a b : BitVec 9) (m : BitVec 4) (t : BitVec 5) (s : State) : Out :=
  slotOp (.isra u g d a b m t) s (s.int2 d a b m t fun x y => (sextNat x (8 * tyBytes t) / 2 ^ (y % (8 * tyBytes t)), false))

/-- R168: minimum in the signedness of t. -/
def execImin (u : VUnit) (g : BitVec 4) (d a b : BitVec 9) (m : BitVec 4) (t : BitVec 5) (s : State) : Out :=
  slotOp (.imin u g d a b m t) s (s.int2 d a b m t fun x y => (min (intOf t x) (intOf t y), false))

/-- R168: maximum in the signedness of t. -/
def execImax (u : VUnit) (g : BitVec 4) (d a b : BitVec 9) (m : BitVec 4) (t : BitVec 5) (s : State) : Out :=
  slotOp (.imax u g d a b m t) s (s.int2 d a b m t fun x y => (max (intOf t x) (intOf t y), false))

/-- R168: sum clamped to the range of t (R171). -/
def execIadds (u : VUnit) (g : BitVec 4) (d a b : BitVec 9) (m : BitVec 4) (t : BitVec 5) (s : State) : Out :=
  slotOp (.iadds u g d a b m t) s (s.int2 d a b m t fun x y => clampInt (intOf t x + intOf t y) (intMin t) (intMax t))

/-- R168: difference clamped to the range of t (R171). -/
def execIsubs (u : VUnit) (g : BitVec 4) (d a b : BitVec 9) (m : BitVec 4) (t : BitVec 5) (s : State) : Out :=
  slotOp (.isubs u g d a b m t) s (s.int2 d a b m t fun x y => clampInt (intOf t x - intOf t y) (intMin t) (intMax t))

/-- R168: absolute value; the minimum stays. -/
def execIabs (u : VUnit) (g : BitVec 4) (d a : BitVec 9) (m : BitVec 4) (t : BitVec 5) (s : State) : Out :=
  slotOp (.iabs u g d a m t) s (s.int1 d a m t fun x => ((intOf t x).natAbs : Int))

/-- R168: leading zeros. -/
def execIclz (u : VUnit) (g : BitVec 4) (d a : BitVec 9) (m : BitVec 4) (t : BitVec 5) (s : State) : Out :=
  slotOp (.iclz u g d a m t) s (s.int1 d a m t fun x => ((clzNat x (8 * tyBytes t) : Nat) : Int))

/-- R168: one bits. -/
def execIpopc (u : VUnit) (g : BitVec 4) (d a : BitVec 9) (m : BitVec 4) (t : BitVec 5) (s : State) : Out :=
  slotOp (.ipopc u g d a m t) s (s.int1 d a m t fun x => ((popNat x (8 * tyBytes t) : Nat) : Int))

/-- R168: bit j to 3j. -/
def execIbint3 (u : VUnit) (g : BitVec 4) (d a : BitVec 9) (m : BitVec 4) (t : BitVec 5) (s : State) : Out :=
  slotOp (.ibint3 u g d a m t) s (s.int1 d a m t fun x => ((spread x id (3 * ·) ((8 * tyBytes t - 1) / 3 + 1) : Nat) : Int))

/-- R163: compare into a mask, in the signedness of t. -/
def execIcmp (u : VUnit) (g md : BitVec 4) (a b : BitVec 9) (m : BitVec 4) (t : BitVec 5) (cond : BitVec 3) (s : State) : Out :=
  slotOp (.icmp u g md a b m t cond) s (s.putM md (maskOf (tyBytes t) fun i => active (s.readM m) (tyBytes t) i && condHolds cond.toNat (some (compare (intOf t ((s.readV a).elem (tyBytes t) i)) (intOf t ((s.readV b).elem (tyBytes t) i))))) 4)

/-- R165: exact sum of the participating elements, clamped to 64 bits. -/
def execIredAdd (u : VUnit) (g : BitVec 4) (d a : BitVec 9) (m : BitVec 4) (t : BitVec 5) (s : State) : Out :=
  slotOp (.iredAdd u g d a m t) s ((let r := sumClamp t (s.readM m) (s.readV a); s.putV d ⟨BitVec.ofNat 1024 (wrapInt r.1 64), 0⟩ 8 (if r.2 then fSat else 0)))

/-- R169: eight 128-bit sums. -/
def execIadd128 (u : VUnit) (g : BitVec 4) (d a b : BitVec 9) (m : BitVec 4) (t : BitVec 5) (s : State) : Out :=
  slotOp (.iadd128 u g d a b m t) s ((let r := govern 16 (s.readM m) (s.readV d) (fun j => (((s.readV a).elem 16 j + (s.readV b).elem 16 j) % 2 ^ 128, 0, 0)); s.putV d r.1 4))

/-- R161: conversion of integers; `icvt.sat` raises saturation where it clamps. -/
def execIcvt (u : VUnit) (g : BitVec 4) (d a : BitVec 9) (st : BitVec 5) (part : BitVec 9) (m : BitVec 4) (t : BitVec 5) (sb : BitVec 3) (s : State) : Out :=
  slotOp (.icvt u g d a st part m t sb) s (s.converted d m st t part.toNat fun i => convertInt t (sb == 1) (intOf st ((s.readV a).elem (tyBytes st) i)))

/-- R175: Philox4x32-10 on eight groups. -/
def execVrng (u : VUnit) (g : BitVec 4) (d a b : BitVec 9) (m : BitVec 4) (t : BitVec 5) (s : State) : Out :=
  slotOp (.vrng u g d a b m t) s ((let r := govern 16 (s.readM m) (s.readV d) (fun k => (philox ((s.readV a).elem 16 k) ((s.readV b).elem 16 k), 0, 0)); s.putV d r.1 10))

/-- R176: (x >> 8) × 2^-24. -/
def execVrngF (u : VUnit) (g : BitVec 4) (d a : BitVec 9) (m : BitVec 4) (t : BitVec 5) (s : State) : Out :=
  slotOp (.vrngF u g d a m t) s (s.governed d m t 10 fun i => let r := ro (.fin false ((s.readV a).elem 4 i / 256) (-24)) (fmtOf 1); (r.1, 0, 0))

end Sys2Proof.Machine
end

