-- ==== Sys2Proof/Machine/VectorMove.lean ====
section
/-! DEFINITION. The vector slots: selects, permutes, moves and mask logic (06 R172 to R174) and the copies out of the
vector file (04 R105). -/

namespace Sys2Proof.Machine

/-- A moved element: value and tail, no flag (R76, R172). -/
def moved (e : Nat × Nat) : Nat × Nat × BitVec 6 := (e.1, e.2, 0)

/-- R173: the constant of `vmovi`. -/
def moviConst (t : BitVec 5) (imm : BitVec 18) : Nat :=
  if tyI t then wrapInt imm.toInt (8 * tyBytes t)
  else if t == 1 then imm.toNat * 2 ^ 14
  else imm.toNat % 2 ^ (8 * tyBytes t)

/-- R172: select by a mask. -/
def execVsel (u : VUnit) (g : BitVec 4) (d a b : BitVec 9) (m : BitVec 4) (t : BitVec 5) (s : State) : Out :=
  slotOp (.vsel u g d a b m t) s (s.putV d (VReg.build (tyBytes t) fun i => if active (s.readM m) (tyBytes t) i then (s.readV a).pick (tyBytes t) i else (s.readV b).pick (tyBytes t) i) 2)

/-- R172: permutation by the elements of vb. -/
def execVperm (u : VUnit) (g : BitVec 4) (d a b : BitVec 9) (m : BitVec 4) (t : BitVec 5) (s : State) : Out :=
  slotOp (.vperm u g d a b m t) s (s.governed d m t 2 fun i => moved ((s.readV a).pick (tyBytes t) ((s.readV b).elem (tyBytes t) i % elems t)))

/-- R172: interleaves the low or high halves. -/
def execVzip (u : VUnit) (g : BitVec 4) (d a b : BitVec 9) (m : BitVec 4) (t : BitVec 5) (sb : BitVec 3) (s : State) : Out :=
  slotOp (.vzip u g d a b m t sb) s (s.governed d m t 2 fun i => moved (let k := (if sb = 0 then 0 else elems t / 2) + i / 2; if i % 2 = 0 then (s.readV a).pick (tyBytes t) k else (s.readV b).pick (tyBytes t) k))

/-- R172: the even or odd elements of the concatenation. -/
def execVunzip (u : VUnit) (g : BitVec 4) (d a b : BitVec 9) (m : BitVec 4) (t : BitVec 5) (sb : BitVec 3) (s : State) : Out :=
  slotOp (.vunzip u g d a b m t sb) s (s.governed d m t 2 fun i => moved (let k := 2 * i + (if sb = 0 then 0 else 1); if k < elems t then (s.readV a).pick (tyBytes t) k else (s.readV b).pick (tyBytes t) (k - elems t)))

/-- R172: reversal. -/
def execVrev (u : VUnit) (g : BitVec 4) (d a : BitVec 9) (m : BitVec 4) (t : BitVec 5) (s : State) : Out :=
  slotOp (.vrev u g d a m t) s (s.governed d m t 2 fun i => moved ((s.readV a).pick (tyBytes t) (elems t - 1 - i)))

/-- R172: active elements to the front; the rest zero. -/
def execVcompress (u : VUnit) (g : BitVec 4) (d a : BitVec 9) (m : BitVec 4) (t : BitVec 5) (s : State) : Out :=
  slotOp (.vcompress u g d a m t) s (s.putV d (VReg.build (tyBytes t) fun i => match (activeList (s.readM m) (tyBytes t))[i]? with | some k => (s.readV a).pick (tyBytes t) k | none => (0, 0)) 2)

/-- R172: the first elements to the active positions; the rest zero. -/
def execVexpand (u : VUnit) (g : BitVec 4) (d a : BitVec 9) (m : BitVec 4) (t : BitVec 5) (s : State) : Out :=
  slotOp (.vexpand u g d a m t) s (s.putV d (VReg.build (tyBytes t) fun i => if active (s.readM m) (tyBytes t) i then (s.readV a).pick (tyBytes t) (((activeList (s.readM m) (tyBytes t)).filter (· < i)).length) else (0, 0)) 2)

/-- R173: one element to every active one. -/
def execVbcast (u : VUnit) (g : BitVec 4) (d a : BitVec 9) (imm : BitVec 18) (m : BitVec 4) (t : BitVec 5) (s : State) : Out :=
  slotOp (.vbcast u g d a imm m t) s (s.governed d m t 2 fun _ => moved ((s.readV a).pick (tyBytes t) imm.toNat))

/-- R173: shift by k elements; zero from outside. -/
def execVslide (u : VUnit) (g : BitVec 4) (d a : BitVec 9) (imm : BitVec 18) (m : BitVec 4) (t : BitVec 5) (s : State) : Out :=
  slotOp (.vslide u g d a imm m t) s (s.governed d m t 2 fun i => moved (let k := (i : Int) + imm.toInt; if 0 ≤ k ∧ k < elems t then (s.readV a).pick (tyBytes t) k.toNat else (0, 0)))

/-- R173: the base plus the number of active elements below. -/
def execViota (u : VUnit) (g : BitVec 4) (d : BitVec 9) (imm : BitVec 18) (m : BitVec 4) (t : BitVec 5) (s : State) : Out :=
  slotOp (.viota u g d imm m t) s (s.putV d (VReg.build (tyBytes t) fun i => (wrapInt (imm.toInt + ((activeList (s.readM m) (tyBytes t)).filter (· < i)).length) (8 * tyBytes t), 0)) 2)

/-- R173: a constant. -/
def execVmovi (u : VUnit) (g : BitVec 4) (d : BitVec 9) (imm : BitVec 18) (m : BitVec 4) (t : BitVec 5) (s : State) : Out :=
  slotOp (.vmovi u g d imm m t) s (s.governed d m t 2 fun _ => moved (moviConst t imm, 0))

/-- R174: mask AND. -/
def execMand (u : VUnit) (g md ma mb : BitVec 4) (s : State) : Out :=
  slotOp (.mand u g md ma mb) s (s.putM md (s.readM ma &&& s.readM mb) 2)

/-- R174: mask OR. -/
def execMor (u : VUnit) (g md ma mb : BitVec 4) (s : State) : Out :=
  slotOp (.mor u g md ma mb) s (s.putM md (s.readM ma ||| s.readM mb) 2)

/-- R174: mask XOR. -/
def execMxor (u : VUnit) (g md ma mb : BitVec 4) (s : State) : Out :=
  slotOp (.mxor u g md ma mb) s (s.putM md (s.readM ma ^^^ s.readM mb) 2)

/-- R174: mask NOT. -/
def execMnot (u : VUnit) (g md ma : BitVec 4) (s : State) : Out :=
  slotOp (.mnot u g md ma) s (s.putM md (~~~(s.readM ma)) 2)

/-- R174: the number of members in every element. -/
def execMpopc (u : VUnit) (g : BitVec 4) (d : BitVec 9) (ms m : BitVec 4) (t : BitVec 5) (s : State) : Out :=
  slotOp (.mpopc u g d ms m t) s (s.putV d (VReg.build (tyBytes t) fun _ => ((activeList (s.readM ms &&& s.readM m) (tyBytes t)).length % 2 ^ (8 * tyBytes t), 0)) 2)

/-- R174: the least member in every element, all ones if there is none. -/
def execMfirst (u : VUnit) (g : BitVec 4) (d : BitVec 9) (ms m : BitVec 4) (t : BitVec 5) (s : State) : Out :=
  slotOp (.mfirst u g d ms m t) s (s.putV d (VReg.build (tyBytes t) fun _ => (match activeList (s.readM ms &&& s.readM m) (tyBytes t) with | k :: _ => k % 2 ^ (8 * tyBytes t) | [] => 2 ^ (8 * tyBytes t) - 1, 0)) 2)

/-- R105: eight bytes of a vector register to a scalar. -/
def execMovVs (u : VUnit) (g : BitVec 4) (d : BitVec 6) (a : BitVec 9) (lane : BitVec 4) (s : State) : Out :=
  slotOp (.movVs u g d a lane) s (s.putS d (BitVec.ofNat 64 ((s.readV a).elem 8 lane.toNat)) 2)

/-- R105: a uniform mask condition to a guard; its trap is one of its checks. -/
def execMovMg (u : VUnit) (g : BitVec 4) (gd : BitVec 3) (ms mg : BitVec 4) (s : State) : Out :=
  slotOp (.movMg u g gd ms mg) s (s.putG gd (s.readM mg != 0 && (s.readM mg &&& s.readM ms == s.readM mg)) 2)

/-- R105: four bytes of a vector register to an address register. -/
def execMovVx (u : VUnit) (g : BitVec 4) (d : BitVec 5) (a : BitVec 9) (lane : BitVec 5) (s : State) : Out :=
  slotOp (.movVx u g d a lane) s (s.land (.x d.toNat (BitVec.ofNat 32 ((s.readV a).elem 4 lane.toNat))) 2)

end Sys2Proof.Machine
end

