-- ==== Sys2Proof/Machine/Meanings.lean ====
section
/-! DEFINITION. Every meaning, gathered for the dispatch. -/
end

