-- ==== Sys2Proof/Machine/Dispatch.lean ====
section
/-! DEFINITION. The dispatch from a row of the opcode table to its meaning: one arm per constructor. -/

namespace Sys2Proof.Machine

open Host

/-- Runs one row of the opcode table on a state. -/
def exec (i : Instr) (s : State) : Host.Outcome State Fault Refusal :=
  match i with
  | .add g d a b => Sys2Proof.Machine.execAdd g d a b s
  | .sub g d a b => Sys2Proof.Machine.execSub g d a b s
  | .mul g d a b => Sys2Proof.Machine.execMul g d a b s
  | .mulh g d a b => Sys2Proof.Machine.execMulh g d a b s
  | .mulhn g d a b => Sys2Proof.Machine.execMulhn g d a b s
  | .div g d a b => Sys2Proof.Machine.execDiv g d a b s
  | .divn g d a b => Sys2Proof.Machine.execDivn g d a b s
  | .rem g d a b => Sys2Proof.Machine.execRem g d a b s
  | .remn g d a b => Sys2Proof.Machine.execRemn g d a b s
  | .and g d a b => Sys2Proof.Machine.execAnd g d a b s
  | .or g d a b => Sys2Proof.Machine.execOr g d a b s
  | .xor g d a b => Sys2Proof.Machine.execXor g d a b s
  | .shl g d a b => Sys2Proof.Machine.execShl g d a b s
  | .shr g d a b => Sys2Proof.Machine.execShr g d a b s
  | .sra g d a b => Sys2Proof.Machine.execSra g d a b s
  | .rot g d a b => Sys2Proof.Machine.execRot g d a b s
  | .min g d a b => Sys2Proof.Machine.execMin g d a b s
  | .max g d a b => Sys2Proof.Machine.execMax g d a b s
  | .minn g d a b => Sys2Proof.Machine.execMinn g d a b s
  | .maxn g d a b => Sys2Proof.Machine.execMaxn g d a b s
  | .sel g d a b gs ng => Sys2Proof.Machine.execSel g d a b gs ng s
  | .add128 g d a b => Sys2Proof.Machine.execAdd128 g d a b s
  | .addi g d a imm => Sys2Proof.Machine.execAddi g d a imm s
  | .andi g d a imm => Sys2Proof.Machine.execAndi g d a imm s
  | .ori g d a imm => Sys2Proof.Machine.execOri g d a imm s
  | .xori g d a imm => Sys2Proof.Machine.execXori g d a imm s
  | .shli g d a k => Sys2Proof.Machine.execShli g d a k s
  | .shri g d a k => Sys2Proof.Machine.execShri g d a k s
  | .srai g d a k => Sys2Proof.Machine.execSrai g d a k s
  | .li g d imm => Sys2Proof.Machine.execLi g d imm s
  | .lih g d imm => Sys2Proof.Machine.execLih g d imm s
  | .muli g d a imm => Sys2Proof.Machine.execMuli g d a imm s
  | .clz g d a => Sys2Proof.Machine.execClz g d a s
  | .ctz g d a => Sys2Proof.Machine.execCtz g d a s
  | .popc g d a => Sys2Proof.Machine.execPopc g d a s
  | .bint3 g d a => Sys2Proof.Machine.execBint3 g d a s
  | .bdint3 g d a => Sys2Proof.Machine.execBdint3 g d a s
  | .bint2 g d a => Sys2Proof.Machine.execBint2 g d a s
  | .bdint2 g d a => Sys2Proof.Machine.execBdint2 g d a s
  | .brev g d a => Sys2Proof.Machine.execBrev g d a s
  | .sext g d a w => Sys2Proof.Machine.execSext g d a w s
  | .zext g d a w => Sys2Proof.Machine.execZext g d a w s
  | .cmpEq g gd a b => Sys2Proof.Machine.execCmpEq g gd a b s
  | .cmpNe g gd a b => Sys2Proof.Machine.execCmpNe g gd a b s
  | .cmpLt g gd a b => Sys2Proof.Machine.execCmpLt g gd a b s
  | .cmpLtn g gd a b => Sys2Proof.Machine.execCmpLtn g gd a b s
  | .cmpLe g gd a b => Sys2Proof.Machine.execCmpLe g gd a b s
  | .cmpLen g gd a b => Sys2Proof.Machine.execCmpLen g gd a b s
  | .cmpiEq g gd a imm => Sys2Proof.Machine.execCmpiEq g gd a imm s
  | .cmpiLt g gd a imm => Sys2Proof.Machine.execCmpiLt g gd a imm s
  | .gand g gd ga gb => Sys2Proof.Machine.execGand g gd ga gb s
  | .gor g gd ga gb => Sys2Proof.Machine.execGor g gd ga gb s
  | .gnot g gd ga => Sys2Proof.Machine.execGnot g gd ga s
  | .br g off => Sys2Proof.Machine.execBr g off s
  | .brs g a off => Sys2Proof.Machine.execBrs g a off s
  | .call g l off => Sys2Proof.Machine.execCall g l off s
  | .ret g a => Sys2Proof.Machine.execRet g a s
  | .loop g st ro a e => Sys2Proof.Machine.execLoop g st ro a e s
  | .loopi g st ro e cnt => Sys2Proof.Machine.execLoopi g st ro e cnt s
  | .lexit g off => Sys2Proof.Machine.execLexit g off s
  | .brb g l o => Sys2Proof.Machine.execBrb g l o s
  | .halt g => Sys2Proof.Machine.execHalt g s
  | .yield g => Sys2Proof.Machine.execYield g s
  | .rdid g d imm => Sys2Proof.Machine.execRdid g d imm s
  | .rdsys g d ix => Sys2Proof.Machine.execRdsys g d ix s
  | .wrsys g a ix => Sys2Proof.Machine.execWrsys g a ix s
  | .sys g imm => Sys2Proof.Machine.execSys g imm s
  | .trapi g imm => Sys2Proof.Machine.execTrapi g imm s
  | .eret g => Sys2Proof.Machine.execEret g s
  | .ifence g => Sys2Proof.Machine.execIfence g s
  | .evpop g d => Sys2Proof.Machine.execEvpop g d s
  | .rdtime g d => Sys2Proof.Machine.execRdtime g d s
  | .rdcyc g d => Sys2Proof.Machine.execRdcyc g d s
  | .setest g a ix => Sys2Proof.Machine.execSetest g a ix s
  | .flagsRd g d => Sys2Proof.Machine.execFlagsRd g d s
  | .flagsClr g k => Sys2Proof.Machine.execFlagsClr g k s
  | .wfe g n => Sys2Proof.Machine.execWfe g n s
  | .movGs g d gk => Sys2Proof.Machine.execMovGs g d gk s
  | .movSg g gd a => Sys2Proof.Machine.execMovSg g gd a s
  | .movSv g d a lane => Sys2Proof.Machine.execMovSv g d a lane s
  | .movSx g d a => Sys2Proof.Machine.execMovSx g d a s
  | .movSq g d a => Sys2Proof.Machine.execMovSq g d a s
  | .movSd g d a => Sys2Proof.Machine.execMovSd g d a s
  | .fadd u g d a b m t => Sys2Proof.Machine.execFadd u g d a b m t s
  | .fsub u g d a b m t => Sys2Proof.Machine.execFsub u g d a b m t s
  | .fmul u g d a b m t => Sys2Proof.Machine.execFmul u g d a b m t s
  | .fmin u g d a b m t => Sys2Proof.Machine.execFmin u g d a b m t s
  | .fmax u g d a b m t => Sys2Proof.Machine.execFmax u g d a b m t s
  | .fdiv u g d a b m t => Sys2Proof.Machine.execFdiv u g d a b m t s
  | .fscale u g d a b m t => Sys2Proof.Machine.execFscale u g d a b m t s
  | .fma u g d a b c m t => Sys2Proof.Machine.execFma u g d a b c m t s
  | .fms u g d a b c m t => Sys2Proof.Machine.execFms u g d a b c m t s
  | .fnma u g d a b c m t => Sys2Proof.Machine.execFnma u g d a b c m t s
  | .fabs u g d a m t => Sys2Proof.Machine.execFabs u g d a m t s
  | .fneg u g d a m t => Sys2Proof.Machine.execFneg u g d a m t s
  | .fsqrt u g d a m t => Sys2Proof.Machine.execFsqrt u g d a m t s
  | .frcp u g d a m t => Sys2Proof.Machine.execFrcp u g d a m t s
  | .frsq u g d a m t => Sys2Proof.Machine.execFrsq u g d a m t s
  | .fexp2 u g d a m t => Sys2Proof.Machine.execFexp2 u g d a m t s
  | .flog2 u g d a m t => Sys2Proof.Machine.execFlog2 u g d a m t s
  | .fcvt u g d a st part m t => Sys2Proof.Machine.execFcvt u g d a st part m t s
  | .fround u g d a st part m t md => Sys2Proof.Machine.execFround u g d a st part m t md s
  | .fclass u g md a cls m t q => Sys2Proof.Machine.execFclass u g md a cls m t q s
  | .fcmp u g md a b m t cond => Sys2Proof.Machine.execFcmp u g md a b m t cond s
  | .fredAdd u g d a m t => Sys2Proof.Machine.execFredAdd u g d a m t s
  | .fredMax u g d a m t => Sys2Proof.Machine.execFredMax u g d a m t s
  | .fredMin u g d a m t => Sys2Proof.Machine.execFredMin u g d a m t s
  | .bscale u g d a m t sb => Sys2Proof.Machine.execBscale u g d a m t sb s
  | .iadd u g d a b m t => Sys2Proof.Machine.execIadd u g d a b m t s
  | .isub u g d a b m t => Sys2Proof.Machine.execIsub u g d a b m t s
  | .imul u g d a b m t => Sys2Proof.Machine.execImul u g d a b m t s
  | .imulh u g d a b m t => Sys2Proof.Machine.execImulh u g d a b m t s
  | .iand u g d a b m t => Sys2Proof.Machine.execIand u g d a b m t s
  | .ior u g d a b m t => Sys2Proof.Machine.execIor u g d a b m t s
  | .ixor u g d a b m t => Sys2Proof.Machine.execIxor u g d a b m t s
  | .ishl u g d a b m t => Sys2Proof.Machine.execIshl u g d a b m t s
  | .ishr u g d a b m t => Sys2Proof.Machine.execIshr u g d a b m t s
  | .isra u g d a b m t => Sys2Proof.Machine.execIsra u g d a b m t s
  | .imin u g d a b m t => Sys2Proof.Machine.execImin u g d a b m t s
  | .imax u g d a b m t => Sys2Proof.Machine.execImax u g d a b m t s
  | .iadds u g d a b m t => Sys2Proof.Machine.execIadds u g d a b m t s
  | .isubs u g d a b m t => Sys2Proof.Machine.execIsubs u g d a b m t s
  | .iabs u g d a m t => Sys2Proof.Machine.execIabs u g d a m t s
  | .iclz u g d a m t => Sys2Proof.Machine.execIclz u g d a m t s
  | .ipopc u g d a m t => Sys2Proof.Machine.execIpopc u g d a m t s
  | .ibint3 u g d a m t => Sys2Proof.Machine.execIbint3 u g d a m t s
  | .icmp u g md a b m t cond => Sys2Proof.Machine.execIcmp u g md a b m t cond s
  | .iredAdd u g d a m t => Sys2Proof.Machine.execIredAdd u g d a m t s
  | .iadd128 u g d a b m t => Sys2Proof.Machine.execIadd128 u g d a b m t s
  | .icvt u g d a st part m t sb => Sys2Proof.Machine.execIcvt u g d a st part m t sb s
  | .vsel u g d a b m t => Sys2Proof.Machine.execVsel u g d a b m t s
  | .vperm u g d a b m t => Sys2Proof.Machine.execVperm u g d a b m t s
  | .vzip u g d a b m t sb => Sys2Proof.Machine.execVzip u g d a b m t sb s
  | .vunzip u g d a b m t sb => Sys2Proof.Machine.execVunzip u g d a b m t sb s
  | .vrev u g d a m t => Sys2Proof.Machine.execVrev u g d a m t s
  | .vcompress u g d a m t => Sys2Proof.Machine.execVcompress u g d a m t s
  | .vexpand u g d a m t => Sys2Proof.Machine.execVexpand u g d a m t s
  | .vbcast u g d a imm m t => Sys2Proof.Machine.execVbcast u g d a imm m t s
  | .vslide u g d a imm m t => Sys2Proof.Machine.execVslide u g d a imm m t s
  | .viota u g d imm m t => Sys2Proof.Machine.execViota u g d imm m t s
  | .vmovi u g d imm m t => Sys2Proof.Machine.execVmovi u g d imm m t s
  | .mand u g md ma mb => Sys2Proof.Machine.execMand u g md ma mb s
  | .mor u g md ma mb => Sys2Proof.Machine.execMor u g md ma mb s
  | .mxor u g md ma mb => Sys2Proof.Machine.execMxor u g md ma mb s
  | .mnot u g md ma => Sys2Proof.Machine.execMnot u g md ma s
  | .mpopc u g d ms m t => Sys2Proof.Machine.execMpopc u g d ms m t s
  | .mfirst u g d ms m t => Sys2Proof.Machine.execMfirst u g d ms m t s
  | .vrng u g d a b m t => Sys2Proof.Machine.execVrng u g d a b m t s
  | .vrngF u g d a m t => Sys2Proof.Machine.execVrngF u g d a m t s
  | .movVs u g d a lane => Sys2Proof.Machine.execMovVs u g d a lane s
  | .movMg u g gd ms mg => Sys2Proof.Machine.execMovMg u g gd ms mg s
  | .movVx u g d a lane => Sys2Proof.Machine.execMovVx u g d a lane s
  | .mcall g ix sn imm => Sys2Proof.Machine.execMcall g ix sn imm s
  | .mparami g k imm => Sys2Proof.Machine.execMparami g k imm s
  | .mzero g sn col => Sys2Proof.Machine.execMzero g sn col s
  | .mdrainV g d row col z => Sys2Proof.Machine.execMdrainV g d row col z s
  | .mdrainP g sn mode fmt col row rows z => Sys2Proof.Machine.execMdrainP g sn mode fmt col row rows z s
  | .mwait g k => Sys2Proof.Machine.execMwait g k s
  | .mucodeLd g ix words off => Sys2Proof.Machine.execMucodeLd g ix words off s
  | .mwit g on => Sys2Proof.Machine.execMwit g on s
  | .mflush g => Sys2Proof.Machine.execMflush g s
  | .mstat g c off => Sys2Proof.Machine.execMstat g c off s
  | .ldS g d xb off sx sz => Sys2Proof.Machine.execLdS g d xb off sx sz s
  | .ldV g d xb off m t => Sys2Proof.Machine.execLdV g d xb off m t s
  | .ldVs g d xb off m t => Sys2Proof.Machine.execLdVs g d xb off m t s
  | .ldVg g d xb vi m t => Sys2Proof.Machine.execLdVg g d xb vi m t s
  | .ldM g md xb off => Sys2Proof.Machine.execLdM g md xb off s
  | .ldhS g d h xo imm sx sz => Sys2Proof.Machine.execLdhS g d h xo imm sx sz s
  | .ldhV g d h xo imm m t => Sys2Proof.Machine.execLdhV g d h xo imm m t s
  | .vfill g d xb off => Sys2Proof.Machine.execVfill g d xb off s
  | .translate g a h rw => Sys2Proof.Machine.execTranslate g a h rw s
  | .hdrop g h => Sys2Proof.Machine.execHdrop g h s
  | .recv g d rank facet lane dir => Sys2Proof.Machine.execRecv g d rank facet lane dir s
  | .movXs g d a => Sys2Proof.Machine.execMovXs g d a s
  | .ldQ g d xb off m t mf => Sys2Proof.Machine.execLdQ g d xb off m t mf s
  | .xadd inSt g d a b => Sys2Proof.Machine.execXadd inSt g d a b s
  | .xaddi inSt g d a imm => Sys2Proof.Machine.execXaddi inSt g d a imm s
  | .xli inSt g d imm => Sys2Proof.Machine.execXli inSt g d imm s
  | .xsub inSt g d a b => Sys2Proof.Machine.execXsub inSt g d a b s
  | .stS g a xb off t mode sz => Sys2Proof.Machine.execStS g a xb off t mode sz s
  | .stV g a xb off m t mode src => Sys2Proof.Machine.execStV g a xb off m t mode src s
  | .stVs g a xb off m t mode src => Sys2Proof.Machine.execStVs g a xb off m t mode src s
  | .stVx g a xb vi m t mode src => Sys2Proof.Machine.execStVx g a xb vi m t mode src s
  | .stM g ms xb off => Sys2Proof.Machine.execStM g ms xb off s
  | .sthS g a h xo imm t mode sz => Sys2Proof.Machine.execSthS g a h xo imm t mode sz s
  | .sthV g a h xo imm m t mode src => Sys2Proof.Machine.execSthV g a h xo imm m t mode src s
  | .vspill g a xb off => Sys2Proof.Machine.execVspill g a xb off s
  | .send g a rank facet lane dir => Sys2Proof.Machine.execSend g a rank facet lane dir s
  | .amoP g d xb off t mode op => Sys2Proof.Machine.execAmoP g d xb off t mode op s
  | .amoH g d h xo imm t mode op => Sys2Proof.Machine.execAmoH g d h xo imm t mode op s
  | .sigw g a h xo imm => Sys2Proof.Machine.execSigw g a h xo imm s
  | .feed g da db ty sm kind tgt cm => Sys2Proof.Machine.execFeed g da db ty sm kind tgt cm s
  | .lcopy g da db cm => Sys2Proof.Machine.execLcopy g da db cm s
  | .bulkSet g da db pos => Sys2Proof.Machine.execBulkSet g da db pos s
  | .bulkGo g en cm => Sys2Proof.Machine.execBulkGo g en cm s
  | .bulkCancel g en tag => Sys2Proof.Machine.execBulkCancel g en tag s
  | .winOpen g da db band rr fill cm => Sys2Proof.Machine.execWinOpen g da db band rr fill cm s
  | .winAdv g band k cm => Sys2Proof.Machine.execWinAdv g band k cm s
  | .winClose g band cm => Sys2Proof.Machine.execWinClose g band cm s
  | .ifetch g da words cm => Sys2Proof.Machine.execIfetch g da words cm s
  | .crcRd g rst ac tag => Sys2Proof.Machine.execCrcRd g rst ac tag s
  | .barArr g xb inn out => Sys2Proof.Machine.execBarArr g xb inn out s
  | .barWait g xb sg => Sys2Proof.Machine.execBarWait g xb sg s
  | .wait g cls k => Sys2Proof.Machine.execWait g cls k s
  | .drain g => Sys2Proof.Machine.execDrain g s
  | .pbar g => Sys2Proof.Machine.execPbar g s
  | .tsync g mask => Sys2Proof.Machine.execTsync g mask s
  | .yadd g yd ak a bk b => Sys2Proof.Machine.execYadd g yd ak a bk b s
  | .ysub g yd ak a bk b => Sys2Proof.Machine.execYsub g yd ak a bk b s
  | .yand g yd ak a bk b => Sys2Proof.Machine.execYand g yd ak a bk b s
  | .yxor g yd ak a bk b => Sys2Proof.Machine.execYxor g yd ak a bk b s
  | .ycmp g yd ak a bk b cond => Sys2Proof.Machine.execYcmp g yd ak a bk b cond s
  | .chkY g ya yb => Sys2Proof.Machine.execChkY g ya yb s
  | .chkV g a b m => Sys2Proof.Machine.execChkV g a b m s
  | .chkS g ya a => Sys2Proof.Machine.execChkS g ya a s
  | .nop => Sys2Proof.Machine.execNop s
  | .popA => Sys2Proof.Machine.execPopA s
  | .popB => Sys2Proof.Machine.execPopB s
  | .pass ovr => Sys2Proof.Machine.execPass ovr s
  | .passSp ovr => Sys2Proof.Machine.execPassSp ovr s
  | .acc val src => Sys2Proof.Machine.execAcc val src s
  | .zero => Sys2Proof.Machine.execZero s
  | .shift val src => Sys2Proof.Machine.execShift val src s
  | .microLoop tgt ctr val src => Sys2Proof.Machine.execMicroLoop tgt ctr val src s
  | .jump tgt => Sys2Proof.Machine.execJump tgt s
  | .microEnd => Sys2Proof.Machine.execMicroEnd s
  | .scale val src => Sys2Proof.Machine.execScale val src s
  | .wit => Sys2Proof.Machine.execWit s
  | .sync val src => Sys2Proof.Machine.execSync val src s
  | .bundleIssue core => Sys2Proof.Machine.execBundleIssue core s
  | .bundleCommit core => Sys2Proof.Machine.execBundleCommit core s
  | .resultLanding core facet => Sys2Proof.Machine.execResultLanding core facet s
  | .timingErrorReplay core => Sys2Proof.Machine.execTimingErrorReplay core s
  | .watchdogExpiry core facet => Sys2Proof.Machine.execWatchdogExpiry core facet s
  | .quantumExpiry core => Sys2Proof.Machine.execQuantumExpiry core s
  | .facetSwitch core => Sys2Proof.Machine.execFacetSwitch core s
  | .matrixItemRun core => Sys2Proof.Machine.execMatrixItemRun core s
  | .ballastPass geode on => Sys2Proof.Machine.execBallastPass geode on s
  | .tsyncMeetingComplete geode launch mask => Sys2Proof.Machine.execTsyncMeetingComplete geode launch mask s
  | .engineOperationComplete core facet => Sys2Proof.Machine.execEngineOperationComplete core facet s
  | .completionRecordPost core facet => Sys2Proof.Machine.execCompletionRecordPost core facet s
  | .fifoAppend core tgt => Sys2Proof.Machine.execFifoAppend core tgt s
  | .bandRowArrival core band => Sys2Proof.Machine.execBandRowArrival core band s
  | .bulkEngineTakeCommand e => Sys2Proof.Machine.execBulkEngineTakeCommand e s
  | .hostBulkGo e v => Sys2Proof.Machine.execHostBulkGo e v s
  | .engineCountdown e => Sys2Proof.Machine.execEngineCountdown e s
  | .ringMessageArrival geode id => Sys2Proof.Machine.execRingMessageArrival geode id s
  | .accessPerformAtHome id => Sys2Proof.Machine.execAccessPerformAtHome id s
  | .walkEnd core facet hn => Sys2Proof.Machine.execWalkEnd core facet hn s
  | .invalGo v => Sys2Proof.Machine.execInvalGo v s
  | .invalComplete => Sys2Proof.Machine.execInvalComplete s
  | .refresh vein chan due waiting => Sys2Proof.Machine.execRefresh vein chan due waiting s
  | .patrolVisit vein f => Sys2Proof.Machine.execPatrolVisit vein f s
  | .durablePatrolVisit f => Sys2Proof.Machine.execDurablePatrolVisit f s
  | .logcntPop unit => Sys2Proof.Machine.execLogcntPop unit s
  | .writeQueueToMedia => Sys2Proof.Machine.execWriteQueueToMedia s
  | .sealConfirm => Sys2Proof.Machine.execSealConfirm s
  | .hpbarGo => Sys2Proof.Machine.execHpbarGo s
  | .holdupTest ok => Sys2Proof.Machine.execHoldupTest ok s
  | .powerGoodDeassert drained => Sys2Proof.Machine.execPowerGoodDeassert drained s
  | .powerGoodAssert fails holdup => Sys2Proof.Machine.execPowerGoodAssert fails holdup s
  | .mirrorEnable k => Sys2Proof.Machine.execMirrorEnable k s
  | .mirrorDisable k => Sys2Proof.Machine.execMirrorDisable k s
  | .mirrorSyncComplete k => Sys2Proof.Machine.execMirrorSyncComplete k s
  | .mirrorWriteAck k => Sys2Proof.Machine.execMirrorWriteAck k s
  | .mirrorPartnerUnreachable k => Sys2Proof.Machine.execMirrorPartnerUnreachable k s
  | .mirrorRepair k word partner => Sys2Proof.Machine.execMirrorRepair k word partner s
  | .map slot => Sys2Proof.Machine.execMap slot s
  | .unmap slot => Sys2Proof.Machine.execUnmap slot s
  | .unmapComplete slot => Sys2Proof.Machine.execUnmapComplete slot s
  | .kill slot => Sys2Proof.Machine.execKill slot s
  | .packetStart slot => Sys2Proof.Machine.execPacketStart slot s
  | .launchDispatch slot => Sys2Proof.Machine.execLaunchDispatch slot s
  | .waitPacketSatisfied slot => Sys2Proof.Machine.execWaitPacketSatisfied slot s
  | .packetCompletion slot => Sys2Proof.Machine.execPacketCompletion slot s
  | .tokenRefill p => Sys2Proof.Machine.execTokenRefill p s
  | .preemptionPolicy slot geode => Sys2Proof.Machine.execPreemptionPolicy slot geode s
  | .geodeFreeze geode reason => Sys2Proof.Machine.execGeodeFreeze geode reason s
  | .fossilWriteComplete k => Sys2Proof.Machine.execFossilWriteComplete k s
  | .fossilRestore k => Sys2Proof.Machine.execFossilRestore k s
  | .checkpointRequest slot => Sys2Proof.Machine.execCheckpointRequest slot s
  | .checkpointSave slot => Sys2Proof.Machine.execCheckpointSave slot s
  | .checkpointTimeout slot => Sys2Proof.Machine.execCheckpointTimeout slot s
  | .resume core facet => Sys2Proof.Machine.execResume core facet s
  | .enter core facet => Sys2Proof.Machine.execEnter core facet s
  | .parkreq core facet => Sys2Proof.Machine.execParkreq core facet s
  | .geodeMapWrite n v fw => Sys2Proof.Machine.execGeodeMapWrite n v fw s
  | .lodeIdWrite v fw => Sys2Proof.Machine.execLodeIdWrite v fw s
  | .sparingSequence geode spare => Sys2Proof.Machine.execSparingSequence geode spare s
  | .epochEnd r => Sys2Proof.Machine.execEpochEnd r s
  | .frequencyStep geode => Sys2Proof.Machine.execFrequencyStep geode s
  | .temperatureCritical geode temp => Sys2Proof.Machine.execTemperatureCritical geode temp s
  | .currentReport amps other => Sys2Proof.Machine.execCurrentReport amps other s
  | .activityWindow geode busy => Sys2Proof.Machine.execActivityWindow geode busy s
  | .extctlGo v fw => Sys2Proof.Machine.execExtctlGo v fw s
  | .attestationReport nonce pa => Sys2Proof.Machine.execAttestationReport nonce pa s
  | .envelopeReceive e mgmt => Sys2Proof.Machine.execEnvelopeReceive e mgmt s
  | .manifestReplace digests svn payload => Sys2Proof.Machine.execManifestReplace digests svn payload s
  | .inFieldTest t => Sys2Proof.Machine.execInFieldTest t s
  | .portTrain k lanes gbps => Sys2Proof.Machine.execPortTrain k lanes gbps s
  | .flitCrcError k => Sys2Proof.Machine.execFlitCrcError k s
  | .fabricRequestArrival r => Sys2Proof.Machine.execFabricRequestArrival r s
  | .fabricTimeout id => Sys2Proof.Machine.execFabricTimeout id s
  | .pcieInboundRequest r => Sys2Proof.Machine.execPcieInboundRequest r s
  | .managementFrame f => Sys2Proof.Machine.execManagementFrame f s
  | .registerWrite addr v fw => Sys2Proof.Machine.execRegisterWrite addr v fw s
  | .localFeederCommandStart core => Sys2Proof.Machine.execLocalFeederCommandStart core s
  | .fabricError lode cause => Sys2Proof.Machine.execFabricError lode cause s
  | .wakePin level => Sys2Proof.Machine.execWakePin level s
  | .pcieLinkTrain lanes gts => Sys2Proof.Machine.execPcieLinkTrain lanes gts s

end Sys2Proof.Machine
end

