-- ==== Sys2Proof/Machine/Schedule.lean ====
section
/-! DEFINITION. The model's schedule (log entry 1): what the hardware can do of its own now, how each such row runs, and which
rows from outside the package reaches while it is powered down or held in recovery (16 R438, 17 R455, R456). -/

namespace Sys2Proof.Machine

/-- Runs a row of the hardware's own. -/
def Work.run (w : Work) (s : State) : Out :=
  match w with
  | .switch c => execFacetSwitch c s
  | .quantum c => execQuantumExpiry c s
  | .item c => execMatrixItemRun c s
  | .meeting g l m => execTsyncMeetingComplete g l m s
  | .opDone c f => execEngineOperationComplete c f s
  | .record c f => execCompletionRecordPost c f s
  | .fifo c t => execFifoAppend c t s
  | .feeder c => execLocalFeederCommandStart c s
  | .bandRow c b => execBandRowArrival c b s
  | .bulkTake e => execBulkEngineTakeCommand e s
  | .countdown e => execEngineCountdown e s
  | .commit c => execBundleCommit c s
  | .arrival g i => execRingMessageArrival g i s
  | .access i => execAccessPerformAtHome i s
  | .walk c f h => execWalkEnd c f h s
  | .invalDone => execInvalComplete s
  | .toMedia => execWriteQueueToMedia s
  | .sealed => execSealConfirm s
  | .mirAck k => execMirrorWriteAck k s
  | .mirCopied k => execMirrorSyncComplete k s
  | .repair w => .next (s.repairGo w)
  | .pcieAway => .next s.pcieAway
  | .heldRow => .next s.heldRow
  | .resume c f => execResume c f s
  | .start k => execPacketStart k s
  | .dispatch k => execLaunchDispatch k s
  | .waitDone k => execWaitPacketSatisfied k s
  | .finish k => execPacketCompletion k s
  | .unmapped k => execUnmapComplete k s
  | .fossilDone i => execFossilWriteComplete i s
  | .restore i => execFossilRestore i s
  | .save k => execCheckpointSave k s
  | .frequency g => execFrequencyStep g s
  | .policy k g => execPreemptionPolicy k g s

/-- A row when a condition holds. -/
def whenever (b : Bool) (w : Work) : List Work := if b then [w] else []

/-- Rows of a facet. -/
def facetWork (c fn : Nat) (f : Facet) : List Work :=
  (match f.order with
   | e :: _ => whenever (e.done && !e.complete) (.opDone c fn) ++ whenever e.complete (.record c fn)
   | [] => [])
    ++ ((upto 32).flatMap fun h => whenever (f.pendingH h).isSome (.walk c fn h)) ++ whenever f.resumeAsked (.resume c fn)

/-- Rows of a core. -/
def State.coreWork (s : State) (c : Nat) (k : Core) : List Work :=
  whenever (if k.idle then (s.firstReady c).isSome else s.runBlocked c) (.switch c)
    ++ whenever ((upto 4).any fun fn => k.waitsAside fn && s.wantsOffer c fn) (.switch c)
    ++ whenever ((k.facet k.run).resident && (k.facet k.run).latch.passed) (.commit c)
    ++ whenever (decide (4096 ≤ k.quantum) && (s.nextReady c).isSome) (.quantum c)
    ++ whenever (k.inv.isSome || k.nextItem.isSome) (.item c)
    ++ k.facets.flatMap (fun f => facetWork c f.1 f.2)
    ++ whenever (!k.feedA.isEmpty) (.fifo c .a) ++ whenever (!k.feedB.isEmpty) (.fifo c .b)
    ++ whenever (!k.feedL.isEmpty) (.feeder c)
    ++ k.bands.flatMap fun b => whenever (!b.2.ops.isEmpty) (.bandRow c b.1)

/-- Rows of a geode. -/
def State.geodeWork (s : State) (g : Nat) (e : Geode) : List Work :=
  ((e.tsync.map fun p => Work.meeting g p.launch p.mask).eraseDups)
    ++ e.msgs.flatMap (fun m => whenever (!m.buffered) (.arrival g m.id))
    ++ whenever (s.devFld (aGstat g) 8 3 != s.targetCode g || e.changing) (.frequency g)

/-- Rows of a bulk engine. -/
def bulkWork (e : Nat) (b : Bulk) : List Work :=
  whenever (b.active.isSome || b.shadow.isSome) (.bulkTake e)
    ++ whenever (b.active.isSome && b.finished && (b.outDue || b.inDue) || !b.ended.isEmpty) (.countdown e)

/-- Rows of a hardware slot. -/
def State.slotWork (s : State) (k : Nat) (q : QSlot) : List Work :=
  whenever (q.state == 1 && q.cur.isNone && s.accepting && (q.forceErr || q.widx != q.ridx)) (.start k)
    ++ whenever (s.nextToPlace == some k) (.dispatch k)
    ++ whenever (q.cur.isSome && !q.finished && !q.sigs.isEmpty) (.waitDone k)
    ++ whenever (s.canComplete k) (.finish k)
    ++ whenever (q.state == 2 && q.cur.isNone) (.unmapped k)
    ++ whenever (match s.launches.find q.launch with | some l => l.ckAsk && (s.allHeld q.launch || s.someParked q.launch) | none => false)
      (.save k)
    ++ ((upto 40).flatMap fun g => whenever (s.mayAsk k g) (.policy k g))

/-- Rows of a mirrored range: its oldest write reaches the partner, takes a port or finds no route, or its first copy ends. -/
def State.mirrorWork (s : State) (k : Nat) : List Work :=
  whenever ((s.mirState k == 1 || s.mirState k == 2) && s.mirQ.any fun w => w.k == k) (.mirAck k)
    ++ whenever (s.mirState k == 1 && s.mirCopied k) (.mirCopied k)

/-- Rows of a fossil: one that firmware asked for waits for its row from outside (R401), unless its geode is being replaced. -/
def State.fossilWork (s : State) (i : Nat) (f : Fossil) : List Work :=
  whenever (f.used && f.state == 1) (.fossilDone i)
    ++ whenever (s.fossilReady f && s.boundary f == f.inb && (f.reason == 0 || s.geodeState f.lgeo == 1 || s.geodeState f.lgeo == 2)) (.restore i)

/-- Errors come upon memory and scratchpads as the package runs (R235, R330, R349): when and where is not given (log entry 30). None of its
own comes upon a byte of a FIFO share or of staging (R182; log entry 8). -/
def State.nature (s : State) : State :=
  let t := match Config.upset s.freeCtr with | some (pa, sym) => s.upset pa sym | none => s
  let t := match Config.spadUpset s.freeCtr with
    | some (c, u, bad) => if s.cores.any fun k => k.1 == c then t.modCore c fun k => k.spadUpset (u % 131072) bad else t
    | none => t
  { t with freeCtr := s.freeCtr + 1 }

/-- Every row of the hardware's own that the state enables. -/
def State.waiting (s : State) : List Work :=
  s.cores.flatMap (fun k => s.coreWork k.1 k.2) ++ s.geodes.flatMap (fun g => s.geodeWork g.1 g.2)
    ++ s.bulk.flatMap (fun b => bulkWork b.1 b.2)
    ++ s.accs.flatMap (fun a => whenever (s.mayPerform a) (.access a.id))
    ++ whenever (!s.pcieOut.isEmpty) .pcieAway ++ whenever s.heldGo.isSome .heldRow
    ++ whenever s.inval.isSome .invalDone ++ whenever (!s.durQ.isEmpty) .toMedia ++ whenever (!s.seals.isEmpty) .sealed
    ++ (upto 16).flatMap s.mirrorWork ++ (s.repairs.map fun x => Work.repair x.word) ++ s.slots.flatMap (fun q => s.slotWork q.1 q.2)
    ++ (s.fossils.mapIdx fun i f => s.fossilWork i f).flatten

/-- R438, R455, R456: rows from outside that reach the package: all while it runs, the management port in recovery, and
the board's pins alone while it is powered down. -/
def State.serves (s : State) (i : Instr) : Bool :=
  match i with
  | .powerGoodAssert _ _ => true
  | .powerGoodDeassert _ => true
  | .wakePin _ => true
  | .managementFrame _ => s.powered
  | .envelopeReceive _ _ => s.powered
  | _ => s.powered && !s.recovery

/-- R353: a row has met words that are to be repaired: it stands as it was before it, with their repairs asked for. -/
def State.standing (s t : State) : State :=
  let new := t.repairs.filter fun x => !s.repairs.any fun y => y.word == x.word
  { s with
    stands := true
    repairs := s.repairs ++ new
    flaws := s.flaws ++ (new.filter fun x => !s.flaws.any fun e => e.1 == 32 * x.word).map fun x => (32 * x.word, .uncorrectable x.sym) }

/-- R353: a row is made whole, or it stands until the repairs that it asks for are made (log entry 29). -/
def State.attempt (s : State) (row : State → Out) : Out :=
  match row { s with stands := false } with
  | .next t => .next (if t.stands then s.standing t else if s.stands then { t with stands := true } else t)
  | o => o

/-- The core that issues next: the first after the one served last whose running facet can be offered a bundle. -/
def State.nextIssuer (s : State) : Option Nat :=
  let cs := (s.cores.filter fun k => s.canIssue k.1).map (·.1)
  match cs.find? fun c => decide (s.lastCore < c) with
  | some c => some c
  | none => cs.head?

/-- The facet that a step offers a bundle next, with a resident facet 0 of core 0 where the package has none. -/
def State.withIssuer (s : State) : State :=
  match s.nextIssuer with
  | some _ => s
  | none =>
    let s := s.modGeode 0 fun g => { g with frozen := false, limited := false }
    s.modCore 0 fun k =>
      { k with run := 0, idle := false, facets := k.facets.set 0 { k.facet 0 with resident := true, parked := false, latch := {}, vblocks := [0, 1, 2] } }

/-- Places the bytes of a bundle where the facet that issues next fetches. -/
def State.placeBundle (s : State) (bs : List (BitVec 8)) : State :=
  match s.nextIssuer with
  | none => s
  | some c =>
    let f := s.facet c (s.core c).run
    let a := codeAddr f.bank f.pc
    let bs := bs.take (Config.bankBytes - f.pc)
    s.modCore c fun k =>
      { k with
        ist := k.ist.put a bs
        istPoison := k.istPoison.filter fun u => !decide (a < 8 * u + 8 ∧ 8 * u < a + bs.length) }

end Sys2Proof.Machine
end

