-- ==== Sys2Proof/Machine/Step.lean ====
section
/-! DEFINITION. One step of the package (log entries 1 and 9): a bundle of the next core, or one row from outside or of the
hardware's own, with the operations it releases; and the host's way to place an instruction. -/

namespace Sys2Proof.Machine

/-- Runs the operations that the current row has released, in order. -/
def runDue : Nat → State → Host.Outcome State Fault Refusal
  | 0, s => .next s
  | n + 1, s =>
    match s.due with
    | [] => .next s
    | i :: r =>
      match exec i { s with due := r } with
      | .next t => runDue n t
      | o => o

/-- The most operations that one row releases, and some to spare: eight slots and a commit. -/
def dueFuel : Nat := 16

/-- A row and the operations it releases. -/
def finish (o : Host.Outcome State Fault Refusal) : Host.Outcome State Fault Refusal :=
  match o with
  | .next s => runDue dueFuel s
  | o => o

/-- What the package does when it is the turn of the rows other than a bundle: errors may come upon its memories, then the oldest row
from outside, unless one stands (R353), else the oldest of its own, else it looks at what it can do. -/
def background (s : State) : Host.Outcome State Fault Refusal :=
  let s := s.nature
  match if s.stands then [] else s.inputs with
  | i :: r => if s.serves i then s.attempt fun t => finish (exec i { t with inputs := r }) else .next { s with inputs := r }
  | [] =>
    match s.agenda with
    | w :: r => { s with agenda := r }.attempt fun t => finish (w.run t)
    | [] => .next { s with agenda := s.waiting, stands := false }

/-- One step. -/
def step (s : State) : Host.Outcome State Fault Refusal :=
  if s.turn then background { s with turn := false }
  else
    match s.nextIssuer with
    | some c => { s with turn := true, lastCore := c }.attempt fun t => finish (exec (.bundleIssue c) t)
    | none => .next { s with turn := true }

/-- The state with the bundle whose bits are `w` stored where the next step fetches (log entry 6). -/
def State.withFetchWord (s : State) (nbits w : Nat) : State :=
  ({ s with inputs := [], agenda := [], due := [], turn := false, stands := false }.withIssuer).placeBundle (leBytes 64 (w % 2 ^ nbits))

end Sys2Proof.Machine
end

