-- ==== Sys2Proof/Safety.lean ====
section
/-! DEFINITION. What counts as a safe run, and the conditions on a state and operands under which a row of the table has its own
effect; the statements are made in these terms. -/

namespace Sys2Proof

/-- The first `n` steps from a state all go on. -/
def RunsFor (n : Nat) (s : Machine.State) : Prop :=
  match n with
  | 0 => True
  | k + 1 => ∃ t, Machine.step s = .next t ∧ RunsFor k t

namespace Machine

/-- R32, R43, R52, R53: the slot operation has its effect now: its facet is resident, its guard is true, and either its bundle
has passed every check and hold, or by itself it waits for no value, fails no check and holds nothing. -/
def State.ready (s : State) (i : Instr) : Bool :=
  s.me.resident && s.guard i.guard
    && (s.me.latch.passed || (!s.waits i && (s.issueTrap i).isNone && !s.holds i))

/-- R43: the same with a false guard: the operation has no effect. -/
def State.idle (s : State) (i : Instr) : Bool :=
  s.me.resident && !s.guard i.guard
    && (s.me.latch.passed || (!s.waits i && (s.issueTrap i).isNone && !s.holds i))

/-- R207: the running invocation of the current core, its routine not ended. -/
def State.invokes (s : State) (v : Invocation) : Prop := s.here.inv = some v ∧ v.ended = false

/-- R32, R380: the state in which the running facet of a core is offered its bundle. -/
def State.offeredAt (s : State) (c : Nat) : State :=
  let s : State := { s with cur := c, freeCtr := s.freeCtr + 1, nanos := s.nanos + Config.freeTick s.freeCtr }
  let s := s.settle c (s.core c).run
  s.modMe fun f => { f with latch := { f.latch with scope := s.fetched.h.scope } }

/-- The same when a step offers it (log entry 1). -/
def State.offered (s : State) (c : Nat) : State := { s with turn := true, lastCore := c }.offeredAt c

/-- R32, R38, R52, R383: a fetched bundle passes: no decode check fails, it makes no safe point, no operation waits, no issue
check fails, no operation holds, and no covered item has an error. -/
def State.passes (s : State) (b : Fetched) : Bool :=
  b.fault.isNone && !b.h.safe && !b.ops.any s.waits && s.overdue.isNone && (s.issueTraps b).isNone && !b.ops.any s.holds
    && !s.pathFull b.ops && (s.coveredError b).isNone

/-- The memories that the model lists in canonical form; every entry of the durable write queue a whole line, and no entry sealed
behind one that is not (R342, R343). -/
def State.canonical (s : State) : Bool :=
  s.mem.wf && s.media.wf && (s.durQ.all fun e => e.data.length == 64) && (s.durQ.dropWhile (·.sealed)).all fun e => !e.sealed

/-- The scratchpad and the instruction store of every core, those of cores in a fossil among them, are listed in canonical form. -/
def State.spadsCanonical (s : State) : Bool :=
  let ok (ks : Tbl Core) : Bool := ks.all fun k => k.2.spad.wf && k.2.ist.wf
  ok s.cores && s.fossils.all fun f => ok f.cores

/-- The results in flight to one register. -/
def Facet.flight (f : Facet) (r : RegId) : List Landing := f.landings.filter fun l => l.write.id == r

/-- A facet's register files, code place, logical clock, group index, trap registers and identity stand. -/
def Facet.keepsFiles (f t : Facet) : Prop :=
  (t.s = f.s ∧ t.g = f.g ∧ t.m = f.m ∧ t.x = f.x ∧ t.h = f.h ∧ t.q = f.q ∧ t.d = f.d ∧ t.y = f.y)
    ∧ (t.pc = f.pc ∧ t.bank = f.bank ∧ t.clock = f.clock ∧ t.group = f.group)
    ∧ (t.tbase = f.tbase ∧ t.tframe = f.tframe ∧ t.tcause = f.tcause ∧ t.tinfo = f.tinfo ∧ t.intrap = f.intrap)
    ∧ (t.launch = f.launch ∧ t.task = f.task ∧ t.pasid = f.pasid ∧ t.vblocks = f.vblocks ∧ t.cblocks = f.cblocks)

/-- R230, R231, R318: a store that rounds what it stores, and raises the flags of that at issue. -/
def roundsAtIssue : Instr → Bool
  | .stS .. | .stV .. | .stVs .. | .stVx .. | .sthS .. | .sthV .. => true
  | _ => false

/-- R390: a frame at `pa` of local memory holds the fields of a facet that takes a trap with the words `cause` and `info`, each at its
offset and the reserved bytes zero; `sys` is its SYSSEG. A register with a result on its way, which is undefined there (R386), may stand
as anything. -/
def State.holdsFrame (t : State) (pa : Nat) (sys : Bool) (f : Facet) (cause info : BitVec 64) : Prop :=
  let w := t.frameNum (.here pa)
  (w 0x00 = cause ∧ w 0x08 = info ∧ w 0x10 = BitVec.ofNat 64 (f.pc + if f.bank then 2 ^ 15 else 0) ∧ w 0x18 = BitVec.ofNat 64 f.clock
      ∧ w 0x20 = BitVec.ofNat 64 ((if f.bank then 1 else 0) + 2 * f.lsDepth + 2 ^ 4 * f.rotBase + if sys then 2 ^ 8 else 0)
      ∧ w 0x28 = f.flags.zeroExtend 64 ∧ w 0x30 = f.group ∧ w 0x38 = f.estSet ∧ w 0x40 = f.estAt)
    ∧ ((w 0x48).getLsbD 0 = true ∧ (∀ k, 1 ≤ k → k < 8 → f.flight (.g k) = [] → (w 0x48).getLsbD k = f.g.getLsbD k)
      ∧ wbits (w 0x48) 63 8 = 0)
    ∧ w 0x50 = (match f.rbase with | none => 2 ^ 63 | some b => BitVec.ofNat 64 (b % 2 ^ 63))
    ∧ (∀ k < 6, (f.lsDepth ≤ k → w (0x80 + 16 * k) = 0 ∧ w (0x88 + 16 * k) = 0)
      ∧ ∀ e, k < f.lsDepth → f.lstk.get k {} = e → w (0x88 + 16 * k) = e.count
        ∧ wbits (w (0x80 + 16 * k)) 14 0 = e.start % 2 ^ 15 ∧ (w (0x80 + 16 * k)).getLsbD 15 = e.bank
        ∧ wbits (w (0x80 + 16 * k)) 31 16 = e.stop % 2 ^ 16 ∧ (w (0x80 + 16 * k)).getLsbD 32 = e.rot
        ∧ wbits (w (0x80 + 16 * k)) 34 33 = e.stages.toNat ∧ wbits (w (0x80 + 16 * k)) 63 35 = 0)
    ∧ (∀ k < 16, w (0xE0 + 8 * k) = (match f.merr[k]? with | none => 0 | some c => BitVec.ofNat 64 (2 ^ 5 + c.code)))
    ∧ (∀ k < 4, f.flight (.y k) = [] → w (0x160 + 8 * k) = f.y.get k 0)
    ∧ (∀ k < 8, f.flight (.q k) = [] → w (0x180 + 8 * k) = f.q.get k 0)
    ∧ (∀ k < 16, f.flight (.d k) = [] → w (0x1C0 + 8 * k) = f.d.get k 0)
    ∧ (∀ k < 32, f.flight (.x k) = [] → t.numAt (pa + 0x240 + 4 * k) 4 = (f.x.get k 0).toNat)
    ∧ (w 0x2C0 = BitVec.allOnes 64 ∧ w 0x2C8 = BitVec.allOnes 64)
    ∧ (∀ k, 1 ≤ k → k < 16 → f.flight (.m k) = [] →
        w (0x2C0 + 16 * k) = (f.m.get k 0).extractLsb' 0 64 ∧ w (0x2C8 + 16 * k) = (f.m.get k 0).extractLsb' 64 64)
    ∧ (w 0x400 = 0 ∧ ∀ k, 1 ≤ k → k < 64 → f.flight (.s k) = [] → w (0x400 + 8 * k) = f.s.get k 0)
    ∧ (∀ k < 32, f.flight (.h k) = [] → ∀ h, f.h.get k {} = h → ∀ a, w (0x600 + 16 * k) = a →
        (a.getLsbD 0 = h.valid ∧ a.getLsbD 1 = h.pend ∧ a.getLsbD 2 = h.pin ∧ a.getLsbD 3 = h.sys ∧ a.getLsbD 4 = h.r ∧ a.getLsbD 5 = h.w
            ∧ a.getLsbD 6 = h.tol ∧ a.getLsbD 7 = h.tpol ∧ a.getLsbD 10 = h.rem ∧ a.getLsbD 11 = h.dev)
          ∧ (wbits a 9 8 = h.psize.toNat ∧ wbits a 15 12 = h.fcode.toNat ∧ wbits a 47 16 = h.frame.toNat ∧ wbits a 63 48 = h.lode.toNat)
          ∧ w (0x608 + 16 * k) = h.va.zeroExtend 64)
    ∧ ∀ o, (0x58 ≤ o ∧ o < 0x80 ∨ 0x3C0 ≤ o ∧ o < 0x400 ∨ 0x800 ≤ o ∧ o < 0x1000) → t.byteAt (pa + o) = 0

/-- R390: which words of a frame at `pa` are poisoned: those that hold a register which trap entry read with failing parity, on the
durable tier with the rest of their line; in main memory no other. -/
def State.poisonsFrame (t : State) (pa : Nat) (f : Facet) : Prop :=
  (∀ r ∈ f.poison, f.flight r = [] → ∀ o, frameOff r = some o → o < 0x1000 → t.poisoned (pa + o) = true)
    ∧ (place pa = .main → ∀ i < 128, (∀ r ∈ f.poison, f.flight r = [] → ∀ o, frameOff r = some o → o / 32 ≠ i) →
        t.poisoned (pa + 32 * i) = false)

/-- R230, R231, R103: the byte writes of a scratchpad store, at scratchpad addresses, as its operands give them. -/
def State.spadWrites (s : State) (i : Instr) : Option (List ByteWrite) :=
  match i with
  | .stS _ a xb off t mode sz => some (bytesAtBase (spAddr (s.readX xb) off.toInt) (scalarStore t mode sz (s.readS a)).1)
  | .stV _ a xb off m t mode src =>
    some (atBase (spAddr (s.readX xb) off.toInt) (stvWrites t src mode (s.readM m) (s.readV a) (s.readV (a + 1))).1)
  | .stVs _ a xb off m t mode src => some (stxWrites t src mode (s.readM m) (s.readV a) (strideAddr (s.readX xb) off)).1
  | .stVx _ a xb vi m t mode src => some (stxWrites t src mode (s.readM m) (s.readV a) (indexAddr (s.readX xb) (s.readV vi))).1
  | .stM _ ms xb off => some (bytesAtBase (spAddr (s.readX xb) off.toInt) (leBytes 16 (s.readM ms).toNat))
  | .vspill _ a xb off => some (bytesAtBase (spAddr (s.readX xb) off.toInt / 32 * 32) (s.readV a).image)
  | _ => none

/-- R215, R216: where a scratchpad address of the running facet lies in its core's scratchpad. -/
def State.spadPlace (s : State) (a : Nat) : Nat := spPhys (s.window s.me.launch (s.spCore a)) (spOff a)

end Machine

end Sys2Proof
end

