-- ==== Sys2Proof/Certificates/Slice0/Obligations.lean ====
section
/-! DEFINITION. The statements for the provers, as OBLIGATIONS.json lists them. Each docstring cites the rules of spec/ that it
formalises, or the log entry on which a choice of the model's rests. -/

open Sys2Proof Sys2Proof.Machine

/-- R121, R124, R125, R49. Every ready S-RR or S-RI arithmetic, logic, shift or minimum instruction issues its sum, product,
shift or choice. -/
def Obligations.ScalarArithmeticResults : Prop :=
    (∀ (g : BitVec 4) (d a b : BitVec 6) (s : State), s.ready (.add g d a b) = true →
      exec (.add g d a b) s = .next (s.putS d (s.readS a + s.readS b) 1))
    ∧ (∀ (g : BitVec 4) (d a b : BitVec 6) (s : State), s.ready (.sub g d a b) = true →
      exec (.sub g d a b) s = .next (s.putS d (s.readS a - s.readS b) 1))
    ∧ (∀ (g : BitVec 4) (d a b : BitVec 6) (s : State), s.ready (.mul g d a b) = true →
      exec (.mul g d a b) s = .next (s.putS d (s.readS a * s.readS b) 3))
    ∧ (∀ (g : BitVec 4) (d a b : BitVec 6) (s : State), s.ready (.mulh g d a b) = true →
      exec (.mulh g d a b) s = .next (s.putS d (BitVec.ofInt 64 ((s.readS a).toInt * (s.readS b).toInt / 2 ^ 64)) 3))
    ∧ (∀ (g : BitVec 4) (d a b : BitVec 6) (s : State), s.ready (.mulhn g d a b) = true →
      exec (.mulhn g d a b) s = .next (s.putS d (BitVec.ofNat 64 ((s.readS a).toNat * (s.readS b).toNat / 2 ^ 64)) 3))
    ∧ (∀ (g : BitVec 4) (d a b : BitVec 6) (s : State), s.ready (.and g d a b) = true →
      exec (.and g d a b) s = .next (s.putS d (s.readS a &&& s.readS b) 1))
    ∧ (∀ (g : BitVec 4) (d a b : BitVec 6) (s : State), s.ready (.or g d a b) = true →
      exec (.or g d a b) s = .next (s.putS d (s.readS a ||| s.readS b) 1))
    ∧ (∀ (g : BitVec 4) (d a b : BitVec 6) (s : State), s.ready (.xor g d a b) = true →
      exec (.xor g d a b) s = .next (s.putS d (s.readS a ^^^ s.readS b) 1))
    ∧ (∀ (g : BitVec 4) (d a b : BitVec 6) (s : State), s.ready (.shl g d a b) = true →
      exec (.shl g d a b) s = .next (s.putS d (s.readS a <<< shiftOf (s.readS b)) 1))
    ∧ (∀ (g : BitVec 4) (d a b : BitVec 6) (s : State), s.ready (.shr g d a b) = true →
      exec (.shr g d a b) s = .next (s.putS d (s.readS a >>> shiftOf (s.readS b)) 1))
    ∧ (∀ (g : BitVec 4) (d a b : BitVec 6) (s : State), s.ready (.sra g d a b) = true →
      exec (.sra g d a b) s = .next (s.putS d ((s.readS a).sshiftRight (shiftOf (s.readS b))) 1))
    ∧ (∀ (g : BitVec 4) (d a b : BitVec 6) (s : State), s.ready (.rot g d a b) = true →
      exec (.rot g d a b) s = .next (s.putS d ((s.readS a).rotateRight (shiftOf (s.readS b))) 1))
    ∧ (∀ (g : BitVec 4) (d a b : BitVec 6) (s : State), s.ready (.min g d a b) = true →
      exec (.min g d a b) s = .next (s.putS d (if (s.readS a).toInt ≤ (s.readS b).toInt then s.readS a else s.readS b) 1))
    ∧ (∀ (g : BitVec 4) (d a b : BitVec 6) (s : State), s.ready (.max g d a b) = true →
      exec (.max g d a b) s = .next (s.putS d (if (s.readS b).toInt ≤ (s.readS a).toInt then s.readS a else s.readS b) 1))
    ∧ (∀ (g : BitVec 4) (d a b : BitVec 6) (s : State), s.ready (.minn g d a b) = true →
      exec (.minn g d a b) s = .next (s.putS d (if (s.readS a).toNat ≤ (s.readS b).toNat then s.readS a else s.readS b) 1))
    ∧ (∀ (g : BitVec 4) (d a b : BitVec 6) (s : State), s.ready (.maxn g d a b) = true →
      exec (.maxn g d a b) s = .next (s.putS d (if (s.readS b).toNat ≤ (s.readS a).toNat then s.readS a else s.readS b) 1))
    ∧ (∀ (g : BitVec 4) (d a b : BitVec 6) (gs : BitVec 3) (ng : BitVec 1) (s : State), s.ready (.sel g d a b gs ng) = true →
      exec (.sel g d a b gs ng) s = .next (s.putS d (if xor (s.readG gs.toNat) (ng == 1) then s.readS a else s.readS b) 1))
    ∧ (∀ (g : BitVec 4) (d a : BitVec 6) (imm : BitVec 34) (s : State), s.ready (.addi g d a imm) = true →
      exec (.addi g d a imm) s = .next (s.putS d (s.readS a + imm.signExtend 64) 1))
    ∧ (∀ (g : BitVec 4) (d a : BitVec 6) (imm : BitVec 34) (s : State), s.ready (.andi g d a imm) = true →
      exec (.andi g d a imm) s = .next (s.putS d (s.readS a &&& imm.signExtend 64) 1))
    ∧ (∀ (g : BitVec 4) (d a : BitVec 6) (imm : BitVec 34) (s : State), s.ready (.ori g d a imm) = true →
      exec (.ori g d a imm) s = .next (s.putS d (s.readS a ||| imm.signExtend 64) 1))
    ∧ (∀ (g : BitVec 4) (d a : BitVec 6) (imm : BitVec 34) (s : State), s.ready (.xori g d a imm) = true →
      exec (.xori g d a imm) s = .next (s.putS d (s.readS a ^^^ imm.signExtend 64) 1))
    ∧ (∀ (g : BitVec 4) (d a k : BitVec 6) (s : State), s.ready (.shli g d a k) = true →
      exec (.shli g d a k) s = .next (s.putS d (s.readS a <<< k.toNat) 1))
    ∧ (∀ (g : BitVec 4) (d a k : BitVec 6) (s : State), s.ready (.shri g d a k) = true →
      exec (.shri g d a k) s = .next (s.putS d (s.readS a >>> k.toNat) 1))
    ∧ (∀ (g : BitVec 4) (d a k : BitVec 6) (s : State), s.ready (.srai g d a k) = true →
      exec (.srai g d a k) s = .next (s.putS d ((s.readS a).sshiftRight k.toNat) 1))
    ∧ (∀ (g : BitVec 4) (d : BitVec 6) (imm : BitVec 34) (s : State), s.ready (.li g d imm) = true →
      exec (.li g d imm) s = .next (s.putS d (imm.signExtend 64) 1))
    ∧ (∀ (g : BitVec 4) (d : BitVec 6) (imm : BitVec 34) (s : State), s.ready (.lih g d imm) = true →
      exec (.lih g d imm) s = .next (s.putS d ((imm.zeroExtend 64 <<< 30) ||| (s.readS d &&& 0x3FFFFFFF)) 1))
    ∧ (∀ (g : BitVec 4) (d a : BitVec 6) (imm : BitVec 34) (s : State), s.ready (.muli g d a imm) = true →
      exec (.muli g d a imm) s = .next (s.putS d (s.readS a * imm.signExtend 64) 3))

/-- R122. div, divn, rem and remn give the quotient and remainder of the table, its two corner columns included. -/
def Obligations.DivisionFollowsItsTable : Prop :=
    (∀ (g : BitVec 4) (d a b : BitVec 6) (s : State), s.ready (.div g d a b) = true →
      ∃ q : BitVec 64, exec (.div g d a b) s = .next (s.putS d q 20)
        ∧ (s.readS b = 0 → q = BitVec.allOnes 64)
        ∧ (s.readS a = BitVec.intMin 64 ∧ s.readS b = BitVec.allOnes 64 → q = BitVec.intMin 64)
        ∧ (s.readS b ≠ 0 → ¬(s.readS a = BitVec.intMin 64 ∧ s.readS b = BitVec.allOnes 64) → q.toInt = (s.readS a).toInt.tdiv (s.readS b).toInt))
    ∧ (∀ (g : BitVec 4) (d a b : BitVec 6) (s : State), s.ready (.divn g d a b) = true →
      ∃ q : BitVec 64, exec (.divn g d a b) s = .next (s.putS d q 20)
        ∧ (s.readS b = 0 → q = BitVec.allOnes 64)
        ∧ (s.readS b ≠ 0 → q.toNat = (s.readS a).toNat / (s.readS b).toNat))
    ∧ (∀ (g : BitVec 4) (d a b : BitVec 6) (s : State), s.ready (.rem g d a b) = true →
      ∃ q : BitVec 64, exec (.rem g d a b) s = .next (s.putS d q 20)
        ∧ (s.readS b = 0 → q = s.readS a)
        ∧ (s.readS a = BitVec.intMin 64 ∧ s.readS b = BitVec.allOnes 64 → q = 0)
        ∧ (s.readS b ≠ 0 → q.toInt = (s.readS a).toInt - (s.readS b).toInt * (s.readS a).toInt.tdiv (s.readS b).toInt))
    ∧ (∀ (g : BitVec 4) (d a b : BitVec 6) (s : State), s.ready (.remn g d a b) = true →
      ∃ q : BitVec 64, exec (.remn g d a b) s = .next (s.putS d q 20)
        ∧ (s.readS b = 0 → q = s.readS a)
        ∧ (s.readS b ≠ 0 → q.toNat = (s.readS a).toNat % (s.readS b).toNat))

/-- R123, R7. add128 issues the two halves of the 128-bit sum of its pairs; the low half of the pair s0, s1 is discarded. -/
def Obligations.WideSumSpansItsPairs : Prop :=
    ∀ (g : BitVec 4) (d a b : BitVec 6) (s : State), s.ready (.add128 g d a b) = true →
      ∃ lo hi : BitVec 64, exec (.add128 g d a b) s = .next ((s.land (.s d.toNat lo) 1).land (.s (d.toNat + 1) hi) 1)
        ∧ lo.toNat + 2 ^ 64 * hi.toNat
          = ((s.readS a).toNat + 2 ^ 64 * (s.readS (a + 1)).toNat + ((s.readS b).toNat + 2 ^ 64 * (s.readS (b + 1)).toNat)) % 2 ^ 128
        ∧ (a = 0 → s.readS a = 0) ∧ (RegWrite.s d.toNat lo).void = decide (d = 0)

/-- R126. The bit instructions count, extend, reverse, spread and gather exactly the bits that their table names. -/
def Obligations.BitInstructionsMoveEveryBit : Prop :=
    (∀ (g : BitVec 4) (d a : BitVec 6) (s : State), s.ready (.clz g d a) = true →
      ∃ r : BitVec 64, exec (.clz g d a) s = .next (s.putS d r 1)
        ∧ r.toNat ≤ 64 ∧ (∀ k < 64, 64 - r.toNat ≤ k → (s.readS a).getLsbD k = false) ∧ (r.toNat < 64 → (s.readS a).getLsbD (63 - r.toNat) = true))
    ∧ (∀ (g : BitVec 4) (d a : BitVec 6) (s : State), s.ready (.ctz g d a) = true →
      ∃ r : BitVec 64, exec (.ctz g d a) s = .next (s.putS d r 1)
        ∧ r.toNat ≤ 64 ∧ (∀ k < r.toNat, (s.readS a).getLsbD k = false) ∧ (r.toNat < 64 → (s.readS a).getLsbD r.toNat = true))
    ∧ (∀ (g : BitVec 4) (d a : BitVec 6) (s : State), s.ready (.popc g d a) = true →
      ∃ r : BitVec 64, exec (.popc g d a) s = .next (s.putS d r 1)
        ∧ r.toNat = ((List.range 64).filter fun k => (s.readS a).getLsbD k).length)
    ∧ (∀ (g : BitVec 4) (d a : BitVec 6) (s : State), s.ready (.bint3 g d a) = true →
      ∃ r : BitVec 64, exec (.bint3 g d a) s = .next (s.putS d r 1)
        ∧ (∀ k < 21, r.getLsbD (3 * k) = (s.readS a).getLsbD k) ∧ ∀ k < 64, k % 3 ≠ 0 ∨ 63 ≤ k → r.getLsbD k = false)
    ∧ (∀ (g : BitVec 4) (d a : BitVec 6) (s : State), s.ready (.bdint3 g d a) = true →
      ∃ r : BitVec 64, exec (.bdint3 g d a) s = .next (s.putS d r 1)
        ∧ (∀ k < 21, r.getLsbD k = (s.readS a).getLsbD (3 * k)) ∧ ∀ k, 21 ≤ k → r.getLsbD k = false)
    ∧ (∀ (g : BitVec 4) (d a : BitVec 6) (s : State), s.ready (.bint2 g d a) = true →
      ∃ r : BitVec 64, exec (.bint2 g d a) s = .next (s.putS d r 1)
        ∧ (∀ k < 32, r.getLsbD (2 * k) = (s.readS a).getLsbD k) ∧ ∀ k < 64, k % 2 ≠ 0 → r.getLsbD k = false)
    ∧ (∀ (g : BitVec 4) (d a : BitVec 6) (s : State), s.ready (.bdint2 g d a) = true →
      ∃ r : BitVec 64, exec (.bdint2 g d a) s = .next (s.putS d r 1)
        ∧ (∀ k < 32, r.getLsbD k = (s.readS a).getLsbD (2 * k)) ∧ ∀ k, 32 ≤ k → r.getLsbD k = false)
    ∧ (∀ (g : BitVec 4) (d a : BitVec 6) (s : State), s.ready (.brev g d a) = true →
      ∃ r : BitVec 64, exec (.brev g d a) s = .next (s.putS d r 1)
        ∧ ∀ k < 64, r.getLsbD k = (s.readS a).getLsbD (63 - k))
    ∧ (∀ (g : BitVec 4) (d a w : BitVec 6) (s : State), 1 ≤ w.toNat → s.ready (.sext g d a w) = true →
      ∃ r : BitVec 64, exec (.sext g d a w) s = .next (s.putS d r 1)
        ∧ ∀ k < 64, r.getLsbD k = (s.readS a).getLsbD (if k < w.toNat then k else w.toNat - 1))
    ∧ (∀ (g : BitVec 4) (d a w : BitVec 6) (s : State), 1 ≤ w.toNat → s.ready (.zext g d a w) = true →
      ∃ r : BitVec 64, exec (.zext g d a w) s = .next (s.putS d r 1)
        ∧ ∀ k < 64, r.getLsbD k = (decide (k < w.toNat) && (s.readS a).getLsbD k))

/-- R127, R128. Each compare issues to its guard whether the relation holds, signed or unsigned; gand, gor and gnot combine
guards. -/
def Obligations.ComparesWriteTheirGuard : Prop :=
    (∀ (g : BitVec 4) (gd : BitVec 3) (a b : BitVec 6) (s : State), s.ready (.cmpEq g gd a b) = true →
      exec (.cmpEq g gd a b) s = .next (s.putG gd (decide (s.readS a = s.readS b)) 1))
    ∧ (∀ (g : BitVec 4) (gd : BitVec 3) (a b : BitVec 6) (s : State), s.ready (.cmpNe g gd a b) = true →
      exec (.cmpNe g gd a b) s = .next (s.putG gd (decide (s.readS a ≠ s.readS b)) 1))
    ∧ (∀ (g : BitVec 4) (gd : BitVec 3) (a b : BitVec 6) (s : State), s.ready (.cmpLt g gd a b) = true →
      exec (.cmpLt g gd a b) s = .next (s.putG gd (decide ((s.readS a).toInt < (s.readS b).toInt)) 1))
    ∧ (∀ (g : BitVec 4) (gd : BitVec 3) (a b : BitVec 6) (s : State), s.ready (.cmpLtn g gd a b) = true →
      exec (.cmpLtn g gd a b) s = .next (s.putG gd (decide ((s.readS a).toNat < (s.readS b).toNat)) 1))
    ∧ (∀ (g : BitVec 4) (gd : BitVec 3) (a b : BitVec 6) (s : State), s.ready (.cmpLe g gd a b) = true →
      exec (.cmpLe g gd a b) s = .next (s.putG gd (decide ((s.readS a).toInt ≤ (s.readS b).toInt)) 1))
    ∧ (∀ (g : BitVec 4) (gd : BitVec 3) (a b : BitVec 6) (s : State), s.ready (.cmpLen g gd a b) = true →
      exec (.cmpLen g gd a b) s = .next (s.putG gd (decide ((s.readS a).toNat ≤ (s.readS b).toNat)) 1))
    ∧ (∀ (g : BitVec 4) (gd : BitVec 3) (a : BitVec 6) (imm : BitVec 34) (s : State), s.ready (.cmpiEq g gd a imm) = true →
      exec (.cmpiEq g gd a imm) s = .next (s.putG gd (decide (s.readS a = imm.signExtend 64)) 1))
    ∧ (∀ (g : BitVec 4) (gd : BitVec 3) (a : BitVec 6) (imm : BitVec 34) (s : State), s.ready (.cmpiLt g gd a imm) = true →
      exec (.cmpiLt g gd a imm) s = .next (s.putG gd (decide ((s.readS a).toInt < (imm.signExtend 64).toInt)) 1))
    ∧ (∀ (g : BitVec 4) (gd ga gb : BitVec 3) (s : State), s.ready (.gand g gd ga gb) = true →
      exec (.gand g gd ga gb) s = .next (s.putG gd (s.readG ga.toNat && s.readG gb.toNat) 1))
    ∧ (∀ (g : BitVec 4) (gd ga gb : BitVec 3) (s : State), s.ready (.gor g gd ga gb) = true →
      exec (.gor g gd ga gb) s = .next (s.putG gd (s.readG ga.toNat || s.readG gb.toNat) 1))
    ∧ (∀ (g : BitVec 4) (gd ga : BitVec 3) (s : State), s.ready (.gnot g gd ga) = true →
      exec (.gnot g gd ga) s = .next (s.putG gd (!s.readG ga.toNat) 1))

/-- R131, R114, R138. Each ready branch, call, return, loop exit and bank branch latches its target, with its link; the commit
continues there. -/
def Obligations.TransfersLatchTheirTarget : Prop :=
    (∀ (g : BitVec 4) (off : BitVec 34) (s : State), s.ready (.br g off) = true →
      exec (.br g off) s = .next (s.take s.me.bank (s.relTarget off)))
    ∧ (∀ (g : BitVec 4) (a : BitVec 6) (off : BitVec 34) (s : State), s.ready (.brs g a off) = true →
      exec (.brs g a off) s = .next (s.takeCode (s.readS a + BitVec.ofInt 64 (4 * off.toInt))))
    ∧ (∀ (g : BitVec 4) (l : BitVec 6) (off : BitVec 34) (s : State), s.ready (.call g l off) = true →
      exec (.call g l off) s = .next ((s.putS l s.succ 1).take s.me.bank (s.relTarget off)))
    ∧ (∀ (g : BitVec 4) (a : BitVec 6) (s : State), s.ready (.ret g a) = true →
      exec (.ret g a) s = .next (s.takeCode (s.readS a)))
    ∧ (∀ (g : BitVec 4) (off : BitVec 34) (s : State), s.ready (.lexit g off) = true →
      exec (.lexit g off) s = .next ((s.modMe fun f => { f with lsDepth := f.lsDepth - 1 }).take s.me.bank (s.relTarget off)))
    ∧ (∀ (g : BitVec 4) (l : BitVec 6) (o : BitVec 13) (s : State), s.ready (.brb g l o) = true →
      exec (.brb g l o) s = .next ((if l = 0 then s else s.putS l s.succ 1).take (!s.me.bank) (4 * o.toNat)))
    ∧ (∀ (f : Facet) (l : Latch) (b : Bool) (o : Nat), l.target = some (b, o) → f.continueAt l = { f with bank := b, pc := o })

/-- R136, R135, R49. loop and loopi push an entry above the stack or, for a zero count, take the transfer to the end; a rotating
one resets the stage guards. -/
def Obligations.LoopInstructionsOpenTheirEntry : Prop :=
    (∀ (g : BitVec 4) (st : BitVec 2) (ro : BitVec 1) (a : BitVec 6) (e : BitVec 16) (s : State), s.ready (.loop g st ro a e) = true →
      exec (.loop g st ro a e) s = .next (s.openLoop (s.readS a) st (ro == 1) e))
    ∧ (∀ (g : BitVec 4) (st : BitVec 2) (ro : BitVec 1) (e : BitVec 16) (cnt : BitVec 18) (s : State), s.ready (.loopi g st ro e cnt) = true →
      exec (.loopi g st ro e cnt) s = .next (s.openLoop (cnt.zeroExtend 64) st (ro == 1) e))
    ∧ (∀ (s : State) (c : BitVec 64) (st : BitVec 2) (rot : Bool) (e : BitVec 16), c ≠ 0 →
      (s.openLoop c st rot e).me.lsDepth = s.me.lsDepth + 1
        ∧ (s.openLoop c st rot e).me.lstk.get s.me.lsDepth {}
          = { start := s.me.pc + s.me.latch.size, bank := s.me.bank, stop := s.me.pc + 4 * e.toNat, count := c, rot := rot, stages := st }
        ∧ (∀ k, k ≠ s.me.lsDepth → (s.openLoop c st rot e).me.lstk.get k {} = s.me.lstk.get k {})
        ∧ (s.openLoop c st rot e).me.latch = s.me.latch)
    ∧ (∀ (s : State) (c : BitVec 64) (st : BitVec 2) (rot : Bool) (e : BitVec 16), c = 0 →
      (s.openLoop c st rot e).me.latch = { s.me.latch with target := some (s.me.bank, s.me.pc + 4 * e.toNat) }
        ∧ (s.openLoop c st rot e).me.lsDepth = s.me.lsDepth ∧ (s.openLoop c st rot e).me.lstk = s.me.lstk)
    ∧ (∀ (s : State) (c : BitVec 64) (st : BitVec 2) (e : BitVec 16),
      ((s.openLoop c st false e).me.rotBase = s.me.rotBase ∧ (s.openLoop c st false e).me.landings = s.me.landings)
        ∧ (s.openLoop c st true e).me.rotBase = 0 ∧ (s.openLoop c st true e).me.landings = (s.resetStages c st).me.landings)
    ∧ (∀ (s : State) (c : BitVec 64) (st : BitVec 2), (s.resetStages c st).me.rotBase = 0
        ∧ ((s.resetStages c st).me.landings.reverse.take 4).reverse.map (fun l => (l.write, l.due))
          = [(.g 4 (decide (st.toNat < c.toNat)), s.me.clock + 1), (.g 5 false, s.me.clock + 1), (.g 6 false, s.me.clock + 1),
             (.g 7 false, s.me.clock + 1)])

/-- R130, R137, R140. A bundle that ends a loop body loops back on the topmost matching entry, discards those above it, and pops
it on its last count. -/
def Obligations.LoopEndMatchesTopmostEntry : Prop :=
    ∀ (f : Facet) (l : Latch), l.target = none → l.isLoop = false → l.returned = false →
      (l.yielded = true → f.continueAt l = { f with pc := l.pc + l.size })
      ∧ (l.yielded = false →
      (∀ k, k < f.lsDepth → (f.lstk.get k {}).stop = l.pc + l.size → (f.lstk.get k {}).bank = f.bank →
        (∀ j, k < j → j < f.lsDepth → ¬((f.lstk.get j {}).stop = l.pc + l.size ∧ (f.lstk.get j {}).bank = f.bank)) →
        (1 < (f.lstk.get k {}).count.toNat →
          (f.continueAt l).pc = (f.lstk.get k {}).start ∧ (f.continueAt l).lsDepth = k + 1
            ∧ (f.continueAt l).lstk.get k {} = { f.lstk.get k {} with count := (f.lstk.get k {}).count - 1 }
            ∧ (∀ j, j ≠ k → (f.continueAt l).lstk.get j {} = f.lstk.get j {})
            ∧ ((f.lstk.get k {}).rot = false → (f.continueAt l).g = f.g ∧ (f.continueAt l).rotBase = f.rotBase)
            ∧ ((f.lstk.get k {}).rot = true →
                (f.continueAt l).rotBase = f.rotate.rotBase
                  ∧ (∀ j < 4, (f.continueAt l).g.getLsbD j = f.g.getLsbD j)
                  ∧ (∀ j < 3, (f.continueAt l).g.getLsbD (j + 5) = f.g.getLsbD (j + 4))
                  ∧ (f.continueAt l).g.getLsbD 4
                    = decide ((f.lstk.get k {}).stages.toNat < (f.lstk.get k {}).count.toNat - 1)))
        ∧ ((f.lstk.get k {}).count.toNat ≤ 1 → f.continueAt l = { f with lsDepth := k, pc := l.pc + l.size }))
      ∧ ((∀ k, k < f.lsDepth → ¬((f.lstk.get k {}).stop = l.pc + l.size ∧ (f.lstk.get k {}).bank = f.bank)) →
          f.continueAt l = { f with pc := l.pc + l.size }))

/-- R141, R142, R147, R148, R149, R150. rdid, rdsys, rdtime, rdcyc, flags.rd, evpop, setest and flags.clr have their effect
whenever they are ready. -/
def Obligations.SystemReadsIssueTheirValue : Prop :=
    (∀ (g : BitVec 4) (d : BitVec 6) (imm : BitVec 34) (s : State), s.ready (.rdid g d imm) = true →
      exec (.rdid g d imm) s = .next (s.putS d (s.identifier imm.toNat) 1))
    ∧ (∀ (g : BitVec 4) (d : BitVec 6) (ix : BitVec 12) (s : State), s.ready (.rdsys g d ix) = true →
      exec (.rdsys g d ix) s = .next (s.putS d (s.sysReg ix.toNat) 1))
    ∧ (∀ (g : BitVec 4) (d : BitVec 6) (s : State), s.ready (.rdtime g d) = true →
      exec (.rdtime g d) s = .next (s.putS d s.nanos 1))
    ∧ (∀ (g : BitVec 4) (d : BitVec 6) (s : State), s.ready (.rdcyc g d) = true →
      exec (.rdcyc g d) s = .next (s.putS d (BitVec.ofNat 64 s.me.logical) 1))
    ∧ (∀ (g : BitVec 4) (d : BitVec 6) (s : State), s.ready (.flagsRd g d) = true →
      exec (.flagsRd g d) s = .next (s.putS d (s.me.flags.zeroExtend 64) 1))
    ∧ (∀ (g : BitVec 4) (k : BitVec 6) (s : State), s.ready (.flagsClr g k) = true →
      exec (.flagsClr g k) s = .next (s.modMe fun f => { f with flags := f.flags &&& ~~~k }))
    ∧ (∀ (g : BitVec 4) (d : BitVec 6) (s : State), s.ready (.evpop g d) = true →
      exec (.evpop g d) s = .next (s.popRecord d))
    ∧ (∀ (g : BitVec 4) (a : BitVec 6) (ix : BitVec 8) (s : State), s.ready (.setest g a ix) = true →
      exec (.setest g a ix) s = .next (s.setEstimate a ix.toNat))
    ∧ (∀ (g : BitVec 4) (a : BitVec 6) (ix : BitVec 8) (s : State), s.ready (.setest g a ix) = true →
      ∃ t, exec (.setest g a ix) s = .next t ∧ t.me.estAt = BitVec.ofNat 64 (if s.me.intrap then s.me.progClock else s.me.clock)
        ∧ (s.me.estTable.find ix.toNat = none → t.me.estSet = BitVec.allOnes 64)
        ∧ ∀ base, s.me.estTable.find ix.toNat = some base →
            (a = 0 → t.me.estSet = base.zeroExtend 64)
            ∧ (a ≠ 0 → t.me.estSet.toNat = min (base.toNat * (s.readS a).toNat) (2 ^ 64 - 2)))
    ∧ (∀ (s : State) (d : BitVec 6) (r : EventRec) (rs : List EventRec), s.here.recordsOf s.fn = r :: rs →
      s.popRecord d = (s.modHere fun k => { k with evq := takeRecord s.fn k.evq }).putPair d (r.w0, r.w1) 1)

/-- R117, R147, R271, R272, R276, R288, R192, R304, R235, R239, R240. A ready wait, fence, drain or check leaves the state as it
is, bar.wait notes its read; pbar forgets its confirmed seal; tsync sets the ring base. -/
def Obligations.WaitsEndWithoutOtherEffect : Prop :=
    (∀ (g : BitVec 4) (s : State), s.ready (.ifence g) = true →
      exec (.ifence g) s = .next s)
    ∧ (∀ (g : BitVec 4) (n : BitVec 7) (s : State), s.ready (.wfe g n) = true →
      exec (.wfe g n) s = .next s)
    ∧ (∀ (g : BitVec 4) (xb : BitVec 5) (sg : BitVec 6) (s : State), s.ready (.barWait g xb sg) = true →
      exec (.barWait g xb sg) s = .next (s.readGen xb))
    ∧ (∀ (g cls : BitVec 4) (k : BitVec 6) (s : State), s.ready (.wait g cls k) = true →
      exec (.wait g cls k) s = .next s)
    ∧ (∀ (g : BitVec 4) (s : State), s.ready (.drain g) = true →
      exec (.drain g) s = .next s)
    ∧ (∀ (g k : BitVec 4) (s : State), s.ready (.mwait g k) = true →
      exec (.mwait g k) s = .next s)
    ∧ (∀ (g : BitVec 4) (ya yb : BitVec 2) (s : State), s.ready (.chkY g ya yb) = true →
      exec (.chkY g ya yb) s = .next s)
    ∧ (∀ (g : BitVec 4) (a b : BitVec 9) (m : BitVec 4) (s : State), s.ready (.chkV g a b m) = true →
      exec (.chkV g a b m) s = .next s)
    ∧ (∀ (g : BitVec 4) (ya : BitVec 2) (a : BitVec 6) (s : State), s.ready (.chkS g ya a) = true →
      exec (.chkS g ya a) s = .next s)
    ∧ (∀ (g : BitVec 4) (s : State), s.ready (.pbar g) = true →
      exec (.pbar g) s = .next (s.modMe fun f => { f with pbar := 0 }))
    ∧ (∀ (g : BitVec 4) (mask : BitVec 16) (s : State), s.ready (.tsync g mask) = true →
      exec (.tsync g mask) s = .next ((s.modMe fun f =>
          { f.setRing mask with
            level := if mask == BitVec.ofNat 16 (2 ^ rankOf s.cur) then BitVec.ofNat 3 (s.granted (geodeOf s.cur)) else f.metLevel })))
    ∧ (∀ (xb : BitVec 5) (s : State) (c p : Nat), c = s.spCore (spAddr (s.readX xb) 0) →
      p = spPhys (s.window s.me.launch c) (spOff (spAddr (s.readX xb) 0)) →
      (s.core c).spadPoison.contains (p / 8) = false → (s.core c).spadFlaws.contains (p / 8) = false → s.readGen xb = s)

/-- R133, R134, R142, R145, R146. halt, yield, sys, trapi, eret and wrsys ask, in the issue latch, for what the commit of their
bundle does. -/
def Obligations.CommitRequestsAreLatched : Prop :=
    (∀ (g : BitVec 4) (s : State), s.ready (.halt g) = true →
      exec (.halt g) s = .next (s.modLatch fun l => { l with halted := true }))
    ∧ (∀ (g : BitVec 4) (s : State), s.ready (.yield g) = true →
      exec (.yield g) s = .next (s.modLatch fun l => { l with yielded := true }))
    ∧ (∀ (g : BitVec 4) (imm : BitVec 34) (s : State), s.ready (.sys g imm) = true →
      exec (.sys g imm) s = .next (s.modLatch fun l => { l with after := some (trapOf (.sys g imm) .sys 0 0 0 imm.toNat) }))
    ∧ (∀ (g : BitVec 4) (imm : BitVec 34) (s : State), s.ready (.trapi g imm) = true →
      exec (.trapi g imm) s = .next (s.modLatch fun l => { l with after := some (trapOf (.trapi g imm) .trapi 0 0 0 imm.toNat) }))
    ∧ (∀ (g : BitVec 4) (s : State), s.ready (.eret g) = true →
      exec (.eret g) s = .next (s.modLatch fun l => { l with returned := true }))
    ∧ (∀ (g : BitVec 4) (a : BitVec 6) (ix : BitVec 12) (s : State), s.ready (.wrsys g a ix) = true →
      exec (.wrsys g a ix) s = .next (s.modLatch fun l => { l with sysWrite := some (ix.toNat, s.readS a) }))

/-- R145, R385, R386, R389. The commit of a bundle with sys or trapi traps after the bundle: in the handler with TCAUSE of cause
14 or 13 and TINFO the code. -/
def Obligations.SoftwareTrapFollowsItsCommit : Prop :=
    ∀ (g : BitVec 4) (imm : BitVec 34) (s : State) (n : Nat) (i : Instr),
      (n = 14 ∧ i = .sys g imm ∨ n = 13 ∧ i = .trapi g imm) →
      s.ready i = true → s.me.latch.passed = true → s.me.latch.halted = false → s.me.latch.sysWrite = none →
      s.me.latch.returned = false → s.me.intrap = false → (s.geode (geodeOf s.cur)).frozen = false →
      s.flaws = [] → tbaseOk s.here s.me = true → (s.framePlace s.me).isSome = true →
      ∃ t u, exec i s = .next t ∧ exec (.bundleCommit s.cur) t = .next u
        ∧ (u.facet s.cur s.fn).intrap = true ∧ (u.facet s.cur s.fn).parked = false
        ∧ (u.facet s.cur s.fn).pc = wbits s.me.tbase 14 0 ∧ (u.facet s.cur s.fn).bank = s.me.tbase.getLsbD 15
        ∧ (u.facet s.cur s.fn).s.get 1 0 = s.me.tframe ∧ (u.facet s.cur s.fn).s.get 2 0 = (u.facet s.cur s.fn).tcause
        ∧ wbits (u.facet s.cur s.fn).tcause 4 0 = n ∧ (u.facet s.cur s.fn).tcause.getLsbD 30 = true
        ∧ (u.facet s.cur s.fn).tinfo = imm.zeroExtend 64
        ∧ (u.facet s.cur s.fn).progClock = s.me.clock + 1 + s.me.latch.idle

/-- R105. Each cross-file copy issues to the target register the value of the source register, at bound 2. -/
def Obligations.CrossFileCopiesMoveTheirValue : Prop :=
    (∀ (g : BitVec 4) (d : BitVec 6) (gk : BitVec 3) (s : State), s.ready (.movGs g d gk) = true →
      exec (.movGs g d gk) s = .next (s.putS d (if s.readG gk.toNat then 1 else 0) 2))
    ∧ (∀ (g : BitVec 4) (gd : BitVec 3) (a : BitVec 6) (s : State), s.ready (.movSg g gd a) = true →
      exec (.movSg g gd a) s = .next (s.putG gd (s.readS a != 0) 2))
    ∧ (∀ (g : BitVec 4) (d : BitVec 9) (a : BitVec 6) (lane : BitVec 4) (s : State), s.ready (.movSv g d a lane) = true →
      exec (.movSv g d a lane) s = .next (s.putV d (withLane (s.readV d) lane.toNat (s.readS a)) 2))
    ∧ (∀ (g : BitVec 4) (d : BitVec 5) (a : BitVec 6) (s : State), s.ready (.movSx g d a) = true →
      exec (.movSx g d a) s = .next (s.land (.x d.toNat ((s.readS a).truncate 32)) 2))
    ∧ (∀ (g : BitVec 4) (d : BitVec 3) (a : BitVec 6) (s : State), s.ready (.movSq g d a) = true →
      exec (.movSq g d a) s = .next (s.land (.q d.toNat (s.readS a)) 2))
    ∧ (∀ (g d : BitVec 4) (a : BitVec 6) (s : State), s.ready (.movSd g d a) = true →
      exec (.movSd g d a) s = .next (s.land (.d d.toNat (s.readS a)) 2))
    ∧ (∀ (u : VUnit) (g : BitVec 4) (d : BitVec 6) (a : BitVec 9) (lane : BitVec 4) (s : State), s.ready (.movVs u g d a lane) = true →
      exec (.movVs u g d a lane) s = .next (s.putS d (BitVec.ofNat 64 ((s.readV a).elem 8 lane.toNat)) 2))
    ∧ (∀ (u : VUnit) (g : BitVec 4) (gd : BitVec 3) (ms mg : BitVec 4) (s : State), s.ready (.movMg u g gd ms mg) = true →
      exec (.movMg u g gd ms mg) s = .next (s.putG gd (s.readM mg != 0 && (s.readM mg &&& s.readM ms == s.readM mg)) 2))
    ∧ (∀ (u : VUnit) (g : BitVec 4) (d : BitVec 5) (a : BitVec 9) (lane : BitVec 5) (s : State), s.ready (.movVx u g d a lane) = true →
      exec (.movVx u g d a lane) s = .next (s.land (.x d.toNat (BitVec.ofNat 32 ((s.readV a).elem 4 lane.toNat))) 2))
    ∧ (∀ (g : BitVec 4) (d : BitVec 6) (a : BitVec 5) (s : State), s.ready (.movXs g d a) = true →
      exec (.movXs g d a) s = .next (s.putS d ((s.readX a).zeroExtend 64) 2))

/-- R153, R156, R157, R158, R159. Each ready floating-point operation of two or three operands issues its exact result rounded
to odd with a tail, element by element. -/
def Obligations.FloatArithmeticResults : Prop :=
    (∀ (u : VUnit) (g : BitVec 4) (d a b : BitVec 9) (m : BitVec 4) (t : BitVec 5) (s : State), s.ready (.fadd u g d a b m t) = true →
      exec (.fadd u g d a b m t) s = .next (s.float2 d a b m t 4 (fun x y => x.add y)))
    ∧ (∀ (u : VUnit) (g : BitVec 4) (d a b : BitVec 9) (m : BitVec 4) (t : BitVec 5) (s : State), s.ready (.fsub u g d a b m t) = true →
      exec (.fsub u g d a b m t) s = .next (s.float2 d a b m t 4 (fun x y => x.add y.neg)))
    ∧ (∀ (u : VUnit) (g : BitVec 4) (d a b : BitVec 9) (m : BitVec 4) (t : BitVec 5) (s : State), s.ready (.fmul u g d a b m t) = true →
      exec (.fmul u g d a b m t) s = .next (s.float2 d a b m t 4 (fun x y => x.mul y)))
    ∧ (∀ (u : VUnit) (g : BitVec 4) (d a b : BitVec 9) (m : BitVec 4) (t : BitVec 5) (s : State), s.ready (.fmin u g d a b m t) = true →
      exec (.fmin u g d a b m t) s = .next (s.governed d m t 4 fun i => let r := fminmax (fmtOf t) false ((s.readV a).pick (tyBytes t) i) ((s.readV b).pick (tyBytes t) i); (r.1, r.2, 0)))
    ∧ (∀ (u : VUnit) (g : BitVec 4) (d a b : BitVec 9) (m : BitVec 4) (t : BitVec 5) (s : State), s.ready (.fmax u g d a b m t) = true →
      exec (.fmax u g d a b m t) s = .next (s.governed d m t 4 fun i => let r := fminmax (fmtOf t) true ((s.readV a).pick (tyBytes t) i) ((s.readV b).pick (tyBytes t) i); (r.1, r.2, 0)))
    ∧ (∀ (u : VUnit) (g : BitVec 4) (d a b : BitVec 9) (m : BitVec 4) (t : BitVec 5) (s : State), s.ready (.fdiv u g d a b m t) = true →
      exec (.fdiv u g d a b m t) s = .next (s.float2 d a b m t 12 (fun x y => x.div y)))
    ∧ (∀ (u : VUnit) (g : BitVec 4) (d a b : BitVec 9) (m : BitVec 4) (t : BitVec 5) (s : State), s.ready (.fscale u g d a b m t) = true →
      exec (.fscale u g d a b m t) s = .next (s.governed d m t 4 fun i => scaleElem t ((s.readV a).num t i) (sextNat ((s.readV b).elem (tyBytes t) i) (8 * tyBytes t))))
    ∧ (∀ (u : VUnit) (g : BitVec 4) (d a b c : BitVec 9) (m : BitVec 4) (t : BitVec 5) (s : State), s.ready (.fma u g d a b c m t) = true →
      exec (.fma u g d a b c m t) s = .next (s.float3 d a b c m t (fun x y z => x.fma y z)))
    ∧ (∀ (u : VUnit) (g : BitVec 4) (d a b c : BitVec 9) (m : BitVec 4) (t : BitVec 5) (s : State), s.ready (.fms u g d a b c m t) = true →
      exec (.fms u g d a b c m t) s = .next (s.float3 d a b c m t (fun x y z => x.fma y z.neg)))
    ∧ (∀ (u : VUnit) (g : BitVec 4) (d a b c : BitVec 9) (m : BitVec 4) (t : BitVec 5) (s : State), s.ready (.fnma u g d a b c m t) = true →
      exec (.fnma u g d a b c m t) s = .next (s.float3 d a b c m t (fun x y z => x.neg.fma y z)))

/-- R156, R157, R158, R160, R161, R162, R163, R164, R165, R166, R167. Each ready one-operand operation, conversion, rounding,
class test, compare, reduction and block scale issues its result. -/
def Obligations.FloatUnaryTestAndReductionResults : Prop :=
    (∀ (u : VUnit) (g : BitVec 4) (d a : BitVec 9) (m : BitVec 4) (t : BitVec 5) (s : State), s.ready (.fabs u g d a m t) = true →
      exec (.fabs u g d a m t) s = .next (s.governed d m t 4 fun i => signElem false (fmtOf t) ((s.readV a).pick (tyBytes t) i)))
    ∧ (∀ (u : VUnit) (g : BitVec 4) (d a : BitVec 9) (m : BitVec 4) (t : BitVec 5) (s : State), s.ready (.fneg u g d a m t) = true →
      exec (.fneg u g d a m t) s = .next (s.governed d m t 4 fun i => signElem true (fmtOf t) ((s.readV a).pick (tyBytes t) i)))
    ∧ (∀ (u : VUnit) (g : BitVec 4) (d a : BitVec 9) (m : BitVec 4) (t : BitVec 5) (s : State), s.ready (.fsqrt u g d a m t) = true →
      exec (.fsqrt u g d a m t) s = .next (s.float1 d a m t 12 (Machine.Num.sqrt)))
    ∧ (∀ (u : VUnit) (g : BitVec 4) (d a : BitVec 9) (m : BitVec 4) (t : BitVec 5) (s : State), s.ready (.frcp u g d a m t) = true →
      exec (.frcp u g d a m t) s = .next (s.float1 d a m t 12 (fun x => Machine.Num.div (.fin false 1 0) x)))
    ∧ (∀ (u : VUnit) (g : BitVec 4) (d a : BitVec 9) (m : BitVec 4) (t : BitVec 5) (s : State), s.ready (.frsq u g d a m t) = true →
      exec (.frsq u g d a m t) s = .next (s.float1 d a m t 12 (Machine.Num.rsqrt)))
    ∧ (∀ (u : VUnit) (g : BitVec 4) (d a : BitVec 9) (m : BitVec 4) (t : BitVec 5) (s : State), s.ready (.fexp2 u g d a m t) = true →
      exec (.fexp2 u g d a m t) s = .next (s.float1 d a m t 12 (fun x => (x.exp2, 0))))
    ∧ (∀ (u : VUnit) (g : BitVec 4) (d a : BitVec 9) (m : BitVec 4) (t : BitVec 5) (s : State), s.ready (.flog2 u g d a m t) = true →
      exec (.flog2 u g d a m t) s = .next (s.float1 d a m t 12 (Machine.Num.log2)))
    ∧ (∀ (u : VUnit) (g : BitVec 4) (d a : BitVec 9) (st : BitVec 5) (part : BitVec 9) (m : BitVec 4) (t : BitVec 5) (s : State), s.ready (.fcvt u g d a st part m t) = true →
      exec (.fcvt u g d a st part m t) s = .next (s.converted d m st t part.toNat fun i => ro ((s.readV a).num st i) (fmtOf t)))
    ∧ (∀ (u : VUnit) (g : BitVec 4) (d a : BitVec 9) (st : BitVec 5) (part : BitVec 9) (m : BitVec 4) (t : BitVec 5) (md : BitVec 3) (s : State), s.ready (.fround u g d a st part m t md) = true →
      exec (.fround u g d a st part m t md) s = .next (s.converted d m st t part.toNat fun i => let r := finalRound ((s.readV a).num st i) t md; (r.1, 0, r.2)))
    ∧ (∀ (u : VUnit) (g md : BitVec 4) (a cls : BitVec 9) (m : BitVec 4) (t : BitVec 5) (q : BitVec 3) (s : State), s.ready (.fclass u g md a cls m t q) = true →
      exec (.fclass u g md a cls m t q) s = .next (s.putM md (maskOf (tyBytes t) fun i => active (s.readM m) (tyBytes t) i && classIn (fmtOf t) cls q.toNat ((s.readV a).pick (tyBytes t) i)) 4))
    ∧ (∀ (u : VUnit) (g md : BitVec 4) (a b : BitVec 9) (m : BitVec 4) (t : BitVec 5) (cond : BitVec 3) (s : State), s.ready (.fcmp u g md a b m t cond) = true →
      exec (.fcmp u g md a b m t cond) s = .next (s.putM md (maskOf (tyBytes t) fun i => active (s.readM m) (tyBytes t) i && condHolds cond.toNat (((s.readV a).num t i).cmp ((s.readV b).num t i))) 4))
    ∧ (∀ (u : VUnit) (g : BitVec 4) (d a : BitVec 9) (m : BitVec 4) (t : BitVec 5) (s : State), s.ready (.fredAdd u g d a m t) = true →
      exec (.fredAdd u g d a m t) s = .next (s.reduced d a m t (fredSum t)))
    ∧ (∀ (u : VUnit) (g : BitVec 4) (d a : BitVec 9) (m : BitVec 4) (t : BitVec 5) (s : State), s.ready (.fredMax u g d a m t) = true →
      exec (.fredMax u g d a m t) s = .next (s.reduced d a m t (fun x y => let r := fminmax (fmtOf t) true (x.1, x.2.1) (y.1, y.2.1); (r.1, r.2, x.2.2 ||| y.2.2))))
    ∧ (∀ (u : VUnit) (g : BitVec 4) (d a : BitVec 9) (m : BitVec 4) (t : BitVec 5) (s : State), s.ready (.fredMin u g d a m t) = true →
      exec (.fredMin u g d a m t) s = .next (s.reduced d a m t (fun x y => let r := fminmax (fmtOf t) false (x.1, x.2.1) (y.1, y.2.1); (r.1, r.2, x.2.2 ||| y.2.2))))
    ∧ (∀ (u : VUnit) (g : BitVec 4) (d a : BitVec 9) (m : BitVec 4) (t : BitVec 5) (sb : BitVec 3) (s : State), s.ready (.bscale u g d a m t sb) = true →
      exec (.bscale u g d a m t sb) s = .next (s.putV d (scaleBytes (if sb = 0 then 6 else 448) t (s.readM m) (s.readV a)) 8))

/-- R153, R168, R169, R170. Each element of a vector integer result is the element result modulo 2^W with a zero tail; inactive
elements keep value and tail. -/
def Obligations.IntegerElementsFollowTheirRule : Prop :=
    (∀ (u : VUnit) (g : BitVec 4) (d a b : BitVec 9) (m : BitVec 4) (t : BitVec 5) (s : State), tyI t = true → s.ready (.iadd u g d a b m t) = true →
      ∃ r : VReg, exec (.iadd u g d a b m t) s = .next (s.putV d r 4) ∧ ∀ i < elems t,
        (active (s.readM m) (tyBytes t) i = false →
          r.elem (tyBytes t) i = (s.readV d).elem (tyBytes t) i ∧ r.tails (tyBytes t) i = (s.readV d).tails (tyBytes t) i)
        ∧ (active (s.readM m) (tyBytes t) i = true → r.tails (tyBytes t) i = 0 ∧ r.elem (tyBytes t) i = ((s.readV a).elem (tyBytes t) i + (s.readV b).elem (tyBytes t) i) % 2 ^ (8 * tyBytes t)))
    ∧ (∀ (u : VUnit) (g : BitVec 4) (d a b : BitVec 9) (m : BitVec 4) (t : BitVec 5) (s : State), tyI t = true → s.ready (.isub u g d a b m t) = true →
      ∃ r : VReg, exec (.isub u g d a b m t) s = .next (s.putV d r 4) ∧ ∀ i < elems t,
        (active (s.readM m) (tyBytes t) i = false →
          r.elem (tyBytes t) i = (s.readV d).elem (tyBytes t) i ∧ r.tails (tyBytes t) i = (s.readV d).tails (tyBytes t) i)
        ∧ (active (s.readM m) (tyBytes t) i = true → r.tails (tyBytes t) i = 0 ∧ r.elem (tyBytes t) i = ((s.readV a).elem (tyBytes t) i + 2 ^ (8 * tyBytes t) - (s.readV b).elem (tyBytes t) i) % 2 ^ (8 * tyBytes t)))
    ∧ (∀ (u : VUnit) (g : BitVec 4) (d a b : BitVec 9) (m : BitVec 4) (t : BitVec 5) (s : State), tyI t = true → s.ready (.imul u g d a b m t) = true →
      ∃ r : VReg, exec (.imul u g d a b m t) s = .next (s.putV d r 4) ∧ ∀ i < elems t,
        (active (s.readM m) (tyBytes t) i = false →
          r.elem (tyBytes t) i = (s.readV d).elem (tyBytes t) i ∧ r.tails (tyBytes t) i = (s.readV d).tails (tyBytes t) i)
        ∧ (active (s.readM m) (tyBytes t) i = true → r.tails (tyBytes t) i = 0 ∧ r.elem (tyBytes t) i = (s.readV a).elem (tyBytes t) i * (s.readV b).elem (tyBytes t) i % 2 ^ (8 * tyBytes t)))
    ∧ (∀ (u : VUnit) (g : BitVec 4) (d a b : BitVec 9) (m : BitVec 4) (t : BitVec 5) (s : State), tyI t = true → s.ready (.imulh u g d a b m t) = true →
      ∃ r : VReg, exec (.imulh u g d a b m t) s = .next (s.putV d r 4) ∧ ∀ i < elems t,
        (active (s.readM m) (tyBytes t) i = false →
          r.elem (tyBytes t) i = (s.readV d).elem (tyBytes t) i ∧ r.tails (tyBytes t) i = (s.readV d).tails (tyBytes t) i)
        ∧ (active (s.readM m) (tyBytes t) i = true → r.tails (tyBytes t) i = 0 ∧ (r.elem (tyBytes t) i : Int) = (intOf t ((s.readV a).elem (tyBytes t) i) * intOf t ((s.readV b).elem (tyBytes t) i)) / 2 ^ (8 * tyBytes t) % 2 ^ (8 * tyBytes t)))
    ∧ (∀ (u : VUnit) (g : BitVec 4) (d a b : BitVec 9) (m : BitVec 4) (t : BitVec 5) (s : State), tyI t = true → s.ready (.iand u g d a b m t) = true →
      ∃ r : VReg, exec (.iand u g d a b m t) s = .next (s.putV d r 4) ∧ ∀ i < elems t,
        (active (s.readM m) (tyBytes t) i = false →
          r.elem (tyBytes t) i = (s.readV d).elem (tyBytes t) i ∧ r.tails (tyBytes t) i = (s.readV d).tails (tyBytes t) i)
        ∧ (active (s.readM m) (tyBytes t) i = true → r.tails (tyBytes t) i = 0 ∧ r.elem (tyBytes t) i = (s.readV a).elem (tyBytes t) i &&& (s.readV b).elem (tyBytes t) i))
    ∧ (∀ (u : VUnit) (g : BitVec 4) (d a b : BitVec 9) (m : BitVec 4) (t : BitVec 5) (s : State), tyI t = true → s.ready (.ior u g d a b m t) = true →
      ∃ r : VReg, exec (.ior u g d a b m t) s = .next (s.putV d r 4) ∧ ∀ i < elems t,
        (active (s.readM m) (tyBytes t) i = false →
          r.elem (tyBytes t) i = (s.readV d).elem (tyBytes t) i ∧ r.tails (tyBytes t) i = (s.readV d).tails (tyBytes t) i)
        ∧ (active (s.readM m) (tyBytes t) i = true → r.tails (tyBytes t) i = 0 ∧ r.elem (tyBytes t) i = (s.readV a).elem (tyBytes t) i ||| (s.readV b).elem (tyBytes t) i))
    ∧ (∀ (u : VUnit) (g : BitVec 4) (d a b : BitVec 9) (m : BitVec 4) (t : BitVec 5) (s : State), tyI t = true → s.ready (.ixor u g d a b m t) = true →
      ∃ r : VReg, exec (.ixor u g d a b m t) s = .next (s.putV d r 4) ∧ ∀ i < elems t,
        (active (s.readM m) (tyBytes t) i = false →
          r.elem (tyBytes t) i = (s.readV d).elem (tyBytes t) i ∧ r.tails (tyBytes t) i = (s.readV d).tails (tyBytes t) i)
        ∧ (active (s.readM m) (tyBytes t) i = true → r.tails (tyBytes t) i = 0 ∧ r.elem (tyBytes t) i = (s.readV a).elem (tyBytes t) i ^^^ (s.readV b).elem (tyBytes t) i))
    ∧ (∀ (u : VUnit) (g : BitVec 4) (d a b : BitVec 9) (m : BitVec 4) (t : BitVec 5) (s : State), tyI t = true → s.ready (.ishl u g d a b m t) = true →
      ∃ r : VReg, exec (.ishl u g d a b m t) s = .next (s.putV d r 4) ∧ ∀ i < elems t,
        (active (s.readM m) (tyBytes t) i = false →
          r.elem (tyBytes t) i = (s.readV d).elem (tyBytes t) i ∧ r.tails (tyBytes t) i = (s.readV d).tails (tyBytes t) i)
        ∧ (active (s.readM m) (tyBytes t) i = true → r.tails (tyBytes t) i = 0 ∧ r.elem (tyBytes t) i = ((s.readV a).elem (tyBytes t) i <<< ((s.readV b).elem (tyBytes t) i % (8 * tyBytes t))) % 2 ^ (8 * tyBytes t)))
    ∧ (∀ (u : VUnit) (g : BitVec 4) (d a b : BitVec 9) (m : BitVec 4) (t : BitVec 5) (s : State), tyI t = true → s.ready (.ishr u g d a b m t) = true →
      ∃ r : VReg, exec (.ishr u g d a b m t) s = .next (s.putV d r 4) ∧ ∀ i < elems t,
        (active (s.readM m) (tyBytes t) i = false →
          r.elem (tyBytes t) i = (s.readV d).elem (tyBytes t) i ∧ r.tails (tyBytes t) i = (s.readV d).tails (tyBytes t) i)
        ∧ (active (s.readM m) (tyBytes t) i = true → r.tails (tyBytes t) i = 0 ∧ r.elem (tyBytes t) i = (s.readV a).elem (tyBytes t) i >>> ((s.readV b).elem (tyBytes t) i % (8 * tyBytes t))))
    ∧ (∀ (u : VUnit) (g : BitVec 4) (d a b : BitVec 9) (m : BitVec 4) (t : BitVec 5) (s : State), tyI t = true → s.ready (.isra u g d a b m t) = true →
      ∃ r : VReg, exec (.isra u g d a b m t) s = .next (s.putV d r 4) ∧ ∀ i < elems t,
        (active (s.readM m) (tyBytes t) i = false →
          r.elem (tyBytes t) i = (s.readV d).elem (tyBytes t) i ∧ r.tails (tyBytes t) i = (s.readV d).tails (tyBytes t) i)
        ∧ (active (s.readM m) (tyBytes t) i = true → r.tails (tyBytes t) i = 0 ∧ (r.elem (tyBytes t) i : Int) = sextNat ((s.readV a).elem (tyBytes t) i) (8 * tyBytes t) / 2 ^ ((s.readV b).elem (tyBytes t) i % (8 * tyBytes t)) % 2 ^ (8 * tyBytes t)))
    ∧ (∀ (u : VUnit) (g : BitVec 4) (d a b : BitVec 9) (m : BitVec 4) (t : BitVec 5) (s : State), tyI t = true → s.ready (.imin u g d a b m t) = true →
      ∃ r : VReg, exec (.imin u g d a b m t) s = .next (s.putV d r 4) ∧ ∀ i < elems t,
        (active (s.readM m) (tyBytes t) i = false →
          r.elem (tyBytes t) i = (s.readV d).elem (tyBytes t) i ∧ r.tails (tyBytes t) i = (s.readV d).tails (tyBytes t) i)
        ∧ (active (s.readM m) (tyBytes t) i = true → r.tails (tyBytes t) i = 0 ∧ r.elem (tyBytes t) i = if intOf t ((s.readV a).elem (tyBytes t) i) ≤ intOf t ((s.readV b).elem (tyBytes t) i) then (s.readV a).elem (tyBytes t) i else (s.readV b).elem (tyBytes t) i))
    ∧ (∀ (u : VUnit) (g : BitVec 4) (d a b : BitVec 9) (m : BitVec 4) (t : BitVec 5) (s : State), tyI t = true → s.ready (.imax u g d a b m t) = true →
      ∃ r : VReg, exec (.imax u g d a b m t) s = .next (s.putV d r 4) ∧ ∀ i < elems t,
        (active (s.readM m) (tyBytes t) i = false →
          r.elem (tyBytes t) i = (s.readV d).elem (tyBytes t) i ∧ r.tails (tyBytes t) i = (s.readV d).tails (tyBytes t) i)
        ∧ (active (s.readM m) (tyBytes t) i = true → r.tails (tyBytes t) i = 0 ∧ r.elem (tyBytes t) i = if intOf t ((s.readV a).elem (tyBytes t) i) ≤ intOf t ((s.readV b).elem (tyBytes t) i) then (s.readV b).elem (tyBytes t) i else (s.readV a).elem (tyBytes t) i))
    ∧ (∀ (u : VUnit) (g : BitVec 4) (d a : BitVec 9) (m : BitVec 4) (t : BitVec 5) (s : State), tyI t = true → s.ready (.iabs u g d a m t) = true →
      ∃ r : VReg, exec (.iabs u g d a m t) s = .next (s.putV d r 4) ∧ ∀ i < elems t,
        (active (s.readM m) (tyBytes t) i = false →
          r.elem (tyBytes t) i = (s.readV d).elem (tyBytes t) i ∧ r.tails (tyBytes t) i = (s.readV d).tails (tyBytes t) i)
        ∧ (active (s.readM m) (tyBytes t) i = true → r.tails (tyBytes t) i = 0 ∧ r.elem (tyBytes t) i = if signedTy t = true ∧ 2 ^ ((8 * tyBytes t) - 1) ≤ (s.readV a).elem (tyBytes t) i then 2 ^ (8 * tyBytes t) - (s.readV a).elem (tyBytes t) i else (s.readV a).elem (tyBytes t) i))
    ∧ (∀ (u : VUnit) (g : BitVec 4) (d a : BitVec 9) (m : BitVec 4) (t : BitVec 5) (s : State), tyI t = true → s.ready (.iclz u g d a m t) = true →
      ∃ r : VReg, exec (.iclz u g d a m t) s = .next (s.putV d r 4) ∧ ∀ i < elems t,
        (active (s.readM m) (tyBytes t) i = false →
          r.elem (tyBytes t) i = (s.readV d).elem (tyBytes t) i ∧ r.tails (tyBytes t) i = (s.readV d).tails (tyBytes t) i)
        ∧ (active (s.readM m) (tyBytes t) i = true → r.tails (tyBytes t) i = 0 ∧ r.elem (tyBytes t) i ≤ (8 * tyBytes t) ∧ (∀ k < (8 * tyBytes t), (8 * tyBytes t) - r.elem (tyBytes t) i ≤ k → ((s.readV a).elem (tyBytes t) i).testBit k = false) ∧ (r.elem (tyBytes t) i < (8 * tyBytes t) → ((s.readV a).elem (tyBytes t) i).testBit ((8 * tyBytes t) - 1 - r.elem (tyBytes t) i) = true)))
    ∧ (∀ (u : VUnit) (g : BitVec 4) (d a : BitVec 9) (m : BitVec 4) (t : BitVec 5) (s : State), tyI t = true → s.ready (.ipopc u g d a m t) = true →
      ∃ r : VReg, exec (.ipopc u g d a m t) s = .next (s.putV d r 4) ∧ ∀ i < elems t,
        (active (s.readM m) (tyBytes t) i = false →
          r.elem (tyBytes t) i = (s.readV d).elem (tyBytes t) i ∧ r.tails (tyBytes t) i = (s.readV d).tails (tyBytes t) i)
        ∧ (active (s.readM m) (tyBytes t) i = true → r.tails (tyBytes t) i = 0 ∧ r.elem (tyBytes t) i = ((List.range (8 * tyBytes t)).filter fun k => ((s.readV a).elem (tyBytes t) i).testBit k).length))

/-- R161, R163, R165, R168, R171, R175, R176. Saturating, counting, comparing, reducing, converting and random integer
operations issue their result whenever they are ready. -/
def Obligations.IntegerSaturationAndReductionResults : Prop :=
    (∀ (u : VUnit) (g : BitVec 4) (d a b : BitVec 9) (m : BitVec 4) (t : BitVec 5) (s : State), s.ready (.iadds u g d a b m t) = true →
      exec (.iadds u g d a b m t) s = .next (s.int2 d a b m t fun x y => clampInt (intOf t x + intOf t y) (intMin t) (intMax t)))
    ∧ (∀ (u : VUnit) (g : BitVec 4) (d a b : BitVec 9) (m : BitVec 4) (t : BitVec 5) (s : State), s.ready (.isubs u g d a b m t) = true →
      exec (.isubs u g d a b m t) s = .next (s.int2 d a b m t fun x y => clampInt (intOf t x - intOf t y) (intMin t) (intMax t)))
    ∧ (∀ (u : VUnit) (g : BitVec 4) (d a : BitVec 9) (m : BitVec 4) (t : BitVec 5) (s : State), s.ready (.ibint3 u g d a m t) = true →
      exec (.ibint3 u g d a m t) s = .next (s.int1 d a m t fun x => ((spread x id (3 * ·) ((8 * tyBytes t - 1) / 3 + 1) : Nat) : Int)))
    ∧ (∀ (u : VUnit) (g md : BitVec 4) (a b : BitVec 9) (m : BitVec 4) (t : BitVec 5) (cond : BitVec 3) (s : State), s.ready (.icmp u g md a b m t cond) = true →
      exec (.icmp u g md a b m t cond) s = .next (s.putM md (maskOf (tyBytes t) fun i => active (s.readM m) (tyBytes t) i && condHolds cond.toNat (some (compare (intOf t ((s.readV a).elem (tyBytes t) i)) (intOf t ((s.readV b).elem (tyBytes t) i))))) 4))
    ∧ (∀ (u : VUnit) (g : BitVec 4) (d a : BitVec 9) (m : BitVec 4) (t : BitVec 5) (s : State), s.ready (.iredAdd u g d a m t) = true →
      exec (.iredAdd u g d a m t) s = .next ((let r := sumClamp t (s.readM m) (s.readV a); s.putV d ⟨BitVec.ofNat 1024 (wrapInt r.1 64), 0⟩ 8 (if r.2 then fSat else 0))))
    ∧ (∀ (u : VUnit) (g : BitVec 4) (d a b : BitVec 9) (m : BitVec 4) (t : BitVec 5) (s : State), s.ready (.iadd128 u g d a b m t) = true →
      exec (.iadd128 u g d a b m t) s = .next ((let r := govern 16 (s.readM m) (s.readV d) (fun j => (((s.readV a).elem 16 j + (s.readV b).elem 16 j) % 2 ^ 128, 0, 0)); s.putV d r.1 4)))
    ∧ (∀ (u : VUnit) (g : BitVec 4) (d a : BitVec 9) (st : BitVec 5) (part : BitVec 9) (m : BitVec 4) (t : BitVec 5) (sb : BitVec 3) (s : State), s.ready (.icvt u g d a st part m t sb) = true →
      exec (.icvt u g d a st part m t sb) s = .next (s.converted d m st t part.toNat fun i => convertInt t (sb == 1) (intOf st ((s.readV a).elem (tyBytes st) i))))
    ∧ (∀ (u : VUnit) (g : BitVec 4) (d a b : BitVec 9) (m : BitVec 4) (t : BitVec 5) (s : State), s.ready (.vrng u g d a b m t) = true →
      exec (.vrng u g d a b m t) s = .next ((let r := govern 16 (s.readM m) (s.readV d) (fun k => (philox ((s.readV a).elem 16 k) ((s.readV b).elem 16 k), 0, 0)); s.putV d r.1 10)))
    ∧ (∀ (u : VUnit) (g : BitVec 4) (d a : BitVec 9) (m : BitVec 4) (t : BitVec 5) (s : State), s.ready (.vrngF u g d a m t) = true →
      exec (.vrngF u g d a m t) s = .next (s.governed d m t 10 fun i => let r := ro (.fin false ((s.readV a).elem 4 i / 256) (-24)) (fmtOf 1); (r.1, 0, 0)))

/-- R153, R172, R173, R174. Selects, permutations, slides, broadcasts, compressions, constants and mask operations issue what
their rule names. -/
def Obligations.VectorMovesPlaceElements : Prop :=
    (∀ (u : VUnit) (g : BitVec 4) (d a b : BitVec 9) (m : BitVec 4) (t : BitVec 5) (s : State), s.ready (.vsel u g d a b m t) = true →
      exec (.vsel u g d a b m t) s = .next (s.putV d (VReg.build (tyBytes t) fun i => if active (s.readM m) (tyBytes t) i then (s.readV a).pick (tyBytes t) i else (s.readV b).pick (tyBytes t) i) 2))
    ∧ (∀ (u : VUnit) (g : BitVec 4) (d a b : BitVec 9) (m : BitVec 4) (t : BitVec 5) (s : State), s.ready (.vperm u g d a b m t) = true →
      exec (.vperm u g d a b m t) s = .next (s.governed d m t 2 fun i => moved ((s.readV a).pick (tyBytes t) ((s.readV b).elem (tyBytes t) i % elems t))))
    ∧ (∀ (u : VUnit) (g : BitVec 4) (d a b : BitVec 9) (m : BitVec 4) (t : BitVec 5) (sb : BitVec 3) (s : State), s.ready (.vzip u g d a b m t sb) = true →
      exec (.vzip u g d a b m t sb) s = .next (s.governed d m t 2 fun i => moved (let k := (if sb = 0 then 0 else elems t / 2) + i / 2; if i % 2 = 0 then (s.readV a).pick (tyBytes t) k else (s.readV b).pick (tyBytes t) k)))
    ∧ (∀ (u : VUnit) (g : BitVec 4) (d a b : BitVec 9) (m : BitVec 4) (t : BitVec 5) (sb : BitVec 3) (s : State), s.ready (.vunzip u g d a b m t sb) = true →
      exec (.vunzip u g d a b m t sb) s = .next (s.governed d m t 2 fun i => moved (let k := 2 * i + (if sb = 0 then 0 else 1); if k < elems t then (s.readV a).pick (tyBytes t) k else (s.readV b).pick (tyBytes t) (k - elems t))))
    ∧ (∀ (u : VUnit) (g : BitVec 4) (d a : BitVec 9) (m : BitVec 4) (t : BitVec 5) (s : State), s.ready (.vrev u g d a m t) = true →
      exec (.vrev u g d a m t) s = .next (s.governed d m t 2 fun i => moved ((s.readV a).pick (tyBytes t) (elems t - 1 - i))))
    ∧ (∀ (u : VUnit) (g : BitVec 4) (d a : BitVec 9) (m : BitVec 4) (t : BitVec 5) (s : State), s.ready (.vcompress u g d a m t) = true →
      exec (.vcompress u g d a m t) s = .next (s.putV d (VReg.build (tyBytes t) fun i => match (activeList (s.readM m) (tyBytes t))[i]? with | some k => (s.readV a).pick (tyBytes t) k | none => (0, 0)) 2))
    ∧ (∀ (u : VUnit) (g : BitVec 4) (d a : BitVec 9) (m : BitVec 4) (t : BitVec 5) (s : State), s.ready (.vexpand u g d a m t) = true →
      exec (.vexpand u g d a m t) s = .next (s.putV d (VReg.build (tyBytes t) fun i => if active (s.readM m) (tyBytes t) i then (s.readV a).pick (tyBytes t) (((activeList (s.readM m) (tyBytes t)).filter (· < i)).length) else (0, 0)) 2))
    ∧ (∀ (u : VUnit) (g : BitVec 4) (d a : BitVec 9) (imm : BitVec 18) (m : BitVec 4) (t : BitVec 5) (s : State), s.ready (.vbcast u g d a imm m t) = true →
      exec (.vbcast u g d a imm m t) s = .next (s.governed d m t 2 fun _ => moved ((s.readV a).pick (tyBytes t) imm.toNat)))
    ∧ (∀ (u : VUnit) (g : BitVec 4) (d a : BitVec 9) (imm : BitVec 18) (m : BitVec 4) (t : BitVec 5) (s : State), s.ready (.vslide u g d a imm m t) = true →
      exec (.vslide u g d a imm m t) s = .next (s.governed d m t 2 fun i => moved (let k := (i : Int) + imm.toInt; if 0 ≤ k ∧ k < elems t then (s.readV a).pick (tyBytes t) k.toNat else (0, 0))))
    ∧ (∀ (u : VUnit) (g : BitVec 4) (d : BitVec 9) (imm : BitVec 18) (m : BitVec 4) (t : BitVec 5) (s : State), s.ready (.viota u g d imm m t) = true →
      exec (.viota u g d imm m t) s = .next (s.putV d (VReg.build (tyBytes t) fun i => (wrapInt (imm.toInt + ((activeList (s.readM m) (tyBytes t)).filter (· < i)).length) (8 * tyBytes t), 0)) 2))
    ∧ (∀ (u : VUnit) (g : BitVec 4) (d : BitVec 9) (imm : BitVec 18) (m : BitVec 4) (t : BitVec 5) (s : State), s.ready (.vmovi u g d imm m t) = true →
      exec (.vmovi u g d imm m t) s = .next (s.governed d m t 2 fun _ => moved (moviConst t imm, 0)))
    ∧ (∀ (u : VUnit) (g md ma mb : BitVec 4) (s : State), s.ready (.mand u g md ma mb) = true →
      exec (.mand u g md ma mb) s = .next (s.putM md (s.readM ma &&& s.readM mb) 2))
    ∧ (∀ (u : VUnit) (g md ma mb : BitVec 4) (s : State), s.ready (.mor u g md ma mb) = true →
      exec (.mor u g md ma mb) s = .next (s.putM md (s.readM ma ||| s.readM mb) 2))
    ∧ (∀ (u : VUnit) (g md ma mb : BitVec 4) (s : State), s.ready (.mxor u g md ma mb) = true →
      exec (.mxor u g md ma mb) s = .next (s.putM md (s.readM ma ^^^ s.readM mb) 2))
    ∧ (∀ (u : VUnit) (g md ma : BitVec 4) (s : State), s.ready (.mnot u g md ma) = true →
      exec (.mnot u g md ma) s = .next (s.putM md (~~~(s.readM ma)) 2))
    ∧ (∀ (u : VUnit) (g : BitVec 4) (d : BitVec 9) (ms m : BitVec 4) (t : BitVec 5) (s : State), s.ready (.mpopc u g d ms m t) = true →
      exec (.mpopc u g d ms m t) s = .next (s.putV d (VReg.build (tyBytes t) fun _ => ((activeList (s.readM ms &&& s.readM m) (tyBytes t)).length % 2 ^ (8 * tyBytes t), 0)) 2))
    ∧ (∀ (u : VUnit) (g : BitVec 4) (d : BitVec 9) (ms m : BitVec 4) (t : BitVec 5) (s : State), s.ready (.mfirst u g d ms m t) = true →
      exec (.mfirst u g d ms m t) s = .next (s.putV d (VReg.build (tyBytes t) fun _ => (match activeList (s.readM ms &&& s.readM m) (tyBytes t) with | k :: _ => k % 2 ^ (8 * tyBytes t) | [] => 2 ^ (8 * tyBytes t) - 1, 0)) 2))

/-- R185, R186, R190, R194, R195, R196, R197, R198, R199. Each ready matrix instruction appends its item, with the parameter
snapshot, to the facet's queue; mdrain.v and mparami issue their value. -/
def Obligations.MatrixInstructionsQueueTheirItem : Prop :=
    (∀ (g : BitVec 4) (k : BitVec 3) (imm : BitVec 31) (s : State), s.ready (.mparami g k imm) = true →
      exec (.mparami g k imm) s = .next (s.land (.q k.toNat (imm.signExtend 64)) 1))
    ∧ (∀ (g : BitVec 4) (ix sn : BitVec 6) (imm : BitVec 34) (s : State), s.ready (.mcall g ix sn imm) = true →
      exec (.mcall g ix sn imm) s = .next (s.callRoutine ix sn imm))
    ∧ (∀ (g : BitVec 4) (sn : BitVec 6) (col : BitVec 9) (s : State), s.ready (.mzero g sn col) = true →
      exec (.mzero g sn col) s = .next ((s.enqueue (.zero col.toNat) (s.nWord sn).toNat).deliverN sn))
    ∧ (∀ (g : BitVec 4) (sn : BitVec 6) (mode : BitVec 3) (fmt : BitVec 5) (col : BitVec 9) (row rows : BitVec 7) (z : BitVec 1) (s : State), s.ready (.mdrainP g sn mode fmt col row rows z) = true →
      exec (.mdrainP g sn mode fmt col row rows z) s = .next (s.queueDrain sn mode fmt col row rows (z == 1)))
    ∧ (∀ (g : BitVec 4) (d : BitVec 9) (row : BitVec 7) (col : BitVec 9) (z : BitVec 1) (s : State), s.ready (.mdrainV g d row col z) = true →
      exec (.mdrainV g d row col z) s = .next (
          let s1 := s.putV d (drainVector s.here s.me row.toNat col.toNat) 4
           if z = 1 then s1.modHere fun k => k.accZero s.me row.toNat 1 col.toNat 32 else s1))
    ∧ (∀ (g : BitVec 4) (ix : BitVec 6) (words : BitVec 10) (off : BitVec 20) (s : State), s.ready (.mucodeLd g ix words off) = true →
      exec (.mucodeLd g ix words off) s = .next (s.enqueue (.ucode ix.toNat (words.toNat + 1) off.toNat) 0))
    ∧ (∀ (g : BitVec 4) (on : BitVec 1) (s : State), s.ready (.mwit g on) = true →
      exec (.mwit g on) s = .next (s.enqueue (.witness (on == 1)) 0))
    ∧ (∀ (g : BitVec 4) (s : State), s.ready (.mflush g) = true →
      exec (.mflush g) s = .next (s.enqueue .flush 0))
    ∧ (∀ (g : BitVec 4) (cl : BitVec 1) (off : BitVec 20) (s : State), s.ready (.mstat g cl off) = true →
      exec (.mstat g cl off) s = .next (s.enqueue (.stat (cl == 1) off.toNat) 0))
    ∧ (∀ (g : BitVec 4) (k : BitVec 3) (imm : BitVec 31) (s : State), s.entryTrap (.mparami g k imm) = none)
    ∧ (∀ (g : BitVec 4) (ix sn : BitVec 6) (imm : BitVec 34) (s : State), s.ready (.mcall g ix sn imm) = true →
      ∃ t, exec (.mcall g ix sn imm) s = .next t
        ∧ t.me.items = s.me.items
          ++ [{ kind := .call ix.toNat imm, q := s.qSnapshot, n := (s.nWord sn).toNat, handler := s.me.intrap,
                place := if s.takesPlace ix.toNat then s.nextId else 0 }]
        ∧ t.me.order = (if s.takesPlace ix.toNat then s.me.order ++ [{ id := s.nextId, kind := 8, norec := true }] else s.me.order))
    ∧ (∀ (g : BitVec 4) (sn : BitVec 6) (mode : BitVec 3) (fmt : BitVec 5) (col : BitVec 9) (row rows : BitVec 7) (z : BitVec 1) (s : State),
      s.ready (.mdrainP g sn mode fmt col row rows z) = true →
      ∃ t l, exec (.mdrainP g sn mode fmt col row rows z) s = .next t ∧ t.here.locks = s.here.locks ++ [l] ∧ l.id = s.nextId
        ∧ t.me.items = s.me.items
          ++ [{ kind := .drain mode fmt col.toNat row.toNat (rows.toNat + 1) (z == 1), q := s.qSnapshot,
                n := (s.nWord sn).toNat, handler := s.me.intrap, lock := s.nextId }])

/-- R36, R215, R217, R400, 08_scratchpad_and_geode_ring.md. Every step keeps every core's scratchpad and instruction store, in a
fossil or not, in canonical form. -/
def Obligations.StepKeepsScratchpadsCanonical : Prop :=
    ∀ s t : State, s.spadsCanonical = true → step s = .next t → t.spadsCanonical = true

/-- R222, R223, R224, R225, R226, R227, R228, R103. Each ready scratchpad load reads its segments locally or sends its access to
the peer, and issues its destination at the bound. -/
def Obligations.ScratchpadLoadsIssueTheirBytes : Prop :=
    (∀ (g : BitVec 4) (d : BitVec 6) (xb : BitVec 5) (off : BitVec 22) (sx : BitVec 1) (sz : BitVec 2) (s : State), s.ready (.ldS g d xb off sx sz) = true →
      exec (.ldS g d xb off sx sz) s = .next (s.spadLoad [((spAddr (s.readX xb) off.toInt), 2 ^ sz.toNat)] (.scalar d.toNat (2 ^ sz.toNat) (sx == 1)) (s.spBound (spAddr (s.readX xb) off.toInt))))
    ∧ (∀ (g : BitVec 4) (d : BitVec 9) (xb : BitVec 5) (off : BitVec 22) (m : BitVec 4) (t : BitVec 5) (s : State), s.ready (.ldV g d xb off m t) = true →
      exec (.ldV g d xb off m t) s = .next (s.spadLoad [((spAddr (s.readX xb) off.toInt), 128)] (.vector (s.me.phys d) (tyBytes t) (upto (elems t)) (activeList (s.readM m) (tyBytes t)) (s.readV d)) (s.spBound (spAddr (s.readX xb) off.toInt))))
    ∧ (∀ (g : BitVec 4) (d : BitVec 9) (xb : BitVec 5) (off : BitVec 22) (m : BitVec 4) (t : BitVec 5) (s : State), s.ready (.ldVs g d xb off m t) = true →
      exec (.ldVs g d xb off m t) s = .next (s.loadElems d m t (s.readX xb) (strideAddr (s.readX xb) off)))
    ∧ (∀ (g : BitVec 4) (d : BitVec 9) (xb : BitVec 5) (vi : BitVec 9) (m : BitVec 4) (t : BitVec 5) (s : State), s.ready (.ldVg g d xb vi m t) = true →
      exec (.ldVg g d xb vi m t) s = .next (s.loadElems d m t (s.readX xb) (indexAddr (s.readX xb) (s.readV vi))))
    ∧ (∀ (g md : BitVec 4) (xb : BitVec 5) (off : BitVec 22) (s : State), s.ready (.ldM g md xb off) = true →
      exec (.ldM g md xb off) s = .next (s.spadLoad [((spAddr (s.readX xb) off.toInt), 16)] (.mask md.toNat) (s.spBound (spAddr (s.readX xb) off.toInt))))
    ∧ (∀ (g : BitVec 4) (d : BitVec 9) (xb : BitVec 5) (off : BitVec 22) (m : BitVec 4) (t : BitVec 5) (mf : BitVec 4) (s : State), s.ready (.ldQ g d xb off m t mf) = true →
      exec (.ldQ g d xb off m t mf) s = .next (s.spadLoad [((spAddr (s.readX xb) off.toInt), ldqBytes mf (elems t))] (.widen (s.me.phys d) mf t (activeList (s.readM m) (tyBytes t)) (s.readV d)) (s.spBound (spAddr (s.readX xb) off.toInt))))
    ∧ (∀ (g : BitVec 4) (d : BitVec 9) (xb : BitVec 5) (off : BitVec 22) (s : State), s.ready (.vfill g d xb off) = true →
      exec (.vfill g d xb off) s = .next (s.spadLoad [((spAddr (s.readX xb) off.toInt) / 32 * 32, 160)] (.image (s.me.phys d)) (s.spBound (spAddr (s.readX xb) off.toInt))))

/-- R229, R230, R231, R232, R103, R281. Each ready scratchpad store writes its bytes to its own core or sends them to the peer,
and raises the flags of its rounding. -/
def Obligations.ScratchpadStoresWriteTheirBytes : Prop :=
    (∀ (g : BitVec 4) (a : BitVec 6) (xb : BitVec 5) (off : BitVec 22) (t : BitVec 5) (mode : BitVec 3) (sz : BitVec 2) (s : State), s.ready (.stS g a xb off t mode sz) = true →
      exec (.stS g a xb off t mode sz) s = .next ((let r := scalarStore t mode sz (s.readS a); (s.spadStore (bytesAtBase (spAddr (s.readX xb) off.toInt) r.1)).raise r.2)))
    ∧ (∀ (g : BitVec 4) (a : BitVec 9) (xb : BitVec 5) (off : BitVec 22) (m : BitVec 4) (t : BitVec 5) (mode : BitVec 3) (src : BitVec 4) (s : State), s.ready (.stV g a xb off m t mode src) = true →
      exec (.stV g a xb off m t mode src) s = .next ((let r := stvWrites t src mode (s.readM m) (s.readV a) (s.readV (a + 1)); (s.spadStore (atBase (spAddr (s.readX xb) off.toInt) r.1)).raise r.2)))
    ∧ (∀ (g : BitVec 4) (a : BitVec 9) (xb : BitVec 5) (off : BitVec 22) (m : BitVec 4) (t : BitVec 5) (mode : BitVec 3) (src : BitVec 4) (s : State), s.ready (.stVs g a xb off m t mode src) = true →
      exec (.stVs g a xb off m t mode src) s = .next ((let r := stxWrites t src mode (s.readM m) (s.readV a) (strideAddr (s.readX xb) off); (s.spadStore r.1).raise r.2)))
    ∧ (∀ (g : BitVec 4) (a : BitVec 9) (xb : BitVec 5) (vi : BitVec 9) (m : BitVec 4) (t : BitVec 5) (mode : BitVec 3) (src : BitVec 4) (s : State), s.ready (.stVx g a xb vi m t mode src) = true →
      exec (.stVx g a xb vi m t mode src) s = .next ((let r := stxWrites t src mode (s.readM m) (s.readV a) (indexAddr (s.readX xb) (s.readV vi)); (s.spadStore r.1).raise r.2)))
    ∧ (∀ (g ms : BitVec 4) (xb : BitVec 5) (off : BitVec 22) (s : State), s.ready (.stM g ms xb off) = true →
      exec (.stM g ms xb off) s = .next (s.spadStore (bytesAtBase (spAddr (s.readX xb) off.toInt) (leBytes 16 (s.readM ms).toNat))))
    ∧ (∀ (g : BitVec 4) (a : BitVec 9) (xb : BitVec 5) (off : BitVec 22) (s : State), s.ready (.vspill g a xb off) = true →
      exec (.vspill g a xb off) s = .next (s.spadStore (bytesAtBase ((spAddr (s.readX xb) off.toInt) / 32 * 32) (s.readV a).image)))
    ∧ (∀ (g : BitVec 4) (d : BitVec 6) (xb : BitVec 5) (off : BitVec 22) (t : BitVec 5) (mode : BitVec 3) (op : BitVec 4) (s : State), s.ready (.amoP g d xb off t mode op) = true →
      exec (.amoP g d xb off t mode op) s = .next (s.spadAmo ((spAddr (s.readX xb) off.toInt) / tyBytes t * tyBytes t) (tyBytes t) op t mode d))

/-- R310, R318, R319, R281, R289, R309. Each ready handle load, store, atomic and signal sends one access to the page's home;
translate and hdrop issue a handle. -/
def Obligations.HandleAccessesLeaveTheCore : Prop :=
    (∀ (g : BitVec 4) (d : BitVec 6) (h xo : BitVec 5) (imm : BitVec 17) (sx : BitVec 1) (sz : BitVec 2) (s : State), s.ready (.ldhS g d h xo imm sx sz) = true →
      exec (.ldhS g d h xo imm sx sz) s = .next (s.handleLoad (s.readH h) (hAddr (s.readH h) (s.readX xo) imm) (2 ^ sz.toNat) (.scalar d.toNat (2 ^ sz.toNat) (sx == 1))))
    ∧ (∀ (g : BitVec 4) (d : BitVec 9) (h xo : BitVec 5) (imm : BitVec 17) (m : BitVec 4) (t : BitVec 5) (s : State), s.ready (.ldhV g d h xo imm m t) = true →
      exec (.ldhV g d h xo imm m t) s = .next (s.handleLoad (s.readH h) (hAddr (s.readH h) (s.readX xo) imm) 128 (.vector (s.me.phys d) (tyBytes t) (upto (elems t)) (activeList (s.readM m) (tyBytes t)) (s.readV d))))
    ∧ (∀ (g : BitVec 4) (a : BitVec 6) (h xo : BitVec 5) (imm : BitVec 17) (t : BitVec 5) (mode : BitVec 3) (sz : BitVec 2) (s : State), s.ready (.sthS g a h xo imm t mode sz) = true →
      exec (.sthS g a h xo imm t mode sz) s = .next ((let r := scalarStore t mode sz (s.readS a); (s.handleStore (s.readH h) (hAddr (s.readH h) (s.readX xo) imm) (bytesAtBase 0 r.1)).raise r.2)))
    ∧ (∀ (g : BitVec 4) (a : BitVec 9) (h xo : BitVec 5) (imm : BitVec 17) (m : BitVec 4) (t : BitVec 5) (mode : BitVec 3) (src : BitVec 4) (s : State), s.ready (.sthV g a h xo imm m t mode src) = true →
      exec (.sthV g a h xo imm m t mode src) s = .next ((let r := stvWrites t src mode (s.readM m) (s.readV a) (s.readV (a + 1)); (s.handleStore (s.readH h) (hAddr (s.readH h) (s.readX xo) imm) r.1).raise r.2)))
    ∧ (∀ (g : BitVec 4) (d : BitVec 6) (h xo : BitVec 5) (imm : BitVec 17) (t : BitVec 5) (mode : BitVec 3) (op : BitVec 4) (s : State), s.ready (.amoH g d h xo imm t mode op) = true →
      exec (.amoH g d h xo imm t mode op) s = .next (s.handleAmo (s.readH h) (hAddr (s.readH h) (s.readX xo) imm / tyBytes t * tyBytes t) (tyBytes t) op t mode d))
    ∧ (∀ (g : BitVec 4) (a : BitVec 6) (h xo : BitVec 5) (imm : BitVec 17) (s : State), s.ready (.sigw g a h xo imm) = true →
      exec (.sigw g a h xo imm) s = .next (s.handleStore (s.readH h) (hAddr (s.readH h) (s.readX xo) imm / 8 * 8) (bytesAtBase 0 (leBytes 8 (s.readS a).toNat)) s.covered s.coversMirror))
    ∧ (∀ (g : BitVec 4) (a : BitVec 6) (h : BitVec 5) (rw : BitVec 2) (s : State), s.ready (.translate g a h rw) = true →
      exec (.translate g a h rw) s = .next ((s.land (.h h.toNat (s.translated (s.readS a) rw)) 32).countPkg 0x01 1))
    ∧ (∀ (g : BitVec 4) (h : BitVec 5) (s : State), s.ready (.hdrop g h) = true →
      exec (.hdrop g h) s = .next (s.land (.h h.toNat {}) 1))

/-- R220, R54. xadd, xaddi, xli and xsub issue their result modulo 2^32 at bound 1 in either slot, and two slots that write one
register conflict. -/
def Obligations.AddressRegistersWrap : Prop :=
    (∀ (st : Bool) (g : BitVec 4) (d a b : BitVec 5) (s : State), s.ready (.xadd st g d a b) = true →
      exec (.xadd st g d a b) s = .next (s.land (.x d.toNat (s.readX a + s.readX b)) 1))
    ∧ (∀ (st : Bool) (g : BitVec 4) (d a : BitVec 5) (imm : BitVec 22) (s : State), s.ready (.xaddi st g d a imm) = true →
      exec (.xaddi st g d a imm) s = .next (s.land (.x d.toNat (s.readX a + imm.signExtend 32)) 1))
    ∧ (∀ (st : Bool) (g : BitVec 4) (d : BitVec 5) (imm : BitVec 22) (s : State), s.ready (.xli st g d imm) = true →
      exec (.xli st g d imm) s = .next (s.land (.x d.toNat (imm.signExtend 32)) 1))
    ∧ (∀ (st : Bool) (g : BitVec 4) (d a b : BitVec 5) (s : State), s.ready (.xsub st g d a b) = true →
      exec (.xsub st g d a b) s = .next (s.land (.x d.toNat (s.readX a - s.readX b)) 1))
    ∧ (∀ (f : Facet) (g g' : BitVec 4) (d a b a' b' : BitVec 5) (imm imm' : BitVec 22) (i j : Instr),
      i ∈ [.xadd false g d a b, .xaddi false g d a imm, .xli false g d imm, .xsub false g d a b] →
      j ∈ [.xadd true g' d a' b', .xaddi true g' d a' imm', .xli true g' d imm', .xsub true g' d a' b'] →
      conflicts f [i, j] = [⟨4, .illegalEncoding, 0⟩, ⟨5, .illegalEncoding, 0⟩])

/-- R238, R242, R243. send injects one stamped message on its lane; recv takes the buffered message whose stamp it expects and
issues its register. -/
def Obligations.RingInstructionsMoveMessages : Prop :=
    (∀ (g : BitVec 4) (a : BitVec 9) (rank : BitVec 4) (facet : BitVec 2) (lane : BitVec 3) (dir : BitVec 1) (s : State), s.ready (.send g a rank facet lane dir) = true →
      exec (.send g a rank facet lane dir) s = .next (s.sendMsg a rank facet lane dir))
    ∧ (∀ (g : BitVec 4) (d : BitVec 9) (rank : BitVec 4) (facet : BitVec 2) (lane : BitVec 3) (dir : BitVec 1) (s : State), s.ready (.recv g d rank facet lane dir) = true →
      exec (.recv g d rank facet lane dir) s = .next (s.takeMsg d rank facet lane dir))
    ∧ (∀ (g : BitVec 4) (a : BitVec 9) (rank : BitVec 4) (facet : BitVec 2) (lane : BitVec 3) (dir : BitVec 1) (s : State),
      s.ready (.send g a rank facet lane dir) = true →
      ∃ t, exec (.send g a rank facet lane dir) s = .next t
        ∧ (t.geode (geodeOf s.cur)).msgs = (s.geode (geodeOf s.cur)).msgs
          ++ [{ id := s.nextId, launch := s.me.launch, src := rankOf s.cur, srcFacet := s.me.ordinal, dst := rank.toNat,
                dstFacet := facet.toNat, lane := lane, dir := dir == 1, stamp := BitVec.ofNat 32 s.me.ringTime, val := s.readV a }])
    ∧ (∀ (s : State) (d : BitVec 9) (rank : BitVec 4) (facet : BitVec 2) (lane : BitVec 3) (dir : BitVec 1) (m : Msg),
      (s.buffered rank.toNat facet.toNat lane.toNat (dir == 1)).find? (fun x => x.stamp.toNat == s.recvStamp rank.toNat (dir == 1)) = some m →
      s.takeMsg d rank facet lane dir
        = (s.modGeode (geodeOf s.cur) fun g => { g with msgs := g.msgs.filter fun x => x.id != m.id }).land
            (.v (s.me.phys d) m.val) 1 0 0 m.poison)

/-- R246, R250, R255, R256, R258, R259, R260, R261, R262, R265. A ready copy-engine instruction queues its command with
descriptors as read at issue, takes its place in the order, or cancels one. -/
def Obligations.EngineCommandsJoinTheirQueues : Prop :=
    (∀ (g da db : BitVec 4) (ty : BitVec 5) (sm : BitVec 3) (kind tgt : BitVec 2) (cm : BitVec 20) (s : State),
      s.ready (.feed g da db ty sm kind tgt cm) = true → ∃ t x, exec (.feed g da db ty sm kind tgt cm) s = .next t
        ∧ t.here.feedA = (if tgt = 0 then s.here.feedA ++ [x] else s.here.feedA)
        ∧ t.here.feedB = (if tgt = 0 then s.here.feedB else s.here.feedB ++ [x])
        ∧ (x.facet = s.fn ∧ x.id = s.nextId ∧ x.after = s.covered ∧ x.pos = 0 ∧ x.buf = [] ∧ x.loaded = false)
        ∧ (kind = 0 → x.op = .sp (wbits (s.readD da) 23 0) (sextNat (wbits (s.readD da) 39 24) 16) (wbits (s.readD db) 15 0)
            (wbits (s.readD db) 31 16))
        ∧ (kind = 1 → x.op = .band (wbits (s.readD da) 2 0) (s.here.bands.get (wbits (s.readD da) 2 0) {}).h (wbits (s.readD da) 15 8)
            (wbits (s.readD da) 31 16) (wbits (s.readD db) 15 0) (wbits (s.readD db) 31 16))
        ∧ (2 ≤ kind.toNat → x.op = .shale (s.readD da).toNat (s.readD db).toNat ty sm.toNat)
        ∧ t.me.order = s.me.order
          ++ [{ id := s.nextId, kind := BitVec.ofNat 8 (1 + tgt.toNat), tag := cm.extractLsb' 0 16, unit := BitVec.ofNat 4 0, classes := [0, 1 + tgt.toNat],
                norec := cm.getLsbD 16, crcen := cm.getLsbD 17, acc := (cm.extractLsb' 18 2).toNat }])
    ∧ (∀ (g da db : BitVec 4) (cm : BitVec 20) (s : State), s.ready (.lcopy g da db cm) = true →
      ∃ t x, exec (.lcopy g da db cm) s = .next t ∧ t.here.feedL = s.here.feedL ++ [x]
        ∧ (x.facet = s.fn ∧ x.id = s.nextId ∧ x.after = s.covered)
        ∧ x.op = .lcopy (wbits (s.readD da) 19 0) (wbits (s.readD da) 39 20) (wbits (s.readD db) 15 0) (wbits (s.readD db) 31 16)
            (sextNat (wbits (s.readD db) 47 32) 16) (sextNat (wbits (s.readD db) 63 48) 16)
        ∧ t.me.order = s.me.order
          ++ [{ id := s.nextId, kind := BitVec.ofNat 8 3, tag := cm.extractLsb' 0 16, unit := BitVec.ofNat 4 0, classes := [0, 3],
                norec := cm.getLsbD 16, crcen := cm.getLsbD 17, acc := (cm.extractLsb' 18 2).toNat }])
    ∧ (∀ (g da : BitVec 4) (words : BitVec 14) (cm : BitVec 20) (s : State), s.ready (.ifetch g da words cm) = true →
      ∃ t x, exec (.ifetch g da words cm) s = .next t ∧ t.here.feedL = s.here.feedL ++ [x]
        ∧ (x.facet = s.fn ∧ x.id = s.nextId ∧ x.after = s.covered)
        ∧ x.op = .ifetch (wbits (s.readD da) 19 0) (wbits (s.readD da) 34 20) (words.toNat + 1) (!s.me.bank)
        ∧ t.me.order = s.me.order
          ++ [{ id := s.nextId, kind := BitVec.ofNat 8 4, tag := cm.extractLsb' 0 16, unit := BitVec.ofNat 4 0, classes := [0, 3],
                norec := cm.getLsbD 16, crcen := cm.getLsbD 17, acc := (cm.extractLsb' 18 2).toNat }])
    ∧ (∀ (g da db : BitVec 4) (pos : BitVec 2) (s : State), s.ready (.bulkSet g da db pos) = true →
      ∃ t, exec (.bulkSet g da db pos) s = .next t ∧ t.me.staging.get (2 * pos.toNat) 0 = s.readD da
        ∧ t.me.staging.get (2 * pos.toNat + 1) 0 = s.readD db
        ∧ ∀ k, k ≠ 2 * pos.toNat → k ≠ 2 * pos.toNat + 1 → t.me.staging.get k 0 = s.me.staging.get k 0)
    ∧ (∀ (g en : BitVec 4) (cm : BitVec 20) (s : State), s.ready (.bulkGo g en cm) = true →
      ∃ t c, exec (.bulkGo g en cm) s = .next t ∧ (t.bulk.get en.toNat {}).shadow = some c
        ∧ (t.bulk.get en.toNat {}).active = (s.bulk.get en.toNat {}).active
        ∧ (∀ e, e ≠ en.toNat → t.bulk.get e {} = s.bulk.get e {})
        ∧ (c.words = (upto 6).map (fun k => s.me.staging.get k 0) ∧ c.cm = cm ∧ c.host = false ∧ c.pasid = s.me.pasid)
        ∧ (c.core = s.cur ∧ c.facet = s.fn ∧ c.launch = s.me.launch ∧ c.id = s.nextId ∧ c.after = s.covered)
        ∧ t.me.order = s.me.order
          ++ [{ id := s.nextId, kind := BitVec.ofNat 8 5, tag := cm.extractLsb' 0 16, unit := BitVec.ofNat 4 en.toNat, classes := [0, 4],
                norec := cm.getLsbD 16, crcen := cm.getLsbD 17, acc := (cm.extractLsb' 18 2).toNat }])
    ∧ (∀ (g en : BitVec 4) (tag : BitVec 16) (s : State) (mine : BulkCmd → Prop), s.ready (.bulkCancel g en tag) = true →
      (∀ c, mine c ↔ c.host = false ∧ c.core = s.cur ∧ c.facet = s.fn ∧ c.launch = s.me.launch ∧ c.cm.extractLsb' 0 16 = tag) →
      ∃ t, exec (.bulkCancel g en tag) s = .next t ∧ (∀ e, e ≠ en.toNat → t.bulk.get e {} = s.bulk.get e {})
        ∧ (t.bulk.get en.toNat {}).active = (s.bulk.get en.toNat {}).active
        ∧ (∀ c, (s.bulk.get en.toNat {}).active = some c →
            (mine c → (s.bulk.get en.toNat {}).finished = false → (t.bulk.get en.toNat {}).cancelled = true)
            ∧ (¬mine c → (t.bulk.get en.toNat {}).cancelled = (s.bulk.get en.toNat {}).cancelled))
        ∧ ∀ c, (s.bulk.get en.toNat {}).shadow = some c →
            (mine c → (t.bulk.get en.toNat {}).shadow = none
              ∧ (t.bulk.get en.toNat {}).ended = (s.bulk.get en.toNat {}).ended ++ [c])
            ∧ (¬mine c → (t.bulk.get en.toNat {}).shadow = some c ∧ (t.bulk.get en.toNat {}).ended = (s.bulk.get en.toNat {}).ended))
    ∧ (∀ (g da db : BitVec 4) (band : BitVec 3) (rr fill : BitVec 8) (cm : BitVec 20) (s : State),
      s.ready (.winOpen g da db band rr fill cm) = true →
      ∃ t o, exec (.winOpen g da db band rr fill cm) s = .next t
        ∧ t.here.bands.get band.toNat {}
          = { isOpen := true, owner := s.fn, v0 := (s.readD da).toNat, ringOff := wbits (s.readD db) 19 0, rowBytes := wbits (s.readD db) 35 20,
              pitch := wbits (s.readD db) 63 36, rrows := rr.toNat, fill := fill.toNat, h := 0, t := fill.toNat,
              ops := (s.here.bands.get band.toNat {}).ops ++ [o] }
        ∧ (o.id = s.nextId ∧ o.first = 0 ∧ o.rows = fill.toNat ∧ o.arrived = 0 ∧ o.close = false ∧ o.after = s.covered)
        ∧ t.me.order = s.me.order
          ++ [{ id := s.nextId, kind := BitVec.ofNat 8 6, tag := cm.extractLsb' 0 16, unit := BitVec.ofNat 4 band.toNat, classes := [0, 5 + band.toNat],
                norec := cm.getLsbD 16, crcen := cm.getLsbD 17, acc := (cm.extractLsb' 18 2).toNat }])
    ∧ (∀ (g : BitVec 4) (band : BitVec 3) (k : BitVec 8) (cm : BitVec 20) (s : State) (b : Band), s.ready (.winAdv g band k cm) = true →
      b = s.here.bands.get band.toNat {} →
      ∃ t o, exec (.winAdv g band k cm) s = .next t
        ∧ t.here.bands.get band.toNat {} = { b with h := b.h + k.toNat, t := b.t + k.toNat, ops := b.ops ++ [o] }
        ∧ (o.id = s.nextId ∧ o.first = b.t ∧ o.rows = k.toNat ∧ o.arrived = 0 ∧ o.close = false ∧ o.after = s.covered)
        ∧ t.me.order = s.me.order
          ++ [{ id := s.nextId, kind := BitVec.ofNat 8 6, tag := cm.extractLsb' 0 16, unit := BitVec.ofNat 4 band.toNat, classes := [0, 5 + band.toNat],
                norec := cm.getLsbD 16, crcen := cm.getLsbD 17, acc := (cm.extractLsb' 18 2).toNat }])
    ∧ (∀ (g : BitVec 4) (band : BitVec 3) (cm : BitVec 20) (s : State) (b : Band), s.ready (.winClose g band cm) = true →
      b = s.here.bands.get band.toNat {} →
      ∃ t o, exec (.winClose g band cm) s = .next t ∧ t.here.bands.get band.toNat {} = { b with ops := b.ops ++ [o] }
        ∧ o.id = s.nextId ∧ o.close = true
        ∧ t.me.order = s.me.order
          ++ [{ id := s.nextId, kind := BitVec.ofNat 8 7, tag := cm.extractLsb' 0 16, unit := BitVec.ofNat 4 band.toNat, classes := [0, 5 + band.toNat],
                norec := cm.getLsbD 16, crcen := cm.getLsbD 17, acc := (cm.extractLsb' 18 2).toNat }])
    ∧ (∀ (g : BitVec 4) (rst : BitVec 1) (ac : BitVec 2) (tag : BitVec 16) (s : State) (a : CrcAcc), s.ready (.crcRd g rst ac tag) = true →
      a = s.me.crc.get ac.toNat {} →
      ∃ t, exec (.crcRd g rst ac tag) s = .next t ∧ t.me.order = s.me.order
        ∧ t.here.evq = s.here.evq ++ [⟨s.fn, BitVec.ofNat 64 (9 + tag.toNat * 2 ^ 16),
            BitVec.ofNat 64 (a.val.toNat + a.count % 2 ^ 32 * 2 ^ 32)⟩]
        ∧ t.me.crc.get ac.toNat {} = (if rst = 1 then {} else a)
        ∧ ∀ k, k ≠ ac.toNat → t.me.crc.get k {} = s.me.crc.get k {})

/-- R271, R274, R275, R289. yadd, ysub, yand, yxor and ycmp issue their check register at bound 1; bar.arr sends its arrival
after the accesses it covers. -/
def Obligations.CheckerOperationsResults : Prop :=
    (∀ (g : BitVec 4) (yd : BitVec 2) (ak : BitVec 1) (a : BitVec 6) (bk : BitVec 2) (b : BitVec 11) (s : State), s.ready (.yadd g yd ak a bk b) = true →
      exec (.yadd g yd ak a bk b) s = .next (s.land (.y yd.toNat (s.yOperand ak a + s.yOperandB bk b)) 1))
    ∧ (∀ (g : BitVec 4) (yd : BitVec 2) (ak : BitVec 1) (a : BitVec 6) (bk : BitVec 2) (b : BitVec 11) (s : State), s.ready (.ysub g yd ak a bk b) = true →
      exec (.ysub g yd ak a bk b) s = .next (s.land (.y yd.toNat (s.yOperand ak a - s.yOperandB bk b)) 1))
    ∧ (∀ (g : BitVec 4) (yd : BitVec 2) (ak : BitVec 1) (a : BitVec 6) (bk : BitVec 2) (b : BitVec 11) (s : State), s.ready (.yand g yd ak a bk b) = true →
      exec (.yand g yd ak a bk b) s = .next (s.land (.y yd.toNat (s.yOperand ak a &&& s.yOperandB bk b)) 1))
    ∧ (∀ (g : BitVec 4) (yd : BitVec 2) (ak : BitVec 1) (a : BitVec 6) (bk : BitVec 2) (b : BitVec 11) (s : State), s.ready (.yxor g yd ak a bk b) = true →
      exec (.yxor g yd ak a bk b) s = .next (s.land (.y yd.toNat (s.yOperand ak a ^^^ s.yOperandB bk b)) 1))
    ∧ (∀ (g : BitVec 4) (yd : BitVec 2) (ak : BitVec 1) (a : BitVec 6) (bk : BitVec 1) (b : BitVec 6) (cond : BitVec 3) (s : State), s.ready (.ycmp g yd ak a bk b cond) = true →
      exec (.ycmp g yd ak a bk b cond) s = .next (s.land (.y yd.toNat (if yCond cond (s.yOperand ak a) (s.yOperand bk b) then 1 else 0)) 1))
    ∧ (∀ (g : BitVec 4) (xb : BitVec 5) (inn out : BitVec 8) (s : State), s.ready (.barArr g xb inn out) = true →
      exec (.barArr g xb inn out) s = .next (s.arrive xb inn out))
    ∧ (∀ (g : BitVec 4) (xb : BitVec 5) (inn out : BitVec 8) (s : State) (c : Nat), s.ready (.barArr g xb inn out) = true →
      c = s.spCore (spAddr (s.readX xb) 0) →
      ∃ t a, exec (.barArr g xb inn out) s = .next t ∧ t.accs = s.accs ++ [a]
        ∧ (a.id = s.nextId ∧ a.core = s.cur ∧ a.facet = s.fn ∧ a.launch = s.me.launch ∧ a.home = .spad c)
        ∧ a.op = .arrive (spPhys (s.window s.me.launch c) (spOff (spAddr (s.readX xb) 0))) inn.toNat out.toNat
        ∧ a.after = s.covered ∧ a.mir = s.coversMirror)

/-- R203, R204, R205, R206, R207. nop, shift, loop, jump, end, zero, wit and sync take a running invocation to its next word,
its target or its end. -/
def Obligations.MicroControlAdvancesTheRoutine : Prop :=
    (∀ (s : State) (v : Invocation), s.invokes v → exec (.nop) s = .next (s.setInv v.next))
    ∧ (∀ (val : BitVec 16) (src : BitVec 2) (s : State) (v : Invocation), s.invokes v → exec (.shift val src) s = .next (s.setInv { v.next with cb := v.cb + v.item.n * sextNat (v.operand src val 2) 16 }))
    ∧ (∀ (s : State) (v : Invocation), s.invokes v → exec (.microEnd) s = .next (s.setInv { v with ended := true }))
    ∧ (∀ (s : State) (v : Invocation), s.invokes v → exec (.wit) s = .next (s.setInv { v.next with wit := true }))
    ∧ (∀ (s : State) (v : Invocation), s.invokes v → v.inWindow v.cb = true →
      exec .zero s = .next ((s.modHere fun k => k.accZero (k.facet v.facet) 0 128 v.cb.toNat v.item.n).setInv v.next))
    ∧ (∀ (tgt : BitVec 10) (val : BitVec 16) (src : BitVec 2) (s : State) (v : Invocation), s.invokes v → tgt.toNat < v.words.length →
      (v.ctr0.getD (max (v.operand src val 2) 1 - 1) ≠ 0 →
        exec (.microLoop tgt 0 val src) s
          = .next (s.setInv { v with ctr0 := some (v.ctr0.getD (max (v.operand src val 2) 1 - 1) - 1), pc := tgt.toNat }))
      ∧ (v.ctr0.getD (max (v.operand src val 2) 1 - 1) = 0 →
        exec (.microLoop tgt 0 val src) s = .next (s.setInv { v with ctr0 := none, pc := v.pc + 1 }))
      ∧ (v.ctr1.getD (max (v.operand src val 3) 1 - 1) ≠ 0 →
        exec (.microLoop tgt 1 val src) s
          = .next (s.setInv { v with ctr1 := some (v.ctr1.getD (max (v.operand src val 3) 1 - 1) - 1), pc := tgt.toNat }))
      ∧ (v.ctr1.getD (max (v.operand src val 3) 1 - 1) = 0 →
        exec (.microLoop tgt 1 val src) s = .next (s.setInv { v with ctr1 := none, pc := v.pc + 1 })))
    ∧ (∀ (tgt : BitVec 10) (s : State) (v : Invocation), s.invokes v → tgt.toNat < v.words.length →
      exec (.jump tgt) s = .next (s.setInv { v with pc := tgt.toNat }))
    ∧ (∀ (tgt : BitVec 10) (ctr : BitVec 1) (val : BitVec 16) (src : BitVec 2) (i : Instr) (s : State) (v : Invocation), s.invokes v →
      (i = .jump tgt ∨ i = .microLoop tgt ctr val src) ∧ v.words.length ≤ tgt.toNat ∨ i = .zero ∧ v.inWindow v.cb = false →
      exec i s = .next (s.setInv { v with ended := true, err := some (v.err.getD .illegalEncoding) }))
    ∧ (∀ (val : BitVec 16) (src : BitVec 2) (s : State) (v : Invocation), s.invokes v →
      (v.item.place = 0 → exec (.sync val src) s = .next (s.setInv v.next))
      ∧ ∀ (e : OrderEntry) (r : List OrderEntry), v.item.place ≠ 0 → (s.here.facet v.facet).order = e :: r → e.id = v.item.place →
        s.here.evq.length < 64 →
        exec (.sync val src) s = .next ((s.modHere fun k =>
          { k with evq := k.evq ++ [⟨v.facet, BitVec.ofNat 64 (8 + v.operand src val 2 % 2 ^ 16 * 2 ^ 16), 0⟩] }).setInv v.next))
    ∧ (∀ (val : BitVec 16) (src : BitVec 2) (s : State) (v : Invocation), s.invokes v → v.item.place ≠ 0 →
      (s.here.facet v.facet).order.head?.map (·.id) ≠ some v.item.place ∨ 64 ≤ s.here.evq.length → exec (.sync val src) s = .next s)

/-- R182, R188, R189, R204, R206, R207, R209, R210. pop.a and pop.b complete a tile from its FIFO share; pass, pass.sp, acc and
scale update the accumulators of their window. -/
def Obligations.MicroTilesFeedTheArray : Prop :=
    (∀ (s : State) (v : Invocation), s.invokes v → v.part.length ≤ aTileBytes v.aty v.spn →
      aTileBytes v.aty v.spn - v.part.length ≤ (s.here.facet v.facet).fifoA.length →
      exec .popA s = .next ((s.modFacet s.cur v.facet fun f =>
          { f with fifoA := f.fifoA.drop (aTileBytes v.aty v.spn - v.part.length) }).setInv
        { v.next with
          part := []
          tileA := some (v.part ++ (s.here.facet v.facet).fifoA.take (aTileBytes v.aty v.spn - v.part.length)) }))
    ∧ (∀ (s : State) (v : Invocation), s.invokes v →
      ((s.here.facet v.facet).fifoA.length < aTileBytes v.aty v.spn - v.part.length →
        exec .popA s = .next ((s.modFacet s.cur v.facet fun f => { f with fifoA := [] }).setInv
          { v with part := v.part ++ (s.here.facet v.facet).fifoA }))
      ∧ ((s.here.facet v.facet).fifoB.length < bTileBytes v.bty v.spn v.item.n - v.part.length →
        exec .popB s = .next ((s.modFacet s.cur v.facet fun f => { f with fifoB := [] }).setInv
          { v with part := v.part ++ (s.here.facet v.facet).fifoB })))
    ∧ (∀ (s : State) (v : Invocation), s.invokes v → v.part.length ≤ bTileBytes v.bty v.spn v.item.n →
      bTileBytes v.bty v.spn v.item.n - v.part.length ≤ (s.here.facet v.facet).fifoB.length →
      exec .popB s = .next ((s.modFacet s.cur v.facet fun f =>
          { f with fifoB := f.fifoB.drop (bTileBytes v.bty v.spn v.item.n - v.part.length) }).setInv
        { v.next with
          part := []
          tileB := some (v.part ++ (s.here.facet v.facet).fifoB.take (bTileBytes v.bty v.spn v.item.n - v.part.length)) }))
    ∧ (∀ (ovr : BitVec 1) (i : Instr) (s : State) (v : Invocation) (ta tb : List FByte) (es : List (Nat × Nat × AccEntry × BitVec 6 × Bool)),
      s.invokes v →
      (i = .pass ovr ∧ v.spn = 0
        ∨ i = .passSp ovr ∧ v.spn ≠ 0 ∧ (upto 128).all (fun k => rowFormed v.spn (aRow v (plain ta) k).1) = true) →
      v.inWindow v.cb = true → v.tileA = some ta → v.tileB = some tb → (ta ++ tb).any (·.poison) = false →
      (ovr = 1 ∨ (rect 0 128 v.cb.toNat v.item.n).any (fun p => s.here.accBad (s.here.facet v.facet) p.1 p.2) = false) →
      es = passEntries s.here (s.here.facet v.facet) v (plain ta) (plain tb) (ovr == 1) →
      ∃ t w, exec i s = .next t
        ∧ t.here.acc = (s.here.accPut (s.here.facet v.facet) (es.map fun e => (e.1, e.2.1, e.2.2.1))).acc
        ∧ (t.here.facet v.facet).passes = (s.here.facet v.facet).passes + 1
        ∧ (t.here.facet v.facet).sat = ((s.here.facet v.facet).sat || es.any fun e => e.2.2.2.2)
        ∧ t.here.inv = some w ∧ w.pc = v.pc + 1 ∧ w.tileA = none ∧ w.tileB = none ∧ w.ended = false ∧ w.wit = false
        ∧ w.flags = es.foldl (fun a e => a ||| e.2.2.2.1) v.flags
        ∧ (((s.here.facet v.facet).witOn || v.wit) = false →
            w.err = v.err ∧ t.here.witCount = s.here.witCount ∧ (t.here.facet v.facet).wcount = (s.here.facet v.facet).wcount)
        ∧ (((s.here.facet v.facet).witOn || v.wit) = true →
            t.here.witCount = s.here.witCount + 1 ∧ (t.here.facet v.facet).wcount = (s.here.facet v.facet).wcount + 1
            ∧ (Config.witnessDiffers s.cur s.here.witCount (s.here.witCount % 128) = false → w.err = v.err)
            ∧ (Config.witnessDiffers s.cur s.here.witCount (s.here.witCount % 128) = true →
                w.err = some (v.err.getD .witnessMismatch) ∧ (t.here.facet v.facet).wmis = true
                  ∧ (t.here.facet v.facet).wrow = BitVec.ofNat 7 (s.here.witCount % 128)
                  ∧ (t.here.facet v.facet).wphy
                    = BitVec.ofNat 7 ((s.here.witCount % 128 + 1 + s.here.witCount / 128 % 127) % 128))))
    ∧ (∀ (val : BitVec 16) (src : BitVec 2) (s : State) (v : Invocation) (x : Int) (sum : Nat → Nat → AccEntry × BitVec 6 × Bool),
      s.invokes v → x = sextNat (v.operand src val 2) 16 →
      v.inWindow v.cb = true → v.inWindow (v.cb + 16 * x) = true →
      (rect 0 128 v.cb.toNat v.item.n ++ rect 0 128 (v.cb + 16 * x).toNat v.item.n).any
        (fun p => s.here.accBad (s.here.facet v.facet) p.1 p.2) = false →
      (∀ i j, pairInt v.aty = true →
        sum i j = (⟨BitVec.ofInt 32 (clampInt ((s.here.accGet (s.here.facet v.facet) i (v.cb.toNat + j)).int
              + (s.here.accGet (s.here.facet v.facet) i ((v.cb + 16 * x).toNat + j)).int) (intMin 19) (intMax 19)).1, 0⟩, 0,
            (clampInt ((s.here.accGet (s.here.facet v.facet) i (v.cb.toNat + j)).int
              + (s.here.accGet (s.here.facet v.facet) i ((v.cb + 16 * x).toNat + j)).int) (intMin 19) (intMax 19)).2)) →
      (∀ i j z r, pairInt v.aty = false →
        z = (s.here.accGet (s.here.facet v.facet) i (v.cb.toNat + j)).num.add
              (s.here.accGet (s.here.facet v.facet) i ((v.cb + 16 * x).toNat + j)).num → r = ro z.1 (fmtOf 1) →
        sum i j = (⟨BitVec.ofNat 32 r.1, BitVec.ofNat 2 r.2.1⟩, r.2.2 ||| z.2, false)) →
      ∃ t w, exec (.acc val src) s = .next t
        ∧ t.here.acc = (s.here.accPut (s.here.facet v.facet) ((rect 0 128 0 v.item.n).map fun p =>
            (p.1, v.cb.toNat + p.2, (sum p.1 p.2).1))).acc
        ∧ (t.here.facet v.facet).sat = ((s.here.facet v.facet).sat || (rect 0 128 0 v.item.n).any fun p => (sum p.1 p.2).2.2)
        ∧ t.here.inv = some w ∧ w.pc = v.pc + 1 ∧ w.ended = false ∧ w.err = v.err
        ∧ w.flags = (rect 0 128 0 v.item.n).foldl (fun a p => a ||| (sum p.1 p.2).2.1) v.flags)
    ∧ (∀ (val : BitVec 16) (src : BitVec 2) (s : State) (v : Invocation), s.invokes v → pairInt v.aty = false →
      v.inWindow v.cb = true →
      (rect 0 128 v.cb.toNat v.item.n).any (fun p => s.here.accBad (s.here.facet v.facet) p.1 p.2) = false →
      ∃ t w, exec (.scale val src) s = .next t
        ∧ t.here.acc = (s.here.accPut (s.here.facet v.facet) ((rect 0 128 v.cb.toNat v.item.n).map fun p =>
            (p.1, p.2,
              ⟨BitVec.ofNat 32 (ro ((s.here.accGet (s.here.facet v.facet) p.1 p.2).num.scale (sextNat (v.operand src val 2) 16)) (fmtOf 1)).1,
                BitVec.ofNat 2 (ro ((s.here.accGet (s.here.facet v.facet) p.1 p.2).num.scale (sextNat (v.operand src val 2) 16)) (fmtOf 1)).2.1⟩))).acc
        ∧ t.here.inv = some w ∧ w.pc = v.pc + 1 ∧ w.ended = false ∧ w.err = v.err
        ∧ w.flags = (rect 0 128 v.cb.toNat v.item.n).foldl
            (fun a p => a ||| (ro ((s.here.accGet (s.here.facet v.facet) p.1 p.2).num.scale (sextNat (v.operand src val 2) 16)) (fmtOf 1)).2.2) v.flags)

/-- R32, R34, R39, R49, R133, R374, R380, R381, R395, R396. Issue, commit, landing, replay, watchdog, quantum, switch, resume,
enter and park request act on their facet when they may. -/
def Obligations.CoreEventsServeTheRunningFacet : Prop :=
    (∀ (core : Nat) (s : State), s.canIssue core = true → (s.offeredAt core).passes (s.offeredAt core).fetched = true →
      exec (.bundleIssue core) s = .next ((s.offeredAt core).pass (s.offeredAt core).fetched))
    ∧ (∀ (core : Nat) (s : State) (f : Facet) (l : Latch) (x : State × Latch), s.facet core (s.core core).run = f → f.latch = l →
      f.resident = true → l.passed = true → (s.geode (geodeOf core)).frozen = false →
      l.returned = false → x = (s.committed core).sysWrites l →
      exec (.bundleCommit core) s = .next (x.1.afterCommit core (s.core core).run x.2)
        ∧ ∃ u, (s.committed core).facet core (s.core core).run = u
          ∧ u.clock = f.clock + 1 + l.idle ∧ u.group = (if l.gend then f.group + 1 else f.group) ∧ u.latch = {} ∧ u.replays = 0
          ∧ ((s.committed core).core core).quantum = (s.core core).quantum + 1
          ∧ (∀ b o, l.target = some (b, o) → u.bank = b ∧ u.pc = o)
          ∧ (l.target = none → l.isLoop = true → u.bank = f.bank ∧ u.pc = l.pc + l.size))
    ∧ (∀ (core fn : Nat) (s : State) (f : Facet) (l : Latch) (go : Bool × State), fn = (s.core core).run → s.facet core fn = f → f.latch = l →
      f.resident = true → l.passed = true → (s.geode (geodeOf core)).frozen = false → l.returned = true → go = s.returnGo core fn →
      (s.returnHeld core fn = true → exec (.bundleCommit core) s = .next s)
        ∧ (s.returnHeld core fn = false → go.1 = false → exec (.bundleCommit core) s = .next go.2)
        ∧ (s.returnHeld core fn = false → go.1 = true → exec (.bundleCommit core) s
            = .next (((go.2.committed core).sysWrites l).1.afterCommit core fn ((go.2.committed core).sysWrites l).2))
        ∧ ((∀ lode pa, s.framePlace f ≠ some (.away lode pa)) → go = (true, s)))
    ∧ (∀ (c fn : Nat) (s : State) (l : Latch),
      (l.halted = true → ((s.afterCommit c fn l).facet c fn).resident = false)
      ∧ (∀ x, l.halted = false → l.after = some x → s.afterCommit c fn l = s.takeTrap x)
      ∧ (l.halted = false → l.after = none → l.returned = true → s.afterCommit c fn l = s.returnFrom c fn)
      ∧ (l.halted = false → l.after = none → l.returned = false → l.parked = true → s.afterCommit c fn l = s.parkRequest c fn)
      ∧ (l.halted = false → l.after = none → l.returned = false → l.parked = false → l.yielded = true →
          (∀ n, s.nextReady c = some n → s.afterCommit c fn l = s.select c n) ∧ (s.nextReady c = none → s.afterCommit c fn l = s))
      ∧ (l.halted = false → l.after = none → l.returned = false → l.parked = false → l.yielded = false → s.afterCommit c fn l = s))
    ∧ (∀ (core facet : Nat) (s : State), (s.facet core facet).resident = true →
      exec (.resultLanding core facet) s = .next (s.settle core facet))
    ∧ (∀ (core : Nat) (s : State), s.canIssue core = true → (s.facet core (s.core core).run).replays + 1 < 8 →
      exec (.timingErrorReplay core) s
        = .next ((s.modFacet core (s.core core).run fun f => { f with replays := f.replays + 1 }).countCore core 0x06 1))
    ∧ (∀ (core : Nat) (s : State), s.canIssue core = true → 7 ≤ (s.facet core (s.core core).run).replays →
      ∃ t, exec (.timingErrorReplay core) s = .next t ∧ (t.facet core (s.core core).run).parked = true
        ∧ (t.facet core (s.core core).run).parkCode = 0x23 ∧ (t.facet core (s.core core).run).replays = 0)
    ∧ (∀ (core facet : Nat) (s : State), (s.facet core facet).resident = true → (s.facet core facet).parked = false →
      (s.geode (geodeOf core)).frozen = false → s.heldByFreeze core facet = false → s.blocked core facet = true →
      exec (.watchdogExpiry core facet) s
        = .next (((s.settle core facet).withdraw core facet).takeTrapOf core facet { cause := .watchdog }))
    ∧ (∀ (core fn : Nat) (s : State), 4096 ≤ (s.core core).quantum → (s.facet core (s.core core).run).latch.passed = false →
      s.nextReady core = some fn → exec (.quantumExpiry core) s = .next (s.select core fn))
    ∧ (∀ (core : Nat) (s t : State), t = s.offerHeld core →
      (∀ fn, (t.core core).idle = false → t.runBlocked core = true → t.nextReady core = some fn →
        exec (.facetSwitch core) s = .next (t.select core fn))
      ∧ ((t.core core).idle = false → t.runBlocked core = true → t.nextReady core = none →
        exec (.facetSwitch core) s = .next (t.modCore core fun k => { k with idle := true }))
      ∧ ∀ fn, (t.core core).idle = true → t.firstReady core = some fn → exec (.facetSwitch core) s = .next (t.select core fn))
    ∧ (∀ (core facet : Nat) (s : State), (s.facet core facet).resident = true → (s.facet core facet).parked = true →
      (s.facet core facet).frameOk = true → (s.geode (geodeOf core)).frozen = false →
      (s.returnHeld core facet = false → ∀ go, go = s.returnGo core facet →
        (go.1 = true → exec (.resume core facet) s
          = .next ((go.2.modFacet core facet fun f => { f with resumeAsked := false }).returnFrom core facet))
        ∧ (go.1 = false → exec (.resume core facet) s = .next (go.2.modFacet core facet fun f => { f with resumeAsked := true })))
      ∧ (s.returnHeld core facet = true → exec (.resume core facet) s
        = .next (s.modFacet core facet fun f => { f with resumeAsked := true })))
    ∧ (∀ (core facet : Nat) (s : State), (s.facet core facet).resident = true → (s.facet core facet).parked = true →
      (s.facet core facet).frameOk = true → (s.geode (geodeOf core)).frozen = false →
      ((s.facet core facet).intrap = true → exec (.enter core facet) s = .next (s.park core facet 0x21))
      ∧ ((s.facet core facet).intrap = false → tbaseOk (s.core core) (s.facet core facet) = false →
        exec (.enter core facet) s = .next (s.park core facet 0x20))
      ∧ ((s.facet core facet).intrap = false → tbaseOk (s.core core) (s.facet core facet) = true →
        exec (.enter core facet) s = .next (s.modFacet core facet Facet.enterHandler)))
    ∧ (∀ (core facet : Nat) (s : State), (s.facet core facet).resident = true → (s.facet core facet).parked = false →
      (s.geode (geodeOf core)).frozen = false →
      exec (.parkreq core facet) s = .next (((s.settle core facet).withdraw core facet).parkRequest core facet)
        ∧ ∃ t, exec (.parkreq core facet) s = .next t ∧ (t.facet core facet).parked = true ∧ (t.facet core facet).parkCode = 0x24)

/-- R190, R207, R238, R240, R251, R256, R259, R260, R264, R266, R417, R418. Items, feeders, bands, bulk engines, records, ring
messages and meetings go one stage further whenever nothing holds them. -/
def Obligations.EngineEventsMoveTheirQueues : Prop :=
    (∀ (core fn : Nat) (it : Item) (s : State), (s.core core).inv = none → (s.core core).nextItem = some (fn, it) →
      exec (.matrixItemRun core) s = .next (s.startItem core fn it))
    ∧ (∀ (core : Nat) (v : Invocation) (w : BitVec 128) (i : Instr) (s t : State), (s.core core).inv = some v → v.ended = false →
      v.words[v.pc]? = some w → decodeMicro w.toNat = some i → t = s.noBallast (geodeOf core) →
      (startsPass i = false → exec (.matrixItemRun core) s = .next { s with cur := core, due := [i] })
      ∧ (startsPass i = true → (t.geode (geodeOf core)).limited = true → exec (.matrixItemRun core) s = .next t)
      ∧ (startsPass i = true → (t.geode (geodeOf core)).limited = false → t.rampHeld (geodeOf core) = true →
          exec (.matrixItemRun core) s = .next (t.windowPasses (geodeOf core)))
      ∧ (startsPass i = true → (t.geode (geodeOf core)).limited = false → t.rampHeld (geodeOf core) = false →
          exec (.matrixItemRun core) s = .next { t with cur := core, due := [i] }))
    ∧ (∀ (core : Nat) (v : Invocation) (s : State), (s.core core).inv = some v →
      (v.ended = true → exec (.matrixItemRun core) s = .next (s.finishItem core v.facet v.item v.flags v.err))
      ∧ (v.ended = false → v.words[v.pc]? = none →
          exec (.matrixItemRun core) s = .next (s.modCore core fun k => { k with inv := some { v with ended := true } }))
      ∧ ∀ w, v.ended = false → v.words[v.pc]? = some w → decodeMicro w.toNat = none →
          exec (.matrixItemRun core) s = .next (s.modCore core fun k =>
            { k with inv := some { v with ended := true, err := some (v.err.getD .illegalEncoding) } }))
    ∧ (∀ (geode launch : Nat) (mask : BitVec 16) (s : State), mask ≠ 0 → s.meetingReady launch mask geode = true →
      exec (.tsyncMeetingComplete geode launch mask) s
        = .next (((s.geode geode).participants launch mask).foldl (fun t p => t.modFacet p.core p.facet fun f =>
            { f with tsyncMet := true, metLevel := BitVec.ofNat 3 (t.granted geode) })
          (s.modGeode geode fun g => { g with tsync := g.tsync.filter fun p => !((s.geode geode).participants launch mask).contains p })))
    ∧ (∀ (core facet : Nat) (s : State) (e : OrderEntry) (r : List OrderEntry),
      (s.core core).facets.any (fun f => f.1 == facet && !f.2.order.isEmpty) = true → (s.facet core facet).order = e :: r →
      e.done = true → e.complete = false →
      ∃ t, exec (.engineOperationComplete core facet) s = .next t
        ∧ (t.facet core facet).order = (if e.norec then r else { e with complete := true } :: r)
        ∧ (t.facet core facet).crc = (if e.crcen then (s.facet core facet).crc.upd e.acc {} fun a =>
            ⟨crcFold a.val e.data, a.count + e.data.length⟩ else (s.facet core facet).crc)
        ∧ (e.kind = 7 → ((t.core core).bands.get e.unit.toNat {}).isOpen = false)
        ∧ (e.kind ≠ 7 → (t.core core).bands = (s.core core).bands))
    ∧ (∀ (core facet : Nat) (s : State) (e : OrderEntry) (r : List OrderEntry),
      (s.core core).facets.any (fun f => f.1 == facet && !f.2.order.isEmpty) = true → (s.facet core facet).order = e :: r →
      e.complete = true → (s.core core).evq.length < 64 →
      exec (.completionRecordPost core facet) s = .next (s.modCore core fun k =>
        { k.modFacet facet fun f => { f with order := r } with evq := k.evq ++ [e.record facet] }))
    ∧ (∀ (core : Nat) (tgt : FeedTarget) (s : State) (x : EngineCmd) (q : List EngineCmd), (s.core core).feeder tgt = x :: q →
      s.clear x.after x.mir = true → (s.core core).postHeld [match tgt with | .a => 1 | .b => 2] 0 = false →
      (∀ addr pitch rb rows, x.op = .sp addr pitch rb rows →
        exec (.fifoAppend core tgt) s = .next (s.feedRows core tgt x rb rows (fun _ => true) fun r o =>
          (coreAt (geodeOf core) (spRank (wrapInt ((addr : Int) + Int.ofNat r * pitch) 24)),
            spPhys (s.window ((s.core core).facet x.facet).launch (coreAt (geodeOf core) (spRank (wrapInt ((addr : Int) + Int.ofNat r * pitch) 24))))
              (spOff (wrapInt ((addr : Int) + Int.ofNat r * pitch) 24) + o))))
      ∧ (∀ b h rel off rb rows bd, x.op = .band b h rel off rb rows → bd = (s.core core).bands.get b {} →
        exec (.fifoAppend core tgt) s = .next (s.feedRows core tgt x rb rows (fun r => bd.has (h + rel + r)) fun r o =>
          (core, spPhys (s.window ((s.core core).facet x.facet).launch core)
            (bd.ringOff + ((h + rel + r) % bd.rrows) * bd.rowBytes + off + o))))
      ∧ ∀ va blocks ty sm, x.op = .shale va blocks ty sm →
        exec (.fifoAppend core tgt) s = .next (s.feedShale core tgt x va blocks ty sm))
    ∧ (∀ (c : Nat) (tgt : FeedTarget) (s : State) (x : EngineCmd) (rb rows : Nat) (ready : Nat → Bool) (at' : Nat → Nat → Nat × Nat) (n : Nat),
      n = min ((s.facet c x.facet).room tgt) (rb - x.pos % rb) → n ≠ 0 → ready (x.pos / rb) = true →
      (s.core (at' (x.pos / rb) (x.pos % rb)).1).lockedBefore x.id
        (banksOf (((upto n).map fun j => at' (x.pos / rb) (x.pos % rb + j)).map (·.2))) = false →
      s.feedRows c tgt x rb rows ready at'
        = (s.noteSpadErr (at' (x.pos / rb) (x.pos % rb)).1 (((upto n).map fun j => at' (x.pos / rb) (x.pos % rb + j)).map (·.2))).feedBytes
            c tgt x (((upto n).map fun j => at' (x.pos / rb) (x.pos % rb + j)).map fun p => (s.core p.1).spadByte p.2)
            (rb * rows - x.pos - n))
    ∧ (∀ (core band : Nat) (s : State) (o : BandOp) (q : List BandOp), ((s.core core).bands.get band {}).ops = o :: q →
      s.clear o.after o.mir = true → (s.core core).postHeld [6, 7] band = false →
      (o.close = true → (s.core core).bandFed band o.id = false →
        exec (.bandRowArrival core band) s
          = .next (s.bandDone core band o ((s.core core).bands.get band {}) 0))
      ∧ (o.close = false → exec (.bandRowArrival core band) s = .next (s.bandRow core band ((s.core core).bands.get band {}) o)))
    ∧ (∀ (core : Nat) (s : State) (x : EngineCmd) (q : List EngineCmd), (s.core core).feedL = x :: q → s.clear x.after x.mir = true →
      (s.core core).postHeld [3, 4] 0 = false →
      (∀ src dst rb rows sp dp, x.op = .lcopy src dst rb rows sp dp →
        exec (.localFeederCommandStart core) s = .next (s.runLcopy core x src dst rb rows sp dp))
      ∧ ∀ src dst words bank, x.op = .ifetch src dst words bank →
        exec (.localFeederCommandStart core) s = .next (s.runIfetch core x src dst words bank))
    ∧ (∀ (e : Nat) (s : State) (c : BulkCmd), (s.bulk.get e {}).active = none → (s.bulk.get e {}).shadow = some c →
      s.cores.any (fun k => k.2.postHeld [5] e) = false →
      exec (.bulkEngineTakeCommand e) s = .next (s.modBulk e fun b => { active := some c, ended := b.ended }))
    ∧ (∀ (e : Nat) (s : State) (c : BulkCmd) (stop : Bool), (s.bulk.get e {}).active = some c → s.bulkHeld c = false →
      (s.bulk.get e {}).finished = false →
      stop = ((s.bulk.get e {}).cancelled && ((s.bulk.get e {}).place c % 64 == 0
        || (s.bulk.get e {}).col == 0 && (s.bulk.get e {}).row != 0 || !s.bulkStands c)) →
      (stop = true → exec (.bulkEngineTakeCommand e) s = .next ((s.bulkStop e c 5).bulkEnd e))
      ∧ (stop = false → s.clear c.after c.mir = true →
        ((s.bulk.get e {}).checked = false → s.bulkCheck c = 0 →
          exec (.bulkEngineTakeCommand e) s = .next (s.modBulk e fun b => { b with checked := true }))
        ∧ ((s.bulk.get e {}).checked = false → s.bulkCheck c ≠ 0 →
          exec (.bulkEngineTakeCommand e) s = .next ((s.bulkStop e c (s.bulkCheck c)).bulkEnd e))
        ∧ ((s.bulk.get e {}).checked = true →
          exec (.bulkEngineTakeCommand e) s = .next ((s.bulkMove e c (s.bulk.get e {})).bulkEnd e))))
    ∧ (∀ (e : Nat) (v : BitVec 64) (s : State), e < 16 →
      ((s.bulk.get e {}).shadow = none →
        ∃ t c, exec (.hostBulkGo e v) s = .next t ∧ (t.bulk.get e {}).shadow = some c ∧ c.host = true ∧ c.id = s.nextId
          ∧ c.notify = v.getLsbD 17 ∧ c.pasid.toNat = wbits v 37 18 ∧ c.words = (upto 6).map (fun k => s.devGet (aBulk e + 8 * k)))
      ∧ ((s.bulk.get e {}).shadow.isSome = true → exec (.hostBulkGo e v) s = .next (s.devPut (aBulk e + 0x38) 10 10 1)))
    ∧ (∀ (e : Nat) (s t : State) (c : BulkCmd), t = s.drainEnded e → (t.bulk.get e {}).active = some c → t.bulkHeld c = false →
      (t.bulk.get e {}).finished = true →
      ((t.bulk.get e {}).outDue = true →
        exec (.engineCountdown e) s = .next (((t.countdown c 4).modBulk e fun b => { b with outDue := false }).bulkEnd e))
      ∧ ((t.bulk.get e {}).outDue = false → (t.bulk.get e {}).inDue = true →
        exec (.engineCountdown e) s = .next (((t.countdown c 5).modBulk e fun b => { b with inDue := false }).bulkEnd e)))
    ∧ (∀ (geode id : Nat) (s : State) (m : Msg), (s.geode geode).msgs.find? (fun m => m.id == id && !m.buffered) = some m →
      (((s.core (coreAt geode m.dst)).slotOfOrdinal m.launch m.dstFacet).isSome = true → m.reaches (s.geode geode).msgs = true →
        ∃ bad, exec (.ringMessageArrival geode id) s
          = .next { s.modGeode geode fun g => g.arrive id bad with freeCtr := s.freeCtr + 1 })
      ∧ ((s.core (coreAt geode m.dst)).slotOfOrdinal m.launch m.dstFacet = none →
        exec (.ringMessageArrival geode id) s
          = .next ((s.modGeode geode fun g => { g with msgs := g.msgs.filter fun e => e.id != id }).markLost m.launch)))

/-- R281, R310, R315, R322, R329, R335, R342, R343, R344, R347, R349, R333. Accesses perform at their home; walks, revocations,
refresh, patrols, logs, media writes and seals go on when they may. -/
def Obligations.MemoryEventsFollowTheirRule : Prop :=
    (∀ (id : Nat) (s : State) (a : Access), s.accs.find? (fun a => a.id == id) = some a → s.mayPerform a = true → a.unpopulated = false →
      exec (.accessPerformAtHome id) s = .next (match a.home with
        | .spad c => s.performSpad a c
        | .main => s.performMain a
        | .durable => s.performMain a
        | .device => s.performDevice a
        | .remote l => s.performRemote a l.toNat))
    ∧ (∀ (core facet hn : Nat) (s t u : State) (p : Handle) (va : Nat), (s.facet core facet).pendingH hn = some p →
      (s.geode (geodeOf core)).frozen = false → va = p.va.toNat → t = s.meetWalk (s.facet core facet).pasid va (geodeOf core) →
      (∀ l, t.walk (s.facet core facet).pasid va = .ok l →
        u = t.modFacet core facet (fun f => f.mapHandles (· == hn) fun x => if x == p then l.handle va p.r p.w else x) →
        (l.grants p.r p.w = true → exec (.walkEnd core facet hn) s
          = .next (u.modGeode (geodeOf core) fun g => g.fill (s.facet core facet).pasid va l))
        ∧ (l.grants p.r p.w = false → exec (.walkEnd core facet hn) s = .next u))
      ∧ ∀ c, t.walk (s.facet core facet).pasid va = .error c →
        exec (.walkEnd core facet hn) s
          = .next (t.modFacet core facet fun f =>
              f.mapHandles (· == hn) fun x => if x == p then Handle.faulted va c else x))
    ∧ (∀ (v : BitVec 64) (s t u : State) (q : InvalArg) (pinned : Core → Bool), t = s.devPut (aMmr + 0x10) 23 0 (wbits v 23 0) →
      u = t.countPkg 0x04 1 → q = u.invalArg v → (∀ k, pinned k = k.facets.any fun f => f.2.resident && f.2.pins q) →
      (s.inval.isSome = true ∨ wbits v 3 2 = 3 → exec (.invalGo v) s = .next (t.devPut (aMmr + 0x18) 2 2 1))
      ∧ (s.inval = none → wbits v 3 2 ≠ 3 →
          (s.cores.any (fun k => pinned k.2) = true ∨ s.fossils.any (fun x => x.used && x.cores.any fun k => pinned k.2) = true →
            exec (.invalGo v) s = .next (u.devPut (aMmr + 0x18) 1 1 1))
          ∧ (s.cores.any (fun k => pinned k.2) = false → s.fossils.any (fun x => x.used && x.cores.any fun k => pinned k.2) = false →
            ∃ w, exec (.invalGo v) s = .next w ∧ w.inval.isSome = true ∧ w.devFld (aMmr + 0x18) 0 0 = 1
              ∧ w.devFld (aMmr + 0x18) 1 1 = 0)))
    ∧ (∀ (s : State) (ids : List Nat), s.inval = some ids → s.accs.any (fun a => ids.contains a.id) = false →
      exec .invalComplete s = .next ({ s with inval := none }.devPut (aMmr + 0x18) 0 0 0))
    ∧ (∀ (vein chan : Nat) (s : State) (bal : Int), vein < 8 → chan < 64 → bal = sextNat (s.devFld (aVein vein + 0x100 + 8 * chan) 7 0) 8 →
      (bal ≤ -8 → ∀ w, exec (.refresh vein chan true w) s = .next (s.doRefresh vein chan bal true))
      ∧ (-8 < bal → exec (.refresh vein chan true true) s
          = .next (s.devPut (aVein vein + 0x100 + 8 * chan) 7 0 (wrapInt (bal - 1) 8)))
      ∧ (-8 < bal → exec (.refresh vein chan true false) s = .next (s.doRefresh vein chan bal false))
      ∧ (bal < 8 → exec (.refresh vein chan false false) s = .next (s.doRefresh vein chan (bal + 1) false)))
    ∧ (∀ (vein : Nat) (f : Found) (s : State), vein < 8 → s.devFld (aVein vein + 0x40) 0 0 ≠ 0 →
      exec (.patrolVisit vein f) s
        = .next ((s.patrol (32 * s.devFld (aVein vein + 0x40) 38 5) f).scrubNext (aVein vein + 0x40) (2 ^ 31)))
    ∧ (∀ (f : Found) (s : State), s.devFld (unitBase 8 + 0x40) 0 0 ≠ 0 →
      exec (.durablePatrolVisit f) s
        = .next ((s.patrol (2 ^ 40 + 64 * s.devFld (unitBase 8 + 0x40) 38 5) f).scrubNext (unitBase 8 + 0x40) (2 ^ 34)))
    ∧ (∀ (unit : Nat) (s : State), unit ≤ 8 →
      exec (.logcntPop unit) s = .next { s with logs := s.logs.set unit ((s.logs.get unit []).drop 1) })
    ∧ (∀ (s : State) (e : DurEntry) (r : List DurEntry), s.durQ = e :: r →
      exec .writeQueueToMedia s = .next { s.toMedia e with durQ := r })
    ∧ (∀ (s : State) (q : SealReq), s.seals.find? (fun q => q.host || !s.frozenTask q.core q.facet q.launch) = some q →
      exec .sealConfirm s = .next (s.sealStep q))
    ∧ (∀ (s : State), s.devFld aDstat 0 0 ≠ 1 →
      exec .hpbarGo s = .next { s.devPut aDstat 0 0 1 with seals := s.seals ++ [{ host := true }] })
    ∧ (∀ (ok : Bool) (s : State), exec (.holdupTest ok) s = .next (s.devPut aDstat 1 1 (if ok then 0 else 1)))
    ∧ (∀ (id : Nat) (s : State) (a : Access), s.accs.find? (fun a => a.id == id) = some a → s.mayPerform a = true → a.unpopulated = true →
      exec (.accessPerformAtHome id) s = .fault .unpopulatedAddress)

/-- R330, R350, R351, R352, R353, R448, R450. A mirrored range is enabled, synchronised, acknowledged, broken, disabled and used
for repair as its state allows. -/
def Obligations.MirrorEventsFollowTheirState : Prop :=
    (∀ (k : Nat) (s : State), k < 16 → s.mirEn k ≠ 1 →
      (s.mirRefused k = true → exec (.mirrorEnable k) s = .next (s.devPut (aMir k + 0x10) 3 3 1))
      ∧ (s.mirRefused k = false → ∀ t, t = (s.devPut (aMir k + 0x10) 0 0 1).devPut (aMir k + 0x10) 2 1 1 →
          exec (.mirrorEnable k) s = .next ({ t with mirPos := s.mirPos.del k }.mirSend k) ∧ t.mirEn k = 1 ∧ t.mirState k = 1))
    ∧ (∀ (k : Nat) (s : State), k < 16 → s.mirEn k ≠ 0 →
      ∃ t, exec (.mirrorDisable k) s = .next t ∧ t.mirEn k = 0 ∧ t.mirState k = 0 ∧ t.mirQ = s.mirQ.filter fun w => w.k != k)
    ∧ (∀ (k : Nat) (s : State), k < 16 → s.mirState k = 1 → s.mirCopied k = true →
      exec (.mirrorSyncComplete k) s = .next (s.devPut (aMir k + 0x10) 2 1 2))
    ∧ (∀ (k : Nat) (s t : State) (w : MirWrite), s.mirState k = 1 ∨ s.mirState k = 2 → s.mirQ.find? (fun w => w.k == k) = some w →
      t = { s with mirQ := s.mirQ.erase w } →
      (∀ r, w.port = some r → (s.lineFirst r = false → exec (.mirrorWriteAck k) s = .next s)
        ∧ (s.lineFirst r = true → w.sync = false → exec (.mirrorWriteAck k) s = .next (t.portAnswered r).mirPort)
        ∧ (s.lineFirst r = true → w.sync = true → exec (.mirrorWriteAck k) s = .next ((t.portAnswered r).mirSend k).mirPort))
      ∧ (∀ c, w.port = none → s.route (s.mirLode k) w.addr = .fail c →
          exec (.mirrorWriteAck k) s = .next ((s.fabErr (s.mirLode k) c).mirBreak k))
      ∧ (w.port = none → s.route (s.mirLode k) w.addr = .away → exec (.mirrorWriteAck k) s = .next s.mirPort))
    ∧ (∀ (k : Nat) (s : State), k < 16 → s.mirState k = 1 ∨ s.mirState k = 2 →
      ∃ t, exec (.mirrorPartnerUnreachable k) s = .next t ∧ t = (s.fabErr (s.mirLode k) (s.lostCause k)).mirBreak k
        ∧ t.mirState k = 3 ∧ ∀ w ∈ t.mirQ, w.k = k → w.port = none)
    ∧ (∀ (k word : Nat) (d : BitVec 256) (r : PortReq) (s t : State), s.repairable (32 * word) = some k →
      (∀ c, s.repairRoute (s.repairOf k word) ≠ .fail c) → s.repairReq (s.repairOf k word) = some r → s.lineFirst r = true →
      t = ((if (s.repairOf k word).port.isNone then s.tookPort else s).portAnswered r).dropRepair (s.repairOf k word).word →
      exec (.mirrorRepair k word (some d)) s
        = .next ((((t.putRaw (32 * (s.repairOf k word).word) (leBytes 32 d.toNat)).cleanWord
            (32 * (s.repairOf k word).word)).writtenBack (32 * (s.repairOf k word).word)).devAdd (aMir (s.repairOf k word).k + 0x18) 31 0 1))
    ∧ (∀ (k word : Nat) (s : State) (x : Repair), s.repairable (32 * word) = some k → x = s.repairOf k word →
      (x.port.isSome = true → s.repairRoute x = .away)
      ∧ (x.port.isSome = false → s.repairRoute x = s.route (s.mirLode x.k) (s.mirPartner x.k x.word))
      ∧ (∀ c d, s.repairRoute x = .fail c → exec (.mirrorRepair k word d) s = .next (s.repairFails x c))
      ∧ ((∀ c, s.repairRoute x ≠ .fail c) → ∀ r, s.repairReq x = some r →
          (s.lineFirst r = true → exec (.mirrorRepair k word none) s
            = .next (((if x.port.isNone then s.tookPort else s).portAnswered r).repairFails x 1))
          ∧ (s.lineFirst r = false → ∀ d, exec (.mirrorRepair k word d) s = .next s)))
    ∧ (∀ (s t : State) (x : Repair) (c : Nat), t = (s.dropRepair x.word).fabErr (s.mirLode x.k) c →
      (s.poisoned (32 * x.word) = true → s.repairFails x c = t)
      ∧ (s.poisoned (32 * x.word) = false → s.repairFails x c
          = (t.forgetFlaw (32 * x.word)).foundBad (32 * x.word) x.kind x.req x.sym))

/-- R354, R355, R356, R358, R359, R360, R362, R363, R364, R365, R366, R369. Slots are mapped, unmapped and killed; packets
start, are dispatched, are satisfied and complete; tokens refill; pre-emption acts. -/
def Obligations.QueueEventsServeTheirSlot : Prop :=
    (∀ (slot : Nat) (s u : State) (w : Nat → BitVec 64), slot < 64 → (s.qslot slot).state = 0 →
      u = s.readOwn ((s.qslot slot).header 0) 32 → (∀ off, w off = u.ownWord ((s.qslot slot).header off)) →
      ∃ t, exec (.map slot) s = .next t
        ∧ (ringBad (s.qslot slot).qaddr.toNat (4096 * wbits (w 0x10) 47 12) (wbits (w 0x10) 3 0) = false → w 0 = w 8 →
            (t.qslot slot).state = 1 ∧ (t.qslot slot).cur = none ∧ (t.qslot slot).widx = (w 0).truncate 32
              ∧ (t.qslot slot).ridx = (w 8).truncate 32 ∧ (t.qslot slot).log2 = wbits (w 0x10) 3 0
              ∧ (t.qslot slot).pasid = (w 0x18).truncate 20))
    ∧ (∀ (slot : Nat) (s : State), (s.qslot slot).state = 1 ∨ (s.qslot slot).state = 3 →
      exec (.unmap slot) s = .next (s.modSlot slot fun q => { q with state := 2 }))
    ∧ (∀ (slot : Nat) (s : State), (s.qslot slot).state = 2 → (s.qslot slot).cur = none →
      exec (.unmapComplete slot) s
        = .next (((s.modSlot slot fun q => { q with state := 0, forceErr := false }).putOwnNum ((s.qslot slot).header 8) 4
            (s.qslot slot).ridx.toNat).slotPost slot 3 0 (s.qslot slot).ridx.toNat))
    ∧ (∀ (slot : Nat) (s : State) (ws : List (BitVec 64)), (s.qslot slot).cur = some ws → (s.qslot slot).finished = false →
      (wbits (pw ws 0) 7 0 = 1 → exec (.kill slot) s = .next (s.killLaunch (s.qslot slot).launch))
      ∧ (wbits (pw ws 0) 7 0 ≠ 1 →
          exec (.kill slot) s = .next (s.modSlot slot fun q => { q with finished := true, status := q.status ||| stKilled })))
    ∧ (∀ (slot : Nat) (s u t : State) (ws : List (BitVec 64)), slot < 64 → (s.qslot slot).state = 1 → (s.qslot slot).cur = none →
      s.accepting = true → (s.qslot slot).forceErr = false → (s.qslot slot).widx ≠ (s.qslot slot).ridx →
      u = s.readOwn (s.qslot slot).packetPa 64 → ws = (upto 8).map (fun i => u.ownWord ((s.qslot slot).packetPa + 8 * i)) →
      t = u.modSlot slot (fun q =>
        { q with cur := some ws, sigs := [], launch := 0, finished := false, status := 0, err := 0 }) →
      (wbits (pw ws 0) 7 0 = 1 → exec (.packetStart slot) s = .next (t.startLaunch slot ws))
      ∧ (wbits (pw ws 0) 7 0 = 2 → exec (.packetStart slot) s = .next (t.startWait slot ws))
      ∧ (wbits (pw ws 0) 7 0 = 3 → exec (.packetStart slot) s = .next (t.startSignal slot ws))
      ∧ (wbits (pw ws 0) 7 0 = 0 ∨ 3 < wbits (pw ws 0) 7 0 → exec (.packetStart slot) s = .next (t.malformed slot .limit)))
    ∧ (∀ (k : Nat) (s t : State) (ws : List (BitVec 64)) (kn : Kernel), s.launchOk (s.qslot k).part.toNat ws = true → pw ws 3 = 0 →
      t = (s.modSlot k fun q => { q with sigs := [] }).meetKernel (s.qslot k).pasid (pw ws 2).toNat →
      t.readKernel (s.qslot k).pasid (pw ws 2).toNat = .ok kn → kn.ckrec = 0 → kn.refused = false →
      (setBitsOf (gmask ws) 40).any (fun g => t.geodeState g == 2) = false → s.startLaunch k ws = t.openLaunch k ws kn none)
    ∧ (∀ (slot : Nat) (s t : State) (l : Launch), s.launches.find (s.qslot slot).launch = some l → s.nextToPlace = some slot →
      t = { s with launches := s.launches.set (s.qslot slot).launch (l.dropOffline fun g => s.geodeState g == 2), lastSlot := slot } →
      exec (.launchDispatch slot) s
        = .next ((t.nextGeodes (s.qslot slot).launch (l.dropOffline fun g => s.geodeState g == 2)).foldl
            (fun u g => u.placeGeode (s.qslot slot).launch (l.dropOffline fun g => s.geodeState g == 2) g) t))
    ∧ (∀ (slot : Nat) (s t : State) (ws : List (BitVec 64)), (s.qslot slot).cur = some ws → wbits (pw ws 0) 7 0 = 2 →
      (s.qslot slot).finished = false → (s.qslot slot).sigs.any s.sigWaits = false → s.sigsFirst (s.qslot slot).sigs = true →
      t = (s.qslot slot).sigs.foldl State.readSignal s →
      ∃ u, exec (.waitPacketSatisfied slot) s = .next u ∧ (u.qslot slot).finished = (s.qslot slot).sigs.all t.signalThere)
    ∧ (∀ (slot : Nat) (s : State) (ws : List (BitVec 64)), s.canComplete slot = true → (s.qslot slot).cur = some ws →
      (s.qslot slot).sigs.any s.sigWaits = false → s.sigsFirst (s.qslot slot).sigs = true →
      ∃ t, exec (.packetCompletion slot) s = .next t ∧ (t.qslot slot).cur = none ∧ (t.qslot slot).ridx = (s.qslot slot).ridx + 1
        ∧ (t.qslot slot).sigs = [] ∧ t.launches.find (s.qslot slot).launch = none)
    ∧ (∀ (p : Nat) (s : State), p < 8 →
      ∃ t, exec (.tokenRefill p) s = .next t
        ∧ t.devFld (aPart p + 8) 15 0
          = min (s.devFld (aPart p + 8) 15 0 + s.devFld (aPart p + 8) 47 32) (s.devFld (aPart p + 8) 31 16)
        ∧ t.devFld (aPart p + 8) 31 16 = s.devFld (aPart p + 8) 31 16 ∧ t.devFld (aPart p + 8) 47 32 = s.devFld (aPart p + 8) 47 32)
    ∧ (∀ (slot geode : Nat) (s t : State) (l : Launch) (a : Action), geode < 40 → s.mayAsk slot geode = true →
      s.launches.find (s.qslot slot).launch = some l → a = s.policy slot geode (tokens l.words) →
      t = s.devPut (aPart (s.qslot slot).part.toNat + 8) 15 0
        (s.devFld (aPart (s.qslot slot).part.toNat + 8) 15 0 - tokens l.words) →
      exec (.preemptionPolicy slot geode) s = .next ((t.policyActed (s.qslot slot).part.toNat a.code 0).act slot geode a))

/-- R17, R397, R399, R400, R401, R402, R403, R404, R405, R406, R407. Geodes freeze into fossils that are written, restored or
killed; checkpoints are asked for, saved and given up; sparing moves a geode. -/
def Obligations.FossilAndCheckpointEventsAct : Prop :=
    (∀ (geode pa : Nat) (reason : BitVec 2) (s : State), geode < 40 → (s.geode geode).frozen = false →
      s.freeFossil (s.geodePart geode) = some pa →
      exec (.geodeFreeze geode reason) s = .next (s.freezeInto geode reason pa))
    ∧ (∀ (k : Nat) (s t : State) (f h : Fossil), s.fossils[k]? = some f → f.used = true → f.state = 1 →
      h = { f with state := 2, held := f.held ++ s.regAccesses f.lgeo } →
      t = (((s.modFossil k fun _ => h).modGeode f.lgeo fun e => { e with frozen := false }).putOwn (f.pa + 4096) h.body).putFossilHeader h →
      (t.geodeState f.lgeo ≠ 1 ∨ f.reason = 0 → exec (.fossilWriteComplete k) s = .next t)
      ∧ (t.geodeState f.lgeo = 1 → f.reason ≠ 0 →
          (∀ x, t.pickSpare h = some x → exec (.fossilWriteComplete k) s = .next (t.takeSpare f.lgeo x))
          ∧ (t.pickSpare h = none → exec (.fossilWriteComplete k) s = .next (t.goOffline f.lgeo))))
    ∧ (∀ (k : Nat) (s t : State) (f : Fossil), s.fossils[k]? = some f → s.fossilReady f = true → t = s.readFossil f →
      (t.fossilMatches f = true → exec (.fossilRestore k) s = .next (t.restoreFossil k f))
      ∧ (t.fossilMatches f = false → exec (.fossilRestore k) s = .next (t.killFossil k f 0)))
    ∧ (∀ (slot : Nat) (s : State) (l : Launch), s.launches.find (s.qslot slot).launch = some l → l.ckAsk = false →
      ((s.facetsOf (s.qslot slot).launch).isEmpty = false ∨ (s.frozenOf (s.qslot slot).launch).isEmpty = false) →
      (s.someParked (s.qslot slot).launch = false →
        exec (.checkpointRequest slot) s
          = .next ({ s with launches := s.launches.set (s.qslot slot).launch { l with ckAsk := true } }.modFacetsOf (s.qslot slot).launch
              fun f => { f with ckRequested := true }))
      ∧ (s.someParked (s.qslot slot).launch = true →
        exec (.checkpointRequest slot) s = .next (s.checkpointFails (s.qslot slot).launch)))
    ∧ (∀ (slot : Nat) (s : State) (l : Launch), s.launches.find (s.qslot slot).launch = some l → l.ckAsk = true →
      (s.someParked (s.qslot slot).launch = true →
        exec (.checkpointSave slot) s = .next (s.checkpointFails (s.qslot slot).launch))
      ∧ (s.someParked (s.qslot slot).launch = false → (s.facetsOf (s.qslot slot).launch).isEmpty = false ∨ l.toPlace ≠ [] →
          s.allHeld (s.qslot slot).launch = true →
          (s.writing (s.qslot slot).launch = none → exec (.checkpointSave slot) s = .next (s.saveRecord (s.qslot slot).launch l))
          ∧ ∀ i, s.writing (s.qslot slot).launch = some i →
              (s.accs.any (fun a => a.launch == (s.qslot slot).launch) = true → exec (.checkpointSave slot) s = .next s)
              ∧ (s.accs.any (fun a => a.launch == (s.qslot slot).launch) = false →
                exec (.checkpointSave slot) s = .next (s.endSave (s.qslot slot).launch i))
              ∧ ∃ l', (s.endSave (s.qslot slot).launch i).launches.find (s.qslot slot).launch = some l' ∧ l'.ckAsk = false
                  ∧ l'.windows = [] ∧ l'.ckpt = some i))
    ∧ (∀ (id n : Nat) (s t : State) (l : Launch), t = s.noteWindows l →
      t.saveBad id l = false → ((t.facetsOf id).map fun x => t.ckTask l.kernel x.1 x.2.1).any Option.isNone = false →
      n = recordHeader + (Config.recordBytes t.freeCtr (((t.facetsOf id).map fun x => t.ckTask l.kernel x.1 x.2.1).length + (t.carried l).1.length)
        (l.windows.length + (t.carried l).2.length)).toNat →
      (t.recordPlace (s.qslot l.slot).part.toNat).1 + n ≤ (t.recordPlace (s.qslot l.slot).part.toNat).2 →
      ∃ r, (s.saveRecord id l).ckpts.getLast? = some r ∧ r.launch = id ∧ r.state = 0 ∧ r.windows = t.ckWindows l ++ (t.carried l).2
        ∧ r.pa = (t.recordPlace (s.qslot l.slot).part.toNat).1 ∧ r.bytes = n ∧ r.pasid = l.pasid ∧ r.done = l.done
        ∧ r.tasks.length = (t.facetsOf id).length + (t.carried l).1.length
        ∧ (l.ckpt = none → t.carried l = ([], [])))
    ∧ (∀ (slot : Nat) (s : State) (l : Launch), s.launches.find (s.qslot slot).launch = some l → l.ckAsk = true →
      ((s.facetsOf (s.qslot slot).launch).all (fun x => x.2.2.ckHeld) = false
        ∨ (s.frozenOf (s.qslot slot).launch).all (·.ckHeld) = false) →
      exec (.checkpointTimeout slot) s = .next (s.checkpointFails (s.qslot slot).launch))
    ∧ (∀ (geode : Nat) (x : Option SpareSlot) (s : State) (f : Fossil), geode < 40 → s.geodeState geode = 0 → (s.geode geode).frozen = false →
      f = { s.fossilOf geode (if x.any (·.forTest) then 2 else 1) 0 with spare := x } →
      (∀ pa, s.freeFossil (s.geodePart geode) = some pa → (s.pickSpare f).isSome = true ∨ x.any (·.forTest) = false →
        exec (.sparingSequence geode x) s = .next ((s.devPut (aGeodeMap geode) 7 6 1).freezeInto geode f.reason pa x))
      ∧ (s.freeFossil (s.geodePart geode) = none → s.pickSpare f = none → x.any (·.forTest) = false →
        exec (.sparingSequence geode x) s
          = .next ((s.cores.flatMap fun k => if geodeOf k.1 == geode then (k.2.facets.filter fun y => y.2.resident).map fun y => (k.1, y.1)
              else []).foldl (fun t p => (t.killTask p.1 p.2).tasksDone (t.facet p.1 p.2).launch [] (stKilled ||| stUnavail))
            (s.goOffline geode))))

/-- R345, R346, R410, R411, R412, R417, R418, R421, R456. Epochs, frequency steps, temperatures, currents, ballast, activity and
power-good change the package as their rules say. -/
def Obligations.PowerEventsFollowTheirRule : Prop :=
    (∀ (r : EpochReport) (s : State), exec (.epochEnd r) s
      = .next ((upto 40).foldl State.grant ((upto 40).foldl State.latchSwitches ((upto 40).foldl (fun t g => t.thermalStep r g)
          (((upto 8).foldl State.partLevel (s.account r)).packageStep r)))))
    ∧ (∀ (geode : Nat) (s : State), geode < 40 →
      ∃ t, exec (.frequencyStep geode) s = .next t
        ∧ (s.devFld (aGstat geode) 8 3 < s.targetCode geode → s.devFld (aGstat geode) 8 3 < 63 →
          t.devFld (aGstat geode) 8 3 = s.devFld (aGstat geode) 8 3 + 1
            ∧ t.devFld (aGstat geode) 41 32 = s.voltage (s.targetCode geode) % 1024)
        ∧ (s.targetCode geode < s.devFld (aGstat geode) 8 3 →
          t.devFld (aGstat geode) 8 3 = s.devFld (aGstat geode) 8 3 - 1
            ∧ (s.targetCode geode + 1 < s.devFld (aGstat geode) 8 3 → t.devFld (aGstat geode) 41 32 = s.devFld (aGstat geode) 41 32)
            ∧ (s.targetCode geode + 1 = s.devFld (aGstat geode) 8 3 →
                t.devFld (aGstat geode) 41 32 = s.voltage (s.targetCode geode) % 1024))
        ∧ (s.targetCode geode = s.devFld (aGstat geode) 8 3 →
          t.devFld (aGstat geode) 8 3 = s.targetCode geode ∧ t.devFld (aGstat geode) 41 32 = s.voltage (s.targetCode geode) % 1024
            ∧ (t.geode geode).changing = false))
    ∧ (∀ (geode : Nat) (temp : BitVec 8) (s : State), geode < 40 → s.devFld (aPower + 0x48) 37 30 ≤ temp.toNat →
      exec (.temperatureCritical geode temp) s = .next ((s.devPut (aGstat geode) 23 16 temp.toNat).peqGeode geode 7 0 0 temp.toNat))
    ∧ (∀ (amps : List Nat) (other : Nat) (s : State), (amps.take 40).sum + other ≤ s.devFld (aPower + 0x48) 29 18 →
      s.devFld (aPower + 0x60) 12 12 = 0 → 100 * ((amps.take 40).sum + other) < 95 * s.devFld (aPower + 0x48) 29 18 →
      exec (.currentReport amps other) s = .next (s.devPut (aPower + 0x60) 11 0 ((amps.take 40).sum + other)))
    ∧ (∀ (amps : List Nat) (other : Nat) (s : State), (amps.take 40).sum + other ≤ s.devFld (aPower + 0x48) 29 18 →
      s.devFld (aPower + 0x60) 12 12 = 0 → 95 * s.devFld (aPower + 0x48) 29 18 ≤ 100 * ((amps.take 40).sum + other) →
      ∃ t, exec (.currentReport amps other) s = .next t ∧ t.devFld (aPower + 0x60) 12 12 = 1
        ∧ ∀ g < 40, amps[g]? = some ((amps.take 40).foldl max 0) → (t.geode g).limited = true)
    ∧ (∀ (amps : List Nat) (other : Nat) (s : State), (amps.take 40).sum + other ≤ s.devFld (aPower + 0x48) 29 18 →
      s.devFld (aPower + 0x60) 12 12 = 1 → 100 * ((amps.take 40).sum + other) ≤ 90 * s.devFld (aPower + 0x48) 29 18 →
      ∃ t, exec (.currentReport amps other) s = .next t ∧ t.devFld (aPower + 0x60) 12 12 = 0 ∧ ∀ g < 40, (t.geode g).limited = false)
    ∧ (∀ (geode : Nat) (on : Bool) (s : State), geode < 40 → (on = true → s.falling geode = true) →
      ∃ t, exec (.ballastPass geode on) s = .next t ∧ t.devFld (aGstat geode) 24 24 = (if on then 1 else 0))
    ∧ (∀ (geode later n : Nat) (s : State), geode < 40 → n = s.busyOf geode - min later (s.busyOf geode) →
      ∃ t, exec (.activityWindow geode later) s = .next t
        ∧ (t.geode geode).activity ≤ (s.geode geode).activity + s.rstep ∧ (s.geode geode).activity ≤ (t.geode geode).activity + s.rstep
        ∧ (∀ c, geodeOf c = geode →
            (t.core c).arr = (s.core c).arr - min n (min 256 ((s.geode geode).activity + s.rstep)))
        ∧ (∀ c, geodeOf c ≠ geode → (t.core c).arr = (s.core c).arr)
        ∧ (min 256 n ≤ (s.geode geode).activity + s.rstep → (s.geode geode).activity ≤ min 256 n + s.rstep →
            (t.geode geode).activity = min 256 n))
    ∧ (∀ (drained : Bool) (s : State), s.powered = true →
      ∃ t, exec (.powerGoodDeassert drained) s = .next t ∧ t.powered = false ∧ t.accepting = false ∧ t.cores = [] ∧ t.mem = []
        ∧ t.durQ = [] ∧ t.launches = [] ∧ t.pgood = none
        ∧ t.media = (s.drainQueue drained).media ∧ t.devFld aDstat 3 2 = (if s.drainSound drained then 1 else 2)
        ∧ t.fwA = s.fwA ∧ t.fwB = s.fwB ∧ t.update = s.update)
    ∧ (∀ (fails : Option Nat) (holdup : Bool) (s : State), s.powered = false →
      (s.wake = true → exec (.powerGoodAssert fails holdup) s
        = .next ({ s with powered := true, recovery := false, bootStep := 0, pgood := none }.bringUp fails holdup 7 1))
      ∧ (s.wake = false → exec (.powerGoodAssert fails holdup) s = .next { s with pgood := some (fails, holdup) }))

/-- R18, R437, R438, R439, R440, R441, R442, R454, R455, R320, R465, R331. Firmware, management, host and test events change the
map, the identity, the measurements, the manifest, the wake state and registers when they may. -/
def Obligations.ManagementEventsAct : Prop :=
    (∀ (n : Nat) (v : BitVec 32) (s : State), n < 40 → s.geodeState n = 0 → (s.launchesOn n).isEmpty = true → (s.geode n).frozen = false →
      s.namedInProgress n = false →
      ∃ t, exec (.geodeMapWrite n v true) s = .next t ∧ t.devFld (aGeodeMap n) 11 8 = nbits v.toNat 11 8
        ∧ t.devFld (aGeodeMap n) 7 0 = s.devFld (aGeodeMap n) 7 0 ∧ t.devFld (aGeodeMap n) 31 12 = s.devFld (aGeodeMap n) 31 12)
    ∧ (∀ (v : BitVec 64) (s : State), s.lodeIdle = true →
      ∃ t, exec (.lodeIdWrite v true) s = .next t ∧ t.devFld aLodeId 47 0 = wbits v 47 0)
    ∧ (∀ (v : BitVec 64) (s : State), v.getLsbD 63 = true →
      exec (.extctlGo v true) s = .next (s.extendMeas (wbits v 2 0) (s.digestAt (aMeas + 0x210))))
    ∧ (∀ (nonce : BitVec 384) (pa : Nat) (s : State),
      (place pa = .main ∧ place (pa + (s.attestation nonce).length - 1) = .main
        ∨ place pa = .durable ∧ place (pa + (s.attestation nonce).length - 1) = .durable) →
      exec (.attestationReport nonce pa) s = .next (s.putOwn pa (s.attestation nonce)))
    ∧ (∀ (e : Envelope) (mgmt : Bool) (s : State), s.accepts e = true → s.recovery = false →
      (envKind e = 1 → s.devFld aBoot 0 0 = 1 →
        exec (.envelopeReceive e mgmt) s = .next { s with replyOk := true, fwA := some e, update := some false })
      ∧ (envKind e = 1 → s.devFld aBoot 0 0 ≠ 1 →
        exec (.envelopeReceive e mgmt) s = .next { s with replyOk := true, fwB := some e, update := some true })
      ∧ (envKind e = 2 → exec (.envelopeReceive e false) s = .next { s with replyOk := true, manifestEnv := some e })
      ∧ (envKind e = 3 → exec (.envelopeReceive e false) s = .next { s with replyOk := true, testEnv := some e }))
    ∧ (∀ (e : Envelope) (mgmt : Bool) (s : State),
      (s.accepts e = false ∨ mgmt = true ∧ envKind e ≠ 1 ∨ s.recovery = true ∧ (mgmt = false ∨ envKind e ≠ 1) →
        exec (.envelopeReceive e mgmt) s = .next { s with replyOk := false })
      ∧ (s.accepts e = true → s.recovery = true → mgmt = true → envKind e = 1 →
        exec (.envelopeReceive e mgmt) s = .next { s with replyOk := true, fwA := some e }))
    ∧ (∀ (digests : List (BitVec 384)) (svn : BitVec 16) (e : Envelope) (s : State), s.manifestEnv = some e → s.lodeIdle = true →
      s.recovery = false → s.accepts e = true → envField e 6 2 = svn.toNat →
      exec (.manifestReplace digests svn e.payload) s
        = .next ({ s with manifest := digests, manifestEnv := none }.extendMeas 2 (beBytes 48 (sha384 e.payload).toNat)))
    ∧ (∀ (t : ScanTest) (e : Envelope) (s u : State) (die id : Nat), die = (if t.die then 1 else 0) → id = 32 * die + t.slot.toNat →
      s.testEnv = some e → t.slot.toNat < 22 → s.slotTaken die t.slot.toNat = false → s.accepts e = true →
      t.trev = Config.slotTrev die t.slot.toNat → t.lhash = Config.slotLhash die t.slot.toNat → Config.fusedOut die t.slot.toNat = false →
      u = s.extendMeas 3 (beBytes 48 (sha384 e.payload).toNat) →
      (t.patterns.all (fun p => p.1 == p.2) = true → s.failedSlots.contains id = false →
        exec (.inFieldTest t) s = .next (u.devSet aTest (BitVec.ofNat 64 (1 + 2 + t.slot.toNat * 4 + die * 2 ^ 7 + 0))))
      ∧ (t.patterns.all (fun p => p.1 == p.2) = true → s.failedSlots.contains id = true →
        ∃ w, exec (.inFieldTest t) s = .next w ∧ w.failedSlots.contains id = false)
      ∧ (t.patterns.all (fun p => p.1 == p.2) = false →
        ∃ w, exec (.inFieldTest t) s = .next w ∧ w.failedSlots.contains id = true))
    ∧ (∀ (nonce : BitVec 384) (e : Envelope) (s : State),
      exec (.managementFrame (.attest nonce)) s = .next (s.answered true (s.attestation nonce))
        ∧ exec (.managementFrame (.envelope e)) s = exec (.envelopeReceive e true) s)
    ∧ (∀ (a : Nat) (s : State), (s.rowHeld (.telemetry a) = false → a % 8 = 0 → telemetry a = true →
        exec (.managementFrame (.telemetry a)) s = .next (s.answered true (leBytes 8 (s.regRead a).toNat)))
      ∧ (s.rowHeld (.telemetry a) = false → a % 8 ≠ 0 ∨ telemetry a = false →
        exec (.managementFrame (.telemetry a)) s = .next (s.answered false []))
      ∧ (s.rowHeld (.telemetry a) = true →
        exec (.managementFrame (.telemetry a)) s = .next { s with heldRows := s.heldRows ++ [.telemetry a] }))
    ∧ (∀ (s : State), exec (.wakePin false) s = .next { s with wake := false }
      ∧ (s.pgood = none ∨ s.powered = true → exec (.wakePin true) s = .next { s with wake := true })
      ∧ ∀ x, s.pgood = some x → s.powered = false → exec (.wakePin true) s = .next ({ s with wake := true }.powerUp x.1 x.2))
    ∧ (∀ (lanes gts : Nat) (s : State), lanes ∈ [0, 1, 2, 4, 8, 16] → gts ≤ 128 →
      exec (.pcieLinkTrain lanes gts) s = .next { s with pcieLanes := lanes, pcieGts := gts })
    ∧ (∀ (core addr : Nat) (op : HostOp) (fw : Bool) (s : State), s.rowHeld (.host addr ⟨core, op⟩ fw) = true →
      exec (.registerWrite addr ⟨core, op⟩ fw) s = .next { s with heldRows := s.heldRows ++ [.host addr ⟨core, op⟩ fw] })
    ∧ (∀ (core addr : Nat) (v : BitVec 64) (fw : Bool) (s : State), core < 24 → place addr = .device →
      (∀ op, s.rowHeld (.host addr ⟨core, op⟩ fw) = false) →
      (addr % 8 = 0 → (∀ n, n ≠ 8 → exec (.registerWrite addr ⟨core, .load n⟩ fw) s = .next (s.hostDone core [] true))
        ∧ (∀ bs, exec (.registerWrite addr ⟨core, .store bs⟩ fw) s = .next (s.hostDone core [] true))
        ∧ exec (.registerWrite addr ⟨core, .word v⟩ fw) s = .next ((s.regWrite addr v fw).hostDone core [] false)
        ∧ exec (.registerWrite addr ⟨core, .load 8⟩ fw) s = .next (s.hostDone core (leBytes 8 (s.regRead addr).toNat) false))
      ∧ (addr % 8 ≠ 0 → ∀ op, exec (.registerWrite addr ⟨core, op⟩ fw) s = .next (s.hostDone core [] true)))
    ∧ (∀ (core : Nat) (bs : List (BitVec 8)) (bad : Bool) (mem : Option (Nat × Nat)) (s : State) (h : HostCore),
      h = (s.hostDone core bs bad mem).hosts.get core {} →
      h.reply = bs ∧ h.faulted = bad ∧ h.pc = (s.hosts.get core {}).pc ∧ h.x = (s.hosts.get core {}).x ∧ h.f = (s.hosts.get core {}).f
        ∧ h.fcsr = (s.hosts.get core {}).fcsr ∧ (mem = none → h.lines = (s.hosts.get core {}).lines)
        ∧ ∀ pa n, mem = some (pa, n) → h.lines.length ≤ hostLines ∧ (0 < n → h.lines.contains (pa / 64) = true))
    ∧ (∀ (core addr n : Nat) (bs : List (BitVec 8)) (fw : Bool) (s : State), core < 24 →
      (∀ op, s.rowHeld (.host addr ⟨core, op⟩ fw) = false) →
      (memPlace addr bs.length = true → place addr ≠ .device → exec (.registerWrite addr ⟨core, .store bs⟩ fw) s
        = .next ((s.storeMain (bytesAtBase addr bs) false false whoHost {}).hostDone core [] false (some (addr, bs.length))))
      ∧ (memPlace addr n = false → place addr ≠ .device →
        exec (.registerWrite addr ⟨core, .load n⟩ fw) s = .next (s.hostDone core [] true))
      ∧ (memPlace addr n = true → place addr ≠ .device → ∀ t, t = s.noteWords ((upto n).map (addr + ·)) false whoHost →
        (((upto n).map (addr + ·)).any t.poisoned = false →
          exec (.registerWrite addr ⟨core, .load n⟩ fw) s
            = .next ((t.hot ((upto n).map (addr + ·)) whoHost).hostDone core (t.bytesAt addr n) false (some (addr, n))))
        ∧ (((upto n).map (addr + ·)).any t.poisoned = true →
          exec (.registerWrite addr ⟨core, .load n⟩ fw) s = .next ((t.hot ((upto n).map (addr + ·)) whoHost).hostDone core [] true (some (addr, n))))))

/-- R351, R443, R444, R445, R446, R448, R449, R450, R454. Inbound fabric and PCIe requests that are admitted read, write and
update memory, others are refused; ports train, retry and fail; errors end requests. -/
def Obligations.FabricEventsServeTheirRequests : Prop :=
    (∀ (lode : BitVec 16) (pa n : Nat) (s t : State), s.admits lode.toNat pa n true false = true →
      t = s.noteWords ((upto n).map (pa + ·)) false whoLode →
      exec (.fabricRequestArrival ⟨lode, pa, .read n⟩) s
        = .next (((t.hot ((upto n).map (pa + ·)) whoLode).answered
            (!(((upto n).map (pa + ·)).map fun a => t.readByte a false false).any (·.poison))
            ((((upto n).map (pa + ·)).map fun a => t.readByte a false false).map (·.b))).countPkg 0x05 1))
    ∧ (∀ (lode : BitVec 16) (pa : Nat) (bs : List (BitVec 8)) (s : State), s.admits lode.toNat pa bs.length false true = true →
      exec (.fabricRequestArrival ⟨lode, pa, .write bs⟩) s
        = .next (((s.storeMain (bytesAtBase pa bs) false false whoLode {}).answered true []).countPkg 0x05 1)
      ∧ ∀ poison, exec (.fabricRequestArrival ⟨lode, pa, .mirror bs poison⟩) s
        = .next ((((s.storeWords (bytesAtBase pa bs) (if poison then (upto bs.length).map (pa + ·) else []) false false whoLode {}).hot
            ((upto bs.length).map (pa + ·)) whoLode).answered true []).countPkg 0x05 1))
    ∧ (∀ (lode : BitVec 16) (pa : Nat) (op : BitVec 4) (t : BitVec 5) (mode : BitVec 3) (opd cmp : BitVec 64) (s : State)
      (x : State × Nat × BitVec 6 × Bool), s.admits lode.toNat pa (atomicBytes t) true true = true →
      x = s.atomicMain pa (atomicBytes t) op t mode (opd.toNat % 2 ^ (8 * atomicBytes t)) (cmp.toNat % 2 ^ (8 * atomicBytes t)) false false
        whoLode {} →
      exec (.fabricRequestArrival ⟨lode, pa, .atomic op t mode opd cmp⟩) s
        = .next ((x.1.answered (!x.2.2.2) (leBytes (atomicBytes t) x.2.1)).countPkg 0x05 1))
    ∧ (∀ (r : FabricRequest) (s : State),
      (∀ n, r.op = .read n → s.admits r.lode.toNat r.pa n true false = false →
          exec (.fabricRequestArrival r) s = .next ((s.answered false []).countPkg 0x05 1))
      ∧ (∀ bs, r.op = .write bs → s.admits r.lode.toNat r.pa bs.length false true = false →
          exec (.fabricRequestArrival r) s = .next ((s.answered false []).countPkg 0x05 1))
      ∧ (∀ bs p, r.op = .mirror bs p → s.admits r.lode.toNat r.pa bs.length false true = false →
          exec (.fabricRequestArrival r) s = .next ((s.answered false []).countPkg 0x05 1))
      ∧ ∀ op t mode opd cmp, r.op = .atomic op t mode opd cmp → s.admits r.lode.toNat r.pa (atomicBytes t) true true = false →
          exec (.fabricRequestArrival r) s = .next ((s.answered false []).countPkg 0x05 1))
    ∧ (∀ (requester : BitVec 16) (va : BitVec 64) (len : Nat) (s t u v : State) (pasid : BitVec 20) (cs : List Cell) (ps : List PortReq)
      (go : Bool), Config.requesterPasid requester = some pasid → t = (s.meetPages pasid va.toNat len whoHost.req).countPages pasid false va.toNat len true →
      (t.spansAt pasid false va.toNat len).2 = false → t.cellsOf (t.spansAt pasid false va.toNat len).1 = (cs, none) →
      t.engineGo [] cs = (ps, go, u) → v = u.noteCells cs whoHost →
      (go = true → exec (.pcieInboundRequest ⟨requester, va, none, len⟩) s
        = .next ((v.hot (memPas cs) whoHost).answered (!(cs.map v.cellByte).any (·.poison)) ((cs.map v.cellByte).map (·.b))))
      ∧ (go = false → exec (.pcieInboundRequest ⟨requester, va, none, len⟩) s
        = .next { u with pcieOut := u.pcieOut ++ [{ req := ⟨requester, va, none, len⟩, ports := ps }] }))
    ∧ (∀ (requester : BitVec 16) (va : BitVec 64) (len : Nat) (bs : List (BitVec 8)) (s t u : State) (pasid : BitVec 20) (cs : List Cell)
      (ps : List PortReq) (go : Bool), Config.requesterPasid requester = some pasid →
      t = (s.meetPages pasid va.toNat bs.length whoHost.req).countPages pasid true va.toNat bs.length true →
      (t.spansAt pasid true va.toNat bs.length).2 = false → t.cellsOf (t.spansAt pasid true va.toNat bs.length).1 = (cs, none) →
      t.engineGo [] cs = (ps, go, u) →
      (go = true → exec (.pcieInboundRequest ⟨requester, va, some bs, len⟩) s
        = .next (((u.putCells (cs.zip (bs.map fun b => ⟨b, false⟩)) whoHost).hot (memPas cs) whoHost).answered true []))
      ∧ (go = false → exec (.pcieInboundRequest ⟨requester, va, some bs, len⟩) s
        = .next { u with pcieOut := u.pcieOut ++ [{ req := ⟨requester, va, some bs, len⟩, ports := ps }] }))
    ∧ (∀ (r : PcieRequest) (s : State), Config.requesterPasid r.requester = none →
      exec (.pcieInboundRequest r) s = .next (s.answered false []))
    ∧ (∀ (k lanes gbps : Nat) (s : State), k < 24 → s.devFld (aPort k) 0 0 ≠ 0 → s.devFld (aPort k) 2 1 ≠ 3 →
      exec (.portTrain k lanes gbps) s
        = .next ({ s with flitRuns := s.flitRuns.del k }.devPut (aPort k) 2 1 (if lanes = 4 ∧ gbps = 200 then 2 else 0)))
    ∧ (∀ (k : Nat) (s : State), k < 24 → s.devFld (aPort k) 2 1 = 2 → s.flitRuns.get k 0 + 1 < 32 →
      ∃ t, exec (.flitCrcError k) s = .next t ∧ t.flitRuns.get k 0 = s.flitRuns.get k 0 + 1
        ∧ t.devFld (aPort k) 31 16 = min 0xFFFF (s.devFld (aPort k) 31 16 + 1)
        ∧ t.devFld (aPort k) 47 32 = min 0xFFFF (s.devFld (aPort k) 47 32 + 1) ∧ t.devFld (aPort k) 2 1 = 2)
    ∧ (∀ (k : Nat) (s : State), k < 24 → s.devFld (aPort k) 2 1 = 2 → s.flitRuns.get k 0 = 31 →
      ∃ u : State, exec (.flitCrcError k) s
          = .next ((u.devPut (aPort k) 2 1 3).failReqs (fun r => r.port == k) 3)
        ∧ u.flitRuns.get k 0 = 0 ∧ u.devFld (aPort k) 31 16 = min 0xFFFF (s.devFld (aPort k) 31 16 + 1)
        ∧ u.devFld (aPort k) 47 32 = min 0xFFFF (s.devFld (aPort k) 47 32 + 1))
    ∧ (∀ (id : Nat) (s : State), exec (.fabricTimeout id) s = .next (s.failReqs (fun r => r.seq == id) 4)
      ∧ (s.failReqs (fun r => r.seq == id) 4).accs.any (fun a => a.ports.any fun r => r.seq == id && !r.done) = false)
    ∧ (∀ (lode : BitVec 16) (cause : BitVec 4) (s : State), cause = 1 ∨ cause = 2 →
      (∀ r, r ∈ s.allReqs → r.lode = lode.toNat → (∀ q ∈ s.allReqs, q.lode = lode.toNat → q = r ∨ r.seq < q.seq) →
        exec (.fabricError lode cause) s = .next (s.failReqs (fun q => q == r) cause.toNat))
      ∧ ((∀ q ∈ s.allReqs, q.lode ≠ lode.toNat) → exec (.fabricError lode cause) s = .next s))

/-- R32, R34, R353, R379. A step that offers a facet a bundle of one decoded operation runs exactly that operation and then the
bundle's commit. -/
def Obligations.StepRunsTheDecodedBundle : Prop :=
    ∀ (s r u v : State) (c : Nat) (i : Instr), s.turn = false → s.nextIssuer = some c → i.slot?.isSome = true →
      r = { s with stands := false } → (r.offered c).fetched.ops = [i] → (r.offered c).passes (r.offered c).fetched = true →
      ((r.offered c).pass (r.offered c).fetched).due = [i, .bundleCommit c]
        ∧ (exec i { (r.offered c).pass (r.offered c).fetched with due := [.bundleCommit c] } = .next u → u.due = [.bundleCommit c] →
            exec (.bundleCommit c) { u with due := [] } = .next v → v.due = [] →
            (v.stands = false → s.stands = false → step s = .next v)
              ∧ (v.stands = false → s.stands = true → step s = .next { v with stands := true })
              ∧ (v.stands = true → step s = .next ({ s with turn := true, lastCore := c }.standing v)))

/-- R43, R44, R105, R140, R225, R230, R240, R310, R392, R208. The words that the spec writes out decode to the instructions that
it names. -/
def Obligations.SpecWordsDecodeToTheirInstruction : Prop :=
    decodeSlot .s 0x0100C10800000000 = .ok (some (.add 0 3 1 2))
    ∧ decodeSlot .st 0x0800188001400000 = .ok (some (.vspill 0 3 2 320))
    ∧ decodeSlot (.v .a) 0x7000282400030000 = .ok (some (.movVs .a 0 5 9 3))
    ∧ decodeSlot .s 0x4204042400000000 = .ok (some (.cmpLt 0 2 4 9))
    ∧ decodeSlot .s 0x5501400000240007 = .ok (some (.loopi 0 2 1 9 7))
    ∧ decodeSlot .ld 0x0200390000800000 = .ok (some (.ldV 0 7 4 128 0 0))
    ∧ decodeSlot .st 0x0200618002000101 = .ok (some (.stV 0 12 6 0x200 0 2 0 1))
    ∧ decodeSlot .sy 0x18001200 = .ok (some (.tsync 0 0x48))
    ∧ decodeSlot .cp 0x0102300000000007 = .ok (some (.feed 0 2 3 0 0 0 0 7))
    ∧ decodeSlot .ld 0x090050C000000003 = .ok (some (.translate 0 10 3 3))
    ∧ decodeSlot .ld 0x070038CA00020000 = .ok (some (.ldhV 0 7 3 5 2 0 0))
    ∧ decodeSlot .s 0x6200050000000014 = .ok (some (.wrsys 0 5 0x014))
    ∧ decodeSlot .s 0x6500000000000000 = .ok (some (.eret 0))
    ∧ decodeMicro (8 * 2 ^ 124 + 2 ^ 94) = some (.microLoop 0 0 0 1)
    ∧ decodeMicro (10 * 2 ^ 124) = some .microEnd

/-- R36, R40, R42, R52. The stored form of a bundle of one well-formed operation is fetched as exactly that operation, with no
fault where its limits hold. -/
def Obligations.FetchReadsTheStoredBundle : Prop :=
    ∀ (s : State) (i : Instr) (k : Slot) (w : Nat), i.wf = true → i.slot? = some k → encode i = some w →
      s.me.pc + (4 + slotBytes k) ≤ Config.bankBytes →
      s.here.ist.bytes (codeAddr s.me.bank s.me.pc) (4 + slotBytes k) = oneSlotBytes k w → s.here.istPoison = [] →
      s.fetched.ops = [i] ∧ s.fetched.size = 4 + slotBytes k ∧ s.fetched.h = decodeHeader ((presentOf k).toNat * 2 ^ 16)
        ∧ ((privileged i = true → s.here.sysAt s.me.bank s.me.pc = true) → placeOk s.me.pc (4 + slotBytes k) 0 i = true →
            (vnames i).all (fun v => decide (v.toNat < s.me.allot)) = true → s.fetched.fault = none)

/-- R43, R44, R45, R52, R55, R203. Decoding the encoding of any well-formed instruction gives it back, with every operand at
every value the encoding admits. -/
def Obligations.DecodeInvertsEncode : Prop :=
    (∀ i : Instr, i.wf = true →
      (∀ k, i.slot? = some k → ∃ w, encode i = some w ∧ w < 2 ^ (8 * slotBytes k) ∧ decodeSlot k w = .ok (some i))
        ∧ (i.slot? = none → ∀ w, encode i = some w → w < 2 ^ 128 ∧ decodeMicro w = some i))
    ∧ (∀ (o c : BitVec 1) (v : BitVec 16) (r : BitVec 2) (t : BitVec 10) (i : Instr),
        i ∈ [.nop, .popA, .popB, .pass o, .passSp o, .acc v r, .zero, .shift v r, .microLoop t c v r, .jump t, .microEnd, .scale v r, .wit,
          .sync v r] → i.wf = true → ∃ w, encode i = some w)
    ∧ (∀ (k : Slot) (w : Nat) (i : Instr), decodeSlot k w = .ok (some i) → i.wf = true ∧ encode i = some w)
    ∧ ∀ (w : Nat) (i : Instr), decodeMicro w = some i → i.wf = true ∧ encode i = some w

/-- R342, R343, R307, 11_main_memory.md, 12_durable_tier_and_mirror.md. Every step keeps the memories canonical, the durable
queue's entries whole lines, and sealed entries ahead of the others. -/
def Obligations.StepKeepsMemoriesCanonical : Prop :=
    ∀ s t : State, s.canonical = true → step s = .next t → t.canonical = true

/-- R142, R143, R308, R326, R350, R357, R377, R389, R423, R465. At reset no facet is resident, memory lists nothing, the event
rings are off and the registers the spec gives hold their reset values. -/
def Obligations.ResetStateIsTheSpecs : Prop :=
    State.reset.canonical = true ∧ State.reset.spadsCanonical = true ∧ State.reset.mem = [] ∧ State.reset.media = [] ∧ State.reset.durQ = [] ∧ State.reset.powered = true ∧ State.reset.recovery = false ∧ State.reset.launches = []
    ∧ State.reset.devFld aLodeId 47 0 = 0
    ∧ (∀ c n, (State.reset.facet c n).resident = false ∧ (State.reset.facet c n).flags = 0 ∧ (State.reset.facet c n).group = 0
        ∧ (State.reset.facet c n).est = BitVec.allOnes 64 ∧ (State.reset.facet c n).tcause = 0 ∧ (State.reset.facet c n).tinfo = 0
        ∧ (State.reset.facet c n).intrap = false ∧ (State.reset.facet c n).lsDepth = 0
        ∧ ∀ h, ((State.reset.facet c n).h.get h {}).valid = false ∧ ((State.reset.facet c n).h.get h {}).fcode = 8)
    ∧ (∀ k, (State.reset.qslot k).state = 0)
    ∧ (∀ k < 16, State.reset.mirState k = 0 ∧ State.reset.mirEn k = 0) ∧ (∀ c, (State.reset.core c).evq = [])
    ∧ (∀ r ∈ [0x20, 0x28, 0x30], State.reset.devGet (aMmr + r) = 0)
    ∧ (∀ p < 8, ∀ r ∈ [0x08, 0x10, 0x18, 0x20, 0x40, 0x48, 0x50], State.reset.devGet (aPart p + r) = 0)

/-- R7. s0 reads zero, g0 true and m0 every lane active in every state, and a write of one of them changes no register's
reading. -/
def Obligations.HardWiredRegistersDiscardWrites : Prop :=
    ∀ (f : Facet) (ctr n c : Nat) (w : RegWrite) (lat : Nat) (fl : BitVec 6) (po : Bool),
      (f.readS ctr 0 = 0 ∧ f.readG ctr 0 = true ∧ f.readM ctr 0 = BitVec.allOnes 128)
        ∧ (w.void = true →
            ({ f.issue w lat fl 0 po with clock := c }.readS ctr n = { f with clock := c }.readS ctr n
              ∧ { f.issue w lat fl 0 po with clock := c }.readG ctr n = { f with clock := c }.readG ctr n
              ∧ { f.issue w lat fl 0 po with clock := c }.readM ctr n = { f with clock := c }.readM ctr n
              ∧ { f.issue w lat fl 0 po with clock := c }.readX ctr n = { f with clock := c }.readX ctr n
              ∧ { f.issue w lat fl 0 po with clock := c }.readH ctr n = { f with clock := c }.readH ctr n
              ∧ { f.issue w lat fl 0 po with clock := c }.readQ ctr n = { f with clock := c }.readQ ctr n
              ∧ { f.issue w lat fl 0 po with clock := c }.readD ctr n = { f with clock := c }.readD ctr n
              ∧ { f.issue w lat fl 0 po with clock := c }.readY ctr n = { f with clock := c }.readY ctr n
              ∧ ∀ k : Core, k.readV { f.issue w lat fl 0 po with clock := c } ctr n = k.readV { f with clock := c } ctr n)
            ∧ ∀ (k t : Core) (fn : Nat), t = k.landOne fn ⟨w, fl, f.clock, f.clock + lat, true, 0, po⟩ →
                (t.facet fn).s = (k.facet fn).s ∧ (t.facet fn).g = (k.facet fn).g ∧ (t.facet fn).m = (k.facet fn).m
                  ∧ (t.facet fn).x = (k.facet fn).x ∧ (t.facet fn).h = (k.facet fn).h ∧ (t.facet fn).q = (k.facet fn).q
                  ∧ (t.facet fn).d = (k.facet fn).d ∧ (t.facet fn).y = (k.facet fn).y ∧ t.vfile = k.vfile)

/-- R32, R49, R50, R3. A result is undefined to later bundles until its bound and is read from then on; of two writes in flight
the younger one stands. -/
def Obligations.ResultsAreReadableFromTheirBound : Prop :=
    ∀ (f : Facet) (ctr n lat lat2 c2 : Nat) (v v2 : BitVec 64) (fl : BitVec 6), n ≠ 0 → f.flight (.s n) = [] → f.replayed (.s n) = false →
      f.intrap = false → f.clock < c2 →
      (f.issue (.s n v) lat fl 0).readS ctr n = f.s.get n 0
        ∧ (∀ c, f.clock < c → c < f.clock + lat → { f.issue (.s n v) lat fl 0 with clock := c }.readS ctr n = Config.freeWord ctr n)
        ∧ (∀ c, f.clock < c → f.clock + lat ≤ c → { f.issue (.s n v) lat fl 0 with clock := c }.readS ctr n = v)
        ∧ (∀ c, c2 < c → c < max (f.clock + lat) (c2 + lat2) →
            { { f.issue (.s n v) lat fl 0 with clock := c2 }.issue (.s n v2) lat2 fl 0 with clock := c }.readS ctr n = Config.freeWord ctr n)
        ∧ (∀ c, c2 < c → max (f.clock + lat) (c2 + lat2) ≤ c →
            { { f.issue (.s n v) lat fl 0 with clock := c2 }.issue (.s n v2) lat2 fl 0 with clock := c }.readS ctr n = v2)

/-- R51. A slot operation whose guard is false leaves every register, flag, byte of memory and value in flight as it was. -/
def Obligations.FalseGuardHasNoEffect : Prop :=
    ∀ (i : Instr) (s : State), i.slot?.isSome = true → s.idle i = true → exec i s = .next s

/-- R53, R383, R384. A slot operation that fails a check of its own takes the trap of its first failing check and has no effect. -/
def Obligations.FailingCheckTraps : Prop :=
    ∀ (i : Instr) (s : State) (x : TrapInfo), i.slot?.isSome = true → s.me.resident = true → s.me.latch.passed = false →
      s.waits i = false → s.issueTrap i = some x → exec i s = .next (s.takeTrap x)

/-- R49, R51, R54, R56, R121, R153, R281. Every ready slot operation completes and changes no register but its destinations, no
other facet and no byte of main or durable memory. -/
def Obligations.SlotOperationsFrameRegisters : Prop :=
    ∀ (i : Instr) (s : State), i.slot?.isSome = true → s.ready i = true → ∃ t, exec i s = .next t
        ∧ (∀ r, r ∉ dests s.me i → t.me.flight r = s.me.flight r) ∧ s.me.keepsFiles t.me
        ∧ (t.cur = s.cur ∧ t.fn = s.fn ∧ t.mem = s.mem ∧ t.media = s.media ∧ t.durQ = s.durQ)
        ∧ (∀ c, (t.core c).vfile = (s.core c).vfile ∧ (t.core c).ist = (s.core c).ist ∧ (t.core c).routines = (s.core c).routines)
        ∧ (∀ c n, c ≠ s.cur ∨ n ≠ s.fn → t.facet c n = s.facet c n)
        ∧ (roundsAtIssue i = false → (∀ g k, i ≠ .flagsClr g k) → t.me.flags = s.me.flags)
        ∧ ((∀ g st ro a e, i ≠ .loop g st ro a e) → (∀ g st ro e n, i ≠ .loopi g st ro e n) → (∀ g o, i ≠ .lexit g o) →
            t.me.lstk = s.me.lstk ∧ t.me.lsDepth = s.me.lsDepth ∧ t.me.rotBase = s.me.rotBase)
        ∧ ((∀ g a k, i ≠ .setest g a k) → t.me.estSet = s.me.estSet ∧ t.me.estAt = s.me.estAt)

/-- R103, R218, R230, R231, R232. Every ready slot operation completes and changes no scratchpad byte but, for a store or
atomic, those at the places it computes on its own core. -/
def Obligations.SlotOperationsFrameScratchpad : Prop :=
    ∀ (i : Instr) (s : State), i.slot?.isSome = true → s.ready i = true → ∃ t, exec i s = .next t
        ∧ (∀ c, c ≠ s.cur → (t.core c).spad = (s.core c).spad)
        ∧ (s.spadWrites i = none → (∀ g d xb off ty mode op, i ≠ .amoP g d xb off ty mode op) → t.here.spad = s.here.spad)
        ∧ (∀ ws, s.spadWrites i = some ws → (∀ w ∈ ws, s.spCore w.addr = s.cur) →
            ∀ o, o ∉ ws.map (fun w => s.spadPlace w.addr) → t.here.spad.get o = s.here.spad.get o)
        ∧ (∀ ws, s.spadWrites i = some ws → (∀ w ∈ ws, ∀ w' ∈ ws, s.spCore w.addr = s.spCore w'.addr) →
            ∀ o, o ∉ (ws.filter fun w => s.spCore w.addr == s.cur).map (fun w => s.spadPlace w.addr) →
              t.here.spad.get o = s.here.spad.get o)
        ∧ (∀ g d xb off ty mode op, i = .amoP g d xb off ty mode op →
            ∀ o, ¬(s.spadPlace (spAddr (s.readX xb) off.toInt / tyBytes ty * tyBytes ty) ≤ o
                ∧ o < s.spadPlace (spAddr (s.readX xb) off.toInt / tyBytes ty * tyBytes ty) + tyBytes ty) →
              t.here.spad.get o = s.here.spad.get o)
        ∧ (∀ g d xb off ty mode op, i = .amoP g d xb off ty mode op →
            s.spCore (spAddr (s.readX xb) off.toInt / tyBytes ty * tyBytes ty) ≠ s.cur → t.here.spad = s.here.spad)

/-- R382, R384, R385, R386, R388, R390, R393, R394. Taking a trap records it, moves results to replay, and enters the handler or
parks with the code of the first condition that fails. -/
def Obligations.TrapEntryFollowsItsConditions : Prop :=
    ∀ (s t w : State) (c n : Nat) (f u : Facet) (x : TrapInfo), s.facet c n = f → t = s.takeTrapOf c n x → t.facet c n = u →
      w = s.meetWalk f.pasid f.tframe.toNat (geodeOf c) →
      (f.intrap = true → u.parked = true ∧ u.parkCode = 0x21 ∧ u.tcause = f.tcause ∧ u.tinfo = f.tinfo ∧ u.s = f.s)
        ∧ (f.intrap = false →
            u.tcause = x.word ∧ u.tinfo = x.info ∧ u.frameOk = (w.framePlace f).isSome ∧ u.replay = f.landings ∧ u.landings = []
              ∧ u.progClock = f.clock
              ∧ (x.parks = true → u.parked = true ∧ u.parkCode = BitVec.ofNat 8 x.cause.code ∧ u.intrap = false)
              ∧ (x.parks = false → tbaseOk (s.core c) f = false → u.parked = true ∧ u.parkCode = 0x20 ∧ u.intrap = false)
              ∧ (x.parks = false → tbaseOk (s.core c) f = true → w.framePlace f = none → u.parked = true ∧ u.parkCode = 0x22 ∧ u.intrap = false)
              ∧ (x.parks = false → tbaseOk (s.core c) f = true → (w.framePlace f).isSome = true →
                  u.intrap = true ∧ u.parked = false ∧ u.pc = wbits f.tbase 14 0 ∧ u.bank = f.tbase.getLsbD 15 ∧ u.clock = 0
                    ∧ u.s.get 1 0 = f.tframe ∧ u.s.get 2 0 = x.word ∧ (∀ k, k ≠ 1 → k ≠ 2 → u.s.get k 0 = f.s.get k 0)
                    ∧ (s.canonical = true → ∀ pa, w.framePlace f = some (.here pa) →
                        t.holdsFrame pa ((s.core c).sysAt f.bank f.pc) f x.word x.info ∧ t.poisonsFrame pa f)))

/-- R143, R144, R387, R390, R392. The return from a handler restores s, g, m, x, q, d, y, the loop stack, flags and place from
the frame, and no handle or vector register, or parks. -/
def Obligations.ReturnRestoresTheFrame : Prop :=
    ∀ (s v t : State) (c n : Nat) (f u : Facet), s.facet c n = f → v = s.meetFrame c n → t = s.returnFrom c n → t.facet c n = u →
      (∀ pa, v.framePlace f = some pa → v.framePoisoned f pa = false →
        wbits (v.frameNum pa 0x10) 63 16 = 0 → wbits (v.frameNum pa 0x10) 1 0 = 0 →
        (u.intrap = false ∧ u.parked = false ∧ u.pc = wbits (v.frameNum pa 0x10) 14 0 ∧ u.bank = (v.frameNum pa 0x10).getLsbD 15)
          ∧ (u.clock = f.progClock ∧ u.landings = f.replay ∧ u.replay = [] ∧ t.mem = v.mem)
          ∧ (∀ k, 1 ≤ k → k < 64 → u.s.get k 0 = v.frameNum pa (0x400 + 8 * k))
          ∧ (∀ k, 1 ≤ k → k < 8 → u.g.getLsbD k = (v.frameNum pa 0x48).getLsbD k)
          ∧ (∀ k, 1 ≤ k → k < 16 → u.m.get k 0
              = BitVec.ofNat 128 ((v.frameNum pa (0x2C0 + 16 * k)).toNat + (v.frameNum pa (0x2C8 + 16 * k)).toNat * 2 ^ 64))
          ∧ (∀ k < 32, u.x.get k 0 = BitVec.ofNat 32 (v.frameNumAt pa (0x240 + 4 * k) 4))
          ∧ (∀ k < 8, u.q.get k 0 = v.frameNum pa (0x180 + 8 * k)) ∧ (∀ k < 16, u.d.get k 0 = v.frameNum pa (0x1C0 + 8 * k))
          ∧ (∀ k < 4, u.y.get k 0 = v.frameNum pa (0x160 + 8 * k))
          ∧ (∀ k < 6, ∀ e : LoopEntry, u.lstk.get k {} = e →
              e.start = wbits (v.frameNum pa (0x80 + 16 * k)) 14 0 ∧ e.bank = (v.frameNum pa (0x80 + 16 * k)).getLsbD 15
                ∧ e.stop = wbits (v.frameNum pa (0x80 + 16 * k)) 31 16 ∧ e.rot = (v.frameNum pa (0x80 + 16 * k)).getLsbD 32
                ∧ e.stages.toNat = wbits (v.frameNum pa (0x80 + 16 * k)) 34 33 ∧ e.count = v.frameNum pa (0x88 + 16 * k))
          ∧ (u.lsDepth = (if wbits (v.frameNum pa 0x20) 3 1 = 7 then f.lsDepth else wbits (v.frameNum pa 0x20) 3 1)
            ∧ (∀ b w, f.rotRegion = some (b, w) → u.rotBase = wbits (v.frameNum pa 0x20) 7 4 % (w / 2))
            ∧ (f.rotRegion = none → u.rotBase = 0))
          ∧ (u.flags = (v.frameNum pa 0x28).truncate 6 ∧ u.estSet = v.frameNum pa 0x38 ∧ u.estAt = v.frameNum pa 0x40
            ∧ u.rbase = if (v.frameNum pa 0x50).getLsbD 63 then none else some (v.frameNum pa 0x50).toNat)
          ∧ (u.tbase = f.tbase ∧ u.tframe = f.tframe ∧ u.tcause = f.tcause ∧ u.tinfo = f.tinfo)
          ∧ (∀ k, f.flight (.h k) = [] → u.h.get k {} = f.h.get k {})
          ∧ (∀ k, f.flight (.v k) = [] → (t.core c).vfile.get k {} = (s.core c).vfile.get k {}) ∧ (t.core c).acc = (s.core c).acc)
        ∧ ((v.framePlace f = none ∨ ∃ pa, v.framePlace f = some pa ∧ (v.framePoisoned f pa = true
              ∨ wbits (v.frameNum pa 0x10) 63 16 ≠ 0 ∨ wbits (v.frameNum pa 0x10) 1 0 ≠ 0)) →
            u.parked = true ∧ u.parkCode = 0x22 ∧ u.intrap = f.intrap ∧ u.s = f.s ∧ u.g = f.g ∧ u.pc = f.pc
              ∧ u.h = f.h ∧ (t.core c).vfile = (s.core c).vfile)

/-- R52, R142, R143, R144, R388, R395. A committed wrsys writes the fields of FSTATE, TBASE, TFRAME, a loop-stack entry or PARK
and no other; any other index is an illegal encoding. -/
def Obligations.SystemRegisterWritesFollowTheBundle : Prop :=
    (∀ (core fn : Nat) (s : State) (f : Facet) (l : Latch) (ix : Nat) (v : BitVec 64), fn = (s.core core).run → s.facet core fn = f → f.latch = l →
      f.resident = true → (s.geode (geodeOf core)).frozen = false → l.passed = true → l.halted = false → l.after = none →
      l.returned = false → l.parked = false → l.yielded = false → l.sysWrite = some (ix, v) →
      (ix = 0 → exec (.bundleCommit core) s = .next ((s.committed core).modFacet core fn fun u =>
          { u with
            lsDepth := if wbits v 3 1 = 7 then u.lsDepth else wbits v 3 1
            rotBase := match u.rotRegion with | some r => wbits v 7 4 % (r.2 / 2) | none => 0 }))
        ∧ (ix = 0x10 → exec (.bundleCommit core) s
            = .next ((s.committed core).modFacet core fn fun u => { u with tbase := v &&& 0x800000000000FFFF }))
        ∧ (ix = 0x11 → exec (.bundleCommit core) s
            = .next ((s.committed core).modFacet core fn fun u => { u with tframe := v &&& 0x01FFFFFFFFFFFFFF }))
        ∧ (∀ k < 6, ix = 0x40 + 2 * k → exec (.bundleCommit core) s = .next ((s.committed core).modFacet core fn fun u =>
            { u with
              lstk := u.lstk.set k
                { start := wbits v 14 0, bank := v.getLsbD 15, stop := wbits v 31 16, count := (u.lstk.get k {}).count
                  rot := v.getLsbD 32, stages := v.extractLsb' 33 2 } }))
        ∧ (∀ k < 6, ix = 0x41 + 2 * k → exec (.bundleCommit core) s = .next ((s.committed core).modFacet core fn fun u =>
            { u with lstk := u.lstk.set k { u.lstk.get k {} with count := v } }))
        ∧ (ix = 0x14 → v.getLsbD 1 = false → exec (.bundleCommit core) s = .next (s.committed core))
        ∧ (ix = 0x14 → v.getLsbD 1 = true → ∃ t, exec (.bundleCommit core) s = .next t
            ∧ (t.facet core fn).parked = true ∧ (t.facet core fn).parkCode = 0x24))
    ∧ (∀ (allot pc size : Nat) (scope : BitVec 3) (w : Nat) (g : BitVec 4) (a : BitVec 6) (ix : BitVec 12),
        readSlot .s w = some (.wrsys g a ix) → w / 2 ^ opLo .s ≠ 0 → ix ≠ 0 → ix ≠ 0x10 → ix ≠ 0x11 → ix ≠ 0x14 →
        ¬(0x40 ≤ ix.toNat ∧ ix.toNat ≤ 0x4B) → slotFault true allot pc size scope .s w = some ⟨0, .illegalEncoding, 0⟩)
    ∧ ∀ (sys : Bool) (allot pc size : Nat) (scope : BitVec 3) (w : Nat) (g : BitVec 4) (d : BitVec 6) (ix : BitVec 12),
        readSlot .s w = some (.rdsys g d ix) → w / 2 ^ opLo .s ≠ 0 → 2 < ix.toNat → ¬(0x10 ≤ ix.toNat ∧ ix.toNat ≤ 0x14) →
        ¬(0x40 ≤ ix.toNat ∧ ix.toNat ≤ 0x4B) → slotFault sys allot pc size scope .s w = some ⟨0, .illegalEncoding, 0⟩

/-- R312, R318, R320. A handle access faults with the handle's own code, then 2, 5 and 7, for the first of validity, permission,
page and device form that fails. -/
def Obligations.HandleChecksComeInOrder : Prop :=
    ∀ (i : Instr) (s : State) (u : HUse), s.hUse i = some u → s.guard i.guard = true → s.parityTrap i true = none →
      s.issueTrap i
        = if u.h.valid = false then some (trapOf i .handleFault 0 u.hn.toNat u.h.fcode.toNat)
          else if (u.rd = true ∧ u.h.r = false) ∨ (u.wr = true ∧ u.h.w = false) then some (trapOf i .handleFault 0 u.hn.toNat 2)
          else if u.h.inPage u.ea u.n = false then some (trapOf i .handleFault 0 u.hn.toNat 5)
          else if u.h.dev = true ∧ (u.devForm = false ∨ u.ea % 8 ≠ 0) then some (trapOf i .handleFault 0 u.hn.toNat 7)
          else none

/-- R52, R142, R388. wrsys, eret and rdsys of a system register fail decode as privileged outside a system segment, and nothing
else does. -/
def Obligations.PrivilegedOpcodesNeedASystemSegment : Prop :=
    (∀ (allot pc size : Nat) (scope : BitVec 3) (k : Slot) (w : Nat) (i : Instr), readSlot k w = some i → w / 2 ^ opLo k ≠ 0 →
      (∃ g a ix, i = .wrsys g a ix) ∨ (∃ g, i = .eret g) ∨ (∃ g d ix, i = .rdsys g d ix ∧ systemIndex ix.toNat = true) →
      slotFault false allot pc size scope k w = some ⟨slotNo k, .privileged, 0⟩)
    ∧ ∀ (sys : Bool) (allot pc size : Nat) (scope : BitVec 3) (k : Slot) (w : Nat) (x : DecodeFault),
        slotFault sys allot pc size scope k w = some x → x.cause = .privileged →
        sys = false ∧ ∃ i, readSlot k w = some i ∧ privileged i = true

/-- R307, R313, R314, R315. A walk of a page table ends at each level with FCODE 6, 1 or 3, with the leaf, or goes on to the
next table. -/
def Obligations.PageWalkEndsWithItsCode : Prop :=
    ∀ (s : State) (va lvl table pa e : Nat), pa = table + 8 * (va / 2 ^ (levelBits lvl).1 % 2 ^ (levelBits lvl).2) → e = s.numAt pa 8 →
      (s.poisoned pa = true → s.walkFrom va (lvl + 1) table = .error 6)
        ∧ (s.poisoned pa = false →
            (e.testBit 0 = false → s.walkFrom va (lvl + 1) table = .error 1)
              ∧ (e.testBit 0 = true → e.testBit 1 = true →
                  (3 ≤ lvl ∨ 256 * nbits e 47 8 % 2 ^ pageBits (BitVec.ofNat 2 lvl) ≠ 0 ∨ (e.testBit 7 = false ∧ nbits e 63 48 ≠ 0)
                      ∨ (e.testBit 7 = false ∧ place (256 * nbits e 47 8) = .hole)
                      ∨ (place (256 * nbits e 47 8) = .device ∧ (e.testBit 7 = true ∨ lvl ≠ 0))) →
                  s.walkFrom va (lvl + 1) table = .error 3)
              ∧ (e.testBit 0 = true → e.testBit 1 = false →
                  (lvl = 0 ∨ e.testBit 7 = true ∨ nbits e 63 48 ≠ 0 ∨ place (256 * nbits e 47 8) ≠ .main
                      ∨ 256 * nbits e 47 8 % (if lvl = 1 then 256 else 4096) ≠ 0) →
                  s.walkFrom va (lvl + 1) table = .error 3)
              ∧ (∀ p, p = place (256 * nbits e 47 8) → e.testBit 0 = true → e.testBit 1 = true → lvl < 3 →
                  256 * nbits e 47 8 % 2 ^ pageBits (BitVec.ofNat 2 lvl) = 0 →
                  (e.testBit 7 = false → nbits e 63 48 = 0 ∧ p ≠ .hole) → (p = .device → e.testBit 7 = false ∧ lvl = 0) →
                  ∃ l : Leaf, s.walkFrom va (lvl + 1) table = .ok l ∧ l.psize = BitVec.ofNat 2 lvl ∧ l.r = e.testBit 2 ∧ l.w = e.testBit 3
                    ∧ l.tol = e.testBit 4 ∧ l.tpol = e.testBit 5 ∧ l.pin = e.testBit 6 ∧ l.rem = e.testBit 7
                    ∧ l.dev = (!e.testBit 7 && p == .device) ∧ l.lode.toNat = nbits e 63 48 ∧ l.frame.toNat = nbits e 47 16)
              ∧ (e.testBit 0 = true → e.testBit 1 = false → lvl ≠ 0 → e.testBit 7 = false → nbits e 63 48 = 0 →
                  place (256 * nbits e 47 8) = .main → 256 * nbits e 47 8 % (if lvl = 1 then 256 else 4096) = 0 →
                  s.walkFrom va (lvl + 1) table = s.walkFrom va lvl (256 * nbits e 47 8)))

/-- R322, R326. An accepted INVAL_GO turns every valid matching handle in a register into one with FCODE 4 and leaves every
other handle as it is. -/
def Obligations.RevocationInvalidatesMatchingHandles : Prop :=
    ∀ (v : BitVec 64) (s t u : State) (q : InvalArg), s.inval = none → wbits v 3 2 ≠ 3 →
      u = (s.devPut (aMmr + 0x10) 23 0 (wbits v 23 0)).countPkg 0x04 1 → q = u.invalArg v →
      s.cores.any (fun k => k.2.facets.any fun f => f.2.resident && f.2.pins q) = false →
      s.fossils.any (fun x => x.used && x.cores.any fun k => k.2.facets.any fun f => f.2.resident && f.2.pins q) = false →
      exec (.invalGo v) s = .next t →
      (∀ c n hn, (t.facet c n).h.get hn {}
          = if ((s.facet c n).h.get hn {}).valid && q.matches (s.facet c n).pasid ((s.facet c n).h.get hn {})
            then { (s.facet c n).h.get hn {} with valid := false, fcode := 4 } else (s.facet c n).h.get hn {})
        ∧ (∀ g, ∀ e ∈ (t.geode g).tcache, q.leafMatches e = false) ∧ t.mem = s.mem

/-- R281, R342. A byte written to main or durable memory reads back, no other byte changes, and moving the oldest queue entry to
the media changes no byte. -/
def Obligations.DurableBytesSurviveTheirQueue : Prop :=
    ∀ s : State, s.canonical = true →
      (∀ pa b, place pa = .main ∨ place pa = .durable →
        (s.putByte pa b).byteAt pa = b ∧ ∀ q, q ≠ pa → (s.putByte pa b).byteAt q = s.byteAt q)
        ∧ ∀ t, exec .writeQueueToMedia s = .next t → ∀ q, t.byteAt q = s.byteAt q

/-- R222, R224, R231. An untyped 8-byte st.s to an aligned place of the own core followed by ld.s of the same address issues the
stored register's value. -/
def Obligations.ScratchpadStoreThenLoadReturnsTheValue : Prop :=
    ∀ (g g' : BitVec 4) (a d : BitVec 6) (xb : BitVec 5) (off : BitVec 22) (mode : BitVec 3) (sx : BitVec 1) (s : State),
      s.ready (.stS g a xb off 0 mode 3) = true → s.spCore (spAddr (s.readX xb) off.toInt) = s.cur →
      spOff (spAddr (s.readX xb) off.toInt) % 8 = 0 → s.here.spadPoison = [] → s.here.spad.wf = true →
      ∃ t, exec (.stS g a xb off 0 mode 3) s = .next t
        ∧ (t.ready (.ldS g' d xb off sx 3) = true →
            exec (.ldS g' d xb off sx 3) t = .next (t.putS d (s.readS a) 6))

/-- R281, R282, R332. A store that performs at local main memory writes its bytes as given and no other byte, when nothing else
of the rules writes memory. -/
def Obligations.StoreAtHomeWritesItsBytesOnly : Prop :=
    ∀ (id : Nat) (s : State) (a : Access) (ws : List ByteWrite), s.accs.find? (fun a => a.id == id) = some a → s.mayPerform a = true →
      a.home = .main → a.op = .store ws → (ws.map (·.addr)).Nodup → (∀ w ∈ ws, place w.addr = .main) → s.canonical = true → s.memPoison = [] → s.flaws = [] →
      s.devFld (aMmr + 0x20) 3 0 < 8 → (∀ v < 8, s.devFld (aVein v + 0x38) 0 0 = 0) →
      ∃ t, exec (.accessPerformAtHome id) s = .next t
        ∧ (∀ w ∈ ws, t.byteAt w.addr = mergeByte (s.byteAt w.addr) w)
        ∧ (∀ q, q ∉ ws.map (·.addr) → t.byteAt q = s.byteAt q)
        ∧ t.accs.any (fun b => b.id == id) = false
end

