-- ==== Sys2Proof/Laws/Tables.lean ====
section
/-! SUPPORT. Laws of tables and of memories: read after write, and the canonical form (log entry 5). -/

namespace Sys2Proof.Machine

variable {α : Type}

@[simp] theorem Tbl.get_nil (k : Nat) (d : α) : Tbl.get ([] : Tbl α) k d = d := rfl
@[simp] theorem Tbl.find_nil (k : Nat) : Tbl.find ([] : Tbl α) k = none := rfl

/-- Reading the key that was set gives the value. -/
@[simp] theorem Tbl.get_set_same (t : Tbl α) (k : Nat) (v d : α) : Tbl.get (Tbl.set t k v) k d = v := by
  induction t with
  | nil => simp [Tbl.set, Tbl.get]
  | cons e r ih =>
    obtain ⟨j, w⟩ := e
    unfold Tbl.set
    split
    · simp [Tbl.get]
    · split
      · simp [Tbl.get]
      · rename_i h _
        simp [Tbl.get, h, ih]

/-- Setting a key leaves every other key alone. -/
theorem Tbl.get_set_other (t : Tbl α) (k j : Nat) (v d : α) (h : j ≠ k) : Tbl.get (Tbl.set t k v) j d = Tbl.get t j d := by
  induction t with
  | nil => simp [Tbl.set, Tbl.get, Ne.symm h]
  | cons e r ih =>
    obtain ⟨i, w⟩ := e
    unfold Tbl.set
    split
    · rename_i hi; subst hi; simp [Tbl.get, Ne.symm h]
    · split
      · simp [Tbl.get, Ne.symm h]
      · simp [Tbl.get, ih]

/-- Finding the key that was set gives the value. -/
@[simp] theorem Tbl.find_set_same (t : Tbl α) (k : Nat) (v : α) : Tbl.find (Tbl.set t k v) k = some v := by
  induction t with
  | nil => simp [Tbl.set, Tbl.find]
  | cons e r ih =>
    obtain ⟨j, w⟩ := e
    unfold Tbl.set
    split
    · simp [Tbl.find]
    · split
      · simp [Tbl.find]
      · rename_i h _
        simp [Tbl.find, h, ih]

/-- Setting a key changes no other listing. -/
theorem Tbl.find_set_other (t : Tbl α) (k j : Nat) (v : α) (h : j ≠ k) : Tbl.find (Tbl.set t k v) j = Tbl.find t j := by
  induction t with
  | nil => simp [Tbl.set, Tbl.find, Ne.symm h]
  | cons e r ih =>
    obtain ⟨i, w⟩ := e
    unfold Tbl.set
    split
    · rename_i hi; subst hi; simp [Tbl.find, Ne.symm h]
    · split
      · simp [Tbl.find, Ne.symm h]
      · simp [Tbl.find, ih]

/-! ## Memories -/

@[simp] theorem Memory.get_nil (a : Nat) : Memory.get [] a = 0 := rfl
@[simp] theorem Memory.wf_nil : Memory.wf [] = true := rfl

/-- A canonical memory whose addresses start above an address holds nothing at it. -/
theorem Memory.get_below {m : Memory} {lo a : Nat} (h : Memory.wfFrom lo m = true) (ha : a < lo) : Memory.get m a = 0 := by
  induction m generalizing lo with
  | nil => rfl
  | cons e r ih =>
    obtain ⟨b, v⟩ := e
    simp only [Memory.wfFrom, Bool.and_eq_true, decide_eq_true_eq] at h
    obtain ⟨⟨h1, _⟩, h2⟩ := h
    have hb : ¬ b = a := by omega
    simp only [Memory.get, hb, if_false]
    exact ih h2 (by omega)

theorem Memory.wfFrom_mono {m : Memory} {lo hi : Nat} (h : Memory.wfFrom hi m = true) (hl : lo ≤ hi) : Memory.wfFrom lo m = true := by
  cases m with
  | nil => rfl
  | cons e r =>
    obtain ⟨b, v⟩ := e
    simp only [Memory.wfFrom, Bool.and_eq_true, decide_eq_true_eq] at h ⊢
    exact ⟨⟨by omega, h.1.2⟩, h.2⟩

/-- A write keeps the canonical form above any floor that its address meets. -/
theorem Memory.wfFrom_set {m : Memory} {lo a : Nat} (v : BitVec 8) (h : Memory.wfFrom lo m = true) (ha : lo ≤ a) :
    Memory.wfFrom lo (Memory.set m a v) = true := by
  induction m generalizing lo with
  | nil =>
    unfold Memory.set
    split <;> simp_all [Memory.wfFrom]
  | cons e r ih =>
    obtain ⟨b, w⟩ := e
    have h' := h
    simp only [Memory.wfFrom, Bool.and_eq_true, decide_eq_true_eq] at h
    obtain ⟨⟨h1, h2⟩, h3⟩ := h
    unfold Memory.set
    split
    · rename_i hb
      subst hb
      split
      · exact Memory.wfFrom_mono h3 (by omega)
      · simp_all [Memory.wfFrom]
    · split
      · split
        · exact h'
        · simp only [Memory.wfFrom, Bool.and_eq_true, decide_eq_true_eq, bne_iff_ne]
          exact ⟨⟨ha, by assumption⟩, ⟨by omega, by simpa using h2⟩, h3⟩
      · simp only [Memory.wfFrom, Bool.and_eq_true, decide_eq_true_eq]
        exact ⟨⟨h1, h2⟩, ih h3 (by omega)⟩

/-- A write keeps the canonical form. -/
theorem Memory.wf_set {m : Memory} (a : Nat) (v : BitVec 8) (h : m.wf = true) : (m.set a v).wf = true :=
  Memory.wfFrom_set v h (Nat.zero_le a)

/-- A write of consecutive bytes keeps the canonical form. -/
theorem Memory.wf_put {m : Memory} (a : Nat) (bs : List (BitVec 8)) (h : m.wf = true) : (m.put a bs).wf = true := by
  induction bs generalizing m a with
  | nil => exact h
  | cons b r ih => exact ih (a + 1) (Memory.wf_set a b h)

/-- A little-endian write keeps the canonical form. -/
theorem Memory.wf_putNum {m : Memory} (a n v : Nat) (h : m.wf = true) : (m.putNum a n v).wf = true := Memory.wf_put a _ h

/-- Dropping entries keeps the canonical form. -/
theorem Memory.wfFrom_filter {m : Memory} {lo : Nat} (p : Host.Cell → Bool) (h : Memory.wfFrom lo m = true) :
    Memory.wfFrom lo (m.filter p) = true := by
  induction m generalizing lo with
  | nil => rfl
  | cons e r ih =>
    obtain ⟨b, w⟩ := e
    simp only [Memory.wfFrom, Bool.and_eq_true, decide_eq_true_eq] at h
    obtain ⟨⟨h1, h2⟩, h3⟩ := h
    rw [List.filter_cons]
    split
    · simp only [Memory.wfFrom, Bool.and_eq_true, decide_eq_true_eq]
      exact ⟨⟨h1, h2⟩, ih h3⟩
    · exact Memory.wfFrom_mono (ih h3) (by omega)

/-- Dropping entries keeps the canonical form. -/
theorem Memory.wf_filter {m : Memory} (p : Host.Cell → Bool) (h : m.wf = true) : Memory.wf (m.filter p) = true :=
  Memory.wfFrom_filter p h

/-- Reading the byte that was written gives it. -/
theorem Memory.get_set_same {m : Memory} {lo : Nat} (a : Nat) (v : BitVec 8) (h : Memory.wfFrom lo m = true) :
    (m.set a v).get a = v := by
  induction m generalizing lo with
  | nil =>
    unfold Memory.set
    split <;> simp_all [Memory.get]
  | cons e r ih =>
    obtain ⟨b, w⟩ := e
    simp only [Memory.wfFrom, Bool.and_eq_true, decide_eq_true_eq] at h
    obtain ⟨⟨_, _⟩, h3⟩ := h
    unfold Memory.set
    split
    · rename_i hb
      subst hb
      split
      · rename_i hv; subst hv; exact Memory.get_below h3 (by omega)
      · simp [Memory.get]
    · rename_i hb
      split
      · split
        · rename_i hlt hv; subst hv
          simp only [Memory.get, hb, if_false]
          exact Memory.get_below h3 (by omega)
        · simp [Memory.get]
      · simp only [Memory.get, hb, if_false]
        exact ih h3

/-- A write leaves every other byte alone. -/
theorem Memory.get_set_other (m : Memory) (a b : Nat) (v : BitVec 8) (h : b ≠ a) : (m.set a v).get b = m.get b := by
  induction m with
  | nil =>
    unfold Memory.set
    split <;> simp [Memory.get, Ne.symm h]
  | cons e r ih =>
    obtain ⟨c, w⟩ := e
    unfold Memory.set
    split
    · rename_i hc
      subst hc
      split <;> simp [Memory.get, Ne.symm h]
    · split
      · split <;> simp [Memory.get, Ne.symm h]
      · simp [Memory.get, ih]

/-- Consecutive writes leave every byte outside them alone. -/
theorem Memory.get_put_other (m : Memory) (a b : Nat) (bs : List (BitVec 8)) (h : b < a ∨ a + bs.length ≤ b) :
    (m.put a bs).get b = m.get b := by
  induction bs generalizing m a with
  | nil => rfl
  | cons x r ih =>
    simp only [List.length_cons] at h
    rw [Memory.put, ih _ _ (by omega), Memory.get_set_other _ _ _ _ (by omega)]

/-! ### Little-endian bytes -/

@[simp] theorem length_leBytes (n v : Nat) : (leBytes n v).length = n := by
  induction n generalizing v with
  | zero => rfl
  | succ n ih => simp [leBytes, ih]

/-- The bytes of a number give it back, modulo their width. -/
theorem leNat_leBytes (n v : Nat) : leNat (leBytes n v) = v % 2 ^ (8 * n) := by
  induction n generalizing v with
  | zero => simp [leBytes, leNat, Nat.mod_one]
  | succ n ih =>
    simp only [leBytes, leNat, ih, BitVec.toNat_ofNat]
    rw [show 8 * (n + 1) = 8 + 8 * n by ring, Nat.pow_add, Nat.mod_mul]

/-- Bytes are below their width. -/
theorem leNat_lt (bs : List (BitVec 8)) : leNat bs < 2 ^ (8 * bs.length) := by
  induction bs with
  | nil => simp [leNat]
  | cons b r ih =>
    have hb := b.isLt
    simp only [leNat, List.length_cons]
    rw [show 8 * (r.length + 1) = 8 + 8 * r.length by ring, Nat.pow_add]
    omega

end Sys2Proof.Machine
end

