-- ==== Sys2Proof/Laws/State.lean ====
section
/-! SUPPORT. What the shared updates of a state leave alone: one lemma per field and update, true by `rfl`; and what they
change: cores, facets and device registers read back. -/

namespace Sys2Proof.Machine

/-! ### `setCore` -/

@[simp] theorem State.setCore_inputs (s : State) (c : Nat) (k : Core) : (s.setCore c k).inputs = s.inputs := rfl
@[simp] theorem State.setCore_agenda (s : State) (c : Nat) (k : Core) : (s.setCore c k).agenda = s.agenda := rfl
@[simp] theorem State.setCore_due (s : State) (c : Nat) (k : Core) : (s.setCore c k).due = s.due := rfl
@[simp] theorem State.setCore_turn (s : State) (c : Nat) (k : Core) : (s.setCore c k).turn = s.turn := rfl
@[simp] theorem State.setCore_cur (s : State) (c : Nat) (k : Core) : (s.setCore c k).cur = s.cur := rfl
@[simp] theorem State.setCore_lastCore (s : State) (c : Nat) (k : Core) : (s.setCore c k).lastCore = s.lastCore := rfl
@[simp] theorem State.setCore_freeCtr (s : State) (c : Nat) (k : Core) : (s.setCore c k).freeCtr = s.freeCtr := rfl
@[simp] theorem State.setCore_nextId (s : State) (c : Nat) (k : Core) : (s.setCore c k).nextId = s.nextId := rfl
@[simp] theorem State.setCore_geodes (s : State) (c : Nat) (k : Core) : (s.setCore c k).geodes = s.geodes := rfl
@[simp] theorem State.setCore_mem (s : State) (c : Nat) (k : Core) : (s.setCore c k).mem = s.mem := rfl
@[simp] theorem State.setCore_memPoison (s : State) (c : Nat) (k : Core) : (s.setCore c k).memPoison = s.memPoison := rfl
@[simp] theorem State.setCore_media (s : State) (c : Nat) (k : Core) : (s.setCore c k).media = s.media := rfl
@[simp] theorem State.setCore_mediaLost (s : State) (c : Nat) (k : Core) : (s.setCore c k).mediaLost = s.mediaLost := rfl
@[simp] theorem State.setCore_mediaKnown (s : State) (c : Nat) (k : Core) : (s.setCore c k).mediaKnown = s.mediaKnown := rfl
@[simp] theorem State.setCore_durQ (s : State) (c : Nat) (k : Core) : (s.setCore c k).durQ = s.durQ := rfl
@[simp] theorem State.setCore_durPoison (s : State) (c : Nat) (k : Core) : (s.setCore c k).durPoison = s.durPoison := rfl
@[simp] theorem State.setCore_seals (s : State) (c : Nat) (k : Core) : (s.setCore c k).seals = s.seals := rfl
@[simp] theorem State.setCore_dev (s : State) (c : Nat) (k : Core) : (s.setCore c k).dev = s.dev := rfl
@[simp] theorem State.setCore_logs (s : State) (c : Nat) (k : Core) : (s.setCore c k).logs = s.logs := rfl
@[simp] theorem State.setCore_accs (s : State) (c : Nat) (k : Core) : (s.setCore c k).accs = s.accs := rfl
@[simp] theorem State.setCore_bulk (s : State) (c : Nat) (k : Core) : (s.setCore c k).bulk = s.bulk := rfl
@[simp] theorem State.setCore_slots (s : State) (c : Nat) (k : Core) : (s.setCore c k).slots = s.slots := rfl
@[simp] theorem State.setCore_lastSlot (s : State) (c : Nat) (k : Core) : (s.setCore c k).lastSlot = s.lastSlot := rfl
@[simp] theorem State.setCore_launches (s : State) (c : Nat) (k : Core) : (s.setCore c k).launches = s.launches := rfl
@[simp] theorem State.setCore_fossils (s : State) (c : Nat) (k : Core) : (s.setCore c k).fossils = s.fossils := rfl
@[simp] theorem State.setCore_failedSlots (s : State) (c : Nat) (k : Core) : (s.setCore c k).failedSlots = s.failedSlots := rfl
@[simp] theorem State.setCore_ckpts (s : State) (c : Nat) (k : Core) : (s.setCore c k).ckpts = s.ckpts := rfl
@[simp] theorem State.setCore_inval (s : State) (c : Nat) (k : Core) : (s.setCore c k).inval = s.inval := rfl
@[simp] theorem State.setCore_pcieOut (s : State) (c : Nat) (k : Core) : (s.setCore c k).pcieOut = s.pcieOut := rfl
@[simp] theorem State.setCore_heldRows (s : State) (c : Nat) (k : Core) : (s.setCore c k).heldRows = s.heldRows := rfl
@[simp] theorem State.setCore_mirQ (s : State) (c : Nat) (k : Core) : (s.setCore c k).mirQ = s.mirQ := rfl
@[simp] theorem State.setCore_mirPos (s : State) (c : Nat) (k : Core) : (s.setCore c k).mirPos = s.mirPos := rfl
@[simp] theorem State.setCore_flaws (s : State) (c : Nat) (k : Core) : (s.setCore c k).flaws = s.flaws := rfl
@[simp] theorem State.setCore_repairs (s : State) (c : Nat) (k : Core) : (s.setCore c k).repairs = s.repairs := rfl
@[simp] theorem State.setCore_stands (s : State) (c : Nat) (k : Core) : (s.setCore c k).stands = s.stands := rfl
@[simp] theorem State.setCore_hosts (s : State) (c : Nat) (k : Core) : (s.setCore c k).hosts = s.hosts := rfl
@[simp] theorem State.setCore_hostIrqs (s : State) (c : Nat) (k : Core) : (s.setCore c k).hostIrqs = s.hostIrqs := rfl
@[simp] theorem State.setCore_pkgLoss (s : State) (c : Nat) (k : Core) : (s.setCore c k).pkgLoss = s.pkgLoss := rfl
@[simp] theorem State.setCore_flitRuns (s : State) (c : Nat) (k : Core) : (s.setCore c k).flitRuns = s.flitRuns := rfl
@[simp] theorem State.setCore_manifest (s : State) (c : Nat) (k : Core) : (s.setCore c k).manifest = s.manifest := rfl
@[simp] theorem State.setCore_manifestEnv (s : State) (c : Nat) (k : Core) : (s.setCore c k).manifestEnv = s.manifestEnv := rfl
@[simp] theorem State.setCore_testEnv (s : State) (c : Nat) (k : Core) : (s.setCore c k).testEnv = s.testEnv := rfl
@[simp] theorem State.setCore_fwA (s : State) (c : Nat) (k : Core) : (s.setCore c k).fwA = s.fwA := rfl
@[simp] theorem State.setCore_fwB (s : State) (c : Nat) (k : Core) : (s.setCore c k).fwB = s.fwB := rfl
@[simp] theorem State.setCore_update (s : State) (c : Nat) (k : Core) : (s.setCore c k).update = s.update := rfl
@[simp] theorem State.setCore_nanos (s : State) (c : Nat) (k : Core) : (s.setCore c k).nanos = s.nanos := rfl
@[simp] theorem State.setCore_powered (s : State) (c : Nat) (k : Core) : (s.setCore c k).powered = s.powered := rfl
@[simp] theorem State.setCore_accepting (s : State) (c : Nat) (k : Core) : (s.setCore c k).accepting = s.accepting := rfl
@[simp] theorem State.setCore_recovery (s : State) (c : Nat) (k : Core) : (s.setCore c k).recovery = s.recovery := rfl
@[simp] theorem State.setCore_bootStep (s : State) (c : Nat) (k : Core) : (s.setCore c k).bootStep = s.bootStep := rfl
@[simp] theorem State.setCore_wake (s : State) (c : Nat) (k : Core) : (s.setCore c k).wake = s.wake := rfl
@[simp] theorem State.setCore_pgood (s : State) (c : Nat) (k : Core) : (s.setCore c k).pgood = s.pgood := rfl
@[simp] theorem State.setCore_pcieLanes (s : State) (c : Nat) (k : Core) : (s.setCore c k).pcieLanes = s.pcieLanes := rfl
@[simp] theorem State.setCore_pcieGts (s : State) (c : Nat) (k : Core) : (s.setCore c k).pcieGts = s.pcieGts := rfl
@[simp] theorem State.setCore_reply (s : State) (c : Nat) (k : Core) : (s.setCore c k).reply = s.reply := rfl
@[simp] theorem State.setCore_replyOk (s : State) (c : Nat) (k : Core) : (s.setCore c k).replyOk = s.replyOk := rfl

/-! ### `modCore` -/

@[simp] theorem State.modCore_inputs (s : State) (c : Nat) (f : Core → Core) : (s.modCore c f).inputs = s.inputs := rfl
@[simp] theorem State.modCore_agenda (s : State) (c : Nat) (f : Core → Core) : (s.modCore c f).agenda = s.agenda := rfl
@[simp] theorem State.modCore_due (s : State) (c : Nat) (f : Core → Core) : (s.modCore c f).due = s.due := rfl
@[simp] theorem State.modCore_turn (s : State) (c : Nat) (f : Core → Core) : (s.modCore c f).turn = s.turn := rfl
@[simp] theorem State.modCore_cur (s : State) (c : Nat) (f : Core → Core) : (s.modCore c f).cur = s.cur := rfl
@[simp] theorem State.modCore_lastCore (s : State) (c : Nat) (f : Core → Core) : (s.modCore c f).lastCore = s.lastCore := rfl
@[simp] theorem State.modCore_freeCtr (s : State) (c : Nat) (f : Core → Core) : (s.modCore c f).freeCtr = s.freeCtr := rfl
@[simp] theorem State.modCore_nextId (s : State) (c : Nat) (f : Core → Core) : (s.modCore c f).nextId = s.nextId := rfl
@[simp] theorem State.modCore_geodes (s : State) (c : Nat) (f : Core → Core) : (s.modCore c f).geodes = s.geodes := rfl
@[simp] theorem State.modCore_mem (s : State) (c : Nat) (f : Core → Core) : (s.modCore c f).mem = s.mem := rfl
@[simp] theorem State.modCore_memPoison (s : State) (c : Nat) (f : Core → Core) : (s.modCore c f).memPoison = s.memPoison := rfl
@[simp] theorem State.modCore_media (s : State) (c : Nat) (f : Core → Core) : (s.modCore c f).media = s.media := rfl
@[simp] theorem State.modCore_mediaLost (s : State) (c : Nat) (f : Core → Core) : (s.modCore c f).mediaLost = s.mediaLost := rfl
@[simp] theorem State.modCore_mediaKnown (s : State) (c : Nat) (f : Core → Core) : (s.modCore c f).mediaKnown = s.mediaKnown := rfl
@[simp] theorem State.modCore_durQ (s : State) (c : Nat) (f : Core → Core) : (s.modCore c f).durQ = s.durQ := rfl
@[simp] theorem State.modCore_durPoison (s : State) (c : Nat) (f : Core → Core) : (s.modCore c f).durPoison = s.durPoison := rfl
@[simp] theorem State.modCore_seals (s : State) (c : Nat) (f : Core → Core) : (s.modCore c f).seals = s.seals := rfl
@[simp] theorem State.modCore_dev (s : State) (c : Nat) (f : Core → Core) : (s.modCore c f).dev = s.dev := rfl
@[simp] theorem State.modCore_logs (s : State) (c : Nat) (f : Core → Core) : (s.modCore c f).logs = s.logs := rfl
@[simp] theorem State.modCore_accs (s : State) (c : Nat) (f : Core → Core) : (s.modCore c f).accs = s.accs := rfl
@[simp] theorem State.modCore_bulk (s : State) (c : Nat) (f : Core → Core) : (s.modCore c f).bulk = s.bulk := rfl
@[simp] theorem State.modCore_slots (s : State) (c : Nat) (f : Core → Core) : (s.modCore c f).slots = s.slots := rfl
@[simp] theorem State.modCore_lastSlot (s : State) (c : Nat) (f : Core → Core) : (s.modCore c f).lastSlot = s.lastSlot := rfl
@[simp] theorem State.modCore_launches (s : State) (c : Nat) (f : Core → Core) : (s.modCore c f).launches = s.launches := rfl
@[simp] theorem State.modCore_fossils (s : State) (c : Nat) (f : Core → Core) : (s.modCore c f).fossils = s.fossils := rfl
@[simp] theorem State.modCore_failedSlots (s : State) (c : Nat) (f : Core → Core) : (s.modCore c f).failedSlots = s.failedSlots := rfl
@[simp] theorem State.modCore_ckpts (s : State) (c : Nat) (f : Core → Core) : (s.modCore c f).ckpts = s.ckpts := rfl
@[simp] theorem State.modCore_inval (s : State) (c : Nat) (f : Core → Core) : (s.modCore c f).inval = s.inval := rfl
@[simp] theorem State.modCore_pcieOut (s : State) (c : Nat) (f : Core → Core) : (s.modCore c f).pcieOut = s.pcieOut := rfl
@[simp] theorem State.modCore_heldRows (s : State) (c : Nat) (f : Core → Core) : (s.modCore c f).heldRows = s.heldRows := rfl
@[simp] theorem State.modCore_mirQ (s : State) (c : Nat) (f : Core → Core) : (s.modCore c f).mirQ = s.mirQ := rfl
@[simp] theorem State.modCore_mirPos (s : State) (c : Nat) (f : Core → Core) : (s.modCore c f).mirPos = s.mirPos := rfl
@[simp] theorem State.modCore_flaws (s : State) (c : Nat) (f : Core → Core) : (s.modCore c f).flaws = s.flaws := rfl
@[simp] theorem State.modCore_repairs (s : State) (c : Nat) (f : Core → Core) : (s.modCore c f).repairs = s.repairs := rfl
@[simp] theorem State.modCore_stands (s : State) (c : Nat) (f : Core → Core) : (s.modCore c f).stands = s.stands := rfl
@[simp] theorem State.modCore_hosts (s : State) (c : Nat) (f : Core → Core) : (s.modCore c f).hosts = s.hosts := rfl
@[simp] theorem State.modCore_hostIrqs (s : State) (c : Nat) (f : Core → Core) : (s.modCore c f).hostIrqs = s.hostIrqs := rfl
@[simp] theorem State.modCore_pkgLoss (s : State) (c : Nat) (f : Core → Core) : (s.modCore c f).pkgLoss = s.pkgLoss := rfl
@[simp] theorem State.modCore_flitRuns (s : State) (c : Nat) (f : Core → Core) : (s.modCore c f).flitRuns = s.flitRuns := rfl
@[simp] theorem State.modCore_manifest (s : State) (c : Nat) (f : Core → Core) : (s.modCore c f).manifest = s.manifest := rfl
@[simp] theorem State.modCore_manifestEnv (s : State) (c : Nat) (f : Core → Core) : (s.modCore c f).manifestEnv = s.manifestEnv := rfl
@[simp] theorem State.modCore_testEnv (s : State) (c : Nat) (f : Core → Core) : (s.modCore c f).testEnv = s.testEnv := rfl
@[simp] theorem State.modCore_fwA (s : State) (c : Nat) (f : Core → Core) : (s.modCore c f).fwA = s.fwA := rfl
@[simp] theorem State.modCore_fwB (s : State) (c : Nat) (f : Core → Core) : (s.modCore c f).fwB = s.fwB := rfl
@[simp] theorem State.modCore_update (s : State) (c : Nat) (f : Core → Core) : (s.modCore c f).update = s.update := rfl
@[simp] theorem State.modCore_nanos (s : State) (c : Nat) (f : Core → Core) : (s.modCore c f).nanos = s.nanos := rfl
@[simp] theorem State.modCore_powered (s : State) (c : Nat) (f : Core → Core) : (s.modCore c f).powered = s.powered := rfl
@[simp] theorem State.modCore_accepting (s : State) (c : Nat) (f : Core → Core) : (s.modCore c f).accepting = s.accepting := rfl
@[simp] theorem State.modCore_recovery (s : State) (c : Nat) (f : Core → Core) : (s.modCore c f).recovery = s.recovery := rfl
@[simp] theorem State.modCore_bootStep (s : State) (c : Nat) (f : Core → Core) : (s.modCore c f).bootStep = s.bootStep := rfl
@[simp] theorem State.modCore_wake (s : State) (c : Nat) (f : Core → Core) : (s.modCore c f).wake = s.wake := rfl
@[simp] theorem State.modCore_pgood (s : State) (c : Nat) (f : Core → Core) : (s.modCore c f).pgood = s.pgood := rfl
@[simp] theorem State.modCore_pcieLanes (s : State) (c : Nat) (f : Core → Core) : (s.modCore c f).pcieLanes = s.pcieLanes := rfl
@[simp] theorem State.modCore_pcieGts (s : State) (c : Nat) (f : Core → Core) : (s.modCore c f).pcieGts = s.pcieGts := rfl
@[simp] theorem State.modCore_reply (s : State) (c : Nat) (f : Core → Core) : (s.modCore c f).reply = s.reply := rfl
@[simp] theorem State.modCore_replyOk (s : State) (c : Nat) (f : Core → Core) : (s.modCore c f).replyOk = s.replyOk := rfl

/-! ### `modFacet` -/

@[simp] theorem State.modFacet_inputs (s : State) (c n : Nat) (f : Facet → Facet) : (s.modFacet c n f).inputs = s.inputs := rfl
@[simp] theorem State.modFacet_agenda (s : State) (c n : Nat) (f : Facet → Facet) : (s.modFacet c n f).agenda = s.agenda := rfl
@[simp] theorem State.modFacet_due (s : State) (c n : Nat) (f : Facet → Facet) : (s.modFacet c n f).due = s.due := rfl
@[simp] theorem State.modFacet_turn (s : State) (c n : Nat) (f : Facet → Facet) : (s.modFacet c n f).turn = s.turn := rfl
@[simp] theorem State.modFacet_cur (s : State) (c n : Nat) (f : Facet → Facet) : (s.modFacet c n f).cur = s.cur := rfl
@[simp] theorem State.modFacet_lastCore (s : State) (c n : Nat) (f : Facet → Facet) : (s.modFacet c n f).lastCore = s.lastCore := rfl
@[simp] theorem State.modFacet_freeCtr (s : State) (c n : Nat) (f : Facet → Facet) : (s.modFacet c n f).freeCtr = s.freeCtr := rfl
@[simp] theorem State.modFacet_nextId (s : State) (c n : Nat) (f : Facet → Facet) : (s.modFacet c n f).nextId = s.nextId := rfl
@[simp] theorem State.modFacet_geodes (s : State) (c n : Nat) (f : Facet → Facet) : (s.modFacet c n f).geodes = s.geodes := rfl
@[simp] theorem State.modFacet_mem (s : State) (c n : Nat) (f : Facet → Facet) : (s.modFacet c n f).mem = s.mem := rfl
@[simp] theorem State.modFacet_memPoison (s : State) (c n : Nat) (f : Facet → Facet) : (s.modFacet c n f).memPoison = s.memPoison := rfl
@[simp] theorem State.modFacet_media (s : State) (c n : Nat) (f : Facet → Facet) : (s.modFacet c n f).media = s.media := rfl
@[simp] theorem State.modFacet_mediaLost (s : State) (c n : Nat) (f : Facet → Facet) : (s.modFacet c n f).mediaLost = s.mediaLost := rfl
@[simp] theorem State.modFacet_mediaKnown (s : State) (c n : Nat) (f : Facet → Facet) : (s.modFacet c n f).mediaKnown = s.mediaKnown := rfl
@[simp] theorem State.modFacet_durQ (s : State) (c n : Nat) (f : Facet → Facet) : (s.modFacet c n f).durQ = s.durQ := rfl
@[simp] theorem State.modFacet_durPoison (s : State) (c n : Nat) (f : Facet → Facet) : (s.modFacet c n f).durPoison = s.durPoison := rfl
@[simp] theorem State.modFacet_seals (s : State) (c n : Nat) (f : Facet → Facet) : (s.modFacet c n f).seals = s.seals := rfl
@[simp] theorem State.modFacet_dev (s : State) (c n : Nat) (f : Facet → Facet) : (s.modFacet c n f).dev = s.dev := rfl
@[simp] theorem State.modFacet_logs (s : State) (c n : Nat) (f : Facet → Facet) : (s.modFacet c n f).logs = s.logs := rfl
@[simp] theorem State.modFacet_accs (s : State) (c n : Nat) (f : Facet → Facet) : (s.modFacet c n f).accs = s.accs := rfl
@[simp] theorem State.modFacet_bulk (s : State) (c n : Nat) (f : Facet → Facet) : (s.modFacet c n f).bulk = s.bulk := rfl
@[simp] theorem State.modFacet_slots (s : State) (c n : Nat) (f : Facet → Facet) : (s.modFacet c n f).slots = s.slots := rfl
@[simp] theorem State.modFacet_lastSlot (s : State) (c n : Nat) (f : Facet → Facet) : (s.modFacet c n f).lastSlot = s.lastSlot := rfl
@[simp] theorem State.modFacet_launches (s : State) (c n : Nat) (f : Facet → Facet) : (s.modFacet c n f).launches = s.launches := rfl
@[simp] theorem State.modFacet_fossils (s : State) (c n : Nat) (f : Facet → Facet) : (s.modFacet c n f).fossils = s.fossils := rfl
@[simp] theorem State.modFacet_failedSlots (s : State) (c n : Nat) (f : Facet → Facet) : (s.modFacet c n f).failedSlots = s.failedSlots := rfl
@[simp] theorem State.modFacet_ckpts (s : State) (c n : Nat) (f : Facet → Facet) : (s.modFacet c n f).ckpts = s.ckpts := rfl
@[simp] theorem State.modFacet_inval (s : State) (c n : Nat) (f : Facet → Facet) : (s.modFacet c n f).inval = s.inval := rfl
@[simp] theorem State.modFacet_pcieOut (s : State) (c n : Nat) (f : Facet → Facet) : (s.modFacet c n f).pcieOut = s.pcieOut := rfl
@[simp] theorem State.modFacet_heldRows (s : State) (c n : Nat) (f : Facet → Facet) : (s.modFacet c n f).heldRows = s.heldRows := rfl
@[simp] theorem State.modFacet_mirQ (s : State) (c n : Nat) (f : Facet → Facet) : (s.modFacet c n f).mirQ = s.mirQ := rfl
@[simp] theorem State.modFacet_mirPos (s : State) (c n : Nat) (f : Facet → Facet) : (s.modFacet c n f).mirPos = s.mirPos := rfl
@[simp] theorem State.modFacet_flaws (s : State) (c n : Nat) (f : Facet → Facet) : (s.modFacet c n f).flaws = s.flaws := rfl
@[simp] theorem State.modFacet_repairs (s : State) (c n : Nat) (f : Facet → Facet) : (s.modFacet c n f).repairs = s.repairs := rfl
@[simp] theorem State.modFacet_stands (s : State) (c n : Nat) (f : Facet → Facet) : (s.modFacet c n f).stands = s.stands := rfl
@[simp] theorem State.modFacet_hosts (s : State) (c n : Nat) (f : Facet → Facet) : (s.modFacet c n f).hosts = s.hosts := rfl
@[simp] theorem State.modFacet_hostIrqs (s : State) (c n : Nat) (f : Facet → Facet) : (s.modFacet c n f).hostIrqs = s.hostIrqs := rfl
@[simp] theorem State.modFacet_pkgLoss (s : State) (c n : Nat) (f : Facet → Facet) : (s.modFacet c n f).pkgLoss = s.pkgLoss := rfl
@[simp] theorem State.modFacet_flitRuns (s : State) (c n : Nat) (f : Facet → Facet) : (s.modFacet c n f).flitRuns = s.flitRuns := rfl
@[simp] theorem State.modFacet_manifest (s : State) (c n : Nat) (f : Facet → Facet) : (s.modFacet c n f).manifest = s.manifest := rfl
@[simp] theorem State.modFacet_manifestEnv (s : State) (c n : Nat) (f : Facet → Facet) : (s.modFacet c n f).manifestEnv = s.manifestEnv := rfl
@[simp] theorem State.modFacet_testEnv (s : State) (c n : Nat) (f : Facet → Facet) : (s.modFacet c n f).testEnv = s.testEnv := rfl
@[simp] theorem State.modFacet_fwA (s : State) (c n : Nat) (f : Facet → Facet) : (s.modFacet c n f).fwA = s.fwA := rfl
@[simp] theorem State.modFacet_fwB (s : State) (c n : Nat) (f : Facet → Facet) : (s.modFacet c n f).fwB = s.fwB := rfl
@[simp] theorem State.modFacet_update (s : State) (c n : Nat) (f : Facet → Facet) : (s.modFacet c n f).update = s.update := rfl
@[simp] theorem State.modFacet_nanos (s : State) (c n : Nat) (f : Facet → Facet) : (s.modFacet c n f).nanos = s.nanos := rfl
@[simp] theorem State.modFacet_powered (s : State) (c n : Nat) (f : Facet → Facet) : (s.modFacet c n f).powered = s.powered := rfl
@[simp] theorem State.modFacet_accepting (s : State) (c n : Nat) (f : Facet → Facet) : (s.modFacet c n f).accepting = s.accepting := rfl
@[simp] theorem State.modFacet_recovery (s : State) (c n : Nat) (f : Facet → Facet) : (s.modFacet c n f).recovery = s.recovery := rfl
@[simp] theorem State.modFacet_bootStep (s : State) (c n : Nat) (f : Facet → Facet) : (s.modFacet c n f).bootStep = s.bootStep := rfl
@[simp] theorem State.modFacet_wake (s : State) (c n : Nat) (f : Facet → Facet) : (s.modFacet c n f).wake = s.wake := rfl
@[simp] theorem State.modFacet_pgood (s : State) (c n : Nat) (f : Facet → Facet) : (s.modFacet c n f).pgood = s.pgood := rfl
@[simp] theorem State.modFacet_pcieLanes (s : State) (c n : Nat) (f : Facet → Facet) : (s.modFacet c n f).pcieLanes = s.pcieLanes := rfl
@[simp] theorem State.modFacet_pcieGts (s : State) (c n : Nat) (f : Facet → Facet) : (s.modFacet c n f).pcieGts = s.pcieGts := rfl
@[simp] theorem State.modFacet_reply (s : State) (c n : Nat) (f : Facet → Facet) : (s.modFacet c n f).reply = s.reply := rfl
@[simp] theorem State.modFacet_replyOk (s : State) (c n : Nat) (f : Facet → Facet) : (s.modFacet c n f).replyOk = s.replyOk := rfl

/-! ### `modMe` -/

@[simp] theorem State.modMe_inputs (s : State) (f : Facet → Facet) : (s.modMe f).inputs = s.inputs := rfl
@[simp] theorem State.modMe_agenda (s : State) (f : Facet → Facet) : (s.modMe f).agenda = s.agenda := rfl
@[simp] theorem State.modMe_due (s : State) (f : Facet → Facet) : (s.modMe f).due = s.due := rfl
@[simp] theorem State.modMe_turn (s : State) (f : Facet → Facet) : (s.modMe f).turn = s.turn := rfl
@[simp] theorem State.modMe_cur (s : State) (f : Facet → Facet) : (s.modMe f).cur = s.cur := rfl
@[simp] theorem State.modMe_lastCore (s : State) (f : Facet → Facet) : (s.modMe f).lastCore = s.lastCore := rfl
@[simp] theorem State.modMe_freeCtr (s : State) (f : Facet → Facet) : (s.modMe f).freeCtr = s.freeCtr := rfl
@[simp] theorem State.modMe_nextId (s : State) (f : Facet → Facet) : (s.modMe f).nextId = s.nextId := rfl
@[simp] theorem State.modMe_geodes (s : State) (f : Facet → Facet) : (s.modMe f).geodes = s.geodes := rfl
@[simp] theorem State.modMe_mem (s : State) (f : Facet → Facet) : (s.modMe f).mem = s.mem := rfl
@[simp] theorem State.modMe_memPoison (s : State) (f : Facet → Facet) : (s.modMe f).memPoison = s.memPoison := rfl
@[simp] theorem State.modMe_media (s : State) (f : Facet → Facet) : (s.modMe f).media = s.media := rfl
@[simp] theorem State.modMe_mediaLost (s : State) (f : Facet → Facet) : (s.modMe f).mediaLost = s.mediaLost := rfl
@[simp] theorem State.modMe_mediaKnown (s : State) (f : Facet → Facet) : (s.modMe f).mediaKnown = s.mediaKnown := rfl
@[simp] theorem State.modMe_durQ (s : State) (f : Facet → Facet) : (s.modMe f).durQ = s.durQ := rfl
@[simp] theorem State.modMe_durPoison (s : State) (f : Facet → Facet) : (s.modMe f).durPoison = s.durPoison := rfl
@[simp] theorem State.modMe_seals (s : State) (f : Facet → Facet) : (s.modMe f).seals = s.seals := rfl
@[simp] theorem State.modMe_dev (s : State) (f : Facet → Facet) : (s.modMe f).dev = s.dev := rfl
@[simp] theorem State.modMe_logs (s : State) (f : Facet → Facet) : (s.modMe f).logs = s.logs := rfl
@[simp] theorem State.modMe_accs (s : State) (f : Facet → Facet) : (s.modMe f).accs = s.accs := rfl
@[simp] theorem State.modMe_bulk (s : State) (f : Facet → Facet) : (s.modMe f).bulk = s.bulk := rfl
@[simp] theorem State.modMe_slots (s : State) (f : Facet → Facet) : (s.modMe f).slots = s.slots := rfl
@[simp] theorem State.modMe_lastSlot (s : State) (f : Facet → Facet) : (s.modMe f).lastSlot = s.lastSlot := rfl
@[simp] theorem State.modMe_launches (s : State) (f : Facet → Facet) : (s.modMe f).launches = s.launches := rfl
@[simp] theorem State.modMe_fossils (s : State) (f : Facet → Facet) : (s.modMe f).fossils = s.fossils := rfl
@[simp] theorem State.modMe_failedSlots (s : State) (f : Facet → Facet) : (s.modMe f).failedSlots = s.failedSlots := rfl
@[simp] theorem State.modMe_ckpts (s : State) (f : Facet → Facet) : (s.modMe f).ckpts = s.ckpts := rfl
@[simp] theorem State.modMe_inval (s : State) (f : Facet → Facet) : (s.modMe f).inval = s.inval := rfl
@[simp] theorem State.modMe_pcieOut (s : State) (f : Facet → Facet) : (s.modMe f).pcieOut = s.pcieOut := rfl
@[simp] theorem State.modMe_heldRows (s : State) (f : Facet → Facet) : (s.modMe f).heldRows = s.heldRows := rfl
@[simp] theorem State.modMe_mirQ (s : State) (f : Facet → Facet) : (s.modMe f).mirQ = s.mirQ := rfl
@[simp] theorem State.modMe_mirPos (s : State) (f : Facet → Facet) : (s.modMe f).mirPos = s.mirPos := rfl
@[simp] theorem State.modMe_flaws (s : State) (f : Facet → Facet) : (s.modMe f).flaws = s.flaws := rfl
@[simp] theorem State.modMe_repairs (s : State) (f : Facet → Facet) : (s.modMe f).repairs = s.repairs := rfl
@[simp] theorem State.modMe_stands (s : State) (f : Facet → Facet) : (s.modMe f).stands = s.stands := rfl
@[simp] theorem State.modMe_hosts (s : State) (f : Facet → Facet) : (s.modMe f).hosts = s.hosts := rfl
@[simp] theorem State.modMe_hostIrqs (s : State) (f : Facet → Facet) : (s.modMe f).hostIrqs = s.hostIrqs := rfl
@[simp] theorem State.modMe_pkgLoss (s : State) (f : Facet → Facet) : (s.modMe f).pkgLoss = s.pkgLoss := rfl
@[simp] theorem State.modMe_flitRuns (s : State) (f : Facet → Facet) : (s.modMe f).flitRuns = s.flitRuns := rfl
@[simp] theorem State.modMe_manifest (s : State) (f : Facet → Facet) : (s.modMe f).manifest = s.manifest := rfl
@[simp] theorem State.modMe_manifestEnv (s : State) (f : Facet → Facet) : (s.modMe f).manifestEnv = s.manifestEnv := rfl
@[simp] theorem State.modMe_testEnv (s : State) (f : Facet → Facet) : (s.modMe f).testEnv = s.testEnv := rfl
@[simp] theorem State.modMe_fwA (s : State) (f : Facet → Facet) : (s.modMe f).fwA = s.fwA := rfl
@[simp] theorem State.modMe_fwB (s : State) (f : Facet → Facet) : (s.modMe f).fwB = s.fwB := rfl
@[simp] theorem State.modMe_update (s : State) (f : Facet → Facet) : (s.modMe f).update = s.update := rfl
@[simp] theorem State.modMe_nanos (s : State) (f : Facet → Facet) : (s.modMe f).nanos = s.nanos := rfl
@[simp] theorem State.modMe_powered (s : State) (f : Facet → Facet) : (s.modMe f).powered = s.powered := rfl
@[simp] theorem State.modMe_accepting (s : State) (f : Facet → Facet) : (s.modMe f).accepting = s.accepting := rfl
@[simp] theorem State.modMe_recovery (s : State) (f : Facet → Facet) : (s.modMe f).recovery = s.recovery := rfl
@[simp] theorem State.modMe_bootStep (s : State) (f : Facet → Facet) : (s.modMe f).bootStep = s.bootStep := rfl
@[simp] theorem State.modMe_wake (s : State) (f : Facet → Facet) : (s.modMe f).wake = s.wake := rfl
@[simp] theorem State.modMe_pgood (s : State) (f : Facet → Facet) : (s.modMe f).pgood = s.pgood := rfl
@[simp] theorem State.modMe_pcieLanes (s : State) (f : Facet → Facet) : (s.modMe f).pcieLanes = s.pcieLanes := rfl
@[simp] theorem State.modMe_pcieGts (s : State) (f : Facet → Facet) : (s.modMe f).pcieGts = s.pcieGts := rfl
@[simp] theorem State.modMe_reply (s : State) (f : Facet → Facet) : (s.modMe f).reply = s.reply := rfl
@[simp] theorem State.modMe_replyOk (s : State) (f : Facet → Facet) : (s.modMe f).replyOk = s.replyOk := rfl

/-! ### `modHere` -/

@[simp] theorem State.modHere_inputs (s : State) (f : Core → Core) : (s.modHere f).inputs = s.inputs := rfl
@[simp] theorem State.modHere_agenda (s : State) (f : Core → Core) : (s.modHere f).agenda = s.agenda := rfl
@[simp] theorem State.modHere_due (s : State) (f : Core → Core) : (s.modHere f).due = s.due := rfl
@[simp] theorem State.modHere_turn (s : State) (f : Core → Core) : (s.modHere f).turn = s.turn := rfl
@[simp] theorem State.modHere_cur (s : State) (f : Core → Core) : (s.modHere f).cur = s.cur := rfl
@[simp] theorem State.modHere_lastCore (s : State) (f : Core → Core) : (s.modHere f).lastCore = s.lastCore := rfl
@[simp] theorem State.modHere_freeCtr (s : State) (f : Core → Core) : (s.modHere f).freeCtr = s.freeCtr := rfl
@[simp] theorem State.modHere_nextId (s : State) (f : Core → Core) : (s.modHere f).nextId = s.nextId := rfl
@[simp] theorem State.modHere_geodes (s : State) (f : Core → Core) : (s.modHere f).geodes = s.geodes := rfl
@[simp] theorem State.modHere_mem (s : State) (f : Core → Core) : (s.modHere f).mem = s.mem := rfl
@[simp] theorem State.modHere_memPoison (s : State) (f : Core → Core) : (s.modHere f).memPoison = s.memPoison := rfl
@[simp] theorem State.modHere_media (s : State) (f : Core → Core) : (s.modHere f).media = s.media := rfl
@[simp] theorem State.modHere_mediaLost (s : State) (f : Core → Core) : (s.modHere f).mediaLost = s.mediaLost := rfl
@[simp] theorem State.modHere_mediaKnown (s : State) (f : Core → Core) : (s.modHere f).mediaKnown = s.mediaKnown := rfl
@[simp] theorem State.modHere_durQ (s : State) (f : Core → Core) : (s.modHere f).durQ = s.durQ := rfl
@[simp] theorem State.modHere_durPoison (s : State) (f : Core → Core) : (s.modHere f).durPoison = s.durPoison := rfl
@[simp] theorem State.modHere_seals (s : State) (f : Core → Core) : (s.modHere f).seals = s.seals := rfl
@[simp] theorem State.modHere_dev (s : State) (f : Core → Core) : (s.modHere f).dev = s.dev := rfl
@[simp] theorem State.modHere_logs (s : State) (f : Core → Core) : (s.modHere f).logs = s.logs := rfl
@[simp] theorem State.modHere_accs (s : State) (f : Core → Core) : (s.modHere f).accs = s.accs := rfl
@[simp] theorem State.modHere_bulk (s : State) (f : Core → Core) : (s.modHere f).bulk = s.bulk := rfl
@[simp] theorem State.modHere_slots (s : State) (f : Core → Core) : (s.modHere f).slots = s.slots := rfl
@[simp] theorem State.modHere_lastSlot (s : State) (f : Core → Core) : (s.modHere f).lastSlot = s.lastSlot := rfl
@[simp] theorem State.modHere_launches (s : State) (f : Core → Core) : (s.modHere f).launches = s.launches := rfl
@[simp] theorem State.modHere_fossils (s : State) (f : Core → Core) : (s.modHere f).fossils = s.fossils := rfl
@[simp] theorem State.modHere_failedSlots (s : State) (f : Core → Core) : (s.modHere f).failedSlots = s.failedSlots := rfl
@[simp] theorem State.modHere_ckpts (s : State) (f : Core → Core) : (s.modHere f).ckpts = s.ckpts := rfl
@[simp] theorem State.modHere_inval (s : State) (f : Core → Core) : (s.modHere f).inval = s.inval := rfl
@[simp] theorem State.modHere_pcieOut (s : State) (f : Core → Core) : (s.modHere f).pcieOut = s.pcieOut := rfl
@[simp] theorem State.modHere_heldRows (s : State) (f : Core → Core) : (s.modHere f).heldRows = s.heldRows := rfl
@[simp] theorem State.modHere_mirQ (s : State) (f : Core → Core) : (s.modHere f).mirQ = s.mirQ := rfl
@[simp] theorem State.modHere_mirPos (s : State) (f : Core → Core) : (s.modHere f).mirPos = s.mirPos := rfl
@[simp] theorem State.modHere_flaws (s : State) (f : Core → Core) : (s.modHere f).flaws = s.flaws := rfl
@[simp] theorem State.modHere_repairs (s : State) (f : Core → Core) : (s.modHere f).repairs = s.repairs := rfl
@[simp] theorem State.modHere_stands (s : State) (f : Core → Core) : (s.modHere f).stands = s.stands := rfl
@[simp] theorem State.modHere_hosts (s : State) (f : Core → Core) : (s.modHere f).hosts = s.hosts := rfl
@[simp] theorem State.modHere_hostIrqs (s : State) (f : Core → Core) : (s.modHere f).hostIrqs = s.hostIrqs := rfl
@[simp] theorem State.modHere_pkgLoss (s : State) (f : Core → Core) : (s.modHere f).pkgLoss = s.pkgLoss := rfl
@[simp] theorem State.modHere_flitRuns (s : State) (f : Core → Core) : (s.modHere f).flitRuns = s.flitRuns := rfl
@[simp] theorem State.modHere_manifest (s : State) (f : Core → Core) : (s.modHere f).manifest = s.manifest := rfl
@[simp] theorem State.modHere_manifestEnv (s : State) (f : Core → Core) : (s.modHere f).manifestEnv = s.manifestEnv := rfl
@[simp] theorem State.modHere_testEnv (s : State) (f : Core → Core) : (s.modHere f).testEnv = s.testEnv := rfl
@[simp] theorem State.modHere_fwA (s : State) (f : Core → Core) : (s.modHere f).fwA = s.fwA := rfl
@[simp] theorem State.modHere_fwB (s : State) (f : Core → Core) : (s.modHere f).fwB = s.fwB := rfl
@[simp] theorem State.modHere_update (s : State) (f : Core → Core) : (s.modHere f).update = s.update := rfl
@[simp] theorem State.modHere_nanos (s : State) (f : Core → Core) : (s.modHere f).nanos = s.nanos := rfl
@[simp] theorem State.modHere_powered (s : State) (f : Core → Core) : (s.modHere f).powered = s.powered := rfl
@[simp] theorem State.modHere_accepting (s : State) (f : Core → Core) : (s.modHere f).accepting = s.accepting := rfl
@[simp] theorem State.modHere_recovery (s : State) (f : Core → Core) : (s.modHere f).recovery = s.recovery := rfl
@[simp] theorem State.modHere_bootStep (s : State) (f : Core → Core) : (s.modHere f).bootStep = s.bootStep := rfl
@[simp] theorem State.modHere_wake (s : State) (f : Core → Core) : (s.modHere f).wake = s.wake := rfl
@[simp] theorem State.modHere_pgood (s : State) (f : Core → Core) : (s.modHere f).pgood = s.pgood := rfl
@[simp] theorem State.modHere_pcieLanes (s : State) (f : Core → Core) : (s.modHere f).pcieLanes = s.pcieLanes := rfl
@[simp] theorem State.modHere_pcieGts (s : State) (f : Core → Core) : (s.modHere f).pcieGts = s.pcieGts := rfl
@[simp] theorem State.modHere_reply (s : State) (f : Core → Core) : (s.modHere f).reply = s.reply := rfl
@[simp] theorem State.modHere_replyOk (s : State) (f : Core → Core) : (s.modHere f).replyOk = s.replyOk := rfl

/-! ### `modGeode` -/

@[simp] theorem State.modGeode_inputs (s : State) (g : Nat) (f : Geode → Geode) : (s.modGeode g f).inputs = s.inputs := rfl
@[simp] theorem State.modGeode_agenda (s : State) (g : Nat) (f : Geode → Geode) : (s.modGeode g f).agenda = s.agenda := rfl
@[simp] theorem State.modGeode_due (s : State) (g : Nat) (f : Geode → Geode) : (s.modGeode g f).due = s.due := rfl
@[simp] theorem State.modGeode_turn (s : State) (g : Nat) (f : Geode → Geode) : (s.modGeode g f).turn = s.turn := rfl
@[simp] theorem State.modGeode_cur (s : State) (g : Nat) (f : Geode → Geode) : (s.modGeode g f).cur = s.cur := rfl
@[simp] theorem State.modGeode_lastCore (s : State) (g : Nat) (f : Geode → Geode) : (s.modGeode g f).lastCore = s.lastCore := rfl
@[simp] theorem State.modGeode_freeCtr (s : State) (g : Nat) (f : Geode → Geode) : (s.modGeode g f).freeCtr = s.freeCtr := rfl
@[simp] theorem State.modGeode_nextId (s : State) (g : Nat) (f : Geode → Geode) : (s.modGeode g f).nextId = s.nextId := rfl
@[simp] theorem State.modGeode_cores (s : State) (g : Nat) (f : Geode → Geode) : (s.modGeode g f).cores = s.cores := rfl
@[simp] theorem State.modGeode_mem (s : State) (g : Nat) (f : Geode → Geode) : (s.modGeode g f).mem = s.mem := rfl
@[simp] theorem State.modGeode_memPoison (s : State) (g : Nat) (f : Geode → Geode) : (s.modGeode g f).memPoison = s.memPoison := rfl
@[simp] theorem State.modGeode_media (s : State) (g : Nat) (f : Geode → Geode) : (s.modGeode g f).media = s.media := rfl
@[simp] theorem State.modGeode_mediaLost (s : State) (g : Nat) (f : Geode → Geode) : (s.modGeode g f).mediaLost = s.mediaLost := rfl
@[simp] theorem State.modGeode_mediaKnown (s : State) (g : Nat) (f : Geode → Geode) : (s.modGeode g f).mediaKnown = s.mediaKnown := rfl
@[simp] theorem State.modGeode_durQ (s : State) (g : Nat) (f : Geode → Geode) : (s.modGeode g f).durQ = s.durQ := rfl
@[simp] theorem State.modGeode_durPoison (s : State) (g : Nat) (f : Geode → Geode) : (s.modGeode g f).durPoison = s.durPoison := rfl
@[simp] theorem State.modGeode_seals (s : State) (g : Nat) (f : Geode → Geode) : (s.modGeode g f).seals = s.seals := rfl
@[simp] theorem State.modGeode_dev (s : State) (g : Nat) (f : Geode → Geode) : (s.modGeode g f).dev = s.dev := rfl
@[simp] theorem State.modGeode_logs (s : State) (g : Nat) (f : Geode → Geode) : (s.modGeode g f).logs = s.logs := rfl
@[simp] theorem State.modGeode_accs (s : State) (g : Nat) (f : Geode → Geode) : (s.modGeode g f).accs = s.accs := rfl
@[simp] theorem State.modGeode_bulk (s : State) (g : Nat) (f : Geode → Geode) : (s.modGeode g f).bulk = s.bulk := rfl
@[simp] theorem State.modGeode_slots (s : State) (g : Nat) (f : Geode → Geode) : (s.modGeode g f).slots = s.slots := rfl
@[simp] theorem State.modGeode_lastSlot (s : State) (g : Nat) (f : Geode → Geode) : (s.modGeode g f).lastSlot = s.lastSlot := rfl
@[simp] theorem State.modGeode_launches (s : State) (g : Nat) (f : Geode → Geode) : (s.modGeode g f).launches = s.launches := rfl
@[simp] theorem State.modGeode_fossils (s : State) (g : Nat) (f : Geode → Geode) : (s.modGeode g f).fossils = s.fossils := rfl
@[simp] theorem State.modGeode_failedSlots (s : State) (g : Nat) (f : Geode → Geode) : (s.modGeode g f).failedSlots = s.failedSlots := rfl
@[simp] theorem State.modGeode_ckpts (s : State) (g : Nat) (f : Geode → Geode) : (s.modGeode g f).ckpts = s.ckpts := rfl
@[simp] theorem State.modGeode_inval (s : State) (g : Nat) (f : Geode → Geode) : (s.modGeode g f).inval = s.inval := rfl
@[simp] theorem State.modGeode_pcieOut (s : State) (g : Nat) (f : Geode → Geode) : (s.modGeode g f).pcieOut = s.pcieOut := rfl
@[simp] theorem State.modGeode_heldRows (s : State) (g : Nat) (f : Geode → Geode) : (s.modGeode g f).heldRows = s.heldRows := rfl
@[simp] theorem State.modGeode_mirQ (s : State) (g : Nat) (f : Geode → Geode) : (s.modGeode g f).mirQ = s.mirQ := rfl
@[simp] theorem State.modGeode_mirPos (s : State) (g : Nat) (f : Geode → Geode) : (s.modGeode g f).mirPos = s.mirPos := rfl
@[simp] theorem State.modGeode_flaws (s : State) (g : Nat) (f : Geode → Geode) : (s.modGeode g f).flaws = s.flaws := rfl
@[simp] theorem State.modGeode_repairs (s : State) (g : Nat) (f : Geode → Geode) : (s.modGeode g f).repairs = s.repairs := rfl
@[simp] theorem State.modGeode_stands (s : State) (g : Nat) (f : Geode → Geode) : (s.modGeode g f).stands = s.stands := rfl
@[simp] theorem State.modGeode_hosts (s : State) (g : Nat) (f : Geode → Geode) : (s.modGeode g f).hosts = s.hosts := rfl
@[simp] theorem State.modGeode_hostIrqs (s : State) (g : Nat) (f : Geode → Geode) : (s.modGeode g f).hostIrqs = s.hostIrqs := rfl
@[simp] theorem State.modGeode_pkgLoss (s : State) (g : Nat) (f : Geode → Geode) : (s.modGeode g f).pkgLoss = s.pkgLoss := rfl
@[simp] theorem State.modGeode_flitRuns (s : State) (g : Nat) (f : Geode → Geode) : (s.modGeode g f).flitRuns = s.flitRuns := rfl
@[simp] theorem State.modGeode_manifest (s : State) (g : Nat) (f : Geode → Geode) : (s.modGeode g f).manifest = s.manifest := rfl
@[simp] theorem State.modGeode_manifestEnv (s : State) (g : Nat) (f : Geode → Geode) : (s.modGeode g f).manifestEnv = s.manifestEnv := rfl
@[simp] theorem State.modGeode_testEnv (s : State) (g : Nat) (f : Geode → Geode) : (s.modGeode g f).testEnv = s.testEnv := rfl
@[simp] theorem State.modGeode_fwA (s : State) (g : Nat) (f : Geode → Geode) : (s.modGeode g f).fwA = s.fwA := rfl
@[simp] theorem State.modGeode_fwB (s : State) (g : Nat) (f : Geode → Geode) : (s.modGeode g f).fwB = s.fwB := rfl
@[simp] theorem State.modGeode_update (s : State) (g : Nat) (f : Geode → Geode) : (s.modGeode g f).update = s.update := rfl
@[simp] theorem State.modGeode_nanos (s : State) (g : Nat) (f : Geode → Geode) : (s.modGeode g f).nanos = s.nanos := rfl
@[simp] theorem State.modGeode_powered (s : State) (g : Nat) (f : Geode → Geode) : (s.modGeode g f).powered = s.powered := rfl
@[simp] theorem State.modGeode_accepting (s : State) (g : Nat) (f : Geode → Geode) : (s.modGeode g f).accepting = s.accepting := rfl
@[simp] theorem State.modGeode_recovery (s : State) (g : Nat) (f : Geode → Geode) : (s.modGeode g f).recovery = s.recovery := rfl
@[simp] theorem State.modGeode_bootStep (s : State) (g : Nat) (f : Geode → Geode) : (s.modGeode g f).bootStep = s.bootStep := rfl
@[simp] theorem State.modGeode_wake (s : State) (g : Nat) (f : Geode → Geode) : (s.modGeode g f).wake = s.wake := rfl
@[simp] theorem State.modGeode_pgood (s : State) (g : Nat) (f : Geode → Geode) : (s.modGeode g f).pgood = s.pgood := rfl
@[simp] theorem State.modGeode_pcieLanes (s : State) (g : Nat) (f : Geode → Geode) : (s.modGeode g f).pcieLanes = s.pcieLanes := rfl
@[simp] theorem State.modGeode_pcieGts (s : State) (g : Nat) (f : Geode → Geode) : (s.modGeode g f).pcieGts = s.pcieGts := rfl
@[simp] theorem State.modGeode_reply (s : State) (g : Nat) (f : Geode → Geode) : (s.modGeode g f).reply = s.reply := rfl
@[simp] theorem State.modGeode_replyOk (s : State) (g : Nat) (f : Geode → Geode) : (s.modGeode g f).replyOk = s.replyOk := rfl

/-! ### `devSet` -/

@[simp] theorem State.devSet_inputs (s : State) (a : Nat) (v : BitVec 64) : (s.devSet a v).inputs = s.inputs := rfl
@[simp] theorem State.devSet_agenda (s : State) (a : Nat) (v : BitVec 64) : (s.devSet a v).agenda = s.agenda := rfl
@[simp] theorem State.devSet_due (s : State) (a : Nat) (v : BitVec 64) : (s.devSet a v).due = s.due := rfl
@[simp] theorem State.devSet_turn (s : State) (a : Nat) (v : BitVec 64) : (s.devSet a v).turn = s.turn := rfl
@[simp] theorem State.devSet_cur (s : State) (a : Nat) (v : BitVec 64) : (s.devSet a v).cur = s.cur := rfl
@[simp] theorem State.devSet_lastCore (s : State) (a : Nat) (v : BitVec 64) : (s.devSet a v).lastCore = s.lastCore := rfl
@[simp] theorem State.devSet_freeCtr (s : State) (a : Nat) (v : BitVec 64) : (s.devSet a v).freeCtr = s.freeCtr := rfl
@[simp] theorem State.devSet_nextId (s : State) (a : Nat) (v : BitVec 64) : (s.devSet a v).nextId = s.nextId := rfl
@[simp] theorem State.devSet_cores (s : State) (a : Nat) (v : BitVec 64) : (s.devSet a v).cores = s.cores := rfl
@[simp] theorem State.devSet_geodes (s : State) (a : Nat) (v : BitVec 64) : (s.devSet a v).geodes = s.geodes := rfl
@[simp] theorem State.devSet_mem (s : State) (a : Nat) (v : BitVec 64) : (s.devSet a v).mem = s.mem := rfl
@[simp] theorem State.devSet_memPoison (s : State) (a : Nat) (v : BitVec 64) : (s.devSet a v).memPoison = s.memPoison := rfl
@[simp] theorem State.devSet_media (s : State) (a : Nat) (v : BitVec 64) : (s.devSet a v).media = s.media := rfl
@[simp] theorem State.devSet_mediaLost (s : State) (a : Nat) (v : BitVec 64) : (s.devSet a v).mediaLost = s.mediaLost := rfl
@[simp] theorem State.devSet_mediaKnown (s : State) (a : Nat) (v : BitVec 64) : (s.devSet a v).mediaKnown = s.mediaKnown := rfl
@[simp] theorem State.devSet_durQ (s : State) (a : Nat) (v : BitVec 64) : (s.devSet a v).durQ = s.durQ := rfl
@[simp] theorem State.devSet_durPoison (s : State) (a : Nat) (v : BitVec 64) : (s.devSet a v).durPoison = s.durPoison := rfl
@[simp] theorem State.devSet_seals (s : State) (a : Nat) (v : BitVec 64) : (s.devSet a v).seals = s.seals := rfl
@[simp] theorem State.devSet_logs (s : State) (a : Nat) (v : BitVec 64) : (s.devSet a v).logs = s.logs := rfl
@[simp] theorem State.devSet_accs (s : State) (a : Nat) (v : BitVec 64) : (s.devSet a v).accs = s.accs := rfl
@[simp] theorem State.devSet_bulk (s : State) (a : Nat) (v : BitVec 64) : (s.devSet a v).bulk = s.bulk := rfl
@[simp] theorem State.devSet_slots (s : State) (a : Nat) (v : BitVec 64) : (s.devSet a v).slots = s.slots := rfl
@[simp] theorem State.devSet_lastSlot (s : State) (a : Nat) (v : BitVec 64) : (s.devSet a v).lastSlot = s.lastSlot := rfl
@[simp] theorem State.devSet_launches (s : State) (a : Nat) (v : BitVec 64) : (s.devSet a v).launches = s.launches := rfl
@[simp] theorem State.devSet_fossils (s : State) (a : Nat) (v : BitVec 64) : (s.devSet a v).fossils = s.fossils := rfl
@[simp] theorem State.devSet_failedSlots (s : State) (a : Nat) (v : BitVec 64) : (s.devSet a v).failedSlots = s.failedSlots := rfl
@[simp] theorem State.devSet_ckpts (s : State) (a : Nat) (v : BitVec 64) : (s.devSet a v).ckpts = s.ckpts := rfl
@[simp] theorem State.devSet_inval (s : State) (a : Nat) (v : BitVec 64) : (s.devSet a v).inval = s.inval := rfl
@[simp] theorem State.devSet_pcieOut (s : State) (a : Nat) (v : BitVec 64) : (s.devSet a v).pcieOut = s.pcieOut := rfl
@[simp] theorem State.devSet_heldRows (s : State) (a : Nat) (v : BitVec 64) : (s.devSet a v).heldRows = s.heldRows := rfl
@[simp] theorem State.devSet_mirQ (s : State) (a : Nat) (v : BitVec 64) : (s.devSet a v).mirQ = s.mirQ := rfl
@[simp] theorem State.devSet_mirPos (s : State) (a : Nat) (v : BitVec 64) : (s.devSet a v).mirPos = s.mirPos := rfl
@[simp] theorem State.devSet_flaws (s : State) (a : Nat) (v : BitVec 64) : (s.devSet a v).flaws = s.flaws := rfl
@[simp] theorem State.devSet_repairs (s : State) (a : Nat) (v : BitVec 64) : (s.devSet a v).repairs = s.repairs := rfl
@[simp] theorem State.devSet_stands (s : State) (a : Nat) (v : BitVec 64) : (s.devSet a v).stands = s.stands := rfl
@[simp] theorem State.devSet_hosts (s : State) (a : Nat) (v : BitVec 64) : (s.devSet a v).hosts = s.hosts := rfl
@[simp] theorem State.devSet_hostIrqs (s : State) (a : Nat) (v : BitVec 64) : (s.devSet a v).hostIrqs = s.hostIrqs := rfl
@[simp] theorem State.devSet_pkgLoss (s : State) (a : Nat) (v : BitVec 64) : (s.devSet a v).pkgLoss = s.pkgLoss := rfl
@[simp] theorem State.devSet_flitRuns (s : State) (a : Nat) (v : BitVec 64) : (s.devSet a v).flitRuns = s.flitRuns := rfl
@[simp] theorem State.devSet_manifest (s : State) (a : Nat) (v : BitVec 64) : (s.devSet a v).manifest = s.manifest := rfl
@[simp] theorem State.devSet_manifestEnv (s : State) (a : Nat) (v : BitVec 64) : (s.devSet a v).manifestEnv = s.manifestEnv := rfl
@[simp] theorem State.devSet_testEnv (s : State) (a : Nat) (v : BitVec 64) : (s.devSet a v).testEnv = s.testEnv := rfl
@[simp] theorem State.devSet_fwA (s : State) (a : Nat) (v : BitVec 64) : (s.devSet a v).fwA = s.fwA := rfl
@[simp] theorem State.devSet_fwB (s : State) (a : Nat) (v : BitVec 64) : (s.devSet a v).fwB = s.fwB := rfl
@[simp] theorem State.devSet_update (s : State) (a : Nat) (v : BitVec 64) : (s.devSet a v).update = s.update := rfl
@[simp] theorem State.devSet_nanos (s : State) (a : Nat) (v : BitVec 64) : (s.devSet a v).nanos = s.nanos := rfl
@[simp] theorem State.devSet_powered (s : State) (a : Nat) (v : BitVec 64) : (s.devSet a v).powered = s.powered := rfl
@[simp] theorem State.devSet_accepting (s : State) (a : Nat) (v : BitVec 64) : (s.devSet a v).accepting = s.accepting := rfl
@[simp] theorem State.devSet_recovery (s : State) (a : Nat) (v : BitVec 64) : (s.devSet a v).recovery = s.recovery := rfl
@[simp] theorem State.devSet_bootStep (s : State) (a : Nat) (v : BitVec 64) : (s.devSet a v).bootStep = s.bootStep := rfl
@[simp] theorem State.devSet_wake (s : State) (a : Nat) (v : BitVec 64) : (s.devSet a v).wake = s.wake := rfl
@[simp] theorem State.devSet_pgood (s : State) (a : Nat) (v : BitVec 64) : (s.devSet a v).pgood = s.pgood := rfl
@[simp] theorem State.devSet_pcieLanes (s : State) (a : Nat) (v : BitVec 64) : (s.devSet a v).pcieLanes = s.pcieLanes := rfl
@[simp] theorem State.devSet_pcieGts (s : State) (a : Nat) (v : BitVec 64) : (s.devSet a v).pcieGts = s.pcieGts := rfl
@[simp] theorem State.devSet_reply (s : State) (a : Nat) (v : BitVec 64) : (s.devSet a v).reply = s.reply := rfl
@[simp] theorem State.devSet_replyOk (s : State) (a : Nat) (v : BitVec 64) : (s.devSet a v).replyOk = s.replyOk := rfl

/-! ### `devPut` -/

@[simp] theorem State.devPut_inputs (s : State) (a hi lo v : Nat) : (s.devPut a hi lo v).inputs = s.inputs := rfl
@[simp] theorem State.devPut_agenda (s : State) (a hi lo v : Nat) : (s.devPut a hi lo v).agenda = s.agenda := rfl
@[simp] theorem State.devPut_due (s : State) (a hi lo v : Nat) : (s.devPut a hi lo v).due = s.due := rfl
@[simp] theorem State.devPut_turn (s : State) (a hi lo v : Nat) : (s.devPut a hi lo v).turn = s.turn := rfl
@[simp] theorem State.devPut_cur (s : State) (a hi lo v : Nat) : (s.devPut a hi lo v).cur = s.cur := rfl
@[simp] theorem State.devPut_lastCore (s : State) (a hi lo v : Nat) : (s.devPut a hi lo v).lastCore = s.lastCore := rfl
@[simp] theorem State.devPut_freeCtr (s : State) (a hi lo v : Nat) : (s.devPut a hi lo v).freeCtr = s.freeCtr := rfl
@[simp] theorem State.devPut_nextId (s : State) (a hi lo v : Nat) : (s.devPut a hi lo v).nextId = s.nextId := rfl
@[simp] theorem State.devPut_cores (s : State) (a hi lo v : Nat) : (s.devPut a hi lo v).cores = s.cores := rfl
@[simp] theorem State.devPut_geodes (s : State) (a hi lo v : Nat) : (s.devPut a hi lo v).geodes = s.geodes := rfl
@[simp] theorem State.devPut_mem (s : State) (a hi lo v : Nat) : (s.devPut a hi lo v).mem = s.mem := rfl
@[simp] theorem State.devPut_memPoison (s : State) (a hi lo v : Nat) : (s.devPut a hi lo v).memPoison = s.memPoison := rfl
@[simp] theorem State.devPut_media (s : State) (a hi lo v : Nat) : (s.devPut a hi lo v).media = s.media := rfl
@[simp] theorem State.devPut_mediaLost (s : State) (a hi lo v : Nat) : (s.devPut a hi lo v).mediaLost = s.mediaLost := rfl
@[simp] theorem State.devPut_mediaKnown (s : State) (a hi lo v : Nat) : (s.devPut a hi lo v).mediaKnown = s.mediaKnown := rfl
@[simp] theorem State.devPut_durQ (s : State) (a hi lo v : Nat) : (s.devPut a hi lo v).durQ = s.durQ := rfl
@[simp] theorem State.devPut_durPoison (s : State) (a hi lo v : Nat) : (s.devPut a hi lo v).durPoison = s.durPoison := rfl
@[simp] theorem State.devPut_seals (s : State) (a hi lo v : Nat) : (s.devPut a hi lo v).seals = s.seals := rfl
@[simp] theorem State.devPut_logs (s : State) (a hi lo v : Nat) : (s.devPut a hi lo v).logs = s.logs := rfl
@[simp] theorem State.devPut_accs (s : State) (a hi lo v : Nat) : (s.devPut a hi lo v).accs = s.accs := rfl
@[simp] theorem State.devPut_bulk (s : State) (a hi lo v : Nat) : (s.devPut a hi lo v).bulk = s.bulk := rfl
@[simp] theorem State.devPut_slots (s : State) (a hi lo v : Nat) : (s.devPut a hi lo v).slots = s.slots := rfl
@[simp] theorem State.devPut_lastSlot (s : State) (a hi lo v : Nat) : (s.devPut a hi lo v).lastSlot = s.lastSlot := rfl
@[simp] theorem State.devPut_launches (s : State) (a hi lo v : Nat) : (s.devPut a hi lo v).launches = s.launches := rfl
@[simp] theorem State.devPut_fossils (s : State) (a hi lo v : Nat) : (s.devPut a hi lo v).fossils = s.fossils := rfl
@[simp] theorem State.devPut_failedSlots (s : State) (a hi lo v : Nat) : (s.devPut a hi lo v).failedSlots = s.failedSlots := rfl
@[simp] theorem State.devPut_ckpts (s : State) (a hi lo v : Nat) : (s.devPut a hi lo v).ckpts = s.ckpts := rfl
@[simp] theorem State.devPut_inval (s : State) (a hi lo v : Nat) : (s.devPut a hi lo v).inval = s.inval := rfl
@[simp] theorem State.devPut_pcieOut (s : State) (a hi lo v : Nat) : (s.devPut a hi lo v).pcieOut = s.pcieOut := rfl
@[simp] theorem State.devPut_heldRows (s : State) (a hi lo v : Nat) : (s.devPut a hi lo v).heldRows = s.heldRows := rfl
@[simp] theorem State.devPut_mirQ (s : State) (a hi lo v : Nat) : (s.devPut a hi lo v).mirQ = s.mirQ := rfl
@[simp] theorem State.devPut_mirPos (s : State) (a hi lo v : Nat) : (s.devPut a hi lo v).mirPos = s.mirPos := rfl
@[simp] theorem State.devPut_flaws (s : State) (a hi lo v : Nat) : (s.devPut a hi lo v).flaws = s.flaws := rfl
@[simp] theorem State.devPut_repairs (s : State) (a hi lo v : Nat) : (s.devPut a hi lo v).repairs = s.repairs := rfl
@[simp] theorem State.devPut_stands (s : State) (a hi lo v : Nat) : (s.devPut a hi lo v).stands = s.stands := rfl
@[simp] theorem State.devPut_hosts (s : State) (a hi lo v : Nat) : (s.devPut a hi lo v).hosts = s.hosts := rfl
@[simp] theorem State.devPut_hostIrqs (s : State) (a hi lo v : Nat) : (s.devPut a hi lo v).hostIrqs = s.hostIrqs := rfl
@[simp] theorem State.devPut_pkgLoss (s : State) (a hi lo v : Nat) : (s.devPut a hi lo v).pkgLoss = s.pkgLoss := rfl
@[simp] theorem State.devPut_flitRuns (s : State) (a hi lo v : Nat) : (s.devPut a hi lo v).flitRuns = s.flitRuns := rfl
@[simp] theorem State.devPut_manifest (s : State) (a hi lo v : Nat) : (s.devPut a hi lo v).manifest = s.manifest := rfl
@[simp] theorem State.devPut_manifestEnv (s : State) (a hi lo v : Nat) : (s.devPut a hi lo v).manifestEnv = s.manifestEnv := rfl
@[simp] theorem State.devPut_testEnv (s : State) (a hi lo v : Nat) : (s.devPut a hi lo v).testEnv = s.testEnv := rfl
@[simp] theorem State.devPut_fwA (s : State) (a hi lo v : Nat) : (s.devPut a hi lo v).fwA = s.fwA := rfl
@[simp] theorem State.devPut_fwB (s : State) (a hi lo v : Nat) : (s.devPut a hi lo v).fwB = s.fwB := rfl
@[simp] theorem State.devPut_update (s : State) (a hi lo v : Nat) : (s.devPut a hi lo v).update = s.update := rfl
@[simp] theorem State.devPut_nanos (s : State) (a hi lo v : Nat) : (s.devPut a hi lo v).nanos = s.nanos := rfl
@[simp] theorem State.devPut_powered (s : State) (a hi lo v : Nat) : (s.devPut a hi lo v).powered = s.powered := rfl
@[simp] theorem State.devPut_accepting (s : State) (a hi lo v : Nat) : (s.devPut a hi lo v).accepting = s.accepting := rfl
@[simp] theorem State.devPut_recovery (s : State) (a hi lo v : Nat) : (s.devPut a hi lo v).recovery = s.recovery := rfl
@[simp] theorem State.devPut_bootStep (s : State) (a hi lo v : Nat) : (s.devPut a hi lo v).bootStep = s.bootStep := rfl
@[simp] theorem State.devPut_wake (s : State) (a hi lo v : Nat) : (s.devPut a hi lo v).wake = s.wake := rfl
@[simp] theorem State.devPut_pgood (s : State) (a hi lo v : Nat) : (s.devPut a hi lo v).pgood = s.pgood := rfl
@[simp] theorem State.devPut_pcieLanes (s : State) (a hi lo v : Nat) : (s.devPut a hi lo v).pcieLanes = s.pcieLanes := rfl
@[simp] theorem State.devPut_pcieGts (s : State) (a hi lo v : Nat) : (s.devPut a hi lo v).pcieGts = s.pcieGts := rfl
@[simp] theorem State.devPut_reply (s : State) (a hi lo v : Nat) : (s.devPut a hi lo v).reply = s.reply := rfl
@[simp] theorem State.devPut_replyOk (s : State) (a hi lo v : Nat) : (s.devPut a hi lo v).replyOk = s.replyOk := rfl

/-! ### `devAdd` -/

@[simp] theorem State.devAdd_inputs (s : State) (a hi lo v : Nat) : (s.devAdd a hi lo v).inputs = s.inputs := rfl
@[simp] theorem State.devAdd_agenda (s : State) (a hi lo v : Nat) : (s.devAdd a hi lo v).agenda = s.agenda := rfl
@[simp] theorem State.devAdd_due (s : State) (a hi lo v : Nat) : (s.devAdd a hi lo v).due = s.due := rfl
@[simp] theorem State.devAdd_turn (s : State) (a hi lo v : Nat) : (s.devAdd a hi lo v).turn = s.turn := rfl
@[simp] theorem State.devAdd_cur (s : State) (a hi lo v : Nat) : (s.devAdd a hi lo v).cur = s.cur := rfl
@[simp] theorem State.devAdd_lastCore (s : State) (a hi lo v : Nat) : (s.devAdd a hi lo v).lastCore = s.lastCore := rfl
@[simp] theorem State.devAdd_freeCtr (s : State) (a hi lo v : Nat) : (s.devAdd a hi lo v).freeCtr = s.freeCtr := rfl
@[simp] theorem State.devAdd_nextId (s : State) (a hi lo v : Nat) : (s.devAdd a hi lo v).nextId = s.nextId := rfl
@[simp] theorem State.devAdd_cores (s : State) (a hi lo v : Nat) : (s.devAdd a hi lo v).cores = s.cores := rfl
@[simp] theorem State.devAdd_geodes (s : State) (a hi lo v : Nat) : (s.devAdd a hi lo v).geodes = s.geodes := rfl
@[simp] theorem State.devAdd_mem (s : State) (a hi lo v : Nat) : (s.devAdd a hi lo v).mem = s.mem := rfl
@[simp] theorem State.devAdd_memPoison (s : State) (a hi lo v : Nat) : (s.devAdd a hi lo v).memPoison = s.memPoison := rfl
@[simp] theorem State.devAdd_media (s : State) (a hi lo v : Nat) : (s.devAdd a hi lo v).media = s.media := rfl
@[simp] theorem State.devAdd_mediaLost (s : State) (a hi lo v : Nat) : (s.devAdd a hi lo v).mediaLost = s.mediaLost := rfl
@[simp] theorem State.devAdd_mediaKnown (s : State) (a hi lo v : Nat) : (s.devAdd a hi lo v).mediaKnown = s.mediaKnown := rfl
@[simp] theorem State.devAdd_durQ (s : State) (a hi lo v : Nat) : (s.devAdd a hi lo v).durQ = s.durQ := rfl
@[simp] theorem State.devAdd_durPoison (s : State) (a hi lo v : Nat) : (s.devAdd a hi lo v).durPoison = s.durPoison := rfl
@[simp] theorem State.devAdd_seals (s : State) (a hi lo v : Nat) : (s.devAdd a hi lo v).seals = s.seals := rfl
@[simp] theorem State.devAdd_logs (s : State) (a hi lo v : Nat) : (s.devAdd a hi lo v).logs = s.logs := rfl
@[simp] theorem State.devAdd_accs (s : State) (a hi lo v : Nat) : (s.devAdd a hi lo v).accs = s.accs := rfl
@[simp] theorem State.devAdd_bulk (s : State) (a hi lo v : Nat) : (s.devAdd a hi lo v).bulk = s.bulk := rfl
@[simp] theorem State.devAdd_slots (s : State) (a hi lo v : Nat) : (s.devAdd a hi lo v).slots = s.slots := rfl
@[simp] theorem State.devAdd_lastSlot (s : State) (a hi lo v : Nat) : (s.devAdd a hi lo v).lastSlot = s.lastSlot := rfl
@[simp] theorem State.devAdd_launches (s : State) (a hi lo v : Nat) : (s.devAdd a hi lo v).launches = s.launches := rfl
@[simp] theorem State.devAdd_fossils (s : State) (a hi lo v : Nat) : (s.devAdd a hi lo v).fossils = s.fossils := rfl
@[simp] theorem State.devAdd_failedSlots (s : State) (a hi lo v : Nat) : (s.devAdd a hi lo v).failedSlots = s.failedSlots := rfl
@[simp] theorem State.devAdd_ckpts (s : State) (a hi lo v : Nat) : (s.devAdd a hi lo v).ckpts = s.ckpts := rfl
@[simp] theorem State.devAdd_inval (s : State) (a hi lo v : Nat) : (s.devAdd a hi lo v).inval = s.inval := rfl
@[simp] theorem State.devAdd_pcieOut (s : State) (a hi lo v : Nat) : (s.devAdd a hi lo v).pcieOut = s.pcieOut := rfl
@[simp] theorem State.devAdd_heldRows (s : State) (a hi lo v : Nat) : (s.devAdd a hi lo v).heldRows = s.heldRows := rfl
@[simp] theorem State.devAdd_mirQ (s : State) (a hi lo v : Nat) : (s.devAdd a hi lo v).mirQ = s.mirQ := rfl
@[simp] theorem State.devAdd_mirPos (s : State) (a hi lo v : Nat) : (s.devAdd a hi lo v).mirPos = s.mirPos := rfl
@[simp] theorem State.devAdd_flaws (s : State) (a hi lo v : Nat) : (s.devAdd a hi lo v).flaws = s.flaws := rfl
@[simp] theorem State.devAdd_repairs (s : State) (a hi lo v : Nat) : (s.devAdd a hi lo v).repairs = s.repairs := rfl
@[simp] theorem State.devAdd_stands (s : State) (a hi lo v : Nat) : (s.devAdd a hi lo v).stands = s.stands := rfl
@[simp] theorem State.devAdd_hosts (s : State) (a hi lo v : Nat) : (s.devAdd a hi lo v).hosts = s.hosts := rfl
@[simp] theorem State.devAdd_hostIrqs (s : State) (a hi lo v : Nat) : (s.devAdd a hi lo v).hostIrqs = s.hostIrqs := rfl
@[simp] theorem State.devAdd_pkgLoss (s : State) (a hi lo v : Nat) : (s.devAdd a hi lo v).pkgLoss = s.pkgLoss := rfl
@[simp] theorem State.devAdd_flitRuns (s : State) (a hi lo v : Nat) : (s.devAdd a hi lo v).flitRuns = s.flitRuns := rfl
@[simp] theorem State.devAdd_manifest (s : State) (a hi lo v : Nat) : (s.devAdd a hi lo v).manifest = s.manifest := rfl
@[simp] theorem State.devAdd_manifestEnv (s : State) (a hi lo v : Nat) : (s.devAdd a hi lo v).manifestEnv = s.manifestEnv := rfl
@[simp] theorem State.devAdd_testEnv (s : State) (a hi lo v : Nat) : (s.devAdd a hi lo v).testEnv = s.testEnv := rfl
@[simp] theorem State.devAdd_fwA (s : State) (a hi lo v : Nat) : (s.devAdd a hi lo v).fwA = s.fwA := rfl
@[simp] theorem State.devAdd_fwB (s : State) (a hi lo v : Nat) : (s.devAdd a hi lo v).fwB = s.fwB := rfl
@[simp] theorem State.devAdd_update (s : State) (a hi lo v : Nat) : (s.devAdd a hi lo v).update = s.update := rfl
@[simp] theorem State.devAdd_nanos (s : State) (a hi lo v : Nat) : (s.devAdd a hi lo v).nanos = s.nanos := rfl
@[simp] theorem State.devAdd_powered (s : State) (a hi lo v : Nat) : (s.devAdd a hi lo v).powered = s.powered := rfl
@[simp] theorem State.devAdd_accepting (s : State) (a hi lo v : Nat) : (s.devAdd a hi lo v).accepting = s.accepting := rfl
@[simp] theorem State.devAdd_recovery (s : State) (a hi lo v : Nat) : (s.devAdd a hi lo v).recovery = s.recovery := rfl
@[simp] theorem State.devAdd_bootStep (s : State) (a hi lo v : Nat) : (s.devAdd a hi lo v).bootStep = s.bootStep := rfl
@[simp] theorem State.devAdd_wake (s : State) (a hi lo v : Nat) : (s.devAdd a hi lo v).wake = s.wake := rfl
@[simp] theorem State.devAdd_pgood (s : State) (a hi lo v : Nat) : (s.devAdd a hi lo v).pgood = s.pgood := rfl
@[simp] theorem State.devAdd_pcieLanes (s : State) (a hi lo v : Nat) : (s.devAdd a hi lo v).pcieLanes = s.pcieLanes := rfl
@[simp] theorem State.devAdd_pcieGts (s : State) (a hi lo v : Nat) : (s.devAdd a hi lo v).pcieGts = s.pcieGts := rfl
@[simp] theorem State.devAdd_reply (s : State) (a hi lo v : Nat) : (s.devAdd a hi lo v).reply = s.reply := rfl
@[simp] theorem State.devAdd_replyOk (s : State) (a hi lo v : Nat) : (s.devAdd a hi lo v).replyOk = s.replyOk := rfl

/-! ### What the updates change -/

@[simp] theorem State.core_setCore_same (s : State) (c : Nat) (k : Core) : (s.setCore c k).core c = k := Tbl.get_set_same _ _ _ _

theorem State.core_setCore_other (s : State) (c d : Nat) (k : Core) (h : d ≠ c) : (s.setCore c k).core d = s.core d :=
  Tbl.get_set_other _ _ _ _ _ h

@[simp] theorem State.core_modCore_same (s : State) (c : Nat) (f : Core → Core) : (s.modCore c f).core c = f (s.core c) :=
  Tbl.get_set_same _ _ _ _

theorem State.core_modCore_other (s : State) (c d : Nat) (f : Core → Core) (h : d ≠ c) : (s.modCore c f).core d = s.core d :=
  Tbl.get_set_other _ _ _ _ _ h

@[simp] theorem Core.facet_modFacet_same (k : Core) (n : Nat) (f : Facet → Facet) : (k.modFacet n f).facet n = f (k.facet n) :=
  Tbl.get_set_same _ _ _ _

theorem Core.facet_modFacet_other (k : Core) (n m : Nat) (f : Facet → Facet) (h : m ≠ n) : (k.modFacet n f).facet m = k.facet m :=
  Tbl.get_set_other _ _ _ _ _ h

@[simp] theorem State.core_modFacet_same (s : State) (c n : Nat) (f : Facet → Facet) :
    (s.modFacet c n f).core c = (s.core c).modFacet n f := State.core_modCore_same _ _ _

theorem State.core_modFacet_other (s : State) (c d n : Nat) (f : Facet → Facet) (h : d ≠ c) :
    (s.modFacet c n f).core d = s.core d := State.core_modCore_other _ _ _ _ h

@[simp] theorem State.facet_modFacet_same (s : State) (c n : Nat) (f : Facet → Facet) :
    (s.modFacet c n f).facet c n = f (s.facet c n) := by simp [State.facet]

/-- Another facet is left alone. -/
theorem State.facet_modFacet_other (s : State) (c n d m : Nat) (f : Facet → Facet) (h : ¬(d = c ∧ m = n)) :
    (s.modFacet c n f).facet d m = s.facet d m := by
  by_cases hd : d = c
  · subst hd
    have hm : m ≠ n := fun e => h ⟨rfl, e⟩
    simp [State.facet, Core.facet_modFacet_other _ _ _ _ hm]
  · simp [State.facet, State.core_modFacet_other _ _ _ _ _ hd]

/-- A change of the running facet leaves which facet runs alone. -/
@[simp] theorem State.fn_modMe (s : State) (f : Facet → Facet) : (s.modMe f).fn = s.fn := by
  simp [State.fn, State.here, State.modMe, Core.modFacet]

@[simp] theorem State.me_modMe (s : State) (f : Facet → Facet) : (s.modMe f).me = f s.me := by
  simp [State.me, State.here, State.modMe, State.fn, Core.modFacet, Core.facet]

@[simp] theorem State.here_modMe (s : State) (f : Facet → Facet) : (s.modMe f).here = s.here.modFacet s.fn f := by
  simp [State.here, State.modMe]

@[simp] theorem State.geode_modGeode_same (s : State) (g : Nat) (f : Geode → Geode) : (s.modGeode g f).geode g = f (s.geode g) :=
  Tbl.get_set_same _ _ _ _

theorem State.geode_modGeode_other (s : State) (g h : Nat) (f : Geode → Geode) (e : h ≠ g) :
    (s.modGeode g f).geode h = s.geode h := Tbl.get_set_other _ _ _ _ _ e

@[simp] theorem State.devGet_devSet_same (s : State) (a : Nat) (v : BitVec 64) : (s.devSet a v).devGet a = v := by
  simp [State.devGet, State.devSet]

theorem State.devGet_devSet_other (s : State) (a b : Nat) (v : BitVec 64) (h : b ≠ a) : (s.devSet a v).devGet b = s.devGet b := by
  simp [State.devGet, State.devSet, Tbl.find_set_other _ _ _ _ h]

theorem State.devGet_devPut_other (s : State) (a hi lo v b : Nat) (h : b ≠ a) : (s.devPut a hi lo v).devGet b = s.devGet b :=
  State.devGet_devSet_other _ _ _ _ h

end Sys2Proof.Machine
end

