-- ==== Sys2Proof/Laws/Memory.lean ====
section
/-! SUPPORT. What writes of memory and the errors that reads meet leave alone: no core and no geode changes by them. -/

namespace Sys2Proof.Machine

/-- An update that every step of a fold leaves a part of the state alone by leaves it alone. -/
theorem foldl_keeps {α β γ : Type} (p : β → γ) (g : β → α → β) (h : ∀ s a, p (g s a) = p s) (l : List α) (s : β) :
    p (l.foldl g s) = p s := by
  induction l generalizing s with
  | nil => rfl
  | cons a l ih => rw [List.foldl_cons, ih, h]

/-- The cores and the geodes of a state. -/
def State.inside (s : State) : Tbl Core × Tbl Geode := (s.cores, s.geodes)

@[simp] theorem State.devPut_inside (s : State) (a hi lo v : Nat) : (s.devPut a hi lo v).inside = s.inside := rfl
@[simp] theorem State.devAdd_inside (s : State) (a hi lo v : Nat) : (s.devAdd a hi lo v).inside = s.inside := rfl
@[simp] theorem State.interruptHost_inside (s : State) (a : Nat) : (s.interruptHost a).inside = s.inside := rfl
@[simp] theorem State.forgetFlaw_inside (s : State) (pa : Nat) : (s.forgetFlaw pa).inside = s.inside := rfl
@[simp] theorem State.notify_inside (s : State) : s.notify.inside = s.inside := rfl
@[simp] theorem State.fabErr_inside (s : State) (lode cause : Nat) : (s.fabErr lode cause).inside = s.inside := rfl
@[simp] theorem State.toMedia_inside (s : State) (e : DurEntry) : (s.toMedia e).inside = s.inside := by simp only [State.inside, State.toMedia]

@[simp] theorem State.durMakeRoom_inside (s : State) : s.durMakeRoom.inside = s.inside := by
  have k : ∀ (t : State) (q : List DurEntry), ({ t with durQ := q } : State).inside = t.inside := fun _ _ => rfl
  have h : s.drainOldest.inside = s.inside := by
    unfold State.drainOldest
    split
    · rfl
    · rw [k, State.toMedia_inside]
  unfold State.durMakeRoom
  by_cases c : s.durQ.length < Config.durableEntries
  · rw [if_pos c]
  · rw [if_neg c, h]

@[simp] theorem State.durPut_inside (s : State) (pa : Nat) (b : BitVec 8) : (s.durPut pa b).inside = s.inside := by
  unfold State.durPut
  dsimp only
  split
  · rfl
  · have k : ∀ (t : State) (q : List DurEntry), ({ t with durQ := q } : State).inside = t.inside := fun _ _ => rfl
    rw [k, State.durMakeRoom_inside]

@[simp] theorem State.putByte_inside (s : State) (pa : Nat) (b : BitVec 8) : (s.putByte pa b).inside = s.inside := by
  unfold State.putByte
  split
  · rfl
  · simp
  · rfl

@[simp] theorem State.putRaw_inside (bs : List (BitVec 8)) (s : State) (pa : Nat) : (s.putRaw pa bs).inside = s.inside := by
  induction bs generalizing s pa with
  | nil => rfl
  | cons b r ih => rw [State.putRaw, ih, State.putByte_inside]

@[simp] theorem State.setDurBad_inside (s : State) (line : Nat) (b : Bool) : (s.setDurBad line b).inside = s.inside := by
  unfold State.setDurBad
  split <;> rfl

@[simp] theorem State.cleanWord_inside (s : State) (pa : Nat) : (s.cleanWord pa).inside = s.inside := by
  unfold State.cleanWord
  dsimp only
  split
  · rfl
  · simp
  · rfl

@[simp] theorem State.poisonWord_inside (s : State) (pa : Nat) : (s.poisonWord pa).inside = s.inside := by
  unfold State.poisonWord
  split
  · split <;> rfl
  · simp
  · rfl

@[simp] theorem State.countAt_inside (s : State) (a ev n : Nat) : (s.countAt a ev n).inside = s.inside := by
  unfold State.countAt
  dsimp only
  split
  · split <;> simp
  · rfl

@[simp] theorem State.count_inside (s : State) (base counters ev n : Nat) : (s.count base counters ev n).inside = s.inside :=
  foldl_keeps _ _ (fun _ _ => State.countAt_inside _ _ _ _) _ _

@[simp] theorem State.countVein_inside (s : State) (v ev n : Nat) : (s.countVein v ev n).inside = s.inside := by rw [State.countVein, State.count_inside]
@[simp] theorem State.countPkg_inside (s : State) (ev n : Nat) : (s.countPkg ev n).inside = s.inside := by rw [State.countPkg, State.count_inside]

@[simp] theorem State.countRead_inside (s : State) (g : Nat) : (s.countRead g).inside = s.inside := by
  unfold State.countRead
  split <;> simp

@[simp] theorem State.writtenBack_inside (s : State) (g : Nat) : (s.writtenBack g).inside = s.inside := by
  unfold State.writtenBack
  split <;> simp

@[simp] theorem State.tookPort_inside (s : State) : s.tookPort.inside = s.inside := by
  rw [State.tookPort, State.countPkg_inside]; rfl

@[simp] theorem State.mirPort_inside (s : State) : s.mirPort.inside = s.inside := by
  unfold State.mirPort
  split
  · rw [State.tookPort_inside]; rfl
  · rfl

@[simp] theorem State.mirrorWord_inside (s : State) (word : Nat) (w : Author) : (s.mirrorWord word w).inside = s.inside := by
  unfold State.mirrorWord
  split
  · rw [State.mirPort_inside]; rfl
  · split
    · rfl
    · split <;> rfl

@[simp] theorem State.forward_inside (s : State) (pa n : Nat) : (s.forward pa n).inside = s.inside := by
  unfold State.forward
  rw [State.notify_inside]
  split
  · exact foldl_keeps State.inside _ (fun _ _ => State.mirrorWord_inside _ _ _) _ _
  · rfl

@[simp] theorem State.subst_inside (s : State) (pa : Nat) : (s.subst pa).inside = s.inside := by
  unfold State.subst
  dsimp only
  split <;> simp

@[simp] theorem State.countWords_inside (s : State) (pa n ev : Nat) : (s.countWords pa n ev).inside = s.inside := by
  unfold State.countWords
  dsimp only
  repeat' split
  all_goals simp

@[simp] theorem State.logReport_inside (s : State) (r : Report) : (s.logReport r).1.inside = s.inside := by
  have k : ∀ (t : State) (l : Tbl (List LogEntry)), ({ t with logs := l } : State).inside = t.inside := fun _ _ => rfl
  unfold State.logReport
  dsimp only
  repeat' split
  all_goals simp only [State.devAdd_inside, State.countVein_inside, State.devPut_inside, k]

@[simp] theorem State.askRepair_inside (s : State) (k g kind req : Nat) (sym : BitVec 7) : (s.askRepair k g kind req sym).inside = s.inside := rfl

@[simp] theorem State.finds_inside (s : State) (g : Nat) (f : Found) (kind req : Nat) : (s.finds g f kind req).1.inside = s.inside := by
  unfold State.finds
  dsimp only
  repeat' split
  all_goals simp

@[simp] theorem State.findAt_inside (s : State) (pa kind req : Nat) : (s.findAt pa kind req).1.inside = s.inside := by
  unfold State.findAt
  split
  · split <;> simp
  · rfl

@[simp] theorem State.mergeWord_inside (s : State) (g : Nat) (tol tpol : Bool) (req : Nat) : (s.mergeWord g tol tpol req).1.inside = s.inside := by
  unfold State.mergeWord
  dsimp only
  repeat' split
  all_goals simp

@[simp] theorem State.writeOwn_inside (s : State) (pa : Nat) (bs : List (BitVec 8)) (tol tpol : Bool) (req : Nat) :
    (s.writeOwn pa bs tol tpol req).1.inside = s.inside := by
  have h : ∀ (l : List Nat) (x : State × List Report), (l.foldl (fun (x : State × List Report) g =>
      ((x.1.mergeWord g tol tpol req).1, x.2 ++ (x.1.mergeWord g tol tpol req).2)) x).1.inside = x.1.inside :=
    fun l x => foldl_keeps (fun x : State × List Report => x.1.inside)
      (fun x g => ((x.1.mergeWord g tol tpol req).1, x.2 ++ (x.1.mergeWord g tol tpol req).2))
      (fun y g => State.mergeWord_inside y.1 g tol tpol req) l x
  have c : ∀ (l : List Nat) (t : State), (l.foldl State.cleanWord t).inside = t.inside :=
    fun l t => foldl_keeps State.inside _ (fun _ _ => State.cleanWord_inside _ _) l t
  unfold State.writeOwn
  split
  · rfl
  · simp only [State.forward_inside, c, State.countWords_inside, State.putRaw_inside, h]

@[simp] theorem State.ringWrite_inside (s : State) (a least : Nat) (bs : List (BitVec 8)) : (s.ringWrite a least bs).1.inside = s.inside := by
  unfold State.ringWrite
  dsimp only
  split
  · rfl
  · split <;> simp

@[simp] theorem State.meqWrite_inside (s : State) (kind vein slot seq addr : Nat) : (s.meqWrite kind vein slot seq addr).1.inside = s.inside := by
  unfold State.meqWrite
  dsimp only
  split <;> simp

@[simp] theorem State.reportIn_inside (n : Nat) (s : State) (r : Report) : (s.reportIn n r).inside = s.inside := by
  induction n generalizing s r with
  | zero => rfl
  | succ n ih =>
    unfold State.reportIn
    dsimp only
    split
    · rw [foldl_keeps State.inside _ (fun s r => ih s r), State.meqWrite_inside, State.logReport_inside]
    · exact State.logReport_inside _ _

@[simp] theorem State.reports_inside (s : State) (rs : List Report) : (s.reports rs).inside = s.inside :=
  foldl_keeps State.inside _ (fun _ _ => State.reportIn_inside _ _ _) rs s

@[simp] theorem State.report_inside (s : State) (pa kind sym req : Nat) : (s.report pa kind sym req).inside = s.inside :=
  State.reports_inside _ _

@[simp] theorem State.ringPost_inside (s : State) (a least : Nat) (ws : List Nat) : (s.ringPost a least ws).inside = s.inside := by
  simp [State.ringPost]

@[simp] theorem State.meqPost_inside (s : State) (kind vein slot seq addr : Nat) : (s.meqPost kind vein slot seq addr).inside = s.inside := by
  simp [State.meqPost]

@[simp] theorem State.foundBad_inside (s : State) (g kind req : Nat) (sym : BitVec 7) : (s.foundBad g kind req sym).inside = s.inside := by
  simp [State.foundBad]

@[simp] theorem State.repaired_inside (s : State) (k word : Nat) (bs : List (BitVec 8)) : (s.repaired k word bs).inside = s.inside := by
  simp [State.repaired]

@[simp] theorem State.meet_inside (s : State) (g : Nat) (f : Found) (kind req : Nat) : (s.meet g f kind req).inside = s.inside := by
  simp [State.meet]

@[simp] theorem State.meetAt_inside (s : State) (pa kind req : Nat) : (s.meetAt pa kind req).inside = s.inside := by
  simp [State.meetAt]

@[simp] theorem State.meetAll_inside (s : State) (req : Nat) (l : List Nat) : (s.meetAll req l).inside = s.inside :=
  foldl_keeps State.inside _ (fun _ _ => State.meetAt_inside _ _ _ _) l s

@[simp] theorem State.meetRange_inside (s : State) (pa n req : Nat) : (s.meetRange pa n req).inside = s.inside := by
  rw [State.meetRange, State.countWords_inside, State.meetRun, State.meetAll_inside]

@[simp] theorem State.putOwn_inside (s : State) (pa : Nat) (bs : List (BitVec 8)) (tol tpol : Bool) :
    (s.putOwn pa bs tol tpol).inside = s.inside := by
  simp [State.putOwn]

@[simp] theorem State.meetWords_inside (l : List Nat) (s : State) (req : Nat) : (s.meetWords req l).inside = s.inside := by
  induction l generalizing s with
  | nil => rfl
  | cons pa l ih =>
    rw [State.meetWords]
    split
    · simp
    · rw [ih, State.meetAt_inside]

@[simp] theorem State.meetEntries_inside (s : State) (pasid : BitVec 20) (va req : Nat) : (s.meetEntries pasid va req).inside = s.inside :=
  State.meetWords_inside _ _ _

@[simp] theorem State.countWalk_inside (s : State) (pasid : BitVec 20) (va : Nat) : (s.countWalk pasid va).inside = s.inside := by
  unfold State.countWalk
  rw [foldl_keeps State.inside _ (fun _ _ => State.countWords_inside _ _ _ _), State.countPkg_inside]

@[simp] theorem State.meetWalk_inside (s : State) (pasid : BitVec 20) (va req : Nat) : (s.meetWalk pasid va req).inside = s.inside := by
  rw [State.meetWalk, State.countWalk_inside, State.meetEntries_inside]

@[simp] theorem State.meetPlace_inside (s : State) (req : Nat) (p : Option FramePlace) : (s.meetPlace req p).inside = s.inside := by
  unfold State.meetPlace
  split
  · exact foldl_keeps State.inside _ (fun _ _ => State.meetRange_inside _ _ _ _) _ _
  · rfl

/-- A return's reads of its frame change no core and no geode. -/
@[simp] theorem State.meetFrame_inside (s : State) (c fn : Nat) : (s.meetFrame c fn).inside = s.inside :=
  (State.meetPlace_inside _ _ _).trans (State.meetWalk_inside _ _ _ _)

/-- The cores of states that agree inside. -/
theorem State.core_of_inside {s t : State} (h : t.inside = s.inside) (c : Nat) : t.core c = s.core c := by
  have e : t.cores = s.cores := congrArg Prod.fst h
  rw [State.core, State.core, e]

@[simp] theorem State.core_meetWalk (s : State) (pasid : BitVec 20) (va req c : Nat) : (s.meetWalk pasid va req).core c = s.core c :=
  State.core_of_inside (State.meetWalk_inside _ _ _ _) c

@[simp] theorem State.facet_meetFrame (s : State) (c fn d n : Nat) : (s.meetFrame c fn).facet d n = s.facet d n :=
  congrArg (fun k : Core => k.facet n) (State.core_of_inside (State.meetFrame_inside _ _ _) d)

end Sys2Proof.Machine
end

