-- ==== Sys2Proof/Laws/PerInstr.lean ====
section
/-! SUPPORT. The family `Coded`: every row of the table that has an encoding is read back from its word, whatever its operands;
one lemma per constructor. -/

namespace Sys2Proof.Laws

/-- R43, R44, R52, R55, R203, R204: a well-formed operation of a slot has a word of its slot that decodes to it; a micro-word
decodes to the operation it encodes. -/
def Coded.Statement (i : Instr) : Prop :=
  i.wf = true →
    (∀ k, i.slot? = some k → ∃ w, encode i = some w ∧ w < 2 ^ (8 * slotBytes k) ∧ decodeSlot k w = .ok (some i))
      ∧ (i.slot? = none → ∀ w, encode i = some w → w < 2 ^ 128 ∧ decodeMicro w = some i)

/-- What a slot operation's lemma has to show of its word. -/
theorem Coded.of_slot {i : Instr} {k : Slot} {w : Nat} (hs : i.slot? = some k) (he : encode i = some w)
    (hb : w < 2 ^ (8 * slotBytes k)) (ho : w / 2 ^ opLo k ≠ 0) (hr : readSlot k w = some i) : Coded.Statement i := by
  intro hw
  simp only [Instr.wf, Bool.and_eq_true] at hw
  refine ⟨fun k' hk => ?_, fun hn => ?_⟩
  · rw [hs] at hk
    cases hk
    refine ⟨w, he, hb, ?_⟩
    have h0 : w ≠ 0 := by
      rintro rfl
      simp at ho
    simp [decodeSlot, h0, ho, hr, he, hw.1, hw.2]
  · rw [hs] at hn
    cases hn

/-- What a micro-operation's lemma has to show of its word. -/
theorem Coded.of_micro {i : Instr} {w : Nat} (hs : i.slot? = none) (he : encode i = some w) (hb : w < 2 ^ 128)
    (hr : readMicro w = some i) : Coded.Statement i := by
  intro _
  refine ⟨fun k hk => ?_, fun _ w' hw => ?_⟩
  · rw [hs] at hk
    cases hk
  · rw [he] at hw
    cases hw
    exact ⟨hb, by simp [decodeMicro, hr, he]⟩

/-- An event has no encoding. -/
theorem Coded.of_event {i : Instr} (hs : i.slot? = none) (he : encode i = none) : Coded.Statement i := by
  intro _
  refine ⟨fun k hk => ?_, fun _ w hw => ?_⟩
  · rw [hs] at hk
    cases hk
  · rw [he] at hw
    cases hw

/-- A field as it is laid: its width, its value, its lowest bit. -/
structure Field where
  width : Nat
  val : BitVec width
  lo : Nat

/-- The fields lie below a bit, each below the one before it. -/
def laid (top : Nat) : List Field → Bool
  | [] => true
  | f :: r => Nat.ble (f.lo + f.width) top && laid f.lo r

/-- The word of fields over a base. -/
def packed (base : Nat) (fs : List Field) : Nat := fs.foldl (fun a f => a + f.val.toNat * 2 ^ f.lo) base

/-- The base adds to the fields. -/
theorem packed_eq (fs : List Field) (b : Nat) : packed b fs = b + packed 0 fs := by
  induction fs generalizing b with
  | nil => simp [packed]
  | cons f r ih =>
    have h : ∀ c, packed c (f :: r) = packed (c + f.val.toNat * 2 ^ f.lo) r := fun _ => rfl
    rw [h, h, ih, ih (0 + _)]
    omega

/-- Fields below a bit make a number below it. -/
theorem packed_lt (fs : List Field) (top : Nat) (h : laid top fs = true) : packed 0 fs < 2 ^ top := by
  induction fs generalizing top with
  | nil => simp [packed]
  | cons f r ih =>
    simp only [laid, Bool.and_eq_true, Nat.ble_eq] at h
    have h1 := ih _ h.2
    have h2 := f.val.isLt
    have h3 : packed 0 (f :: r) = f.val.toNat * 2 ^ f.lo + packed 0 r := by
      show packed (0 + f.val.toNat * 2 ^ f.lo) r = _
      rw [packed_eq]; omega
    have h4 : 2 ^ (f.lo + f.width) ≤ 2 ^ top := Nat.pow_le_pow_right (by decide) h.1
    have h5 : (f.val.toNat + 1) * 2 ^ f.lo ≤ 2 ^ f.width * 2 ^ f.lo := Nat.mul_le_mul_right _ h2
    rw [← Nat.pow_add, Nat.add_comm f.width] at h5
    rw [h3]
    rw [Nat.add_mul] at h5
    omega

/-- A field reads back from its place. -/
theorem packed_field (fs : List Field) (top H : Nat) (h : laid top fs = true) (hH : 2 ^ top ∣ H) (f : Field) (hf : f ∈ fs) :
    packed H fs / 2 ^ f.lo % 2 ^ f.width = f.val.toNat := by
  induction fs generalizing top H with
  | nil => cases hf
  | cons e r ih =>
    simp only [laid, Bool.and_eq_true, Nat.ble_eq] at h
    have step : packed H (e :: r) = packed (H + e.val.toNat * 2 ^ e.lo) r := rfl
    cases hf with
    | head =>
      have h1 := packed_lt r _ h.2
      rw [step, packed_eq]
      obtain ⟨q, rfl⟩ := Nat.dvd_trans (Nat.pow_dvd_pow 2 h.1) hH
      have e1 : 2 ^ (f.lo + f.width) * q + f.val.toNat * 2 ^ f.lo + packed 0 r
          = packed 0 r + 2 ^ f.lo * (2 ^ f.width * q + f.val.toNat) := by
        rw [Nat.pow_add, Nat.mul_add, Nat.mul_assoc, Nat.mul_comm f.val.toNat]; omega
      rw [e1, Nat.add_mul_div_left _ _ (Nat.two_pow_pos _), Nat.div_eq_of_lt h1, Nat.zero_add, Nat.mul_add_mod,
        Nat.mod_eq_of_lt f.val.isLt]
    | tail _ hf =>
      rw [step]
      refine ih _ _ h.2 ?_ hf
      exact Nat.dvd_add (Nat.dvd_trans (Nat.pow_dvd_pow 2 (by omega)) hH) (Nat.dvd_mul_left _ _)

/-- The opcode reads back from above the fields. -/
theorem packed_op (fs : List Field) (top op n : Nat) (h : laid top fs = true) (hop : op < 2 ^ n) :
    packed (op * 2 ^ top) fs / 2 ^ top % 2 ^ n = op := by
  rw [packed_eq, Nat.add_comm, Nat.mul_comm, Nat.add_mul_div_left _ _ (Nat.two_pow_pos _), Nat.div_eq_of_lt (packed_lt fs top h),
    Nat.zero_add, Nat.mod_eq_of_lt hop]

/-- An opcode over fields makes a word of its width. -/
theorem packed_op_lt (fs : List Field) (top op n : Nat) (h : laid top fs = true) (hop : op < 2 ^ n) :
    packed (op * 2 ^ top) fs < 2 ^ (top + n) := by
  have h1 := packed_lt fs _ h
  have h2 : (op + 1) * 2 ^ top ≤ 2 ^ n * 2 ^ top := Nat.mul_le_mul_right _ hop
  rw [← Nat.pow_add, Nat.add_mul, Nat.add_comm n] at h2
  rw [packed_eq]
  omega

/-- A field read at its place is the field that was written there. -/
theorem fb_eq {n : Nat} (w lo : Nat) (x : BitVec n) (h : w / 2 ^ lo % 2 ^ n = x.toNat) : fb w lo n = x := by
  apply BitVec.eq_of_toNat_eq
  rw [fb, BitVec.toNat_ofNat, h]

/-- A slot operation whose word is an opcode over laid fields. -/
theorem Coded.of_packed {i : Instr} {k : Slot} {op top n : Nat} {fs : List Field} (hs : i.slot? = some k) (ht : opLo k = top)
    (hn : 8 * slotBytes k = top + n) (he : encode i = some (packed (op * 2 ^ top) fs)) (hl : laid top fs = true)
    (hop : op < 2 ^ n) (h0 : op ≠ 0)
    (hr : ∀ w, fld w top n = op → (∀ f ∈ fs, w / 2 ^ f.lo % 2 ^ f.width = f.val.toNat) → readSlot k w = some i) :
    Coded.Statement i := by
  have hd : packed (op * 2 ^ top) fs / 2 ^ top = op := by
    rw [packed_eq, Nat.add_comm, Nat.mul_comm, Nat.add_mul_div_left _ _ (Nat.two_pow_pos _),
      Nat.div_eq_of_lt (packed_lt fs _ hl), Nat.zero_add]
  refine Coded.of_slot hs he ?_ (by rw [ht, hd]; exact h0) (hr _ ?_ ?_)
  · rw [hn]
    exact packed_op_lt fs _ _ _ hl hop
  · rw [fld, hd, Nat.mod_eq_of_lt hop]
  · intro f hf
    exact packed_field fs _ _ hl (Nat.dvd_mul_left _ _) f hf

/-- A micro-operation whose word is an operation code over laid fields. -/
theorem Coded.of_packed_micro {i : Instr} {op : Nat} {fs : List Field} (hs : i.slot? = none)
    (he : encode i = some (packed (op * 2 ^ 124) fs)) (hl : laid 124 fs = true) (hop : op < 2 ^ 4)
    (hr : ∀ w, fld w 124 4 = op → (∀ f ∈ fs, w / 2 ^ f.lo % 2 ^ f.width = f.val.toNat) → readMicro w = some i) :
    Coded.Statement i := by
  have hd : packed (op * 2 ^ 124) fs / 2 ^ 124 = op := by
    rw [packed_eq, Nat.add_comm, Nat.mul_comm, Nat.add_mul_div_left _ _ (Nat.two_pow_pos _),
      Nat.div_eq_of_lt (packed_lt fs _ hl), Nat.zero_add]
  refine Coded.of_micro hs he (packed_op_lt fs 124 op 4 hl hop) (hr _ ?_ ?_)
  · rw [fld, hd, Nat.mod_eq_of_lt hop]
  · intro f hf
    exact packed_field fs _ _ hl (Nat.dvd_mul_left _ _) f hf

theorem Coded.add (g : BitVec 4) (d a b : BitVec 6) : Coded.Statement (.add g d a b) := by
  refine Coded.of_packed (k := .s) (top := 56) (n := 8) (op := 1) (fs := [⟨4, g, 52⟩, ⟨6, d, 46⟩, ⟨6, a, 40⟩, ⟨6, b, 34⟩]) rfl rfl rfl rfl rfl (by decide) (by decide) fun x ho hf => ?_
  have ho : fld x 56 8 = 1 := ho
  have e_g : fb x 52 4 = g := fb_eq _ _ _ (hf _ (.head _))
  have e_d : fb x 46 6 = d := fb_eq _ _ _ (hf _ (.tail _ (.head _)))
  have e_a : fb x 40 6 = a := fb_eq _ _ _ (hf _ (.tail _ (.tail _ (.head _))))
  have e_b : fb x 34 6 = b := fb_eq _ _ _ (hf _ (.tail _ (.tail _ (.tail _ (.head _)))))
  unfold readSlot readS
  rw [ho, e_g, e_d, e_a, e_b]
  rfl

theorem Coded.sub (g : BitVec 4) (d a b : BitVec 6) : Coded.Statement (.sub g d a b) := by
  refine Coded.of_packed (k := .s) (top := 56) (n := 8) (op := 2) (fs := [⟨4, g, 52⟩, ⟨6, d, 46⟩, ⟨6, a, 40⟩, ⟨6, b, 34⟩]) rfl rfl rfl rfl rfl (by decide) (by decide) fun x ho hf => ?_
  have ho : fld x 56 8 = 2 := ho
  have e_g : fb x 52 4 = g := fb_eq _ _ _ (hf _ (.head _))
  have e_d : fb x 46 6 = d := fb_eq _ _ _ (hf _ (.tail _ (.head _)))
  have e_a : fb x 40 6 = a := fb_eq _ _ _ (hf _ (.tail _ (.tail _ (.head _))))
  have e_b : fb x 34 6 = b := fb_eq _ _ _ (hf _ (.tail _ (.tail _ (.tail _ (.head _)))))
  unfold readSlot readS
  rw [ho, e_g, e_d, e_a, e_b]
  rfl

theorem Coded.mul (g : BitVec 4) (d a b : BitVec 6) : Coded.Statement (.mul g d a b) := by
  refine Coded.of_packed (k := .s) (top := 56) (n := 8) (op := 3) (fs := [⟨4, g, 52⟩, ⟨6, d, 46⟩, ⟨6, a, 40⟩, ⟨6, b, 34⟩]) rfl rfl rfl rfl rfl (by decide) (by decide) fun x ho hf => ?_
  have ho : fld x 56 8 = 3 := ho
  have e_g : fb x 52 4 = g := fb_eq _ _ _ (hf _ (.head _))
  have e_d : fb x 46 6 = d := fb_eq _ _ _ (hf _ (.tail _ (.head _)))
  have e_a : fb x 40 6 = a := fb_eq _ _ _ (hf _ (.tail _ (.tail _ (.head _))))
  have e_b : fb x 34 6 = b := fb_eq _ _ _ (hf _ (.tail _ (.tail _ (.tail _ (.head _)))))
  unfold readSlot readS
  rw [ho, e_g, e_d, e_a, e_b]
  rfl

theorem Coded.mulh (g : BitVec 4) (d a b : BitVec 6) : Coded.Statement (.mulh g d a b) := by
  refine Coded.of_packed (k := .s) (top := 56) (n := 8) (op := 4) (fs := [⟨4, g, 52⟩, ⟨6, d, 46⟩, ⟨6, a, 40⟩, ⟨6, b, 34⟩]) rfl rfl rfl rfl rfl (by decide) (by decide) fun x ho hf => ?_
  have ho : fld x 56 8 = 4 := ho
  have e_g : fb x 52 4 = g := fb_eq _ _ _ (hf _ (.head _))
  have e_d : fb x 46 6 = d := fb_eq _ _ _ (hf _ (.tail _ (.head _)))
  have e_a : fb x 40 6 = a := fb_eq _ _ _ (hf _ (.tail _ (.tail _ (.head _))))
  have e_b : fb x 34 6 = b := fb_eq _ _ _ (hf _ (.tail _ (.tail _ (.tail _ (.head _)))))
  unfold readSlot readS
  rw [ho, e_g, e_d, e_a, e_b]
  rfl

theorem Coded.mulhn (g : BitVec 4) (d a b : BitVec 6) : Coded.Statement (.mulhn g d a b) := by
  refine Coded.of_packed (k := .s) (top := 56) (n := 8) (op := 5) (fs := [⟨4, g, 52⟩, ⟨6, d, 46⟩, ⟨6, a, 40⟩, ⟨6, b, 34⟩]) rfl rfl rfl rfl rfl (by decide) (by decide) fun x ho hf => ?_
  have ho : fld x 56 8 = 5 := ho
  have e_g : fb x 52 4 = g := fb_eq _ _ _ (hf _ (.head _))
  have e_d : fb x 46 6 = d := fb_eq _ _ _ (hf _ (.tail _ (.head _)))
  have e_a : fb x 40 6 = a := fb_eq _ _ _ (hf _ (.tail _ (.tail _ (.head _))))
  have e_b : fb x 34 6 = b := fb_eq _ _ _ (hf _ (.tail _ (.tail _ (.tail _ (.head _)))))
  unfold readSlot readS
  rw [ho, e_g, e_d, e_a, e_b]
  rfl

theorem Coded.div (g : BitVec 4) (d a b : BitVec 6) : Coded.Statement (.div g d a b) := by
  refine Coded.of_packed (k := .s) (top := 56) (n := 8) (op := 6) (fs := [⟨4, g, 52⟩, ⟨6, d, 46⟩, ⟨6, a, 40⟩, ⟨6, b, 34⟩]) rfl rfl rfl rfl rfl (by decide) (by decide) fun x ho hf => ?_
  have ho : fld x 56 8 = 6 := ho
  have e_g : fb x 52 4 = g := fb_eq _ _ _ (hf _ (.head _))
  have e_d : fb x 46 6 = d := fb_eq _ _ _ (hf _ (.tail _ (.head _)))
  have e_a : fb x 40 6 = a := fb_eq _ _ _ (hf _ (.tail _ (.tail _ (.head _))))
  have e_b : fb x 34 6 = b := fb_eq _ _ _ (hf _ (.tail _ (.tail _ (.tail _ (.head _)))))
  unfold readSlot readS
  rw [ho, e_g, e_d, e_a, e_b]
  rfl

theorem Coded.divn (g : BitVec 4) (d a b : BitVec 6) : Coded.Statement (.divn g d a b) := by
  refine Coded.of_packed (k := .s) (top := 56) (n := 8) (op := 7) (fs := [⟨4, g, 52⟩, ⟨6, d, 46⟩, ⟨6, a, 40⟩, ⟨6, b, 34⟩]) rfl rfl rfl rfl rfl (by decide) (by decide) fun x ho hf => ?_
  have ho : fld x 56 8 = 7 := ho
  have e_g : fb x 52 4 = g := fb_eq _ _ _ (hf _ (.head _))
  have e_d : fb x 46 6 = d := fb_eq _ _ _ (hf _ (.tail _ (.head _)))
  have e_a : fb x 40 6 = a := fb_eq _ _ _ (hf _ (.tail _ (.tail _ (.head _))))
  have e_b : fb x 34 6 = b := fb_eq _ _ _ (hf _ (.tail _ (.tail _ (.tail _ (.head _)))))
  unfold readSlot readS
  rw [ho, e_g, e_d, e_a, e_b]
  rfl

theorem Coded.rem (g : BitVec 4) (d a b : BitVec 6) : Coded.Statement (.rem g d a b) := by
  refine Coded.of_packed (k := .s) (top := 56) (n := 8) (op := 8) (fs := [⟨4, g, 52⟩, ⟨6, d, 46⟩, ⟨6, a, 40⟩, ⟨6, b, 34⟩]) rfl rfl rfl rfl rfl (by decide) (by decide) fun x ho hf => ?_
  have ho : fld x 56 8 = 8 := ho
  have e_g : fb x 52 4 = g := fb_eq _ _ _ (hf _ (.head _))
  have e_d : fb x 46 6 = d := fb_eq _ _ _ (hf _ (.tail _ (.head _)))
  have e_a : fb x 40 6 = a := fb_eq _ _ _ (hf _ (.tail _ (.tail _ (.head _))))
  have e_b : fb x 34 6 = b := fb_eq _ _ _ (hf _ (.tail _ (.tail _ (.tail _ (.head _)))))
  unfold readSlot readS
  rw [ho, e_g, e_d, e_a, e_b]
  rfl

theorem Coded.remn (g : BitVec 4) (d a b : BitVec 6) : Coded.Statement (.remn g d a b) := by
  refine Coded.of_packed (k := .s) (top := 56) (n := 8) (op := 9) (fs := [⟨4, g, 52⟩, ⟨6, d, 46⟩, ⟨6, a, 40⟩, ⟨6, b, 34⟩]) rfl rfl rfl rfl rfl (by decide) (by decide) fun x ho hf => ?_
  have ho : fld x 56 8 = 9 := ho
  have e_g : fb x 52 4 = g := fb_eq _ _ _ (hf _ (.head _))
  have e_d : fb x 46 6 = d := fb_eq _ _ _ (hf _ (.tail _ (.head _)))
  have e_a : fb x 40 6 = a := fb_eq _ _ _ (hf _ (.tail _ (.tail _ (.head _))))
  have e_b : fb x 34 6 = b := fb_eq _ _ _ (hf _ (.tail _ (.tail _ (.tail _ (.head _)))))
  unfold readSlot readS
  rw [ho, e_g, e_d, e_a, e_b]
  rfl

theorem Coded.and (g : BitVec 4) (d a b : BitVec 6) : Coded.Statement (.and g d a b) := by
  refine Coded.of_packed (k := .s) (top := 56) (n := 8) (op := 10) (fs := [⟨4, g, 52⟩, ⟨6, d, 46⟩, ⟨6, a, 40⟩, ⟨6, b, 34⟩]) rfl rfl rfl rfl rfl (by decide) (by decide) fun x ho hf => ?_
  have ho : fld x 56 8 = 10 := ho
  have e_g : fb x 52 4 = g := fb_eq _ _ _ (hf _ (.head _))
  have e_d : fb x 46 6 = d := fb_eq _ _ _ (hf _ (.tail _ (.head _)))
  have e_a : fb x 40 6 = a := fb_eq _ _ _ (hf _ (.tail _ (.tail _ (.head _))))
  have e_b : fb x 34 6 = b := fb_eq _ _ _ (hf _ (.tail _ (.tail _ (.tail _ (.head _)))))
  unfold readSlot readS
  rw [ho, e_g, e_d, e_a, e_b]
  rfl

theorem Coded.or (g : BitVec 4) (d a b : BitVec 6) : Coded.Statement (.or g d a b) := by
  refine Coded.of_packed (k := .s) (top := 56) (n := 8) (op := 11) (fs := [⟨4, g, 52⟩, ⟨6, d, 46⟩, ⟨6, a, 40⟩, ⟨6, b, 34⟩]) rfl rfl rfl rfl rfl (by decide) (by decide) fun x ho hf => ?_
  have ho : fld x 56 8 = 11 := ho
  have e_g : fb x 52 4 = g := fb_eq _ _ _ (hf _ (.head _))
  have e_d : fb x 46 6 = d := fb_eq _ _ _ (hf _ (.tail _ (.head _)))
  have e_a : fb x 40 6 = a := fb_eq _ _ _ (hf _ (.tail _ (.tail _ (.head _))))
  have e_b : fb x 34 6 = b := fb_eq _ _ _ (hf _ (.tail _ (.tail _ (.tail _ (.head _)))))
  unfold readSlot readS
  rw [ho, e_g, e_d, e_a, e_b]
  rfl

theorem Coded.xor (g : BitVec 4) (d a b : BitVec 6) : Coded.Statement (.xor g d a b) := by
  refine Coded.of_packed (k := .s) (top := 56) (n := 8) (op := 12) (fs := [⟨4, g, 52⟩, ⟨6, d, 46⟩, ⟨6, a, 40⟩, ⟨6, b, 34⟩]) rfl rfl rfl rfl rfl (by decide) (by decide) fun x ho hf => ?_
  have ho : fld x 56 8 = 12 := ho
  have e_g : fb x 52 4 = g := fb_eq _ _ _ (hf _ (.head _))
  have e_d : fb x 46 6 = d := fb_eq _ _ _ (hf _ (.tail _ (.head _)))
  have e_a : fb x 40 6 = a := fb_eq _ _ _ (hf _ (.tail _ (.tail _ (.head _))))
  have e_b : fb x 34 6 = b := fb_eq _ _ _ (hf _ (.tail _ (.tail _ (.tail _ (.head _)))))
  unfold readSlot readS
  rw [ho, e_g, e_d, e_a, e_b]
  rfl

theorem Coded.shl (g : BitVec 4) (d a b : BitVec 6) : Coded.Statement (.shl g d a b) := by
  refine Coded.of_packed (k := .s) (top := 56) (n := 8) (op := 13) (fs := [⟨4, g, 52⟩, ⟨6, d, 46⟩, ⟨6, a, 40⟩, ⟨6, b, 34⟩]) rfl rfl rfl rfl rfl (by decide) (by decide) fun x ho hf => ?_
  have ho : fld x 56 8 = 13 := ho
  have e_g : fb x 52 4 = g := fb_eq _ _ _ (hf _ (.head _))
  have e_d : fb x 46 6 = d := fb_eq _ _ _ (hf _ (.tail _ (.head _)))
  have e_a : fb x 40 6 = a := fb_eq _ _ _ (hf _ (.tail _ (.tail _ (.head _))))
  have e_b : fb x 34 6 = b := fb_eq _ _ _ (hf _ (.tail _ (.tail _ (.tail _ (.head _)))))
  unfold readSlot readS
  rw [ho, e_g, e_d, e_a, e_b]
  rfl

theorem Coded.shr (g : BitVec 4) (d a b : BitVec 6) : Coded.Statement (.shr g d a b) := by
  refine Coded.of_packed (k := .s) (top := 56) (n := 8) (op := 14) (fs := [⟨4, g, 52⟩, ⟨6, d, 46⟩, ⟨6, a, 40⟩, ⟨6, b, 34⟩]) rfl rfl rfl rfl rfl (by decide) (by decide) fun x ho hf => ?_
  have ho : fld x 56 8 = 14 := ho
  have e_g : fb x 52 4 = g := fb_eq _ _ _ (hf _ (.head _))
  have e_d : fb x 46 6 = d := fb_eq _ _ _ (hf _ (.tail _ (.head _)))
  have e_a : fb x 40 6 = a := fb_eq _ _ _ (hf _ (.tail _ (.tail _ (.head _))))
  have e_b : fb x 34 6 = b := fb_eq _ _ _ (hf _ (.tail _ (.tail _ (.tail _ (.head _)))))
  unfold readSlot readS
  rw [ho, e_g, e_d, e_a, e_b]
  rfl

theorem Coded.sra (g : BitVec 4) (d a b : BitVec 6) : Coded.Statement (.sra g d a b) := by
  refine Coded.of_packed (k := .s) (top := 56) (n := 8) (op := 15) (fs := [⟨4, g, 52⟩, ⟨6, d, 46⟩, ⟨6, a, 40⟩, ⟨6, b, 34⟩]) rfl rfl rfl rfl rfl (by decide) (by decide) fun x ho hf => ?_
  have ho : fld x 56 8 = 15 := ho
  have e_g : fb x 52 4 = g := fb_eq _ _ _ (hf _ (.head _))
  have e_d : fb x 46 6 = d := fb_eq _ _ _ (hf _ (.tail _ (.head _)))
  have e_a : fb x 40 6 = a := fb_eq _ _ _ (hf _ (.tail _ (.tail _ (.head _))))
  have e_b : fb x 34 6 = b := fb_eq _ _ _ (hf _ (.tail _ (.tail _ (.tail _ (.head _)))))
  unfold readSlot readS
  rw [ho, e_g, e_d, e_a, e_b]
  rfl

theorem Coded.rot (g : BitVec 4) (d a b : BitVec 6) : Coded.Statement (.rot g d a b) := by
  refine Coded.of_packed (k := .s) (top := 56) (n := 8) (op := 16) (fs := [⟨4, g, 52⟩, ⟨6, d, 46⟩, ⟨6, a, 40⟩, ⟨6, b, 34⟩]) rfl rfl rfl rfl rfl (by decide) (by decide) fun x ho hf => ?_
  have ho : fld x 56 8 = 16 := ho
  have e_g : fb x 52 4 = g := fb_eq _ _ _ (hf _ (.head _))
  have e_d : fb x 46 6 = d := fb_eq _ _ _ (hf _ (.tail _ (.head _)))
  have e_a : fb x 40 6 = a := fb_eq _ _ _ (hf _ (.tail _ (.tail _ (.head _))))
  have e_b : fb x 34 6 = b := fb_eq _ _ _ (hf _ (.tail _ (.tail _ (.tail _ (.head _)))))
  unfold readSlot readS
  rw [ho, e_g, e_d, e_a, e_b]
  rfl

theorem Coded.min (g : BitVec 4) (d a b : BitVec 6) : Coded.Statement (.min g d a b) := by
  refine Coded.of_packed (k := .s) (top := 56) (n := 8) (op := 17) (fs := [⟨4, g, 52⟩, ⟨6, d, 46⟩, ⟨6, a, 40⟩, ⟨6, b, 34⟩]) rfl rfl rfl rfl rfl (by decide) (by decide) fun x ho hf => ?_
  have ho : fld x 56 8 = 17 := ho
  have e_g : fb x 52 4 = g := fb_eq _ _ _ (hf _ (.head _))
  have e_d : fb x 46 6 = d := fb_eq _ _ _ (hf _ (.tail _ (.head _)))
  have e_a : fb x 40 6 = a := fb_eq _ _ _ (hf _ (.tail _ (.tail _ (.head _))))
  have e_b : fb x 34 6 = b := fb_eq _ _ _ (hf _ (.tail _ (.tail _ (.tail _ (.head _)))))
  unfold readSlot readS
  rw [ho, e_g, e_d, e_a, e_b]
  rfl

theorem Coded.max (g : BitVec 4) (d a b : BitVec 6) : Coded.Statement (.max g d a b) := by
  refine Coded.of_packed (k := .s) (top := 56) (n := 8) (op := 18) (fs := [⟨4, g, 52⟩, ⟨6, d, 46⟩, ⟨6, a, 40⟩, ⟨6, b, 34⟩]) rfl rfl rfl rfl rfl (by decide) (by decide) fun x ho hf => ?_
  have ho : fld x 56 8 = 18 := ho
  have e_g : fb x 52 4 = g := fb_eq _ _ _ (hf _ (.head _))
  have e_d : fb x 46 6 = d := fb_eq _ _ _ (hf _ (.tail _ (.head _)))
  have e_a : fb x 40 6 = a := fb_eq _ _ _ (hf _ (.tail _ (.tail _ (.head _))))
  have e_b : fb x 34 6 = b := fb_eq _ _ _ (hf _ (.tail _ (.tail _ (.tail _ (.head _)))))
  unfold readSlot readS
  rw [ho, e_g, e_d, e_a, e_b]
  rfl

theorem Coded.minn (g : BitVec 4) (d a b : BitVec 6) : Coded.Statement (.minn g d a b) := by
  refine Coded.of_packed (k := .s) (top := 56) (n := 8) (op := 19) (fs := [⟨4, g, 52⟩, ⟨6, d, 46⟩, ⟨6, a, 40⟩, ⟨6, b, 34⟩]) rfl rfl rfl rfl rfl (by decide) (by decide) fun x ho hf => ?_
  have ho : fld x 56 8 = 19 := ho
  have e_g : fb x 52 4 = g := fb_eq _ _ _ (hf _ (.head _))
  have e_d : fb x 46 6 = d := fb_eq _ _ _ (hf _ (.tail _ (.head _)))
  have e_a : fb x 40 6 = a := fb_eq _ _ _ (hf _ (.tail _ (.tail _ (.head _))))
  have e_b : fb x 34 6 = b := fb_eq _ _ _ (hf _ (.tail _ (.tail _ (.tail _ (.head _)))))
  unfold readSlot readS
  rw [ho, e_g, e_d, e_a, e_b]
  rfl

theorem Coded.maxn (g : BitVec 4) (d a b : BitVec 6) : Coded.Statement (.maxn g d a b) := by
  refine Coded.of_packed (k := .s) (top := 56) (n := 8) (op := 20) (fs := [⟨4, g, 52⟩, ⟨6, d, 46⟩, ⟨6, a, 40⟩, ⟨6, b, 34⟩]) rfl rfl rfl rfl rfl (by decide) (by decide) fun x ho hf => ?_
  have ho : fld x 56 8 = 20 := ho
  have e_g : fb x 52 4 = g := fb_eq _ _ _ (hf _ (.head _))
  have e_d : fb x 46 6 = d := fb_eq _ _ _ (hf _ (.tail _ (.head _)))
  have e_a : fb x 40 6 = a := fb_eq _ _ _ (hf _ (.tail _ (.tail _ (.head _))))
  have e_b : fb x 34 6 = b := fb_eq _ _ _ (hf _ (.tail _ (.tail _ (.tail _ (.head _)))))
  unfold readSlot readS
  rw [ho, e_g, e_d, e_a, e_b]
  rfl

theorem Coded.sel (g : BitVec 4) (d a b : BitVec 6) (gs : BitVec 3) (ng : BitVec 1) : Coded.Statement (.sel g d a b gs ng) := by
  refine Coded.of_packed (k := .s) (top := 56) (n := 8) (op := 21) (fs := [⟨4, g, 52⟩, ⟨6, d, 46⟩, ⟨6, a, 40⟩, ⟨6, b, 34⟩, ⟨3, gs, 31⟩, ⟨1, ng, 30⟩]) rfl rfl rfl rfl rfl (by decide) (by decide) fun x ho hf => ?_
  have ho : fld x 56 8 = 21 := ho
  have e_g : fb x 52 4 = g := fb_eq _ _ _ (hf _ (.head _))
  have e_d : fb x 46 6 = d := fb_eq _ _ _ (hf _ (.tail _ (.head _)))
  have e_a : fb x 40 6 = a := fb_eq _ _ _ (hf _ (.tail _ (.tail _ (.head _))))
  have e_b : fb x 34 6 = b := fb_eq _ _ _ (hf _ (.tail _ (.tail _ (.tail _ (.head _)))))
  have e_gs : fb x 31 3 = gs := fb_eq _ _ _ (hf _ (.tail _ (.tail _ (.tail _ (.tail _ (.head _))))))
  have e_ng : fb x 30 1 = ng := fb_eq _ _ _ (hf _ (.tail _ (.tail _ (.tail _ (.tail _ (.tail _ (.head _)))))))
  unfold readSlot readS
  rw [ho, e_g, e_d, e_a, e_b, e_gs, e_ng]
  rfl

theorem Coded.add128 (g : BitVec 4) (d a b : BitVec 6) : Coded.Statement (.add128 g d a b) := by
  refine Coded.of_packed (k := .s) (top := 56) (n := 8) (op := 22) (fs := [⟨4, g, 52⟩, ⟨6, d, 46⟩, ⟨6, a, 40⟩, ⟨6, b, 34⟩]) rfl rfl rfl rfl rfl (by decide) (by decide) fun x ho hf => ?_
  have ho : fld x 56 8 = 22 := ho
  have e_g : fb x 52 4 = g := fb_eq _ _ _ (hf _ (.head _))
  have e_d : fb x 46 6 = d := fb_eq _ _ _ (hf _ (.tail _ (.head _)))
  have e_a : fb x 40 6 = a := fb_eq _ _ _ (hf _ (.tail _ (.tail _ (.head _))))
  have e_b : fb x 34 6 = b := fb_eq _ _ _ (hf _ (.tail _ (.tail _ (.tail _ (.head _)))))
  unfold readSlot readS
  rw [ho, e_g, e_d, e_a, e_b]
  rfl

theorem Coded.addi (g : BitVec 4) (d a : BitVec 6) (imm : BitVec 34) : Coded.Statement (.addi g d a imm) := by
  refine Coded.of_packed (k := .s) (top := 56) (n := 8) (op := 32) (fs := [⟨4, g, 52⟩, ⟨6, d, 46⟩, ⟨6, a, 40⟩, ⟨34, imm, 0⟩]) rfl rfl rfl rfl rfl (by decide) (by decide) fun x ho hf => ?_
  have ho : fld x 56 8 = 32 := ho
  have e_g : fb x 52 4 = g := fb_eq _ _ _ (hf _ (.head _))
  have e_d : fb x 46 6 = d := fb_eq _ _ _ (hf _ (.tail _ (.head _)))
  have e_a : fb x 40 6 = a := fb_eq _ _ _ (hf _ (.tail _ (.tail _ (.head _))))
  have e_imm : fb x 0 34 = imm := fb_eq _ _ _ (hf _ (.tail _ (.tail _ (.tail _ (.head _)))))
  unfold readSlot readS
  rw [ho, e_g, e_d, e_a, e_imm]
  rfl

theorem Coded.andi (g : BitVec 4) (d a : BitVec 6) (imm : BitVec 34) : Coded.Statement (.andi g d a imm) := by
  refine Coded.of_packed (k := .s) (top := 56) (n := 8) (op := 33) (fs := [⟨4, g, 52⟩, ⟨6, d, 46⟩, ⟨6, a, 40⟩, ⟨34, imm, 0⟩]) rfl rfl rfl rfl rfl (by decide) (by decide) fun x ho hf => ?_
  have ho : fld x 56 8 = 33 := ho
  have e_g : fb x 52 4 = g := fb_eq _ _ _ (hf _ (.head _))
  have e_d : fb x 46 6 = d := fb_eq _ _ _ (hf _ (.tail _ (.head _)))
  have e_a : fb x 40 6 = a := fb_eq _ _ _ (hf _ (.tail _ (.tail _ (.head _))))
  have e_imm : fb x 0 34 = imm := fb_eq _ _ _ (hf _ (.tail _ (.tail _ (.tail _ (.head _)))))
  unfold readSlot readS
  rw [ho, e_g, e_d, e_a, e_imm]
  rfl

theorem Coded.ori (g : BitVec 4) (d a : BitVec 6) (imm : BitVec 34) : Coded.Statement (.ori g d a imm) := by
  refine Coded.of_packed (k := .s) (top := 56) (n := 8) (op := 34) (fs := [⟨4, g, 52⟩, ⟨6, d, 46⟩, ⟨6, a, 40⟩, ⟨34, imm, 0⟩]) rfl rfl rfl rfl rfl (by decide) (by decide) fun x ho hf => ?_
  have ho : fld x 56 8 = 34 := ho
  have e_g : fb x 52 4 = g := fb_eq _ _ _ (hf _ (.head _))
  have e_d : fb x 46 6 = d := fb_eq _ _ _ (hf _ (.tail _ (.head _)))
  have e_a : fb x 40 6 = a := fb_eq _ _ _ (hf _ (.tail _ (.tail _ (.head _))))
  have e_imm : fb x 0 34 = imm := fb_eq _ _ _ (hf _ (.tail _ (.tail _ (.tail _ (.head _)))))
  unfold readSlot readS
  rw [ho, e_g, e_d, e_a, e_imm]
  rfl

theorem Coded.xori (g : BitVec 4) (d a : BitVec 6) (imm : BitVec 34) : Coded.Statement (.xori g d a imm) := by
  refine Coded.of_packed (k := .s) (top := 56) (n := 8) (op := 35) (fs := [⟨4, g, 52⟩, ⟨6, d, 46⟩, ⟨6, a, 40⟩, ⟨34, imm, 0⟩]) rfl rfl rfl rfl rfl (by decide) (by decide) fun x ho hf => ?_
  have ho : fld x 56 8 = 35 := ho
  have e_g : fb x 52 4 = g := fb_eq _ _ _ (hf _ (.head _))
  have e_d : fb x 46 6 = d := fb_eq _ _ _ (hf _ (.tail _ (.head _)))
  have e_a : fb x 40 6 = a := fb_eq _ _ _ (hf _ (.tail _ (.tail _ (.head _))))
  have e_imm : fb x 0 34 = imm := fb_eq _ _ _ (hf _ (.tail _ (.tail _ (.tail _ (.head _)))))
  unfold readSlot readS
  rw [ho, e_g, e_d, e_a, e_imm]
  rfl

theorem Coded.shli (g : BitVec 4) (d a k : BitVec 6) : Coded.Statement (.shli g d a k) := by
  refine Coded.of_packed (k := .s) (top := 56) (n := 8) (op := 36) (fs := [⟨4, g, 52⟩, ⟨6, d, 46⟩, ⟨6, a, 40⟩, ⟨6, k, 0⟩]) rfl rfl rfl rfl rfl (by decide) (by decide) fun x ho hf => ?_
  have ho : fld x 56 8 = 36 := ho
  have e_g : fb x 52 4 = g := fb_eq _ _ _ (hf _ (.head _))
  have e_d : fb x 46 6 = d := fb_eq _ _ _ (hf _ (.tail _ (.head _)))
  have e_a : fb x 40 6 = a := fb_eq _ _ _ (hf _ (.tail _ (.tail _ (.head _))))
  have e_k : fb x 0 6 = k := fb_eq _ _ _ (hf _ (.tail _ (.tail _ (.tail _ (.head _)))))
  unfold readSlot readS
  rw [ho, e_g, e_d, e_a, e_k]
  rfl

theorem Coded.shri (g : BitVec 4) (d a k : BitVec 6) : Coded.Statement (.shri g d a k) := by
  refine Coded.of_packed (k := .s) (top := 56) (n := 8) (op := 37) (fs := [⟨4, g, 52⟩, ⟨6, d, 46⟩, ⟨6, a, 40⟩, ⟨6, k, 0⟩]) rfl rfl rfl rfl rfl (by decide) (by decide) fun x ho hf => ?_
  have ho : fld x 56 8 = 37 := ho
  have e_g : fb x 52 4 = g := fb_eq _ _ _ (hf _ (.head _))
  have e_d : fb x 46 6 = d := fb_eq _ _ _ (hf _ (.tail _ (.head _)))
  have e_a : fb x 40 6 = a := fb_eq _ _ _ (hf _ (.tail _ (.tail _ (.head _))))
  have e_k : fb x 0 6 = k := fb_eq _ _ _ (hf _ (.tail _ (.tail _ (.tail _ (.head _)))))
  unfold readSlot readS
  rw [ho, e_g, e_d, e_a, e_k]
  rfl

theorem Coded.srai (g : BitVec 4) (d a k : BitVec 6) : Coded.Statement (.srai g d a k) := by
  refine Coded.of_packed (k := .s) (top := 56) (n := 8) (op := 38) (fs := [⟨4, g, 52⟩, ⟨6, d, 46⟩, ⟨6, a, 40⟩, ⟨6, k, 0⟩]) rfl rfl rfl rfl rfl (by decide) (by decide) fun x ho hf => ?_
  have ho : fld x 56 8 = 38 := ho
  have e_g : fb x 52 4 = g := fb_eq _ _ _ (hf _ (.head _))
  have e_d : fb x 46 6 = d := fb_eq _ _ _ (hf _ (.tail _ (.head _)))
  have e_a : fb x 40 6 = a := fb_eq _ _ _ (hf _ (.tail _ (.tail _ (.head _))))
  have e_k : fb x 0 6 = k := fb_eq _ _ _ (hf _ (.tail _ (.tail _ (.tail _ (.head _)))))
  unfold readSlot readS
  rw [ho, e_g, e_d, e_a, e_k]
  rfl

theorem Coded.li (g : BitVec 4) (d : BitVec 6) (imm : BitVec 34) : Coded.Statement (.li g d imm) := by
  refine Coded.of_packed (k := .s) (top := 56) (n := 8) (op := 39) (fs := [⟨4, g, 52⟩, ⟨6, d, 46⟩, ⟨34, imm, 0⟩]) rfl rfl rfl rfl rfl (by decide) (by decide) fun x ho hf => ?_
  have ho : fld x 56 8 = 39 := ho
  have e_g : fb x 52 4 = g := fb_eq _ _ _ (hf _ (.head _))
  have e_d : fb x 46 6 = d := fb_eq _ _ _ (hf _ (.tail _ (.head _)))
  have e_imm : fb x 0 34 = imm := fb_eq _ _ _ (hf _ (.tail _ (.tail _ (.head _))))
  unfold readSlot readS
  rw [ho, e_g, e_d, e_imm]
  rfl

theorem Coded.lih (g : BitVec 4) (d : BitVec 6) (imm : BitVec 34) : Coded.Statement (.lih g d imm) := by
  refine Coded.of_packed (k := .s) (top := 56) (n := 8) (op := 40) (fs := [⟨4, g, 52⟩, ⟨6, d, 46⟩, ⟨34, imm, 0⟩]) rfl rfl rfl rfl rfl (by decide) (by decide) fun x ho hf => ?_
  have ho : fld x 56 8 = 40 := ho
  have e_g : fb x 52 4 = g := fb_eq _ _ _ (hf _ (.head _))
  have e_d : fb x 46 6 = d := fb_eq _ _ _ (hf _ (.tail _ (.head _)))
  have e_imm : fb x 0 34 = imm := fb_eq _ _ _ (hf _ (.tail _ (.tail _ (.head _))))
  unfold readSlot readS
  rw [ho, e_g, e_d, e_imm]
  rfl

theorem Coded.muli (g : BitVec 4) (d a : BitVec 6) (imm : BitVec 34) : Coded.Statement (.muli g d a imm) := by
  refine Coded.of_packed (k := .s) (top := 56) (n := 8) (op := 41) (fs := [⟨4, g, 52⟩, ⟨6, d, 46⟩, ⟨6, a, 40⟩, ⟨34, imm, 0⟩]) rfl rfl rfl rfl rfl (by decide) (by decide) fun x ho hf => ?_
  have ho : fld x 56 8 = 41 := ho
  have e_g : fb x 52 4 = g := fb_eq _ _ _ (hf _ (.head _))
  have e_d : fb x 46 6 = d := fb_eq _ _ _ (hf _ (.tail _ (.head _)))
  have e_a : fb x 40 6 = a := fb_eq _ _ _ (hf _ (.tail _ (.tail _ (.head _))))
  have e_imm : fb x 0 34 = imm := fb_eq _ _ _ (hf _ (.tail _ (.tail _ (.tail _ (.head _)))))
  unfold readSlot readS
  rw [ho, e_g, e_d, e_a, e_imm]
  rfl

theorem Coded.clz (g : BitVec 4) (d a : BitVec 6) : Coded.Statement (.clz g d a) := by
  refine Coded.of_packed (k := .s) (top := 56) (n := 8) (op := 48) (fs := [⟨4, g, 52⟩, ⟨6, d, 46⟩, ⟨6, a, 40⟩]) rfl rfl rfl rfl rfl (by decide) (by decide) fun x ho hf => ?_
  have ho : fld x 56 8 = 48 := ho
  have e_g : fb x 52 4 = g := fb_eq _ _ _ (hf _ (.head _))
  have e_d : fb x 46 6 = d := fb_eq _ _ _ (hf _ (.tail _ (.head _)))
  have e_a : fb x 40 6 = a := fb_eq _ _ _ (hf _ (.tail _ (.tail _ (.head _))))
  unfold readSlot readS
  rw [ho, e_g, e_d, e_a]
  rfl

theorem Coded.ctz (g : BitVec 4) (d a : BitVec 6) : Coded.Statement (.ctz g d a) := by
  refine Coded.of_packed (k := .s) (top := 56) (n := 8) (op := 49) (fs := [⟨4, g, 52⟩, ⟨6, d, 46⟩, ⟨6, a, 40⟩]) rfl rfl rfl rfl rfl (by decide) (by decide) fun x ho hf => ?_
  have ho : fld x 56 8 = 49 := ho
  have e_g : fb x 52 4 = g := fb_eq _ _ _ (hf _ (.head _))
  have e_d : fb x 46 6 = d := fb_eq _ _ _ (hf _ (.tail _ (.head _)))
  have e_a : fb x 40 6 = a := fb_eq _ _ _ (hf _ (.tail _ (.tail _ (.head _))))
  unfold readSlot readS
  rw [ho, e_g, e_d, e_a]
  rfl

theorem Coded.popc (g : BitVec 4) (d a : BitVec 6) : Coded.Statement (.popc g d a) := by
  refine Coded.of_packed (k := .s) (top := 56) (n := 8) (op := 50) (fs := [⟨4, g, 52⟩, ⟨6, d, 46⟩, ⟨6, a, 40⟩]) rfl rfl rfl rfl rfl (by decide) (by decide) fun x ho hf => ?_
  have ho : fld x 56 8 = 50 := ho
  have e_g : fb x 52 4 = g := fb_eq _ _ _ (hf _ (.head _))
  have e_d : fb x 46 6 = d := fb_eq _ _ _ (hf _ (.tail _ (.head _)))
  have e_a : fb x 40 6 = a := fb_eq _ _ _ (hf _ (.tail _ (.tail _ (.head _))))
  unfold readSlot readS
  rw [ho, e_g, e_d, e_a]
  rfl

theorem Coded.bint3 (g : BitVec 4) (d a : BitVec 6) : Coded.Statement (.bint3 g d a) := by
  refine Coded.of_packed (k := .s) (top := 56) (n := 8) (op := 51) (fs := [⟨4, g, 52⟩, ⟨6, d, 46⟩, ⟨6, a, 40⟩]) rfl rfl rfl rfl rfl (by decide) (by decide) fun x ho hf => ?_
  have ho : fld x 56 8 = 51 := ho
  have e_g : fb x 52 4 = g := fb_eq _ _ _ (hf _ (.head _))
  have e_d : fb x 46 6 = d := fb_eq _ _ _ (hf _ (.tail _ (.head _)))
  have e_a : fb x 40 6 = a := fb_eq _ _ _ (hf _ (.tail _ (.tail _ (.head _))))
  unfold readSlot readS
  rw [ho, e_g, e_d, e_a]
  rfl

theorem Coded.bdint3 (g : BitVec 4) (d a : BitVec 6) : Coded.Statement (.bdint3 g d a) := by
  refine Coded.of_packed (k := .s) (top := 56) (n := 8) (op := 52) (fs := [⟨4, g, 52⟩, ⟨6, d, 46⟩, ⟨6, a, 40⟩]) rfl rfl rfl rfl rfl (by decide) (by decide) fun x ho hf => ?_
  have ho : fld x 56 8 = 52 := ho
  have e_g : fb x 52 4 = g := fb_eq _ _ _ (hf _ (.head _))
  have e_d : fb x 46 6 = d := fb_eq _ _ _ (hf _ (.tail _ (.head _)))
  have e_a : fb x 40 6 = a := fb_eq _ _ _ (hf _ (.tail _ (.tail _ (.head _))))
  unfold readSlot readS
  rw [ho, e_g, e_d, e_a]
  rfl

theorem Coded.bint2 (g : BitVec 4) (d a : BitVec 6) : Coded.Statement (.bint2 g d a) := by
  refine Coded.of_packed (k := .s) (top := 56) (n := 8) (op := 53) (fs := [⟨4, g, 52⟩, ⟨6, d, 46⟩, ⟨6, a, 40⟩]) rfl rfl rfl rfl rfl (by decide) (by decide) fun x ho hf => ?_
  have ho : fld x 56 8 = 53 := ho
  have e_g : fb x 52 4 = g := fb_eq _ _ _ (hf _ (.head _))
  have e_d : fb x 46 6 = d := fb_eq _ _ _ (hf _ (.tail _ (.head _)))
  have e_a : fb x 40 6 = a := fb_eq _ _ _ (hf _ (.tail _ (.tail _ (.head _))))
  unfold readSlot readS
  rw [ho, e_g, e_d, e_a]
  rfl

theorem Coded.bdint2 (g : BitVec 4) (d a : BitVec 6) : Coded.Statement (.bdint2 g d a) := by
  refine Coded.of_packed (k := .s) (top := 56) (n := 8) (op := 54) (fs := [⟨4, g, 52⟩, ⟨6, d, 46⟩, ⟨6, a, 40⟩]) rfl rfl rfl rfl rfl (by decide) (by decide) fun x ho hf => ?_
  have ho : fld x 56 8 = 54 := ho
  have e_g : fb x 52 4 = g := fb_eq _ _ _ (hf _ (.head _))
  have e_d : fb x 46 6 = d := fb_eq _ _ _ (hf _ (.tail _ (.head _)))
  have e_a : fb x 40 6 = a := fb_eq _ _ _ (hf _ (.tail _ (.tail _ (.head _))))
  unfold readSlot readS
  rw [ho, e_g, e_d, e_a]
  rfl

theorem Coded.brev (g : BitVec 4) (d a : BitVec 6) : Coded.Statement (.brev g d a) := by
  refine Coded.of_packed (k := .s) (top := 56) (n := 8) (op := 55) (fs := [⟨4, g, 52⟩, ⟨6, d, 46⟩, ⟨6, a, 40⟩]) rfl rfl rfl rfl rfl (by decide) (by decide) fun x ho hf => ?_
  have ho : fld x 56 8 = 55 := ho
  have e_g : fb x 52 4 = g := fb_eq _ _ _ (hf _ (.head _))
  have e_d : fb x 46 6 = d := fb_eq _ _ _ (hf _ (.tail _ (.head _)))
  have e_a : fb x 40 6 = a := fb_eq _ _ _ (hf _ (.tail _ (.tail _ (.head _))))
  unfold readSlot readS
  rw [ho, e_g, e_d, e_a]
  rfl

theorem Coded.sext (g : BitVec 4) (d a w : BitVec 6) : Coded.Statement (.sext g d a w) := by
  refine Coded.of_packed (k := .s) (top := 56) (n := 8) (op := 56) (fs := [⟨4, g, 52⟩, ⟨6, d, 46⟩, ⟨6, a, 40⟩, ⟨6, w, 34⟩]) rfl rfl rfl rfl rfl (by decide) (by decide) fun x ho hf => ?_
  have ho : fld x 56 8 = 56 := ho
  have e_g : fb x 52 4 = g := fb_eq _ _ _ (hf _ (.head _))
  have e_d : fb x 46 6 = d := fb_eq _ _ _ (hf _ (.tail _ (.head _)))
  have e_a : fb x 40 6 = a := fb_eq _ _ _ (hf _ (.tail _ (.tail _ (.head _))))
  have e_w : fb x 34 6 = w := fb_eq _ _ _ (hf _ (.tail _ (.tail _ (.tail _ (.head _)))))
  unfold readSlot readS
  rw [ho, e_g, e_d, e_a, e_w]
  rfl

theorem Coded.zext (g : BitVec 4) (d a w : BitVec 6) : Coded.Statement (.zext g d a w) := by
  refine Coded.of_packed (k := .s) (top := 56) (n := 8) (op := 57) (fs := [⟨4, g, 52⟩, ⟨6, d, 46⟩, ⟨6, a, 40⟩, ⟨6, w, 34⟩]) rfl rfl rfl rfl rfl (by decide) (by decide) fun x ho hf => ?_
  have ho : fld x 56 8 = 57 := ho
  have e_g : fb x 52 4 = g := fb_eq _ _ _ (hf _ (.head _))
  have e_d : fb x 46 6 = d := fb_eq _ _ _ (hf _ (.tail _ (.head _)))
  have e_a : fb x 40 6 = a := fb_eq _ _ _ (hf _ (.tail _ (.tail _ (.head _))))
  have e_w : fb x 34 6 = w := fb_eq _ _ _ (hf _ (.tail _ (.tail _ (.tail _ (.head _)))))
  unfold readSlot readS
  rw [ho, e_g, e_d, e_a, e_w]
  rfl

theorem Coded.cmpEq (g : BitVec 4) (gd : BitVec 3) (a b : BitVec 6) : Coded.Statement (.cmpEq g gd a b) := by
  refine Coded.of_packed (k := .s) (top := 56) (n := 8) (op := 64) (fs := [⟨4, g, 52⟩, ⟨3, gd, 49⟩, ⟨6, a, 40⟩, ⟨6, b, 34⟩]) rfl rfl rfl rfl rfl (by decide) (by decide) fun x ho hf => ?_
  have ho : fld x 56 8 = 64 := ho
  have e_g : fb x 52 4 = g := fb_eq _ _ _ (hf _ (.head _))
  have e_gd : fb x 49 3 = gd := fb_eq _ _ _ (hf _ (.tail _ (.head _)))
  have e_a : fb x 40 6 = a := fb_eq _ _ _ (hf _ (.tail _ (.tail _ (.head _))))
  have e_b : fb x 34 6 = b := fb_eq _ _ _ (hf _ (.tail _ (.tail _ (.tail _ (.head _)))))
  unfold readSlot readS
  rw [ho, e_g, e_gd, e_a, e_b]
  rfl

theorem Coded.cmpNe (g : BitVec 4) (gd : BitVec 3) (a b : BitVec 6) : Coded.Statement (.cmpNe g gd a b) := by
  refine Coded.of_packed (k := .s) (top := 56) (n := 8) (op := 65) (fs := [⟨4, g, 52⟩, ⟨3, gd, 49⟩, ⟨6, a, 40⟩, ⟨6, b, 34⟩]) rfl rfl rfl rfl rfl (by decide) (by decide) fun x ho hf => ?_
  have ho : fld x 56 8 = 65 := ho
  have e_g : fb x 52 4 = g := fb_eq _ _ _ (hf _ (.head _))
  have e_gd : fb x 49 3 = gd := fb_eq _ _ _ (hf _ (.tail _ (.head _)))
  have e_a : fb x 40 6 = a := fb_eq _ _ _ (hf _ (.tail _ (.tail _ (.head _))))
  have e_b : fb x 34 6 = b := fb_eq _ _ _ (hf _ (.tail _ (.tail _ (.tail _ (.head _)))))
  unfold readSlot readS
  rw [ho, e_g, e_gd, e_a, e_b]
  rfl

theorem Coded.cmpLt (g : BitVec 4) (gd : BitVec 3) (a b : BitVec 6) : Coded.Statement (.cmpLt g gd a b) := by
  refine Coded.of_packed (k := .s) (top := 56) (n := 8) (op := 66) (fs := [⟨4, g, 52⟩, ⟨3, gd, 49⟩, ⟨6, a, 40⟩, ⟨6, b, 34⟩]) rfl rfl rfl rfl rfl (by decide) (by decide) fun x ho hf => ?_
  have ho : fld x 56 8 = 66 := ho
  have e_g : fb x 52 4 = g := fb_eq _ _ _ (hf _ (.head _))
  have e_gd : fb x 49 3 = gd := fb_eq _ _ _ (hf _ (.tail _ (.head _)))
  have e_a : fb x 40 6 = a := fb_eq _ _ _ (hf _ (.tail _ (.tail _ (.head _))))
  have e_b : fb x 34 6 = b := fb_eq _ _ _ (hf _ (.tail _ (.tail _ (.tail _ (.head _)))))
  unfold readSlot readS
  rw [ho, e_g, e_gd, e_a, e_b]
  rfl

theorem Coded.cmpLtn (g : BitVec 4) (gd : BitVec 3) (a b : BitVec 6) : Coded.Statement (.cmpLtn g gd a b) := by
  refine Coded.of_packed (k := .s) (top := 56) (n := 8) (op := 67) (fs := [⟨4, g, 52⟩, ⟨3, gd, 49⟩, ⟨6, a, 40⟩, ⟨6, b, 34⟩]) rfl rfl rfl rfl rfl (by decide) (by decide) fun x ho hf => ?_
  have ho : fld x 56 8 = 67 := ho
  have e_g : fb x 52 4 = g := fb_eq _ _ _ (hf _ (.head _))
  have e_gd : fb x 49 3 = gd := fb_eq _ _ _ (hf _ (.tail _ (.head _)))
  have e_a : fb x 40 6 = a := fb_eq _ _ _ (hf _ (.tail _ (.tail _ (.head _))))
  have e_b : fb x 34 6 = b := fb_eq _ _ _ (hf _ (.tail _ (.tail _ (.tail _ (.head _)))))
  unfold readSlot readS
  rw [ho, e_g, e_gd, e_a, e_b]
  rfl

theorem Coded.cmpLe (g : BitVec 4) (gd : BitVec 3) (a b : BitVec 6) : Coded.Statement (.cmpLe g gd a b) := by
  refine Coded.of_packed (k := .s) (top := 56) (n := 8) (op := 68) (fs := [⟨4, g, 52⟩, ⟨3, gd, 49⟩, ⟨6, a, 40⟩, ⟨6, b, 34⟩]) rfl rfl rfl rfl rfl (by decide) (by decide) fun x ho hf => ?_
  have ho : fld x 56 8 = 68 := ho
  have e_g : fb x 52 4 = g := fb_eq _ _ _ (hf _ (.head _))
  have e_gd : fb x 49 3 = gd := fb_eq _ _ _ (hf _ (.tail _ (.head _)))
  have e_a : fb x 40 6 = a := fb_eq _ _ _ (hf _ (.tail _ (.tail _ (.head _))))
  have e_b : fb x 34 6 = b := fb_eq _ _ _ (hf _ (.tail _ (.tail _ (.tail _ (.head _)))))
  unfold readSlot readS
  rw [ho, e_g, e_gd, e_a, e_b]
  rfl

theorem Coded.cmpLen (g : BitVec 4) (gd : BitVec 3) (a b : BitVec 6) : Coded.Statement (.cmpLen g gd a b) := by
  refine Coded.of_packed (k := .s) (top := 56) (n := 8) (op := 69) (fs := [⟨4, g, 52⟩, ⟨3, gd, 49⟩, ⟨6, a, 40⟩, ⟨6, b, 34⟩]) rfl rfl rfl rfl rfl (by decide) (by decide) fun x ho hf => ?_
  have ho : fld x 56 8 = 69 := ho
  have e_g : fb x 52 4 = g := fb_eq _ _ _ (hf _ (.head _))
  have e_gd : fb x 49 3 = gd := fb_eq _ _ _ (hf _ (.tail _ (.head _)))
  have e_a : fb x 40 6 = a := fb_eq _ _ _ (hf _ (.tail _ (.tail _ (.head _))))
  have e_b : fb x 34 6 = b := fb_eq _ _ _ (hf _ (.tail _ (.tail _ (.tail _ (.head _)))))
  unfold readSlot readS
  rw [ho, e_g, e_gd, e_a, e_b]
  rfl

theorem Coded.cmpiEq (g : BitVec 4) (gd : BitVec 3) (a : BitVec 6) (imm : BitVec 34) : Coded.Statement (.cmpiEq g gd a imm) := by
  refine Coded.of_packed (k := .s) (top := 56) (n := 8) (op := 70) (fs := [⟨4, g, 52⟩, ⟨3, gd, 49⟩, ⟨6, a, 40⟩, ⟨34, imm, 0⟩]) rfl rfl rfl rfl rfl (by decide) (by decide) fun x ho hf => ?_
  have ho : fld x 56 8 = 70 := ho
  have e_g : fb x 52 4 = g := fb_eq _ _ _ (hf _ (.head _))
  have e_gd : fb x 49 3 = gd := fb_eq _ _ _ (hf _ (.tail _ (.head _)))
  have e_a : fb x 40 6 = a := fb_eq _ _ _ (hf _ (.tail _ (.tail _ (.head _))))
  have e_imm : fb x 0 34 = imm := fb_eq _ _ _ (hf _ (.tail _ (.tail _ (.tail _ (.head _)))))
  unfold readSlot readS
  rw [ho, e_g, e_gd, e_a, e_imm]
  rfl

theorem Coded.cmpiLt (g : BitVec 4) (gd : BitVec 3) (a : BitVec 6) (imm : BitVec 34) : Coded.Statement (.cmpiLt g gd a imm) := by
  refine Coded.of_packed (k := .s) (top := 56) (n := 8) (op := 71) (fs := [⟨4, g, 52⟩, ⟨3, gd, 49⟩, ⟨6, a, 40⟩, ⟨34, imm, 0⟩]) rfl rfl rfl rfl rfl (by decide) (by decide) fun x ho hf => ?_
  have ho : fld x 56 8 = 71 := ho
  have e_g : fb x 52 4 = g := fb_eq _ _ _ (hf _ (.head _))
  have e_gd : fb x 49 3 = gd := fb_eq _ _ _ (hf _ (.tail _ (.head _)))
  have e_a : fb x 40 6 = a := fb_eq _ _ _ (hf _ (.tail _ (.tail _ (.head _))))
  have e_imm : fb x 0 34 = imm := fb_eq _ _ _ (hf _ (.tail _ (.tail _ (.tail _ (.head _)))))
  unfold readSlot readS
  rw [ho, e_g, e_gd, e_a, e_imm]
  rfl

theorem Coded.gand (g : BitVec 4) (gd ga gb : BitVec 3) : Coded.Statement (.gand g gd ga gb) := by
  refine Coded.of_packed (k := .s) (top := 56) (n := 8) (op := 72) (fs := [⟨4, g, 52⟩, ⟨3, gd, 49⟩, ⟨3, ga, 43⟩, ⟨3, gb, 37⟩]) rfl rfl rfl rfl rfl (by decide) (by decide) fun x ho hf => ?_
  have ho : fld x 56 8 = 72 := ho
  have e_g : fb x 52 4 = g := fb_eq _ _ _ (hf _ (.head _))
  have e_gd : fb x 49 3 = gd := fb_eq _ _ _ (hf _ (.tail _ (.head _)))
  have e_ga : fb x 43 3 = ga := fb_eq _ _ _ (hf _ (.tail _ (.tail _ (.head _))))
  have e_gb : fb x 37 3 = gb := fb_eq _ _ _ (hf _ (.tail _ (.tail _ (.tail _ (.head _)))))
  unfold readSlot readS
  rw [ho, e_g, e_gd, e_ga, e_gb]
  rfl

theorem Coded.gor (g : BitVec 4) (gd ga gb : BitVec 3) : Coded.Statement (.gor g gd ga gb) := by
  refine Coded.of_packed (k := .s) (top := 56) (n := 8) (op := 73) (fs := [⟨4, g, 52⟩, ⟨3, gd, 49⟩, ⟨3, ga, 43⟩, ⟨3, gb, 37⟩]) rfl rfl rfl rfl rfl (by decide) (by decide) fun x ho hf => ?_
  have ho : fld x 56 8 = 73 := ho
  have e_g : fb x 52 4 = g := fb_eq _ _ _ (hf _ (.head _))
  have e_gd : fb x 49 3 = gd := fb_eq _ _ _ (hf _ (.tail _ (.head _)))
  have e_ga : fb x 43 3 = ga := fb_eq _ _ _ (hf _ (.tail _ (.tail _ (.head _))))
  have e_gb : fb x 37 3 = gb := fb_eq _ _ _ (hf _ (.tail _ (.tail _ (.tail _ (.head _)))))
  unfold readSlot readS
  rw [ho, e_g, e_gd, e_ga, e_gb]
  rfl

theorem Coded.gnot (g : BitVec 4) (gd ga : BitVec 3) : Coded.Statement (.gnot g gd ga) := by
  refine Coded.of_packed (k := .s) (top := 56) (n := 8) (op := 74) (fs := [⟨4, g, 52⟩, ⟨3, gd, 49⟩, ⟨3, ga, 43⟩]) rfl rfl rfl rfl rfl (by decide) (by decide) fun x ho hf => ?_
  have ho : fld x 56 8 = 74 := ho
  have e_g : fb x 52 4 = g := fb_eq _ _ _ (hf _ (.head _))
  have e_gd : fb x 49 3 = gd := fb_eq _ _ _ (hf _ (.tail _ (.head _)))
  have e_ga : fb x 43 3 = ga := fb_eq _ _ _ (hf _ (.tail _ (.tail _ (.head _))))
  unfold readSlot readS
  rw [ho, e_g, e_gd, e_ga]
  rfl

theorem Coded.br (g : BitVec 4) (off : BitVec 34) : Coded.Statement (.br g off) := by
  refine Coded.of_packed (k := .s) (top := 56) (n := 8) (op := 80) (fs := [⟨4, g, 52⟩, ⟨34, off, 0⟩]) rfl rfl rfl rfl rfl (by decide) (by decide) fun x ho hf => ?_
  have ho : fld x 56 8 = 80 := ho
  have e_g : fb x 52 4 = g := fb_eq _ _ _ (hf _ (.head _))
  have e_off : fb x 0 34 = off := fb_eq _ _ _ (hf _ (.tail _ (.head _)))
  unfold readSlot readS
  rw [ho, e_g, e_off]
  rfl

theorem Coded.brs (g : BitVec 4) (a : BitVec 6) (off : BitVec 34) : Coded.Statement (.brs g a off) := by
  refine Coded.of_packed (k := .s) (top := 56) (n := 8) (op := 81) (fs := [⟨4, g, 52⟩, ⟨6, a, 40⟩, ⟨34, off, 0⟩]) rfl rfl rfl rfl rfl (by decide) (by decide) fun x ho hf => ?_
  have ho : fld x 56 8 = 81 := ho
  have e_g : fb x 52 4 = g := fb_eq _ _ _ (hf _ (.head _))
  have e_a : fb x 40 6 = a := fb_eq _ _ _ (hf _ (.tail _ (.head _)))
  have e_off : fb x 0 34 = off := fb_eq _ _ _ (hf _ (.tail _ (.tail _ (.head _))))
  unfold readSlot readS
  rw [ho, e_g, e_a, e_off]
  rfl

theorem Coded.call (g : BitVec 4) (l : BitVec 6) (off : BitVec 34) : Coded.Statement (.call g l off) := by
  refine Coded.of_packed (k := .s) (top := 56) (n := 8) (op := 82) (fs := [⟨4, g, 52⟩, ⟨6, l, 46⟩, ⟨34, off, 0⟩]) rfl rfl rfl rfl rfl (by decide) (by decide) fun x ho hf => ?_
  have ho : fld x 56 8 = 82 := ho
  have e_g : fb x 52 4 = g := fb_eq _ _ _ (hf _ (.head _))
  have e_l : fb x 46 6 = l := fb_eq _ _ _ (hf _ (.tail _ (.head _)))
  have e_off : fb x 0 34 = off := fb_eq _ _ _ (hf _ (.tail _ (.tail _ (.head _))))
  unfold readSlot readS
  rw [ho, e_g, e_l, e_off]
  rfl

theorem Coded.ret (g : BitVec 4) (a : BitVec 6) : Coded.Statement (.ret g a) := by
  refine Coded.of_packed (k := .s) (top := 56) (n := 8) (op := 83) (fs := [⟨4, g, 52⟩, ⟨6, a, 40⟩]) rfl rfl rfl rfl rfl (by decide) (by decide) fun x ho hf => ?_
  have ho : fld x 56 8 = 83 := ho
  have e_g : fb x 52 4 = g := fb_eq _ _ _ (hf _ (.head _))
  have e_a : fb x 40 6 = a := fb_eq _ _ _ (hf _ (.tail _ (.head _)))
  unfold readSlot readS
  rw [ho, e_g, e_a]
  rfl

theorem Coded.loop (g : BitVec 4) (st : BitVec 2) (ro : BitVec 1) (a : BitVec 6) (e : BitVec 16) : Coded.Statement (.loop g st ro a e) := by
  refine Coded.of_packed (k := .s) (top := 56) (n := 8) (op := 84) (fs := [⟨4, g, 52⟩, ⟨2, st, 47⟩, ⟨1, ro, 46⟩, ⟨6, a, 40⟩, ⟨16, e, 18⟩]) rfl rfl rfl rfl rfl (by decide) (by decide) fun x ho hf => ?_
  have ho : fld x 56 8 = 84 := ho
  have e_g : fb x 52 4 = g := fb_eq _ _ _ (hf _ (.head _))
  have e_st : fb x 47 2 = st := fb_eq _ _ _ (hf _ (.tail _ (.head _)))
  have e_ro : fb x 46 1 = ro := fb_eq _ _ _ (hf _ (.tail _ (.tail _ (.head _))))
  have e_a : fb x 40 6 = a := fb_eq _ _ _ (hf _ (.tail _ (.tail _ (.tail _ (.head _)))))
  have e_e : fb x 18 16 = e := fb_eq _ _ _ (hf _ (.tail _ (.tail _ (.tail _ (.tail _ (.head _))))))
  unfold readSlot readS
  rw [ho, e_g, e_st, e_ro, e_a, e_e]
  rfl

theorem Coded.loopi (g : BitVec 4) (st : BitVec 2) (ro : BitVec 1) (e : BitVec 16) (cnt : BitVec 18) : Coded.Statement (.loopi g st ro e cnt) := by
  refine Coded.of_packed (k := .s) (top := 56) (n := 8) (op := 85) (fs := [⟨4, g, 52⟩, ⟨2, st, 47⟩, ⟨1, ro, 46⟩, ⟨16, e, 18⟩, ⟨18, cnt, 0⟩]) rfl rfl rfl rfl rfl (by decide) (by decide) fun x ho hf => ?_
  have ho : fld x 56 8 = 85 := ho
  have e_g : fb x 52 4 = g := fb_eq _ _ _ (hf _ (.head _))
  have e_st : fb x 47 2 = st := fb_eq _ _ _ (hf _ (.tail _ (.head _)))
  have e_ro : fb x 46 1 = ro := fb_eq _ _ _ (hf _ (.tail _ (.tail _ (.head _))))
  have e_e : fb x 18 16 = e := fb_eq _ _ _ (hf _ (.tail _ (.tail _ (.tail _ (.head _)))))
  have e_cnt : fb x 0 18 = cnt := fb_eq _ _ _ (hf _ (.tail _ (.tail _ (.tail _ (.tail _ (.head _))))))
  unfold readSlot readS
  rw [ho, e_g, e_st, e_ro, e_e, e_cnt]
  rfl

theorem Coded.lexit (g : BitVec 4) (off : BitVec 34) : Coded.Statement (.lexit g off) := by
  refine Coded.of_packed (k := .s) (top := 56) (n := 8) (op := 86) (fs := [⟨4, g, 52⟩, ⟨34, off, 0⟩]) rfl rfl rfl rfl rfl (by decide) (by decide) fun x ho hf => ?_
  have ho : fld x 56 8 = 86 := ho
  have e_g : fb x 52 4 = g := fb_eq _ _ _ (hf _ (.head _))
  have e_off : fb x 0 34 = off := fb_eq _ _ _ (hf _ (.tail _ (.head _)))
  unfold readSlot readS
  rw [ho, e_g, e_off]
  rfl

theorem Coded.brb (g : BitVec 4) (l : BitVec 6) (o : BitVec 13) : Coded.Statement (.brb g l o) := by
  refine Coded.of_packed (k := .s) (top := 56) (n := 8) (op := 87) (fs := [⟨4, g, 52⟩, ⟨6, l, 46⟩, ⟨13, o, 0⟩]) rfl rfl rfl rfl rfl (by decide) (by decide) fun x ho hf => ?_
  have ho : fld x 56 8 = 87 := ho
  have e_g : fb x 52 4 = g := fb_eq _ _ _ (hf _ (.head _))
  have e_l : fb x 46 6 = l := fb_eq _ _ _ (hf _ (.tail _ (.head _)))
  have e_o : fb x 0 13 = o := fb_eq _ _ _ (hf _ (.tail _ (.tail _ (.head _))))
  unfold readSlot readS
  rw [ho, e_g, e_l, e_o]
  rfl

theorem Coded.halt (g : BitVec 4) : Coded.Statement (.halt g) := by
  refine Coded.of_packed (k := .s) (top := 56) (n := 8) (op := 88) (fs := [⟨4, g, 52⟩]) rfl rfl rfl rfl rfl (by decide) (by decide) fun x ho hf => ?_
  have ho : fld x 56 8 = 88 := ho
  have e_g : fb x 52 4 = g := fb_eq _ _ _ (hf _ (.head _))
  unfold readSlot readS
  rw [ho, e_g]
  rfl

theorem Coded.yield (g : BitVec 4) : Coded.Statement (.yield g) := by
  refine Coded.of_packed (k := .s) (top := 56) (n := 8) (op := 89) (fs := [⟨4, g, 52⟩]) rfl rfl rfl rfl rfl (by decide) (by decide) fun x ho hf => ?_
  have ho : fld x 56 8 = 89 := ho
  have e_g : fb x 52 4 = g := fb_eq _ _ _ (hf _ (.head _))
  unfold readSlot readS
  rw [ho, e_g]
  rfl

theorem Coded.rdid (g : BitVec 4) (d : BitVec 6) (imm : BitVec 34) : Coded.Statement (.rdid g d imm) := by
  refine Coded.of_packed (k := .s) (top := 56) (n := 8) (op := 96) (fs := [⟨4, g, 52⟩, ⟨6, d, 46⟩, ⟨34, imm, 0⟩]) rfl rfl rfl rfl rfl (by decide) (by decide) fun x ho hf => ?_
  have ho : fld x 56 8 = 96 := ho
  have e_g : fb x 52 4 = g := fb_eq _ _ _ (hf _ (.head _))
  have e_d : fb x 46 6 = d := fb_eq _ _ _ (hf _ (.tail _ (.head _)))
  have e_imm : fb x 0 34 = imm := fb_eq _ _ _ (hf _ (.tail _ (.tail _ (.head _))))
  unfold readSlot readS
  rw [ho, e_g, e_d, e_imm]
  rfl

theorem Coded.rdsys (g : BitVec 4) (d : BitVec 6) (ix : BitVec 12) : Coded.Statement (.rdsys g d ix) := by
  refine Coded.of_packed (k := .s) (top := 56) (n := 8) (op := 97) (fs := [⟨4, g, 52⟩, ⟨6, d, 46⟩, ⟨12, ix, 0⟩]) rfl rfl rfl rfl rfl (by decide) (by decide) fun x ho hf => ?_
  have ho : fld x 56 8 = 97 := ho
  have e_g : fb x 52 4 = g := fb_eq _ _ _ (hf _ (.head _))
  have e_d : fb x 46 6 = d := fb_eq _ _ _ (hf _ (.tail _ (.head _)))
  have e_ix : fb x 0 12 = ix := fb_eq _ _ _ (hf _ (.tail _ (.tail _ (.head _))))
  unfold readSlot readS
  rw [ho, e_g, e_d, e_ix]
  rfl

theorem Coded.wrsys (g : BitVec 4) (a : BitVec 6) (ix : BitVec 12) : Coded.Statement (.wrsys g a ix) := by
  refine Coded.of_packed (k := .s) (top := 56) (n := 8) (op := 98) (fs := [⟨4, g, 52⟩, ⟨6, a, 40⟩, ⟨12, ix, 0⟩]) rfl rfl rfl rfl rfl (by decide) (by decide) fun x ho hf => ?_
  have ho : fld x 56 8 = 98 := ho
  have e_g : fb x 52 4 = g := fb_eq _ _ _ (hf _ (.head _))
  have e_a : fb x 40 6 = a := fb_eq _ _ _ (hf _ (.tail _ (.head _)))
  have e_ix : fb x 0 12 = ix := fb_eq _ _ _ (hf _ (.tail _ (.tail _ (.head _))))
  unfold readSlot readS
  rw [ho, e_g, e_a, e_ix]
  rfl

theorem Coded.sys (g : BitVec 4) (imm : BitVec 34) : Coded.Statement (.sys g imm) := by
  refine Coded.of_packed (k := .s) (top := 56) (n := 8) (op := 99) (fs := [⟨4, g, 52⟩, ⟨34, imm, 0⟩]) rfl rfl rfl rfl rfl (by decide) (by decide) fun x ho hf => ?_
  have ho : fld x 56 8 = 99 := ho
  have e_g : fb x 52 4 = g := fb_eq _ _ _ (hf _ (.head _))
  have e_imm : fb x 0 34 = imm := fb_eq _ _ _ (hf _ (.tail _ (.head _)))
  unfold readSlot readS
  rw [ho, e_g, e_imm]
  rfl

theorem Coded.trapi (g : BitVec 4) (imm : BitVec 34) : Coded.Statement (.trapi g imm) := by
  refine Coded.of_packed (k := .s) (top := 56) (n := 8) (op := 100) (fs := [⟨4, g, 52⟩, ⟨34, imm, 0⟩]) rfl rfl rfl rfl rfl (by decide) (by decide) fun x ho hf => ?_
  have ho : fld x 56 8 = 100 := ho
  have e_g : fb x 52 4 = g := fb_eq _ _ _ (hf _ (.head _))
  have e_imm : fb x 0 34 = imm := fb_eq _ _ _ (hf _ (.tail _ (.head _)))
  unfold readSlot readS
  rw [ho, e_g, e_imm]
  rfl

theorem Coded.eret (g : BitVec 4) : Coded.Statement (.eret g) := by
  refine Coded.of_packed (k := .s) (top := 56) (n := 8) (op := 101) (fs := [⟨4, g, 52⟩]) rfl rfl rfl rfl rfl (by decide) (by decide) fun x ho hf => ?_
  have ho : fld x 56 8 = 101 := ho
  have e_g : fb x 52 4 = g := fb_eq _ _ _ (hf _ (.head _))
  unfold readSlot readS
  rw [ho, e_g]
  rfl

theorem Coded.ifence (g : BitVec 4) : Coded.Statement (.ifence g) := by
  refine Coded.of_packed (k := .s) (top := 56) (n := 8) (op := 102) (fs := [⟨4, g, 52⟩]) rfl rfl rfl rfl rfl (by decide) (by decide) fun x ho hf => ?_
  have ho : fld x 56 8 = 102 := ho
  have e_g : fb x 52 4 = g := fb_eq _ _ _ (hf _ (.head _))
  unfold readSlot readS
  rw [ho, e_g]
  rfl

theorem Coded.evpop (g : BitVec 4) (d : BitVec 6) : Coded.Statement (.evpop g d) := by
  refine Coded.of_packed (k := .s) (top := 56) (n := 8) (op := 103) (fs := [⟨4, g, 52⟩, ⟨6, d, 46⟩]) rfl rfl rfl rfl rfl (by decide) (by decide) fun x ho hf => ?_
  have ho : fld x 56 8 = 103 := ho
  have e_g : fb x 52 4 = g := fb_eq _ _ _ (hf _ (.head _))
  have e_d : fb x 46 6 = d := fb_eq _ _ _ (hf _ (.tail _ (.head _)))
  unfold readSlot readS
  rw [ho, e_g, e_d]
  rfl

theorem Coded.rdtime (g : BitVec 4) (d : BitVec 6) : Coded.Statement (.rdtime g d) := by
  refine Coded.of_packed (k := .s) (top := 56) (n := 8) (op := 104) (fs := [⟨4, g, 52⟩, ⟨6, d, 46⟩]) rfl rfl rfl rfl rfl (by decide) (by decide) fun x ho hf => ?_
  have ho : fld x 56 8 = 104 := ho
  have e_g : fb x 52 4 = g := fb_eq _ _ _ (hf _ (.head _))
  have e_d : fb x 46 6 = d := fb_eq _ _ _ (hf _ (.tail _ (.head _)))
  unfold readSlot readS
  rw [ho, e_g, e_d]
  rfl

theorem Coded.rdcyc (g : BitVec 4) (d : BitVec 6) : Coded.Statement (.rdcyc g d) := by
  refine Coded.of_packed (k := .s) (top := 56) (n := 8) (op := 105) (fs := [⟨4, g, 52⟩, ⟨6, d, 46⟩]) rfl rfl rfl rfl rfl (by decide) (by decide) fun x ho hf => ?_
  have ho : fld x 56 8 = 105 := ho
  have e_g : fb x 52 4 = g := fb_eq _ _ _ (hf _ (.head _))
  have e_d : fb x 46 6 = d := fb_eq _ _ _ (hf _ (.tail _ (.head _)))
  unfold readSlot readS
  rw [ho, e_g, e_d]
  rfl

theorem Coded.setest (g : BitVec 4) (a : BitVec 6) (ix : BitVec 8) : Coded.Statement (.setest g a ix) := by
  refine Coded.of_packed (k := .s) (top := 56) (n := 8) (op := 106) (fs := [⟨4, g, 52⟩, ⟨6, a, 40⟩, ⟨8, ix, 0⟩]) rfl rfl rfl rfl rfl (by decide) (by decide) fun x ho hf => ?_
  have ho : fld x 56 8 = 106 := ho
  have e_g : fb x 52 4 = g := fb_eq _ _ _ (hf _ (.head _))
  have e_a : fb x 40 6 = a := fb_eq _ _ _ (hf _ (.tail _ (.head _)))
  have e_ix : fb x 0 8 = ix := fb_eq _ _ _ (hf _ (.tail _ (.tail _ (.head _))))
  unfold readSlot readS
  rw [ho, e_g, e_a, e_ix]
  rfl

theorem Coded.flagsRd (g : BitVec 4) (d : BitVec 6) : Coded.Statement (.flagsRd g d) := by
  refine Coded.of_packed (k := .s) (top := 56) (n := 8) (op := 107) (fs := [⟨4, g, 52⟩, ⟨6, d, 46⟩]) rfl rfl rfl rfl rfl (by decide) (by decide) fun x ho hf => ?_
  have ho : fld x 56 8 = 107 := ho
  have e_g : fb x 52 4 = g := fb_eq _ _ _ (hf _ (.head _))
  have e_d : fb x 46 6 = d := fb_eq _ _ _ (hf _ (.tail _ (.head _)))
  unfold readSlot readS
  rw [ho, e_g, e_d]
  rfl

theorem Coded.flagsClr (g : BitVec 4) (k : BitVec 6) : Coded.Statement (.flagsClr g k) := by
  refine Coded.of_packed (k := .s) (top := 56) (n := 8) (op := 108) (fs := [⟨4, g, 52⟩, ⟨6, k, 0⟩]) rfl rfl rfl rfl rfl (by decide) (by decide) fun x ho hf => ?_
  have ho : fld x 56 8 = 108 := ho
  have e_g : fb x 52 4 = g := fb_eq _ _ _ (hf _ (.head _))
  have e_k : fb x 0 6 = k := fb_eq _ _ _ (hf _ (.tail _ (.head _)))
  unfold readSlot readS
  rw [ho, e_g, e_k]
  rfl

theorem Coded.wfe (g : BitVec 4) (n : BitVec 7) : Coded.Statement (.wfe g n) := by
  refine Coded.of_packed (k := .s) (top := 56) (n := 8) (op := 109) (fs := [⟨4, g, 52⟩, ⟨7, n, 0⟩]) rfl rfl rfl rfl rfl (by decide) (by decide) fun x ho hf => ?_
  have ho : fld x 56 8 = 109 := ho
  have e_g : fb x 52 4 = g := fb_eq _ _ _ (hf _ (.head _))
  have e_n : fb x 0 7 = n := fb_eq _ _ _ (hf _ (.tail _ (.head _)))
  unfold readSlot readS
  rw [ho, e_g, e_n]
  rfl

theorem Coded.movGs (g : BitVec 4) (d : BitVec 6) (gk : BitVec 3) : Coded.Statement (.movGs g d gk) := by
  refine Coded.of_packed (k := .s) (top := 56) (n := 8) (op := 112) (fs := [⟨4, g, 52⟩, ⟨6, d, 43⟩, ⟨3, gk, 34⟩]) rfl rfl rfl rfl rfl (by decide) (by decide) fun x ho hf => ?_
  have ho : fld x 56 8 = 112 := ho
  have e_g : fb x 52 4 = g := fb_eq _ _ _ (hf _ (.head _))
  have e_d : fb x 43 6 = d := fb_eq _ _ _ (hf _ (.tail _ (.head _)))
  have e_gk : fb x 34 3 = gk := fb_eq _ _ _ (hf _ (.tail _ (.tail _ (.head _))))
  unfold readSlot readS
  rw [ho, e_g, e_d, e_gk]
  rfl

theorem Coded.movSg (g : BitVec 4) (gd : BitVec 3) (a : BitVec 6) : Coded.Statement (.movSg g gd a) := by
  refine Coded.of_packed (k := .s) (top := 56) (n := 8) (op := 113) (fs := [⟨4, g, 52⟩, ⟨3, gd, 43⟩, ⟨6, a, 34⟩]) rfl rfl rfl rfl rfl (by decide) (by decide) fun x ho hf => ?_
  have ho : fld x 56 8 = 113 := ho
  have e_g : fb x 52 4 = g := fb_eq _ _ _ (hf _ (.head _))
  have e_gd : fb x 43 3 = gd := fb_eq _ _ _ (hf _ (.tail _ (.head _)))
  have e_a : fb x 34 6 = a := fb_eq _ _ _ (hf _ (.tail _ (.tail _ (.head _))))
  unfold readSlot readS
  rw [ho, e_g, e_gd, e_a]
  rfl

theorem Coded.movSv (g : BitVec 4) (d : BitVec 9) (a : BitVec 6) (lane : BitVec 4) : Coded.Statement (.movSv g d a lane) := by
  refine Coded.of_packed (k := .s) (top := 56) (n := 8) (op := 114) (fs := [⟨4, g, 52⟩, ⟨9, d, 43⟩, ⟨6, a, 34⟩, ⟨4, lane, 16⟩]) rfl rfl rfl rfl rfl (by decide) (by decide) fun x ho hf => ?_
  have ho : fld x 56 8 = 114 := ho
  have e_g : fb x 52 4 = g := fb_eq _ _ _ (hf _ (.head _))
  have e_d : fb x 43 9 = d := fb_eq _ _ _ (hf _ (.tail _ (.head _)))
  have e_a : fb x 34 6 = a := fb_eq _ _ _ (hf _ (.tail _ (.tail _ (.head _))))
  have e_lane : fb x 16 4 = lane := fb_eq _ _ _ (hf _ (.tail _ (.tail _ (.tail _ (.head _)))))
  unfold readSlot readS
  rw [ho, e_g, e_d, e_a, e_lane]
  rfl

theorem Coded.movSx (g : BitVec 4) (d : BitVec 5) (a : BitVec 6) : Coded.Statement (.movSx g d a) := by
  refine Coded.of_packed (k := .s) (top := 56) (n := 8) (op := 115) (fs := [⟨4, g, 52⟩, ⟨5, d, 43⟩, ⟨6, a, 34⟩]) rfl rfl rfl rfl rfl (by decide) (by decide) fun x ho hf => ?_
  have ho : fld x 56 8 = 115 := ho
  have e_g : fb x 52 4 = g := fb_eq _ _ _ (hf _ (.head _))
  have e_d : fb x 43 5 = d := fb_eq _ _ _ (hf _ (.tail _ (.head _)))
  have e_a : fb x 34 6 = a := fb_eq _ _ _ (hf _ (.tail _ (.tail _ (.head _))))
  unfold readSlot readS
  rw [ho, e_g, e_d, e_a]
  rfl

theorem Coded.movSq (g : BitVec 4) (d : BitVec 3) (a : BitVec 6) : Coded.Statement (.movSq g d a) := by
  refine Coded.of_packed (k := .s) (top := 56) (n := 8) (op := 116) (fs := [⟨4, g, 52⟩, ⟨3, d, 43⟩, ⟨6, a, 34⟩]) rfl rfl rfl rfl rfl (by decide) (by decide) fun x ho hf => ?_
  have ho : fld x 56 8 = 116 := ho
  have e_g : fb x 52 4 = g := fb_eq _ _ _ (hf _ (.head _))
  have e_d : fb x 43 3 = d := fb_eq _ _ _ (hf _ (.tail _ (.head _)))
  have e_a : fb x 34 6 = a := fb_eq _ _ _ (hf _ (.tail _ (.tail _ (.head _))))
  unfold readSlot readS
  rw [ho, e_g, e_d, e_a]
  rfl

theorem Coded.movSd (g d : BitVec 4) (a : BitVec 6) : Coded.Statement (.movSd g d a) := by
  refine Coded.of_packed (k := .s) (top := 56) (n := 8) (op := 117) (fs := [⟨4, g, 52⟩, ⟨4, d, 43⟩, ⟨6, a, 34⟩]) rfl rfl rfl rfl rfl (by decide) (by decide) fun x ho hf => ?_
  have ho : fld x 56 8 = 117 := ho
  have e_g : fb x 52 4 = g := fb_eq _ _ _ (hf _ (.head _))
  have e_d : fb x 43 4 = d := fb_eq _ _ _ (hf _ (.tail _ (.head _)))
  have e_a : fb x 34 6 = a := fb_eq _ _ _ (hf _ (.tail _ (.tail _ (.head _))))
  unfold readSlot readS
  rw [ho, e_g, e_d, e_a]
  rfl

theorem Coded.fadd (u : VUnit) (g : BitVec 4) (d a b : BitVec 9) (m : BitVec 4) (t : BitVec 5) : Coded.Statement (.fadd u g d a b m t) := by
  refine Coded.of_packed (k := (.v u)) (top := 56) (n := 8) (op := 1) (fs := [⟨4, g, 52⟩, ⟨9, d, 43⟩, ⟨9, a, 34⟩, ⟨9, b, 25⟩, ⟨4, m, 12⟩, ⟨5, t, 7⟩]) rfl rfl rfl rfl rfl (by decide) (by decide) fun x ho hf => ?_
  have ho : fld x 56 8 = 1 := ho
  have e_g : fb x 52 4 = g := fb_eq _ _ _ (hf _ (.head _))
  have e_d : fb x 43 9 = d := fb_eq _ _ _ (hf _ (.tail _ (.head _)))
  have e_a : fb x 34 9 = a := fb_eq _ _ _ (hf _ (.tail _ (.tail _ (.head _))))
  have e_b : fb x 25 9 = b := fb_eq _ _ _ (hf _ (.tail _ (.tail _ (.tail _ (.head _)))))
  have e_m : fb x 12 4 = m := fb_eq _ _ _ (hf _ (.tail _ (.tail _ (.tail _ (.tail _ (.head _))))))
  have e_t : fb x 7 5 = t := fb_eq _ _ _ (hf _ (.tail _ (.tail _ (.tail _ (.tail _ (.tail _ (.head _)))))))
  unfold readSlot readV
  rw [ho, e_g, e_d, e_a, e_b, e_m, e_t]
  rfl

theorem Coded.fsub (u : VUnit) (g : BitVec 4) (d a b : BitVec 9) (m : BitVec 4) (t : BitVec 5) : Coded.Statement (.fsub u g d a b m t) := by
  refine Coded.of_packed (k := (.v u)) (top := 56) (n := 8) (op := 2) (fs := [⟨4, g, 52⟩, ⟨9, d, 43⟩, ⟨9, a, 34⟩, ⟨9, b, 25⟩, ⟨4, m, 12⟩, ⟨5, t, 7⟩]) rfl rfl rfl rfl rfl (by decide) (by decide) fun x ho hf => ?_
  have ho : fld x 56 8 = 2 := ho
  have e_g : fb x 52 4 = g := fb_eq _ _ _ (hf _ (.head _))
  have e_d : fb x 43 9 = d := fb_eq _ _ _ (hf _ (.tail _ (.head _)))
  have e_a : fb x 34 9 = a := fb_eq _ _ _ (hf _ (.tail _ (.tail _ (.head _))))
  have e_b : fb x 25 9 = b := fb_eq _ _ _ (hf _ (.tail _ (.tail _ (.tail _ (.head _)))))
  have e_m : fb x 12 4 = m := fb_eq _ _ _ (hf _ (.tail _ (.tail _ (.tail _ (.tail _ (.head _))))))
  have e_t : fb x 7 5 = t := fb_eq _ _ _ (hf _ (.tail _ (.tail _ (.tail _ (.tail _ (.tail _ (.head _)))))))
  unfold readSlot readV
  rw [ho, e_g, e_d, e_a, e_b, e_m, e_t]
  rfl

theorem Coded.fmul (u : VUnit) (g : BitVec 4) (d a b : BitVec 9) (m : BitVec 4) (t : BitVec 5) : Coded.Statement (.fmul u g d a b m t) := by
  refine Coded.of_packed (k := (.v u)) (top := 56) (n := 8) (op := 3) (fs := [⟨4, g, 52⟩, ⟨9, d, 43⟩, ⟨9, a, 34⟩, ⟨9, b, 25⟩, ⟨4, m, 12⟩, ⟨5, t, 7⟩]) rfl rfl rfl rfl rfl (by decide) (by decide) fun x ho hf => ?_
  have ho : fld x 56 8 = 3 := ho
  have e_g : fb x 52 4 = g := fb_eq _ _ _ (hf _ (.head _))
  have e_d : fb x 43 9 = d := fb_eq _ _ _ (hf _ (.tail _ (.head _)))
  have e_a : fb x 34 9 = a := fb_eq _ _ _ (hf _ (.tail _ (.tail _ (.head _))))
  have e_b : fb x 25 9 = b := fb_eq _ _ _ (hf _ (.tail _ (.tail _ (.tail _ (.head _)))))
  have e_m : fb x 12 4 = m := fb_eq _ _ _ (hf _ (.tail _ (.tail _ (.tail _ (.tail _ (.head _))))))
  have e_t : fb x 7 5 = t := fb_eq _ _ _ (hf _ (.tail _ (.tail _ (.tail _ (.tail _ (.tail _ (.head _)))))))
  unfold readSlot readV
  rw [ho, e_g, e_d, e_a, e_b, e_m, e_t]
  rfl

theorem Coded.fmin (u : VUnit) (g : BitVec 4) (d a b : BitVec 9) (m : BitVec 4) (t : BitVec 5) : Coded.Statement (.fmin u g d a b m t) := by
  refine Coded.of_packed (k := (.v u)) (top := 56) (n := 8) (op := 7) (fs := [⟨4, g, 52⟩, ⟨9, d, 43⟩, ⟨9, a, 34⟩, ⟨9, b, 25⟩, ⟨4, m, 12⟩, ⟨5, t, 7⟩]) rfl rfl rfl rfl rfl (by decide) (by decide) fun x ho hf => ?_
  have ho : fld x 56 8 = 7 := ho
  have e_g : fb x 52 4 = g := fb_eq _ _ _ (hf _ (.head _))
  have e_d : fb x 43 9 = d := fb_eq _ _ _ (hf _ (.tail _ (.head _)))
  have e_a : fb x 34 9 = a := fb_eq _ _ _ (hf _ (.tail _ (.tail _ (.head _))))
  have e_b : fb x 25 9 = b := fb_eq _ _ _ (hf _ (.tail _ (.tail _ (.tail _ (.head _)))))
  have e_m : fb x 12 4 = m := fb_eq _ _ _ (hf _ (.tail _ (.tail _ (.tail _ (.tail _ (.head _))))))
  have e_t : fb x 7 5 = t := fb_eq _ _ _ (hf _ (.tail _ (.tail _ (.tail _ (.tail _ (.tail _ (.head _)))))))
  unfold readSlot readV
  rw [ho, e_g, e_d, e_a, e_b, e_m, e_t]
  rfl

theorem Coded.fmax (u : VUnit) (g : BitVec 4) (d a b : BitVec 9) (m : BitVec 4) (t : BitVec 5) : Coded.Statement (.fmax u g d a b m t) := by
  refine Coded.of_packed (k := (.v u)) (top := 56) (n := 8) (op := 8) (fs := [⟨4, g, 52⟩, ⟨9, d, 43⟩, ⟨9, a, 34⟩, ⟨9, b, 25⟩, ⟨4, m, 12⟩, ⟨5, t, 7⟩]) rfl rfl rfl rfl rfl (by decide) (by decide) fun x ho hf => ?_
  have ho : fld x 56 8 = 8 := ho
  have e_g : fb x 52 4 = g := fb_eq _ _ _ (hf _ (.head _))
  have e_d : fb x 43 9 = d := fb_eq _ _ _ (hf _ (.tail _ (.head _)))
  have e_a : fb x 34 9 = a := fb_eq _ _ _ (hf _ (.tail _ (.tail _ (.head _))))
  have e_b : fb x 25 9 = b := fb_eq _ _ _ (hf _ (.tail _ (.tail _ (.tail _ (.head _)))))
  have e_m : fb x 12 4 = m := fb_eq _ _ _ (hf _ (.tail _ (.tail _ (.tail _ (.tail _ (.head _))))))
  have e_t : fb x 7 5 = t := fb_eq _ _ _ (hf _ (.tail _ (.tail _ (.tail _ (.tail _ (.tail _ (.head _)))))))
  unfold readSlot readV
  rw [ho, e_g, e_d, e_a, e_b, e_m, e_t]
  rfl

theorem Coded.fdiv (u : VUnit) (g : BitVec 4) (d a b : BitVec 9) (m : BitVec 4) (t : BitVec 5) : Coded.Statement (.fdiv u g d a b m t) := by
  refine Coded.of_packed (k := (.v u)) (top := 56) (n := 8) (op := 11) (fs := [⟨4, g, 52⟩, ⟨9, d, 43⟩, ⟨9, a, 34⟩, ⟨9, b, 25⟩, ⟨4, m, 12⟩, ⟨5, t, 7⟩]) rfl rfl rfl rfl rfl (by decide) (by decide) fun x ho hf => ?_
  have ho : fld x 56 8 = 11 := ho
  have e_g : fb x 52 4 = g := fb_eq _ _ _ (hf _ (.head _))
  have e_d : fb x 43 9 = d := fb_eq _ _ _ (hf _ (.tail _ (.head _)))
  have e_a : fb x 34 9 = a := fb_eq _ _ _ (hf _ (.tail _ (.tail _ (.head _))))
  have e_b : fb x 25 9 = b := fb_eq _ _ _ (hf _ (.tail _ (.tail _ (.tail _ (.head _)))))
  have e_m : fb x 12 4 = m := fb_eq _ _ _ (hf _ (.tail _ (.tail _ (.tail _ (.tail _ (.head _))))))
  have e_t : fb x 7 5 = t := fb_eq _ _ _ (hf _ (.tail _ (.tail _ (.tail _ (.tail _ (.tail _ (.head _)))))))
  unfold readSlot readV
  rw [ho, e_g, e_d, e_a, e_b, e_m, e_t]
  rfl

theorem Coded.fscale (u : VUnit) (g : BitVec 4) (d a b : BitVec 9) (m : BitVec 4) (t : BitVec 5) : Coded.Statement (.fscale u g d a b m t) := by
  refine Coded.of_packed (k := (.v u)) (top := 56) (n := 8) (op := 19) (fs := [⟨4, g, 52⟩, ⟨9, d, 43⟩, ⟨9, a, 34⟩, ⟨9, b, 25⟩, ⟨4, m, 12⟩, ⟨5, t, 7⟩]) rfl rfl rfl rfl rfl (by decide) (by decide) fun x ho hf => ?_
  have ho : fld x 56 8 = 19 := ho
  have e_g : fb x 52 4 = g := fb_eq _ _ _ (hf _ (.head _))
  have e_d : fb x 43 9 = d := fb_eq _ _ _ (hf _ (.tail _ (.head _)))
  have e_a : fb x 34 9 = a := fb_eq _ _ _ (hf _ (.tail _ (.tail _ (.head _))))
  have e_b : fb x 25 9 = b := fb_eq _ _ _ (hf _ (.tail _ (.tail _ (.tail _ (.head _)))))
  have e_m : fb x 12 4 = m := fb_eq _ _ _ (hf _ (.tail _ (.tail _ (.tail _ (.tail _ (.head _))))))
  have e_t : fb x 7 5 = t := fb_eq _ _ _ (hf _ (.tail _ (.tail _ (.tail _ (.tail _ (.tail _ (.head _)))))))
  unfold readSlot readV
  rw [ho, e_g, e_d, e_a, e_b, e_m, e_t]
  rfl

theorem Coded.fma (u : VUnit) (g : BitVec 4) (d a b c : BitVec 9) (m : BitVec 4) (t : BitVec 5) : Coded.Statement (.fma u g d a b c m t) := by
  refine Coded.of_packed (k := (.v u)) (top := 56) (n := 8) (op := 4) (fs := [⟨4, g, 52⟩, ⟨9, d, 43⟩, ⟨9, a, 34⟩, ⟨9, b, 25⟩, ⟨9, c, 16⟩, ⟨4, m, 12⟩, ⟨5, t, 7⟩]) rfl rfl rfl rfl rfl (by decide) (by decide) fun x ho hf => ?_
  have ho : fld x 56 8 = 4 := ho
  have e_g : fb x 52 4 = g := fb_eq _ _ _ (hf _ (.head _))
  have e_d : fb x 43 9 = d := fb_eq _ _ _ (hf _ (.tail _ (.head _)))
  have e_a : fb x 34 9 = a := fb_eq _ _ _ (hf _ (.tail _ (.tail _ (.head _))))
  have e_b : fb x 25 9 = b := fb_eq _ _ _ (hf _ (.tail _ (.tail _ (.tail _ (.head _)))))
  have e_c : fb x 16 9 = c := fb_eq _ _ _ (hf _ (.tail _ (.tail _ (.tail _ (.tail _ (.head _))))))
  have e_m : fb x 12 4 = m := fb_eq _ _ _ (hf _ (.tail _ (.tail _ (.tail _ (.tail _ (.tail _ (.head _)))))))
  have e_t : fb x 7 5 = t := fb_eq _ _ _ (hf _ (.tail _ (.tail _ (.tail _ (.tail _ (.tail _ (.tail _ (.head _))))))))
  unfold readSlot readV
  rw [ho, e_g, e_d, e_a, e_b, e_c, e_m, e_t]
  rfl

theorem Coded.fms (u : VUnit) (g : BitVec 4) (d a b c : BitVec 9) (m : BitVec 4) (t : BitVec 5) : Coded.Statement (.fms u g d a b c m t) := by
  refine Coded.of_packed (k := (.v u)) (top := 56) (n := 8) (op := 5) (fs := [⟨4, g, 52⟩, ⟨9, d, 43⟩, ⟨9, a, 34⟩, ⟨9, b, 25⟩, ⟨9, c, 16⟩, ⟨4, m, 12⟩, ⟨5, t, 7⟩]) rfl rfl rfl rfl rfl (by decide) (by decide) fun x ho hf => ?_
  have ho : fld x 56 8 = 5 := ho
  have e_g : fb x 52 4 = g := fb_eq _ _ _ (hf _ (.head _))
  have e_d : fb x 43 9 = d := fb_eq _ _ _ (hf _ (.tail _ (.head _)))
  have e_a : fb x 34 9 = a := fb_eq _ _ _ (hf _ (.tail _ (.tail _ (.head _))))
  have e_b : fb x 25 9 = b := fb_eq _ _ _ (hf _ (.tail _ (.tail _ (.tail _ (.head _)))))
  have e_c : fb x 16 9 = c := fb_eq _ _ _ (hf _ (.tail _ (.tail _ (.tail _ (.tail _ (.head _))))))
  have e_m : fb x 12 4 = m := fb_eq _ _ _ (hf _ (.tail _ (.tail _ (.tail _ (.tail _ (.tail _ (.head _)))))))
  have e_t : fb x 7 5 = t := fb_eq _ _ _ (hf _ (.tail _ (.tail _ (.tail _ (.tail _ (.tail _ (.tail _ (.head _))))))))
  unfold readSlot readV
  rw [ho, e_g, e_d, e_a, e_b, e_c, e_m, e_t]
  rfl

theorem Coded.fnma (u : VUnit) (g : BitVec 4) (d a b c : BitVec 9) (m : BitVec 4) (t : BitVec 5) : Coded.Statement (.fnma u g d a b c m t) := by
  refine Coded.of_packed (k := (.v u)) (top := 56) (n := 8) (op := 6) (fs := [⟨4, g, 52⟩, ⟨9, d, 43⟩, ⟨9, a, 34⟩, ⟨9, b, 25⟩, ⟨9, c, 16⟩, ⟨4, m, 12⟩, ⟨5, t, 7⟩]) rfl rfl rfl rfl rfl (by decide) (by decide) fun x ho hf => ?_
  have ho : fld x 56 8 = 6 := ho
  have e_g : fb x 52 4 = g := fb_eq _ _ _ (hf _ (.head _))
  have e_d : fb x 43 9 = d := fb_eq _ _ _ (hf _ (.tail _ (.head _)))
  have e_a : fb x 34 9 = a := fb_eq _ _ _ (hf _ (.tail _ (.tail _ (.head _))))
  have e_b : fb x 25 9 = b := fb_eq _ _ _ (hf _ (.tail _ (.tail _ (.tail _ (.head _)))))
  have e_c : fb x 16 9 = c := fb_eq _ _ _ (hf _ (.tail _ (.tail _ (.tail _ (.tail _ (.head _))))))
  have e_m : fb x 12 4 = m := fb_eq _ _ _ (hf _ (.tail _ (.tail _ (.tail _ (.tail _ (.tail _ (.head _)))))))
  have e_t : fb x 7 5 = t := fb_eq _ _ _ (hf _ (.tail _ (.tail _ (.tail _ (.tail _ (.tail _ (.tail _ (.head _))))))))
  unfold readSlot readV
  rw [ho, e_g, e_d, e_a, e_b, e_c, e_m, e_t]
  rfl

theorem Coded.fabs (u : VUnit) (g : BitVec 4) (d a : BitVec 9) (m : BitVec 4) (t : BitVec 5) : Coded.Statement (.fabs u g d a m t) := by
  refine Coded.of_packed (k := (.v u)) (top := 56) (n := 8) (op := 9) (fs := [⟨4, g, 52⟩, ⟨9, d, 43⟩, ⟨9, a, 34⟩, ⟨4, m, 12⟩, ⟨5, t, 7⟩]) rfl rfl rfl rfl rfl (by decide) (by decide) fun x ho hf => ?_
  have ho : fld x 56 8 = 9 := ho
  have e_g : fb x 52 4 = g := fb_eq _ _ _ (hf _ (.head _))
  have e_d : fb x 43 9 = d := fb_eq _ _ _ (hf _ (.tail _ (.head _)))
  have e_a : fb x 34 9 = a := fb_eq _ _ _ (hf _ (.tail _ (.tail _ (.head _))))
  have e_m : fb x 12 4 = m := fb_eq _ _ _ (hf _ (.tail _ (.tail _ (.tail _ (.head _)))))
  have e_t : fb x 7 5 = t := fb_eq _ _ _ (hf _ (.tail _ (.tail _ (.tail _ (.tail _ (.head _))))))
  unfold readSlot readV
  rw [ho, e_g, e_d, e_a, e_m, e_t]
  rfl

theorem Coded.fneg (u : VUnit) (g : BitVec 4) (d a : BitVec 9) (m : BitVec 4) (t : BitVec 5) : Coded.Statement (.fneg u g d a m t) := by
  refine Coded.of_packed (k := (.v u)) (top := 56) (n := 8) (op := 10) (fs := [⟨4, g, 52⟩, ⟨9, d, 43⟩, ⟨9, a, 34⟩, ⟨4, m, 12⟩, ⟨5, t, 7⟩]) rfl rfl rfl rfl rfl (by decide) (by decide) fun x ho hf => ?_
  have ho : fld x 56 8 = 10 := ho
  have e_g : fb x 52 4 = g := fb_eq _ _ _ (hf _ (.head _))
  have e_d : fb x 43 9 = d := fb_eq _ _ _ (hf _ (.tail _ (.head _)))
  have e_a : fb x 34 9 = a := fb_eq _ _ _ (hf _ (.tail _ (.tail _ (.head _))))
  have e_m : fb x 12 4 = m := fb_eq _ _ _ (hf _ (.tail _ (.tail _ (.tail _ (.head _)))))
  have e_t : fb x 7 5 = t := fb_eq _ _ _ (hf _ (.tail _ (.tail _ (.tail _ (.tail _ (.head _))))))
  unfold readSlot readV
  rw [ho, e_g, e_d, e_a, e_m, e_t]
  rfl

theorem Coded.fsqrt (u : VUnit) (g : BitVec 4) (d a : BitVec 9) (m : BitVec 4) (t : BitVec 5) : Coded.Statement (.fsqrt u g d a m t) := by
  refine Coded.of_packed (k := (.v u)) (top := 56) (n := 8) (op := 12) (fs := [⟨4, g, 52⟩, ⟨9, d, 43⟩, ⟨9, a, 34⟩, ⟨4, m, 12⟩, ⟨5, t, 7⟩]) rfl rfl rfl rfl rfl (by decide) (by decide) fun x ho hf => ?_
  have ho : fld x 56 8 = 12 := ho
  have e_g : fb x 52 4 = g := fb_eq _ _ _ (hf _ (.head _))
  have e_d : fb x 43 9 = d := fb_eq _ _ _ (hf _ (.tail _ (.head _)))
  have e_a : fb x 34 9 = a := fb_eq _ _ _ (hf _ (.tail _ (.tail _ (.head _))))
  have e_m : fb x 12 4 = m := fb_eq _ _ _ (hf _ (.tail _ (.tail _ (.tail _ (.head _)))))
  have e_t : fb x 7 5 = t := fb_eq _ _ _ (hf _ (.tail _ (.tail _ (.tail _ (.tail _ (.head _))))))
  unfold readSlot readV
  rw [ho, e_g, e_d, e_a, e_m, e_t]
  rfl

theorem Coded.frcp (u : VUnit) (g : BitVec 4) (d a : BitVec 9) (m : BitVec 4) (t : BitVec 5) : Coded.Statement (.frcp u g d a m t) := by
  refine Coded.of_packed (k := (.v u)) (top := 56) (n := 8) (op := 13) (fs := [⟨4, g, 52⟩, ⟨9, d, 43⟩, ⟨9, a, 34⟩, ⟨4, m, 12⟩, ⟨5, t, 7⟩]) rfl rfl rfl rfl rfl (by decide) (by decide) fun x ho hf => ?_
  have ho : fld x 56 8 = 13 := ho
  have e_g : fb x 52 4 = g := fb_eq _ _ _ (hf _ (.head _))
  have e_d : fb x 43 9 = d := fb_eq _ _ _ (hf _ (.tail _ (.head _)))
  have e_a : fb x 34 9 = a := fb_eq _ _ _ (hf _ (.tail _ (.tail _ (.head _))))
  have e_m : fb x 12 4 = m := fb_eq _ _ _ (hf _ (.tail _ (.tail _ (.tail _ (.head _)))))
  have e_t : fb x 7 5 = t := fb_eq _ _ _ (hf _ (.tail _ (.tail _ (.tail _ (.tail _ (.head _))))))
  unfold readSlot readV
  rw [ho, e_g, e_d, e_a, e_m, e_t]
  rfl

theorem Coded.frsq (u : VUnit) (g : BitVec 4) (d a : BitVec 9) (m : BitVec 4) (t : BitVec 5) : Coded.Statement (.frsq u g d a m t) := by
  refine Coded.of_packed (k := (.v u)) (top := 56) (n := 8) (op := 14) (fs := [⟨4, g, 52⟩, ⟨9, d, 43⟩, ⟨9, a, 34⟩, ⟨4, m, 12⟩, ⟨5, t, 7⟩]) rfl rfl rfl rfl rfl (by decide) (by decide) fun x ho hf => ?_
  have ho : fld x 56 8 = 14 := ho
  have e_g : fb x 52 4 = g := fb_eq _ _ _ (hf _ (.head _))
  have e_d : fb x 43 9 = d := fb_eq _ _ _ (hf _ (.tail _ (.head _)))
  have e_a : fb x 34 9 = a := fb_eq _ _ _ (hf _ (.tail _ (.tail _ (.head _))))
  have e_m : fb x 12 4 = m := fb_eq _ _ _ (hf _ (.tail _ (.tail _ (.tail _ (.head _)))))
  have e_t : fb x 7 5 = t := fb_eq _ _ _ (hf _ (.tail _ (.tail _ (.tail _ (.tail _ (.head _))))))
  unfold readSlot readV
  rw [ho, e_g, e_d, e_a, e_m, e_t]
  rfl

theorem Coded.fexp2 (u : VUnit) (g : BitVec 4) (d a : BitVec 9) (m : BitVec 4) (t : BitVec 5) : Coded.Statement (.fexp2 u g d a m t) := by
  refine Coded.of_packed (k := (.v u)) (top := 56) (n := 8) (op := 15) (fs := [⟨4, g, 52⟩, ⟨9, d, 43⟩, ⟨9, a, 34⟩, ⟨4, m, 12⟩, ⟨5, t, 7⟩]) rfl rfl rfl rfl rfl (by decide) (by decide) fun x ho hf => ?_
  have ho : fld x 56 8 = 15 := ho
  have e_g : fb x 52 4 = g := fb_eq _ _ _ (hf _ (.head _))
  have e_d : fb x 43 9 = d := fb_eq _ _ _ (hf _ (.tail _ (.head _)))
  have e_a : fb x 34 9 = a := fb_eq _ _ _ (hf _ (.tail _ (.tail _ (.head _))))
  have e_m : fb x 12 4 = m := fb_eq _ _ _ (hf _ (.tail _ (.tail _ (.tail _ (.head _)))))
  have e_t : fb x 7 5 = t := fb_eq _ _ _ (hf _ (.tail _ (.tail _ (.tail _ (.tail _ (.head _))))))
  unfold readSlot readV
  rw [ho, e_g, e_d, e_a, e_m, e_t]
  rfl

theorem Coded.flog2 (u : VUnit) (g : BitVec 4) (d a : BitVec 9) (m : BitVec 4) (t : BitVec 5) : Coded.Statement (.flog2 u g d a m t) := by
  refine Coded.of_packed (k := (.v u)) (top := 56) (n := 8) (op := 16) (fs := [⟨4, g, 52⟩, ⟨9, d, 43⟩, ⟨9, a, 34⟩, ⟨4, m, 12⟩, ⟨5, t, 7⟩]) rfl rfl rfl rfl rfl (by decide) (by decide) fun x ho hf => ?_
  have ho : fld x 56 8 = 16 := ho
  have e_g : fb x 52 4 = g := fb_eq _ _ _ (hf _ (.head _))
  have e_d : fb x 43 9 = d := fb_eq _ _ _ (hf _ (.tail _ (.head _)))
  have e_a : fb x 34 9 = a := fb_eq _ _ _ (hf _ (.tail _ (.tail _ (.head _))))
  have e_m : fb x 12 4 = m := fb_eq _ _ _ (hf _ (.tail _ (.tail _ (.tail _ (.head _)))))
  have e_t : fb x 7 5 = t := fb_eq _ _ _ (hf _ (.tail _ (.tail _ (.tail _ (.tail _ (.head _))))))
  unfold readSlot readV
  rw [ho, e_g, e_d, e_a, e_m, e_t]
  rfl

theorem Coded.fcvt (u : VUnit) (g : BitVec 4) (d a : BitVec 9) (st : BitVec 5) (part : BitVec 9) (m : BitVec 4) (t : BitVec 5) : Coded.Statement (.fcvt u g d a st part m t) := by
  refine Coded.of_packed (k := (.v u)) (top := 56) (n := 8) (op := 17) (fs := [⟨4, g, 52⟩, ⟨9, d, 43⟩, ⟨9, a, 34⟩, ⟨5, st, 25⟩, ⟨9, part, 16⟩, ⟨4, m, 12⟩, ⟨5, t, 7⟩]) rfl rfl rfl rfl rfl (by decide) (by decide) fun x ho hf => ?_
  have ho : fld x 56 8 = 17 := ho
  have e_g : fb x 52 4 = g := fb_eq _ _ _ (hf _ (.head _))
  have e_d : fb x 43 9 = d := fb_eq _ _ _ (hf _ (.tail _ (.head _)))
  have e_a : fb x 34 9 = a := fb_eq _ _ _ (hf _ (.tail _ (.tail _ (.head _))))
  have e_st : fb x 25 5 = st := fb_eq _ _ _ (hf _ (.tail _ (.tail _ (.tail _ (.head _)))))
  have e_part : fb x 16 9 = part := fb_eq _ _ _ (hf _ (.tail _ (.tail _ (.tail _ (.tail _ (.head _))))))
  have e_m : fb x 12 4 = m := fb_eq _ _ _ (hf _ (.tail _ (.tail _ (.tail _ (.tail _ (.tail _ (.head _)))))))
  have e_t : fb x 7 5 = t := fb_eq _ _ _ (hf _ (.tail _ (.tail _ (.tail _ (.tail _ (.tail _ (.tail _ (.head _))))))))
  unfold readSlot readV
  rw [ho, e_g, e_d, e_a, e_st, e_part, e_m, e_t]
  rfl

theorem Coded.fround (u : VUnit) (g : BitVec 4) (d a : BitVec 9) (st : BitVec 5) (part : BitVec 9) (m : BitVec 4) (t : BitVec 5) (md : BitVec 3) : Coded.Statement (.fround u g d a st part m t md) := by
  refine Coded.of_packed (k := (.v u)) (top := 56) (n := 8) (op := 18) (fs := [⟨4, g, 52⟩, ⟨9, d, 43⟩, ⟨9, a, 34⟩, ⟨5, st, 25⟩, ⟨9, part, 16⟩, ⟨4, m, 12⟩, ⟨5, t, 7⟩, ⟨3, md, 4⟩]) rfl rfl rfl rfl rfl (by decide) (by decide) fun x ho hf => ?_
  have ho : fld x 56 8 = 18 := ho
  have e_g : fb x 52 4 = g := fb_eq _ _ _ (hf _ (.head _))
  have e_d : fb x 43 9 = d := fb_eq _ _ _ (hf _ (.tail _ (.head _)))
  have e_a : fb x 34 9 = a := fb_eq _ _ _ (hf _ (.tail _ (.tail _ (.head _))))
  have e_st : fb x 25 5 = st := fb_eq _ _ _ (hf _ (.tail _ (.tail _ (.tail _ (.head _)))))
  have e_part : fb x 16 9 = part := fb_eq _ _ _ (hf _ (.tail _ (.tail _ (.tail _ (.tail _ (.head _))))))
  have e_m : fb x 12 4 = m := fb_eq _ _ _ (hf _ (.tail _ (.tail _ (.tail _ (.tail _ (.tail _ (.head _)))))))
  have e_t : fb x 7 5 = t := fb_eq _ _ _ (hf _ (.tail _ (.tail _ (.tail _ (.tail _ (.tail _ (.tail _ (.head _))))))))
  have e_md : fb x 4 3 = md := fb_eq _ _ _ (hf _ (.tail _ (.tail _ (.tail _ (.tail _ (.tail _ (.tail _ (.tail _ (.head _)))))))))
  unfold readSlot readV
  rw [ho, e_g, e_d, e_a, e_st, e_part, e_m, e_t, e_md]
  rfl

theorem Coded.fclass (u : VUnit) (g md : BitVec 4) (a cls : BitVec 9) (m : BitVec 4) (t : BitVec 5) (q : BitVec 3) : Coded.Statement (.fclass u g md a cls m t q) := by
  refine Coded.of_packed (k := (.v u)) (top := 56) (n := 8) (op := 20) (fs := [⟨4, g, 52⟩, ⟨4, md, 43⟩, ⟨9, a, 34⟩, ⟨9, cls, 16⟩, ⟨4, m, 12⟩, ⟨5, t, 7⟩, ⟨3, q, 4⟩]) rfl rfl rfl rfl rfl (by decide) (by decide) fun x ho hf => ?_
  have ho : fld x 56 8 = 20 := ho
  have e_g : fb x 52 4 = g := fb_eq _ _ _ (hf _ (.head _))
  have e_md : fb x 43 4 = md := fb_eq _ _ _ (hf _ (.tail _ (.head _)))
  have e_a : fb x 34 9 = a := fb_eq _ _ _ (hf _ (.tail _ (.tail _ (.head _))))
  have e_cls : fb x 16 9 = cls := fb_eq _ _ _ (hf _ (.tail _ (.tail _ (.tail _ (.head _)))))
  have e_m : fb x 12 4 = m := fb_eq _ _ _ (hf _ (.tail _ (.tail _ (.tail _ (.tail _ (.head _))))))
  have e_t : fb x 7 5 = t := fb_eq _ _ _ (hf _ (.tail _ (.tail _ (.tail _ (.tail _ (.tail _ (.head _)))))))
  have e_q : fb x 4 3 = q := fb_eq _ _ _ (hf _ (.tail _ (.tail _ (.tail _ (.tail _ (.tail _ (.tail _ (.head _))))))))
  unfold readSlot readV
  rw [ho, e_g, e_md, e_a, e_cls, e_m, e_t, e_q]
  rfl

theorem Coded.fcmp (u : VUnit) (g md : BitVec 4) (a b : BitVec 9) (m : BitVec 4) (t : BitVec 5) (cond : BitVec 3) : Coded.Statement (.fcmp u g md a b m t cond) := by
  refine Coded.of_packed (k := (.v u)) (top := 56) (n := 8) (op := 21) (fs := [⟨4, g, 52⟩, ⟨4, md, 43⟩, ⟨9, a, 34⟩, ⟨9, b, 25⟩, ⟨4, m, 12⟩, ⟨5, t, 7⟩, ⟨3, cond, 4⟩]) rfl rfl rfl rfl rfl (by decide) (by decide) fun x ho hf => ?_
  have ho : fld x 56 8 = 21 := ho
  have e_g : fb x 52 4 = g := fb_eq _ _ _ (hf _ (.head _))
  have e_md : fb x 43 4 = md := fb_eq _ _ _ (hf _ (.tail _ (.head _)))
  have e_a : fb x 34 9 = a := fb_eq _ _ _ (hf _ (.tail _ (.tail _ (.head _))))
  have e_b : fb x 25 9 = b := fb_eq _ _ _ (hf _ (.tail _ (.tail _ (.tail _ (.head _)))))
  have e_m : fb x 12 4 = m := fb_eq _ _ _ (hf _ (.tail _ (.tail _ (.tail _ (.tail _ (.head _))))))
  have e_t : fb x 7 5 = t := fb_eq _ _ _ (hf _ (.tail _ (.tail _ (.tail _ (.tail _ (.tail _ (.head _)))))))
  have e_cond : fb x 4 3 = cond := fb_eq _ _ _ (hf _ (.tail _ (.tail _ (.tail _ (.tail _ (.tail _ (.tail _ (.head _))))))))
  unfold readSlot readV
  rw [ho, e_g, e_md, e_a, e_b, e_m, e_t, e_cond]
  rfl

theorem Coded.fredAdd (u : VUnit) (g : BitVec 4) (d a : BitVec 9) (m : BitVec 4) (t : BitVec 5) : Coded.Statement (.fredAdd u g d a m t) := by
  refine Coded.of_packed (k := (.v u)) (top := 56) (n := 8) (op := 22) (fs := [⟨4, g, 52⟩, ⟨9, d, 43⟩, ⟨9, a, 34⟩, ⟨4, m, 12⟩, ⟨5, t, 7⟩]) rfl rfl rfl rfl rfl (by decide) (by decide) fun x ho hf => ?_
  have ho : fld x 56 8 = 22 := ho
  have e_g : fb x 52 4 = g := fb_eq _ _ _ (hf _ (.head _))
  have e_d : fb x 43 9 = d := fb_eq _ _ _ (hf _ (.tail _ (.head _)))
  have e_a : fb x 34 9 = a := fb_eq _ _ _ (hf _ (.tail _ (.tail _ (.head _))))
  have e_m : fb x 12 4 = m := fb_eq _ _ _ (hf _ (.tail _ (.tail _ (.tail _ (.head _)))))
  have e_t : fb x 7 5 = t := fb_eq _ _ _ (hf _ (.tail _ (.tail _ (.tail _ (.tail _ (.head _))))))
  unfold readSlot readV
  rw [ho, e_g, e_d, e_a, e_m, e_t]
  rfl

theorem Coded.fredMax (u : VUnit) (g : BitVec 4) (d a : BitVec 9) (m : BitVec 4) (t : BitVec 5) : Coded.Statement (.fredMax u g d a m t) := by
  refine Coded.of_packed (k := (.v u)) (top := 56) (n := 8) (op := 23) (fs := [⟨4, g, 52⟩, ⟨9, d, 43⟩, ⟨9, a, 34⟩, ⟨4, m, 12⟩, ⟨5, t, 7⟩]) rfl rfl rfl rfl rfl (by decide) (by decide) fun x ho hf => ?_
  have ho : fld x 56 8 = 23 := ho
  have e_g : fb x 52 4 = g := fb_eq _ _ _ (hf _ (.head _))
  have e_d : fb x 43 9 = d := fb_eq _ _ _ (hf _ (.tail _ (.head _)))
  have e_a : fb x 34 9 = a := fb_eq _ _ _ (hf _ (.tail _ (.tail _ (.head _))))
  have e_m : fb x 12 4 = m := fb_eq _ _ _ (hf _ (.tail _ (.tail _ (.tail _ (.head _)))))
  have e_t : fb x 7 5 = t := fb_eq _ _ _ (hf _ (.tail _ (.tail _ (.tail _ (.tail _ (.head _))))))
  unfold readSlot readV
  rw [ho, e_g, e_d, e_a, e_m, e_t]
  rfl

theorem Coded.fredMin (u : VUnit) (g : BitVec 4) (d a : BitVec 9) (m : BitVec 4) (t : BitVec 5) : Coded.Statement (.fredMin u g d a m t) := by
  refine Coded.of_packed (k := (.v u)) (top := 56) (n := 8) (op := 24) (fs := [⟨4, g, 52⟩, ⟨9, d, 43⟩, ⟨9, a, 34⟩, ⟨4, m, 12⟩, ⟨5, t, 7⟩]) rfl rfl rfl rfl rfl (by decide) (by decide) fun x ho hf => ?_
  have ho : fld x 56 8 = 24 := ho
  have e_g : fb x 52 4 = g := fb_eq _ _ _ (hf _ (.head _))
  have e_d : fb x 43 9 = d := fb_eq _ _ _ (hf _ (.tail _ (.head _)))
  have e_a : fb x 34 9 = a := fb_eq _ _ _ (hf _ (.tail _ (.tail _ (.head _))))
  have e_m : fb x 12 4 = m := fb_eq _ _ _ (hf _ (.tail _ (.tail _ (.tail _ (.head _)))))
  have e_t : fb x 7 5 = t := fb_eq _ _ _ (hf _ (.tail _ (.tail _ (.tail _ (.tail _ (.head _))))))
  unfold readSlot readV
  rw [ho, e_g, e_d, e_a, e_m, e_t]
  rfl

theorem Coded.bscale (u : VUnit) (g : BitVec 4) (d a : BitVec 9) (m : BitVec 4) (t : BitVec 5) (sb : BitVec 3) : Coded.Statement (.bscale u g d a m t sb) := by
  refine Coded.of_packed (k := (.v u)) (top := 56) (n := 8) (op := 25) (fs := [⟨4, g, 52⟩, ⟨9, d, 43⟩, ⟨9, a, 34⟩, ⟨4, m, 12⟩, ⟨5, t, 7⟩, ⟨3, sb, 4⟩]) rfl rfl rfl rfl rfl (by decide) (by decide) fun x ho hf => ?_
  have ho : fld x 56 8 = 25 := ho
  have e_g : fb x 52 4 = g := fb_eq _ _ _ (hf _ (.head _))
  have e_d : fb x 43 9 = d := fb_eq _ _ _ (hf _ (.tail _ (.head _)))
  have e_a : fb x 34 9 = a := fb_eq _ _ _ (hf _ (.tail _ (.tail _ (.head _))))
  have e_m : fb x 12 4 = m := fb_eq _ _ _ (hf _ (.tail _ (.tail _ (.tail _ (.head _)))))
  have e_t : fb x 7 5 = t := fb_eq _ _ _ (hf _ (.tail _ (.tail _ (.tail _ (.tail _ (.head _))))))
  have e_sb : fb x 4 3 = sb := fb_eq _ _ _ (hf _ (.tail _ (.tail _ (.tail _ (.tail _ (.tail _ (.head _)))))))
  unfold readSlot readV
  rw [ho, e_g, e_d, e_a, e_m, e_t, e_sb]
  rfl

theorem Coded.iadd (u : VUnit) (g : BitVec 4) (d a b : BitVec 9) (m : BitVec 4) (t : BitVec 5) : Coded.Statement (.iadd u g d a b m t) := by
  refine Coded.of_packed (k := (.v u)) (top := 56) (n := 8) (op := 32) (fs := [⟨4, g, 52⟩, ⟨9, d, 43⟩, ⟨9, a, 34⟩, ⟨9, b, 25⟩, ⟨4, m, 12⟩, ⟨5, t, 7⟩]) rfl rfl rfl rfl rfl (by decide) (by decide) fun x ho hf => ?_
  have ho : fld x 56 8 = 32 := ho
  have e_g : fb x 52 4 = g := fb_eq _ _ _ (hf _ (.head _))
  have e_d : fb x 43 9 = d := fb_eq _ _ _ (hf _ (.tail _ (.head _)))
  have e_a : fb x 34 9 = a := fb_eq _ _ _ (hf _ (.tail _ (.tail _ (.head _))))
  have e_b : fb x 25 9 = b := fb_eq _ _ _ (hf _ (.tail _ (.tail _ (.tail _ (.head _)))))
  have e_m : fb x 12 4 = m := fb_eq _ _ _ (hf _ (.tail _ (.tail _ (.tail _ (.tail _ (.head _))))))
  have e_t : fb x 7 5 = t := fb_eq _ _ _ (hf _ (.tail _ (.tail _ (.tail _ (.tail _ (.tail _ (.head _)))))))
  unfold readSlot readV
  rw [ho, e_g, e_d, e_a, e_b, e_m, e_t]
  rfl

theorem Coded.isub (u : VUnit) (g : BitVec 4) (d a b : BitVec 9) (m : BitVec 4) (t : BitVec 5) : Coded.Statement (.isub u g d a b m t) := by
  refine Coded.of_packed (k := (.v u)) (top := 56) (n := 8) (op := 33) (fs := [⟨4, g, 52⟩, ⟨9, d, 43⟩, ⟨9, a, 34⟩, ⟨9, b, 25⟩, ⟨4, m, 12⟩, ⟨5, t, 7⟩]) rfl rfl rfl rfl rfl (by decide) (by decide) fun x ho hf => ?_
  have ho : fld x 56 8 = 33 := ho
  have e_g : fb x 52 4 = g := fb_eq _ _ _ (hf _ (.head _))
  have e_d : fb x 43 9 = d := fb_eq _ _ _ (hf _ (.tail _ (.head _)))
  have e_a : fb x 34 9 = a := fb_eq _ _ _ (hf _ (.tail _ (.tail _ (.head _))))
  have e_b : fb x 25 9 = b := fb_eq _ _ _ (hf _ (.tail _ (.tail _ (.tail _ (.head _)))))
  have e_m : fb x 12 4 = m := fb_eq _ _ _ (hf _ (.tail _ (.tail _ (.tail _ (.tail _ (.head _))))))
  have e_t : fb x 7 5 = t := fb_eq _ _ _ (hf _ (.tail _ (.tail _ (.tail _ (.tail _ (.tail _ (.head _)))))))
  unfold readSlot readV
  rw [ho, e_g, e_d, e_a, e_b, e_m, e_t]
  rfl

theorem Coded.imul (u : VUnit) (g : BitVec 4) (d a b : BitVec 9) (m : BitVec 4) (t : BitVec 5) : Coded.Statement (.imul u g d a b m t) := by
  refine Coded.of_packed (k := (.v u)) (top := 56) (n := 8) (op := 34) (fs := [⟨4, g, 52⟩, ⟨9, d, 43⟩, ⟨9, a, 34⟩, ⟨9, b, 25⟩, ⟨4, m, 12⟩, ⟨5, t, 7⟩]) rfl rfl rfl rfl rfl (by decide) (by decide) fun x ho hf => ?_
  have ho : fld x 56 8 = 34 := ho
  have e_g : fb x 52 4 = g := fb_eq _ _ _ (hf _ (.head _))
  have e_d : fb x 43 9 = d := fb_eq _ _ _ (hf _ (.tail _ (.head _)))
  have e_a : fb x 34 9 = a := fb_eq _ _ _ (hf _ (.tail _ (.tail _ (.head _))))
  have e_b : fb x 25 9 = b := fb_eq _ _ _ (hf _ (.tail _ (.tail _ (.tail _ (.head _)))))
  have e_m : fb x 12 4 = m := fb_eq _ _ _ (hf _ (.tail _ (.tail _ (.tail _ (.tail _ (.head _))))))
  have e_t : fb x 7 5 = t := fb_eq _ _ _ (hf _ (.tail _ (.tail _ (.tail _ (.tail _ (.tail _ (.head _)))))))
  unfold readSlot readV
  rw [ho, e_g, e_d, e_a, e_b, e_m, e_t]
  rfl

theorem Coded.imulh (u : VUnit) (g : BitVec 4) (d a b : BitVec 9) (m : BitVec 4) (t : BitVec 5) : Coded.Statement (.imulh u g d a b m t) := by
  refine Coded.of_packed (k := (.v u)) (top := 56) (n := 8) (op := 35) (fs := [⟨4, g, 52⟩, ⟨9, d, 43⟩, ⟨9, a, 34⟩, ⟨9, b, 25⟩, ⟨4, m, 12⟩, ⟨5, t, 7⟩]) rfl rfl rfl rfl rfl (by decide) (by decide) fun x ho hf => ?_
  have ho : fld x 56 8 = 35 := ho
  have e_g : fb x 52 4 = g := fb_eq _ _ _ (hf _ (.head _))
  have e_d : fb x 43 9 = d := fb_eq _ _ _ (hf _ (.tail _ (.head _)))
  have e_a : fb x 34 9 = a := fb_eq _ _ _ (hf _ (.tail _ (.tail _ (.head _))))
  have e_b : fb x 25 9 = b := fb_eq _ _ _ (hf _ (.tail _ (.tail _ (.tail _ (.head _)))))
  have e_m : fb x 12 4 = m := fb_eq _ _ _ (hf _ (.tail _ (.tail _ (.tail _ (.tail _ (.head _))))))
  have e_t : fb x 7 5 = t := fb_eq _ _ _ (hf _ (.tail _ (.tail _ (.tail _ (.tail _ (.tail _ (.head _)))))))
  unfold readSlot readV
  rw [ho, e_g, e_d, e_a, e_b, e_m, e_t]
  rfl

theorem Coded.iand (u : VUnit) (g : BitVec 4) (d a b : BitVec 9) (m : BitVec 4) (t : BitVec 5) : Coded.Statement (.iand u g d a b m t) := by
  refine Coded.of_packed (k := (.v u)) (top := 56) (n := 8) (op := 36) (fs := [⟨4, g, 52⟩, ⟨9, d, 43⟩, ⟨9, a, 34⟩, ⟨9, b, 25⟩, ⟨4, m, 12⟩, ⟨5, t, 7⟩]) rfl rfl rfl rfl rfl (by decide) (by decide) fun x ho hf => ?_
  have ho : fld x 56 8 = 36 := ho
  have e_g : fb x 52 4 = g := fb_eq _ _ _ (hf _ (.head _))
  have e_d : fb x 43 9 = d := fb_eq _ _ _ (hf _ (.tail _ (.head _)))
  have e_a : fb x 34 9 = a := fb_eq _ _ _ (hf _ (.tail _ (.tail _ (.head _))))
  have e_b : fb x 25 9 = b := fb_eq _ _ _ (hf _ (.tail _ (.tail _ (.tail _ (.head _)))))
  have e_m : fb x 12 4 = m := fb_eq _ _ _ (hf _ (.tail _ (.tail _ (.tail _ (.tail _ (.head _))))))
  have e_t : fb x 7 5 = t := fb_eq _ _ _ (hf _ (.tail _ (.tail _ (.tail _ (.tail _ (.tail _ (.head _)))))))
  unfold readSlot readV
  rw [ho, e_g, e_d, e_a, e_b, e_m, e_t]
  rfl

theorem Coded.ior (u : VUnit) (g : BitVec 4) (d a b : BitVec 9) (m : BitVec 4) (t : BitVec 5) : Coded.Statement (.ior u g d a b m t) := by
  refine Coded.of_packed (k := (.v u)) (top := 56) (n := 8) (op := 37) (fs := [⟨4, g, 52⟩, ⟨9, d, 43⟩, ⟨9, a, 34⟩, ⟨9, b, 25⟩, ⟨4, m, 12⟩, ⟨5, t, 7⟩]) rfl rfl rfl rfl rfl (by decide) (by decide) fun x ho hf => ?_
  have ho : fld x 56 8 = 37 := ho
  have e_g : fb x 52 4 = g := fb_eq _ _ _ (hf _ (.head _))
  have e_d : fb x 43 9 = d := fb_eq _ _ _ (hf _ (.tail _ (.head _)))
  have e_a : fb x 34 9 = a := fb_eq _ _ _ (hf _ (.tail _ (.tail _ (.head _))))
  have e_b : fb x 25 9 = b := fb_eq _ _ _ (hf _ (.tail _ (.tail _ (.tail _ (.head _)))))
  have e_m : fb x 12 4 = m := fb_eq _ _ _ (hf _ (.tail _ (.tail _ (.tail _ (.tail _ (.head _))))))
  have e_t : fb x 7 5 = t := fb_eq _ _ _ (hf _ (.tail _ (.tail _ (.tail _ (.tail _ (.tail _ (.head _)))))))
  unfold readSlot readV
  rw [ho, e_g, e_d, e_a, e_b, e_m, e_t]
  rfl

theorem Coded.ixor (u : VUnit) (g : BitVec 4) (d a b : BitVec 9) (m : BitVec 4) (t : BitVec 5) : Coded.Statement (.ixor u g d a b m t) := by
  refine Coded.of_packed (k := (.v u)) (top := 56) (n := 8) (op := 38) (fs := [⟨4, g, 52⟩, ⟨9, d, 43⟩, ⟨9, a, 34⟩, ⟨9, b, 25⟩, ⟨4, m, 12⟩, ⟨5, t, 7⟩]) rfl rfl rfl rfl rfl (by decide) (by decide) fun x ho hf => ?_
  have ho : fld x 56 8 = 38 := ho
  have e_g : fb x 52 4 = g := fb_eq _ _ _ (hf _ (.head _))
  have e_d : fb x 43 9 = d := fb_eq _ _ _ (hf _ (.tail _ (.head _)))
  have e_a : fb x 34 9 = a := fb_eq _ _ _ (hf _ (.tail _ (.tail _ (.head _))))
  have e_b : fb x 25 9 = b := fb_eq _ _ _ (hf _ (.tail _ (.tail _ (.tail _ (.head _)))))
  have e_m : fb x 12 4 = m := fb_eq _ _ _ (hf _ (.tail _ (.tail _ (.tail _ (.tail _ (.head _))))))
  have e_t : fb x 7 5 = t := fb_eq _ _ _ (hf _ (.tail _ (.tail _ (.tail _ (.tail _ (.tail _ (.head _)))))))
  unfold readSlot readV
  rw [ho, e_g, e_d, e_a, e_b, e_m, e_t]
  rfl

theorem Coded.ishl (u : VUnit) (g : BitVec 4) (d a b : BitVec 9) (m : BitVec 4) (t : BitVec 5) : Coded.Statement (.ishl u g d a b m t) := by
  refine Coded.of_packed (k := (.v u)) (top := 56) (n := 8) (op := 39) (fs := [⟨4, g, 52⟩, ⟨9, d, 43⟩, ⟨9, a, 34⟩, ⟨9, b, 25⟩, ⟨4, m, 12⟩, ⟨5, t, 7⟩]) rfl rfl rfl rfl rfl (by decide) (by decide) fun x ho hf => ?_
  have ho : fld x 56 8 = 39 := ho
  have e_g : fb x 52 4 = g := fb_eq _ _ _ (hf _ (.head _))
  have e_d : fb x 43 9 = d := fb_eq _ _ _ (hf _ (.tail _ (.head _)))
  have e_a : fb x 34 9 = a := fb_eq _ _ _ (hf _ (.tail _ (.tail _ (.head _))))
  have e_b : fb x 25 9 = b := fb_eq _ _ _ (hf _ (.tail _ (.tail _ (.tail _ (.head _)))))
  have e_m : fb x 12 4 = m := fb_eq _ _ _ (hf _ (.tail _ (.tail _ (.tail _ (.tail _ (.head _))))))
  have e_t : fb x 7 5 = t := fb_eq _ _ _ (hf _ (.tail _ (.tail _ (.tail _ (.tail _ (.tail _ (.head _)))))))
  unfold readSlot readV
  rw [ho, e_g, e_d, e_a, e_b, e_m, e_t]
  rfl

theorem Coded.ishr (u : VUnit) (g : BitVec 4) (d a b : BitVec 9) (m : BitVec 4) (t : BitVec 5) : Coded.Statement (.ishr u g d a b m t) := by
  refine Coded.of_packed (k := (.v u)) (top := 56) (n := 8) (op := 40) (fs := [⟨4, g, 52⟩, ⟨9, d, 43⟩, ⟨9, a, 34⟩, ⟨9, b, 25⟩, ⟨4, m, 12⟩, ⟨5, t, 7⟩]) rfl rfl rfl rfl rfl (by decide) (by decide) fun x ho hf => ?_
  have ho : fld x 56 8 = 40 := ho
  have e_g : fb x 52 4 = g := fb_eq _ _ _ (hf _ (.head _))
  have e_d : fb x 43 9 = d := fb_eq _ _ _ (hf _ (.tail _ (.head _)))
  have e_a : fb x 34 9 = a := fb_eq _ _ _ (hf _ (.tail _ (.tail _ (.head _))))
  have e_b : fb x 25 9 = b := fb_eq _ _ _ (hf _ (.tail _ (.tail _ (.tail _ (.head _)))))
  have e_m : fb x 12 4 = m := fb_eq _ _ _ (hf _ (.tail _ (.tail _ (.tail _ (.tail _ (.head _))))))
  have e_t : fb x 7 5 = t := fb_eq _ _ _ (hf _ (.tail _ (.tail _ (.tail _ (.tail _ (.tail _ (.head _)))))))
  unfold readSlot readV
  rw [ho, e_g, e_d, e_a, e_b, e_m, e_t]
  rfl

theorem Coded.isra (u : VUnit) (g : BitVec 4) (d a b : BitVec 9) (m : BitVec 4) (t : BitVec 5) : Coded.Statement (.isra u g d a b m t) := by
  refine Coded.of_packed (k := (.v u)) (top := 56) (n := 8) (op := 41) (fs := [⟨4, g, 52⟩, ⟨9, d, 43⟩, ⟨9, a, 34⟩, ⟨9, b, 25⟩, ⟨4, m, 12⟩, ⟨5, t, 7⟩]) rfl rfl rfl rfl rfl (by decide) (by decide) fun x ho hf => ?_
  have ho : fld x 56 8 = 41 := ho
  have e_g : fb x 52 4 = g := fb_eq _ _ _ (hf _ (.head _))
  have e_d : fb x 43 9 = d := fb_eq _ _ _ (hf _ (.tail _ (.head _)))
  have e_a : fb x 34 9 = a := fb_eq _ _ _ (hf _ (.tail _ (.tail _ (.head _))))
  have e_b : fb x 25 9 = b := fb_eq _ _ _ (hf _ (.tail _ (.tail _ (.tail _ (.head _)))))
  have e_m : fb x 12 4 = m := fb_eq _ _ _ (hf _ (.tail _ (.tail _ (.tail _ (.tail _ (.head _))))))
  have e_t : fb x 7 5 = t := fb_eq _ _ _ (hf _ (.tail _ (.tail _ (.tail _ (.tail _ (.tail _ (.head _)))))))
  unfold readSlot readV
  rw [ho, e_g, e_d, e_a, e_b, e_m, e_t]
  rfl

theorem Coded.imin (u : VUnit) (g : BitVec 4) (d a b : BitVec 9) (m : BitVec 4) (t : BitVec 5) : Coded.Statement (.imin u g d a b m t) := by
  refine Coded.of_packed (k := (.v u)) (top := 56) (n := 8) (op := 42) (fs := [⟨4, g, 52⟩, ⟨9, d, 43⟩, ⟨9, a, 34⟩, ⟨9, b, 25⟩, ⟨4, m, 12⟩, ⟨5, t, 7⟩]) rfl rfl rfl rfl rfl (by decide) (by decide) fun x ho hf => ?_
  have ho : fld x 56 8 = 42 := ho
  have e_g : fb x 52 4 = g := fb_eq _ _ _ (hf _ (.head _))
  have e_d : fb x 43 9 = d := fb_eq _ _ _ (hf _ (.tail _ (.head _)))
  have e_a : fb x 34 9 = a := fb_eq _ _ _ (hf _ (.tail _ (.tail _ (.head _))))
  have e_b : fb x 25 9 = b := fb_eq _ _ _ (hf _ (.tail _ (.tail _ (.tail _ (.head _)))))
  have e_m : fb x 12 4 = m := fb_eq _ _ _ (hf _ (.tail _ (.tail _ (.tail _ (.tail _ (.head _))))))
  have e_t : fb x 7 5 = t := fb_eq _ _ _ (hf _ (.tail _ (.tail _ (.tail _ (.tail _ (.tail _ (.head _)))))))
  unfold readSlot readV
  rw [ho, e_g, e_d, e_a, e_b, e_m, e_t]
  rfl

theorem Coded.imax (u : VUnit) (g : BitVec 4) (d a b : BitVec 9) (m : BitVec 4) (t : BitVec 5) : Coded.Statement (.imax u g d a b m t) := by
  refine Coded.of_packed (k := (.v u)) (top := 56) (n := 8) (op := 43) (fs := [⟨4, g, 52⟩, ⟨9, d, 43⟩, ⟨9, a, 34⟩, ⟨9, b, 25⟩, ⟨4, m, 12⟩, ⟨5, t, 7⟩]) rfl rfl rfl rfl rfl (by decide) (by decide) fun x ho hf => ?_
  have ho : fld x 56 8 = 43 := ho
  have e_g : fb x 52 4 = g := fb_eq _ _ _ (hf _ (.head _))
  have e_d : fb x 43 9 = d := fb_eq _ _ _ (hf _ (.tail _ (.head _)))
  have e_a : fb x 34 9 = a := fb_eq _ _ _ (hf _ (.tail _ (.tail _ (.head _))))
  have e_b : fb x 25 9 = b := fb_eq _ _ _ (hf _ (.tail _ (.tail _ (.tail _ (.head _)))))
  have e_m : fb x 12 4 = m := fb_eq _ _ _ (hf _ (.tail _ (.tail _ (.tail _ (.tail _ (.head _))))))
  have e_t : fb x 7 5 = t := fb_eq _ _ _ (hf _ (.tail _ (.tail _ (.tail _ (.tail _ (.tail _ (.head _)))))))
  unfold readSlot readV
  rw [ho, e_g, e_d, e_a, e_b, e_m, e_t]
  rfl

theorem Coded.iadds (u : VUnit) (g : BitVec 4) (d a b : BitVec 9) (m : BitVec 4) (t : BitVec 5) : Coded.Statement (.iadds u g d a b m t) := by
  refine Coded.of_packed (k := (.v u)) (top := 56) (n := 8) (op := 45) (fs := [⟨4, g, 52⟩, ⟨9, d, 43⟩, ⟨9, a, 34⟩, ⟨9, b, 25⟩, ⟨4, m, 12⟩, ⟨5, t, 7⟩]) rfl rfl rfl rfl rfl (by decide) (by decide) fun x ho hf => ?_
  have ho : fld x 56 8 = 45 := ho
  have e_g : fb x 52 4 = g := fb_eq _ _ _ (hf _ (.head _))
  have e_d : fb x 43 9 = d := fb_eq _ _ _ (hf _ (.tail _ (.head _)))
  have e_a : fb x 34 9 = a := fb_eq _ _ _ (hf _ (.tail _ (.tail _ (.head _))))
  have e_b : fb x 25 9 = b := fb_eq _ _ _ (hf _ (.tail _ (.tail _ (.tail _ (.head _)))))
  have e_m : fb x 12 4 = m := fb_eq _ _ _ (hf _ (.tail _ (.tail _ (.tail _ (.tail _ (.head _))))))
  have e_t : fb x 7 5 = t := fb_eq _ _ _ (hf _ (.tail _ (.tail _ (.tail _ (.tail _ (.tail _ (.head _)))))))
  unfold readSlot readV
  rw [ho, e_g, e_d, e_a, e_b, e_m, e_t]
  rfl

theorem Coded.isubs (u : VUnit) (g : BitVec 4) (d a b : BitVec 9) (m : BitVec 4) (t : BitVec 5) : Coded.Statement (.isubs u g d a b m t) := by
  refine Coded.of_packed (k := (.v u)) (top := 56) (n := 8) (op := 46) (fs := [⟨4, g, 52⟩, ⟨9, d, 43⟩, ⟨9, a, 34⟩, ⟨9, b, 25⟩, ⟨4, m, 12⟩, ⟨5, t, 7⟩]) rfl rfl rfl rfl rfl (by decide) (by decide) fun x ho hf => ?_
  have ho : fld x 56 8 = 46 := ho
  have e_g : fb x 52 4 = g := fb_eq _ _ _ (hf _ (.head _))
  have e_d : fb x 43 9 = d := fb_eq _ _ _ (hf _ (.tail _ (.head _)))
  have e_a : fb x 34 9 = a := fb_eq _ _ _ (hf _ (.tail _ (.tail _ (.head _))))
  have e_b : fb x 25 9 = b := fb_eq _ _ _ (hf _ (.tail _ (.tail _ (.tail _ (.head _)))))
  have e_m : fb x 12 4 = m := fb_eq _ _ _ (hf _ (.tail _ (.tail _ (.tail _ (.tail _ (.head _))))))
  have e_t : fb x 7 5 = t := fb_eq _ _ _ (hf _ (.tail _ (.tail _ (.tail _ (.tail _ (.tail _ (.head _)))))))
  unfold readSlot readV
  rw [ho, e_g, e_d, e_a, e_b, e_m, e_t]
  rfl

theorem Coded.iabs (u : VUnit) (g : BitVec 4) (d a : BitVec 9) (m : BitVec 4) (t : BitVec 5) : Coded.Statement (.iabs u g d a m t) := by
  refine Coded.of_packed (k := (.v u)) (top := 56) (n := 8) (op := 44) (fs := [⟨4, g, 52⟩, ⟨9, d, 43⟩, ⟨9, a, 34⟩, ⟨4, m, 12⟩, ⟨5, t, 7⟩]) rfl rfl rfl rfl rfl (by decide) (by decide) fun x ho hf => ?_
  have ho : fld x 56 8 = 44 := ho
  have e_g : fb x 52 4 = g := fb_eq _ _ _ (hf _ (.head _))
  have e_d : fb x 43 9 = d := fb_eq _ _ _ (hf _ (.tail _ (.head _)))
  have e_a : fb x 34 9 = a := fb_eq _ _ _ (hf _ (.tail _ (.tail _ (.head _))))
  have e_m : fb x 12 4 = m := fb_eq _ _ _ (hf _ (.tail _ (.tail _ (.tail _ (.head _)))))
  have e_t : fb x 7 5 = t := fb_eq _ _ _ (hf _ (.tail _ (.tail _ (.tail _ (.tail _ (.head _))))))
  unfold readSlot readV
  rw [ho, e_g, e_d, e_a, e_m, e_t]
  rfl

theorem Coded.iclz (u : VUnit) (g : BitVec 4) (d a : BitVec 9) (m : BitVec 4) (t : BitVec 5) : Coded.Statement (.iclz u g d a m t) := by
  refine Coded.of_packed (k := (.v u)) (top := 56) (n := 8) (op := 48) (fs := [⟨4, g, 52⟩, ⟨9, d, 43⟩, ⟨9, a, 34⟩, ⟨4, m, 12⟩, ⟨5, t, 7⟩]) rfl rfl rfl rfl rfl (by decide) (by decide) fun x ho hf => ?_
  have ho : fld x 56 8 = 48 := ho
  have e_g : fb x 52 4 = g := fb_eq _ _ _ (hf _ (.head _))
  have e_d : fb x 43 9 = d := fb_eq _ _ _ (hf _ (.tail _ (.head _)))
  have e_a : fb x 34 9 = a := fb_eq _ _ _ (hf _ (.tail _ (.tail _ (.head _))))
  have e_m : fb x 12 4 = m := fb_eq _ _ _ (hf _ (.tail _ (.tail _ (.tail _ (.head _)))))
  have e_t : fb x 7 5 = t := fb_eq _ _ _ (hf _ (.tail _ (.tail _ (.tail _ (.tail _ (.head _))))))
  unfold readSlot readV
  rw [ho, e_g, e_d, e_a, e_m, e_t]
  rfl

theorem Coded.ipopc (u : VUnit) (g : BitVec 4) (d a : BitVec 9) (m : BitVec 4) (t : BitVec 5) : Coded.Statement (.ipopc u g d a m t) := by
  refine Coded.of_packed (k := (.v u)) (top := 56) (n := 8) (op := 49) (fs := [⟨4, g, 52⟩, ⟨9, d, 43⟩, ⟨9, a, 34⟩, ⟨4, m, 12⟩, ⟨5, t, 7⟩]) rfl rfl rfl rfl rfl (by decide) (by decide) fun x ho hf => ?_
  have ho : fld x 56 8 = 49 := ho
  have e_g : fb x 52 4 = g := fb_eq _ _ _ (hf _ (.head _))
  have e_d : fb x 43 9 = d := fb_eq _ _ _ (hf _ (.tail _ (.head _)))
  have e_a : fb x 34 9 = a := fb_eq _ _ _ (hf _ (.tail _ (.tail _ (.head _))))
  have e_m : fb x 12 4 = m := fb_eq _ _ _ (hf _ (.tail _ (.tail _ (.tail _ (.head _)))))
  have e_t : fb x 7 5 = t := fb_eq _ _ _ (hf _ (.tail _ (.tail _ (.tail _ (.tail _ (.head _))))))
  unfold readSlot readV
  rw [ho, e_g, e_d, e_a, e_m, e_t]
  rfl

theorem Coded.ibint3 (u : VUnit) (g : BitVec 4) (d a : BitVec 9) (m : BitVec 4) (t : BitVec 5) : Coded.Statement (.ibint3 u g d a m t) := by
  refine Coded.of_packed (k := (.v u)) (top := 56) (n := 8) (op := 50) (fs := [⟨4, g, 52⟩, ⟨9, d, 43⟩, ⟨9, a, 34⟩, ⟨4, m, 12⟩, ⟨5, t, 7⟩]) rfl rfl rfl rfl rfl (by decide) (by decide) fun x ho hf => ?_
  have ho : fld x 56 8 = 50 := ho
  have e_g : fb x 52 4 = g := fb_eq _ _ _ (hf _ (.head _))
  have e_d : fb x 43 9 = d := fb_eq _ _ _ (hf _ (.tail _ (.head _)))
  have e_a : fb x 34 9 = a := fb_eq _ _ _ (hf _ (.tail _ (.tail _ (.head _))))
  have e_m : fb x 12 4 = m := fb_eq _ _ _ (hf _ (.tail _ (.tail _ (.tail _ (.head _)))))
  have e_t : fb x 7 5 = t := fb_eq _ _ _ (hf _ (.tail _ (.tail _ (.tail _ (.tail _ (.head _))))))
  unfold readSlot readV
  rw [ho, e_g, e_d, e_a, e_m, e_t]
  rfl

theorem Coded.icmp (u : VUnit) (g md : BitVec 4) (a b : BitVec 9) (m : BitVec 4) (t : BitVec 5) (cond : BitVec 3) : Coded.Statement (.icmp u g md a b m t cond) := by
  refine Coded.of_packed (k := (.v u)) (top := 56) (n := 8) (op := 47) (fs := [⟨4, g, 52⟩, ⟨4, md, 43⟩, ⟨9, a, 34⟩, ⟨9, b, 25⟩, ⟨4, m, 12⟩, ⟨5, t, 7⟩, ⟨3, cond, 4⟩]) rfl rfl rfl rfl rfl (by decide) (by decide) fun x ho hf => ?_
  have ho : fld x 56 8 = 47 := ho
  have e_g : fb x 52 4 = g := fb_eq _ _ _ (hf _ (.head _))
  have e_md : fb x 43 4 = md := fb_eq _ _ _ (hf _ (.tail _ (.head _)))
  have e_a : fb x 34 9 = a := fb_eq _ _ _ (hf _ (.tail _ (.tail _ (.head _))))
  have e_b : fb x 25 9 = b := fb_eq _ _ _ (hf _ (.tail _ (.tail _ (.tail _ (.head _)))))
  have e_m : fb x 12 4 = m := fb_eq _ _ _ (hf _ (.tail _ (.tail _ (.tail _ (.tail _ (.head _))))))
  have e_t : fb x 7 5 = t := fb_eq _ _ _ (hf _ (.tail _ (.tail _ (.tail _ (.tail _ (.tail _ (.head _)))))))
  have e_cond : fb x 4 3 = cond := fb_eq _ _ _ (hf _ (.tail _ (.tail _ (.tail _ (.tail _ (.tail _ (.tail _ (.head _))))))))
  unfold readSlot readV
  rw [ho, e_g, e_md, e_a, e_b, e_m, e_t, e_cond]
  rfl

theorem Coded.iredAdd (u : VUnit) (g : BitVec 4) (d a : BitVec 9) (m : BitVec 4) (t : BitVec 5) : Coded.Statement (.iredAdd u g d a m t) := by
  refine Coded.of_packed (k := (.v u)) (top := 56) (n := 8) (op := 51) (fs := [⟨4, g, 52⟩, ⟨9, d, 43⟩, ⟨9, a, 34⟩, ⟨4, m, 12⟩, ⟨5, t, 7⟩]) rfl rfl rfl rfl rfl (by decide) (by decide) fun x ho hf => ?_
  have ho : fld x 56 8 = 51 := ho
  have e_g : fb x 52 4 = g := fb_eq _ _ _ (hf _ (.head _))
  have e_d : fb x 43 9 = d := fb_eq _ _ _ (hf _ (.tail _ (.head _)))
  have e_a : fb x 34 9 = a := fb_eq _ _ _ (hf _ (.tail _ (.tail _ (.head _))))
  have e_m : fb x 12 4 = m := fb_eq _ _ _ (hf _ (.tail _ (.tail _ (.tail _ (.head _)))))
  have e_t : fb x 7 5 = t := fb_eq _ _ _ (hf _ (.tail _ (.tail _ (.tail _ (.tail _ (.head _))))))
  unfold readSlot readV
  rw [ho, e_g, e_d, e_a, e_m, e_t]
  rfl

theorem Coded.iadd128 (u : VUnit) (g : BitVec 4) (d a b : BitVec 9) (m : BitVec 4) (t : BitVec 5) : Coded.Statement (.iadd128 u g d a b m t) := by
  refine Coded.of_packed (k := (.v u)) (top := 56) (n := 8) (op := 52) (fs := [⟨4, g, 52⟩, ⟨9, d, 43⟩, ⟨9, a, 34⟩, ⟨9, b, 25⟩, ⟨4, m, 12⟩, ⟨5, t, 7⟩]) rfl rfl rfl rfl rfl (by decide) (by decide) fun x ho hf => ?_
  have ho : fld x 56 8 = 52 := ho
  have e_g : fb x 52 4 = g := fb_eq _ _ _ (hf _ (.head _))
  have e_d : fb x 43 9 = d := fb_eq _ _ _ (hf _ (.tail _ (.head _)))
  have e_a : fb x 34 9 = a := fb_eq _ _ _ (hf _ (.tail _ (.tail _ (.head _))))
  have e_b : fb x 25 9 = b := fb_eq _ _ _ (hf _ (.tail _ (.tail _ (.tail _ (.head _)))))
  have e_m : fb x 12 4 = m := fb_eq _ _ _ (hf _ (.tail _ (.tail _ (.tail _ (.tail _ (.head _))))))
  have e_t : fb x 7 5 = t := fb_eq _ _ _ (hf _ (.tail _ (.tail _ (.tail _ (.tail _ (.tail _ (.head _)))))))
  unfold readSlot readV
  rw [ho, e_g, e_d, e_a, e_b, e_m, e_t]
  rfl

theorem Coded.icvt (u : VUnit) (g : BitVec 4) (d a : BitVec 9) (st : BitVec 5) (part : BitVec 9) (m : BitVec 4) (t : BitVec 5) (sb : BitVec 3) : Coded.Statement (.icvt u g d a st part m t sb) := by
  refine Coded.of_packed (k := (.v u)) (top := 56) (n := 8) (op := 53) (fs := [⟨4, g, 52⟩, ⟨9, d, 43⟩, ⟨9, a, 34⟩, ⟨5, st, 25⟩, ⟨9, part, 16⟩, ⟨4, m, 12⟩, ⟨5, t, 7⟩, ⟨3, sb, 4⟩]) rfl rfl rfl rfl rfl (by decide) (by decide) fun x ho hf => ?_
  have ho : fld x 56 8 = 53 := ho
  have e_g : fb x 52 4 = g := fb_eq _ _ _ (hf _ (.head _))
  have e_d : fb x 43 9 = d := fb_eq _ _ _ (hf _ (.tail _ (.head _)))
  have e_a : fb x 34 9 = a := fb_eq _ _ _ (hf _ (.tail _ (.tail _ (.head _))))
  have e_st : fb x 25 5 = st := fb_eq _ _ _ (hf _ (.tail _ (.tail _ (.tail _ (.head _)))))
  have e_part : fb x 16 9 = part := fb_eq _ _ _ (hf _ (.tail _ (.tail _ (.tail _ (.tail _ (.head _))))))
  have e_m : fb x 12 4 = m := fb_eq _ _ _ (hf _ (.tail _ (.tail _ (.tail _ (.tail _ (.tail _ (.head _)))))))
  have e_t : fb x 7 5 = t := fb_eq _ _ _ (hf _ (.tail _ (.tail _ (.tail _ (.tail _ (.tail _ (.tail _ (.head _))))))))
  have e_sb : fb x 4 3 = sb := fb_eq _ _ _ (hf _ (.tail _ (.tail _ (.tail _ (.tail _ (.tail _ (.tail _ (.tail _ (.head _)))))))))
  unfold readSlot readV
  rw [ho, e_g, e_d, e_a, e_st, e_part, e_m, e_t, e_sb]
  rfl

theorem Coded.vsel (u : VUnit) (g : BitVec 4) (d a b : BitVec 9) (m : BitVec 4) (t : BitVec 5) : Coded.Statement (.vsel u g d a b m t) := by
  refine Coded.of_packed (k := (.v u)) (top := 56) (n := 8) (op := 64) (fs := [⟨4, g, 52⟩, ⟨9, d, 43⟩, ⟨9, a, 34⟩, ⟨9, b, 25⟩, ⟨4, m, 12⟩, ⟨5, t, 7⟩]) rfl rfl rfl rfl rfl (by decide) (by decide) fun x ho hf => ?_
  have ho : fld x 56 8 = 64 := ho
  have e_g : fb x 52 4 = g := fb_eq _ _ _ (hf _ (.head _))
  have e_d : fb x 43 9 = d := fb_eq _ _ _ (hf _ (.tail _ (.head _)))
  have e_a : fb x 34 9 = a := fb_eq _ _ _ (hf _ (.tail _ (.tail _ (.head _))))
  have e_b : fb x 25 9 = b := fb_eq _ _ _ (hf _ (.tail _ (.tail _ (.tail _ (.head _)))))
  have e_m : fb x 12 4 = m := fb_eq _ _ _ (hf _ (.tail _ (.tail _ (.tail _ (.tail _ (.head _))))))
  have e_t : fb x 7 5 = t := fb_eq _ _ _ (hf _ (.tail _ (.tail _ (.tail _ (.tail _ (.tail _ (.head _)))))))
  unfold readSlot readV
  rw [ho, e_g, e_d, e_a, e_b, e_m, e_t]
  rfl

theorem Coded.vperm (u : VUnit) (g : BitVec 4) (d a b : BitVec 9) (m : BitVec 4) (t : BitVec 5) : Coded.Statement (.vperm u g d a b m t) := by
  refine Coded.of_packed (k := (.v u)) (top := 56) (n := 8) (op := 65) (fs := [⟨4, g, 52⟩, ⟨9, d, 43⟩, ⟨9, a, 34⟩, ⟨9, b, 25⟩, ⟨4, m, 12⟩, ⟨5, t, 7⟩]) rfl rfl rfl rfl rfl (by decide) (by decide) fun x ho hf => ?_
  have ho : fld x 56 8 = 65 := ho
  have e_g : fb x 52 4 = g := fb_eq _ _ _ (hf _ (.head _))
  have e_d : fb x 43 9 = d := fb_eq _ _ _ (hf _ (.tail _ (.head _)))
  have e_a : fb x 34 9 = a := fb_eq _ _ _ (hf _ (.tail _ (.tail _ (.head _))))
  have e_b : fb x 25 9 = b := fb_eq _ _ _ (hf _ (.tail _ (.tail _ (.tail _ (.head _)))))
  have e_m : fb x 12 4 = m := fb_eq _ _ _ (hf _ (.tail _ (.tail _ (.tail _ (.tail _ (.head _))))))
  have e_t : fb x 7 5 = t := fb_eq _ _ _ (hf _ (.tail _ (.tail _ (.tail _ (.tail _ (.tail _ (.head _)))))))
  unfold readSlot readV
  rw [ho, e_g, e_d, e_a, e_b, e_m, e_t]
  rfl

theorem Coded.vzip (u : VUnit) (g : BitVec 4) (d a b : BitVec 9) (m : BitVec 4) (t : BitVec 5) (sb : BitVec 3) : Coded.Statement (.vzip u g d a b m t sb) := by
  refine Coded.of_packed (k := (.v u)) (top := 56) (n := 8) (op := 67) (fs := [⟨4, g, 52⟩, ⟨9, d, 43⟩, ⟨9, a, 34⟩, ⟨9, b, 25⟩, ⟨4, m, 12⟩, ⟨5, t, 7⟩, ⟨3, sb, 4⟩]) rfl rfl rfl rfl rfl (by decide) (by decide) fun x ho hf => ?_
  have ho : fld x 56 8 = 67 := ho
  have e_g : fb x 52 4 = g := fb_eq _ _ _ (hf _ (.head _))
  have e_d : fb x 43 9 = d := fb_eq _ _ _ (hf _ (.tail _ (.head _)))
  have e_a : fb x 34 9 = a := fb_eq _ _ _ (hf _ (.tail _ (.tail _ (.head _))))
  have e_b : fb x 25 9 = b := fb_eq _ _ _ (hf _ (.tail _ (.tail _ (.tail _ (.head _)))))
  have e_m : fb x 12 4 = m := fb_eq _ _ _ (hf _ (.tail _ (.tail _ (.tail _ (.tail _ (.head _))))))
  have e_t : fb x 7 5 = t := fb_eq _ _ _ (hf _ (.tail _ (.tail _ (.tail _ (.tail _ (.tail _ (.head _)))))))
  have e_sb : fb x 4 3 = sb := fb_eq _ _ _ (hf _ (.tail _ (.tail _ (.tail _ (.tail _ (.tail _ (.tail _ (.head _))))))))
  unfold readSlot readV
  rw [ho, e_g, e_d, e_a, e_b, e_m, e_t, e_sb]
  rfl

theorem Coded.vunzip (u : VUnit) (g : BitVec 4) (d a b : BitVec 9) (m : BitVec 4) (t : BitVec 5) (sb : BitVec 3) : Coded.Statement (.vunzip u g d a b m t sb) := by
  refine Coded.of_packed (k := (.v u)) (top := 56) (n := 8) (op := 68) (fs := [⟨4, g, 52⟩, ⟨9, d, 43⟩, ⟨9, a, 34⟩, ⟨9, b, 25⟩, ⟨4, m, 12⟩, ⟨5, t, 7⟩, ⟨3, sb, 4⟩]) rfl rfl rfl rfl rfl (by decide) (by decide) fun x ho hf => ?_
  have ho : fld x 56 8 = 68 := ho
  have e_g : fb x 52 4 = g := fb_eq _ _ _ (hf _ (.head _))
  have e_d : fb x 43 9 = d := fb_eq _ _ _ (hf _ (.tail _ (.head _)))
  have e_a : fb x 34 9 = a := fb_eq _ _ _ (hf _ (.tail _ (.tail _ (.head _))))
  have e_b : fb x 25 9 = b := fb_eq _ _ _ (hf _ (.tail _ (.tail _ (.tail _ (.head _)))))
  have e_m : fb x 12 4 = m := fb_eq _ _ _ (hf _ (.tail _ (.tail _ (.tail _ (.tail _ (.head _))))))
  have e_t : fb x 7 5 = t := fb_eq _ _ _ (hf _ (.tail _ (.tail _ (.tail _ (.tail _ (.tail _ (.head _)))))))
  have e_sb : fb x 4 3 = sb := fb_eq _ _ _ (hf _ (.tail _ (.tail _ (.tail _ (.tail _ (.tail _ (.tail _ (.head _))))))))
  unfold readSlot readV
  rw [ho, e_g, e_d, e_a, e_b, e_m, e_t, e_sb]
  rfl

theorem Coded.vrev (u : VUnit) (g : BitVec 4) (d a : BitVec 9) (m : BitVec 4) (t : BitVec 5) : Coded.Statement (.vrev u g d a m t) := by
  refine Coded.of_packed (k := (.v u)) (top := 56) (n := 8) (op := 70) (fs := [⟨4, g, 52⟩, ⟨9, d, 43⟩, ⟨9, a, 34⟩, ⟨4, m, 12⟩, ⟨5, t, 7⟩]) rfl rfl rfl rfl rfl (by decide) (by decide) fun x ho hf => ?_
  have ho : fld x 56 8 = 70 := ho
  have e_g : fb x 52 4 = g := fb_eq _ _ _ (hf _ (.head _))
  have e_d : fb x 43 9 = d := fb_eq _ _ _ (hf _ (.tail _ (.head _)))
  have e_a : fb x 34 9 = a := fb_eq _ _ _ (hf _ (.tail _ (.tail _ (.head _))))
  have e_m : fb x 12 4 = m := fb_eq _ _ _ (hf _ (.tail _ (.tail _ (.tail _ (.head _)))))
  have e_t : fb x 7 5 = t := fb_eq _ _ _ (hf _ (.tail _ (.tail _ (.tail _ (.tail _ (.head _))))))
  unfold readSlot readV
  rw [ho, e_g, e_d, e_a, e_m, e_t]
  rfl

theorem Coded.vcompress (u : VUnit) (g : BitVec 4) (d a : BitVec 9) (m : BitVec 4) (t : BitVec 5) : Coded.Statement (.vcompress u g d a m t) := by
  refine Coded.of_packed (k := (.v u)) (top := 56) (n := 8) (op := 71) (fs := [⟨4, g, 52⟩, ⟨9, d, 43⟩, ⟨9, a, 34⟩, ⟨4, m, 12⟩, ⟨5, t, 7⟩]) rfl rfl rfl rfl rfl (by decide) (by decide) fun x ho hf => ?_
  have ho : fld x 56 8 = 71 := ho
  have e_g : fb x 52 4 = g := fb_eq _ _ _ (hf _ (.head _))
  have e_d : fb x 43 9 = d := fb_eq _ _ _ (hf _ (.tail _ (.head _)))
  have e_a : fb x 34 9 = a := fb_eq _ _ _ (hf _ (.tail _ (.tail _ (.head _))))
  have e_m : fb x 12 4 = m := fb_eq _ _ _ (hf _ (.tail _ (.tail _ (.tail _ (.head _)))))
  have e_t : fb x 7 5 = t := fb_eq _ _ _ (hf _ (.tail _ (.tail _ (.tail _ (.tail _ (.head _))))))
  unfold readSlot readV
  rw [ho, e_g, e_d, e_a, e_m, e_t]
  rfl

theorem Coded.vexpand (u : VUnit) (g : BitVec 4) (d a : BitVec 9) (m : BitVec 4) (t : BitVec 5) : Coded.Statement (.vexpand u g d a m t) := by
  refine Coded.of_packed (k := (.v u)) (top := 56) (n := 8) (op := 72) (fs := [⟨4, g, 52⟩, ⟨9, d, 43⟩, ⟨9, a, 34⟩, ⟨4, m, 12⟩, ⟨5, t, 7⟩]) rfl rfl rfl rfl rfl (by decide) (by decide) fun x ho hf => ?_
  have ho : fld x 56 8 = 72 := ho
  have e_g : fb x 52 4 = g := fb_eq _ _ _ (hf _ (.head _))
  have e_d : fb x 43 9 = d := fb_eq _ _ _ (hf _ (.tail _ (.head _)))
  have e_a : fb x 34 9 = a := fb_eq _ _ _ (hf _ (.tail _ (.tail _ (.head _))))
  have e_m : fb x 12 4 = m := fb_eq _ _ _ (hf _ (.tail _ (.tail _ (.tail _ (.head _)))))
  have e_t : fb x 7 5 = t := fb_eq _ _ _ (hf _ (.tail _ (.tail _ (.tail _ (.tail _ (.head _))))))
  unfold readSlot readV
  rw [ho, e_g, e_d, e_a, e_m, e_t]
  rfl

theorem Coded.vbcast (u : VUnit) (g : BitVec 4) (d a : BitVec 9) (imm : BitVec 18) (m : BitVec 4) (t : BitVec 5) : Coded.Statement (.vbcast u g d a imm m t) := by
  refine Coded.of_packed (k := (.v u)) (top := 56) (n := 8) (op := 66) (fs := [⟨4, g, 52⟩, ⟨9, d, 43⟩, ⟨9, a, 34⟩, ⟨18, imm, 16⟩, ⟨4, m, 12⟩, ⟨5, t, 7⟩]) rfl rfl rfl rfl rfl (by decide) (by decide) fun x ho hf => ?_
  have ho : fld x 56 8 = 66 := ho
  have e_g : fb x 52 4 = g := fb_eq _ _ _ (hf _ (.head _))
  have e_d : fb x 43 9 = d := fb_eq _ _ _ (hf _ (.tail _ (.head _)))
  have e_a : fb x 34 9 = a := fb_eq _ _ _ (hf _ (.tail _ (.tail _ (.head _))))
  have e_imm : fb x 16 18 = imm := fb_eq _ _ _ (hf _ (.tail _ (.tail _ (.tail _ (.head _)))))
  have e_m : fb x 12 4 = m := fb_eq _ _ _ (hf _ (.tail _ (.tail _ (.tail _ (.tail _ (.head _))))))
  have e_t : fb x 7 5 = t := fb_eq _ _ _ (hf _ (.tail _ (.tail _ (.tail _ (.tail _ (.tail _ (.head _)))))))
  unfold readSlot readV
  rw [ho, e_g, e_d, e_a, e_imm, e_m, e_t]
  rfl

theorem Coded.vslide (u : VUnit) (g : BitVec 4) (d a : BitVec 9) (imm : BitVec 18) (m : BitVec 4) (t : BitVec 5) : Coded.Statement (.vslide u g d a imm m t) := by
  refine Coded.of_packed (k := (.v u)) (top := 56) (n := 8) (op := 69) (fs := [⟨4, g, 52⟩, ⟨9, d, 43⟩, ⟨9, a, 34⟩, ⟨18, imm, 16⟩, ⟨4, m, 12⟩, ⟨5, t, 7⟩]) rfl rfl rfl rfl rfl (by decide) (by decide) fun x ho hf => ?_
  have ho : fld x 56 8 = 69 := ho
  have e_g : fb x 52 4 = g := fb_eq _ _ _ (hf _ (.head _))
  have e_d : fb x 43 9 = d := fb_eq _ _ _ (hf _ (.tail _ (.head _)))
  have e_a : fb x 34 9 = a := fb_eq _ _ _ (hf _ (.tail _ (.tail _ (.head _))))
  have e_imm : fb x 16 18 = imm := fb_eq _ _ _ (hf _ (.tail _ (.tail _ (.tail _ (.head _)))))
  have e_m : fb x 12 4 = m := fb_eq _ _ _ (hf _ (.tail _ (.tail _ (.tail _ (.tail _ (.head _))))))
  have e_t : fb x 7 5 = t := fb_eq _ _ _ (hf _ (.tail _ (.tail _ (.tail _ (.tail _ (.tail _ (.head _)))))))
  unfold readSlot readV
  rw [ho, e_g, e_d, e_a, e_imm, e_m, e_t]
  rfl

theorem Coded.viota (u : VUnit) (g : BitVec 4) (d : BitVec 9) (imm : BitVec 18) (m : BitVec 4) (t : BitVec 5) : Coded.Statement (.viota u g d imm m t) := by
  refine Coded.of_packed (k := (.v u)) (top := 56) (n := 8) (op := 73) (fs := [⟨4, g, 52⟩, ⟨9, d, 43⟩, ⟨18, imm, 16⟩, ⟨4, m, 12⟩, ⟨5, t, 7⟩]) rfl rfl rfl rfl rfl (by decide) (by decide) fun x ho hf => ?_
  have ho : fld x 56 8 = 73 := ho
  have e_g : fb x 52 4 = g := fb_eq _ _ _ (hf _ (.head _))
  have e_d : fb x 43 9 = d := fb_eq _ _ _ (hf _ (.tail _ (.head _)))
  have e_imm : fb x 16 18 = imm := fb_eq _ _ _ (hf _ (.tail _ (.tail _ (.head _))))
  have e_m : fb x 12 4 = m := fb_eq _ _ _ (hf _ (.tail _ (.tail _ (.tail _ (.head _)))))
  have e_t : fb x 7 5 = t := fb_eq _ _ _ (hf _ (.tail _ (.tail _ (.tail _ (.tail _ (.head _))))))
  unfold readSlot readV
  rw [ho, e_g, e_d, e_imm, e_m, e_t]
  rfl

theorem Coded.vmovi (u : VUnit) (g : BitVec 4) (d : BitVec 9) (imm : BitVec 18) (m : BitVec 4) (t : BitVec 5) : Coded.Statement (.vmovi u g d imm m t) := by
  refine Coded.of_packed (k := (.v u)) (top := 56) (n := 8) (op := 74) (fs := [⟨4, g, 52⟩, ⟨9, d, 43⟩, ⟨18, imm, 16⟩, ⟨4, m, 12⟩, ⟨5, t, 7⟩]) rfl rfl rfl rfl rfl (by decide) (by decide) fun x ho hf => ?_
  have ho : fld x 56 8 = 74 := ho
  have e_g : fb x 52 4 = g := fb_eq _ _ _ (hf _ (.head _))
  have e_d : fb x 43 9 = d := fb_eq _ _ _ (hf _ (.tail _ (.head _)))
  have e_imm : fb x 16 18 = imm := fb_eq _ _ _ (hf _ (.tail _ (.tail _ (.head _))))
  have e_m : fb x 12 4 = m := fb_eq _ _ _ (hf _ (.tail _ (.tail _ (.tail _ (.head _)))))
  have e_t : fb x 7 5 = t := fb_eq _ _ _ (hf _ (.tail _ (.tail _ (.tail _ (.tail _ (.head _))))))
  unfold readSlot readV
  rw [ho, e_g, e_d, e_imm, e_m, e_t]
  rfl

theorem Coded.mand (u : VUnit) (g md ma mb : BitVec 4) : Coded.Statement (.mand u g md ma mb) := by
  refine Coded.of_packed (k := (.v u)) (top := 56) (n := 8) (op := 80) (fs := [⟨4, g, 52⟩, ⟨4, md, 43⟩, ⟨4, ma, 34⟩, ⟨4, mb, 25⟩]) rfl rfl rfl rfl rfl (by decide) (by decide) fun x ho hf => ?_
  have ho : fld x 56 8 = 80 := ho
  have e_g : fb x 52 4 = g := fb_eq _ _ _ (hf _ (.head _))
  have e_md : fb x 43 4 = md := fb_eq _ _ _ (hf _ (.tail _ (.head _)))
  have e_ma : fb x 34 4 = ma := fb_eq _ _ _ (hf _ (.tail _ (.tail _ (.head _))))
  have e_mb : fb x 25 4 = mb := fb_eq _ _ _ (hf _ (.tail _ (.tail _ (.tail _ (.head _)))))
  unfold readSlot readV
  rw [ho, e_g, e_md, e_ma, e_mb]
  rfl

theorem Coded.mor (u : VUnit) (g md ma mb : BitVec 4) : Coded.Statement (.mor u g md ma mb) := by
  refine Coded.of_packed (k := (.v u)) (top := 56) (n := 8) (op := 81) (fs := [⟨4, g, 52⟩, ⟨4, md, 43⟩, ⟨4, ma, 34⟩, ⟨4, mb, 25⟩]) rfl rfl rfl rfl rfl (by decide) (by decide) fun x ho hf => ?_
  have ho : fld x 56 8 = 81 := ho
  have e_g : fb x 52 4 = g := fb_eq _ _ _ (hf _ (.head _))
  have e_md : fb x 43 4 = md := fb_eq _ _ _ (hf _ (.tail _ (.head _)))
  have e_ma : fb x 34 4 = ma := fb_eq _ _ _ (hf _ (.tail _ (.tail _ (.head _))))
  have e_mb : fb x 25 4 = mb := fb_eq _ _ _ (hf _ (.tail _ (.tail _ (.tail _ (.head _)))))
  unfold readSlot readV
  rw [ho, e_g, e_md, e_ma, e_mb]
  rfl

theorem Coded.mxor (u : VUnit) (g md ma mb : BitVec 4) : Coded.Statement (.mxor u g md ma mb) := by
  refine Coded.of_packed (k := (.v u)) (top := 56) (n := 8) (op := 82) (fs := [⟨4, g, 52⟩, ⟨4, md, 43⟩, ⟨4, ma, 34⟩, ⟨4, mb, 25⟩]) rfl rfl rfl rfl rfl (by decide) (by decide) fun x ho hf => ?_
  have ho : fld x 56 8 = 82 := ho
  have e_g : fb x 52 4 = g := fb_eq _ _ _ (hf _ (.head _))
  have e_md : fb x 43 4 = md := fb_eq _ _ _ (hf _ (.tail _ (.head _)))
  have e_ma : fb x 34 4 = ma := fb_eq _ _ _ (hf _ (.tail _ (.tail _ (.head _))))
  have e_mb : fb x 25 4 = mb := fb_eq _ _ _ (hf _ (.tail _ (.tail _ (.tail _ (.head _)))))
  unfold readSlot readV
  rw [ho, e_g, e_md, e_ma, e_mb]
  rfl

theorem Coded.mnot (u : VUnit) (g md ma : BitVec 4) : Coded.Statement (.mnot u g md ma) := by
  refine Coded.of_packed (k := (.v u)) (top := 56) (n := 8) (op := 83) (fs := [⟨4, g, 52⟩, ⟨4, md, 43⟩, ⟨4, ma, 34⟩]) rfl rfl rfl rfl rfl (by decide) (by decide) fun x ho hf => ?_
  have ho : fld x 56 8 = 83 := ho
  have e_g : fb x 52 4 = g := fb_eq _ _ _ (hf _ (.head _))
  have e_md : fb x 43 4 = md := fb_eq _ _ _ (hf _ (.tail _ (.head _)))
  have e_ma : fb x 34 4 = ma := fb_eq _ _ _ (hf _ (.tail _ (.tail _ (.head _))))
  unfold readSlot readV
  rw [ho, e_g, e_md, e_ma]
  rfl

theorem Coded.mpopc (u : VUnit) (g : BitVec 4) (d : BitVec 9) (ms m : BitVec 4) (t : BitVec 5) : Coded.Statement (.mpopc u g d ms m t) := by
  refine Coded.of_packed (k := (.v u)) (top := 56) (n := 8) (op := 84) (fs := [⟨4, g, 52⟩, ⟨9, d, 43⟩, ⟨4, ms, 34⟩, ⟨4, m, 12⟩, ⟨5, t, 7⟩]) rfl rfl rfl rfl rfl (by decide) (by decide) fun x ho hf => ?_
  have ho : fld x 56 8 = 84 := ho
  have e_g : fb x 52 4 = g := fb_eq _ _ _ (hf _ (.head _))
  have e_d : fb x 43 9 = d := fb_eq _ _ _ (hf _ (.tail _ (.head _)))
  have e_ms : fb x 34 4 = ms := fb_eq _ _ _ (hf _ (.tail _ (.tail _ (.head _))))
  have e_m : fb x 12 4 = m := fb_eq _ _ _ (hf _ (.tail _ (.tail _ (.tail _ (.head _)))))
  have e_t : fb x 7 5 = t := fb_eq _ _ _ (hf _ (.tail _ (.tail _ (.tail _ (.tail _ (.head _))))))
  unfold readSlot readV
  rw [ho, e_g, e_d, e_ms, e_m, e_t]
  rfl

theorem Coded.mfirst (u : VUnit) (g : BitVec 4) (d : BitVec 9) (ms m : BitVec 4) (t : BitVec 5) : Coded.Statement (.mfirst u g d ms m t) := by
  refine Coded.of_packed (k := (.v u)) (top := 56) (n := 8) (op := 85) (fs := [⟨4, g, 52⟩, ⟨9, d, 43⟩, ⟨4, ms, 34⟩, ⟨4, m, 12⟩, ⟨5, t, 7⟩]) rfl rfl rfl rfl rfl (by decide) (by decide) fun x ho hf => ?_
  have ho : fld x 56 8 = 85 := ho
  have e_g : fb x 52 4 = g := fb_eq _ _ _ (hf _ (.head _))
  have e_d : fb x 43 9 = d := fb_eq _ _ _ (hf _ (.tail _ (.head _)))
  have e_ms : fb x 34 4 = ms := fb_eq _ _ _ (hf _ (.tail _ (.tail _ (.head _))))
  have e_m : fb x 12 4 = m := fb_eq _ _ _ (hf _ (.tail _ (.tail _ (.tail _ (.head _)))))
  have e_t : fb x 7 5 = t := fb_eq _ _ _ (hf _ (.tail _ (.tail _ (.tail _ (.tail _ (.head _))))))
  unfold readSlot readV
  rw [ho, e_g, e_d, e_ms, e_m, e_t]
  rfl

theorem Coded.vrng (u : VUnit) (g : BitVec 4) (d a b : BitVec 9) (m : BitVec 4) (t : BitVec 5) : Coded.Statement (.vrng u g d a b m t) := by
  refine Coded.of_packed (k := (.v u)) (top := 56) (n := 8) (op := 96) (fs := [⟨4, g, 52⟩, ⟨9, d, 43⟩, ⟨9, a, 34⟩, ⟨9, b, 25⟩, ⟨4, m, 12⟩, ⟨5, t, 7⟩]) rfl rfl rfl rfl rfl (by decide) (by decide) fun x ho hf => ?_
  have ho : fld x 56 8 = 96 := ho
  have e_g : fb x 52 4 = g := fb_eq _ _ _ (hf _ (.head _))
  have e_d : fb x 43 9 = d := fb_eq _ _ _ (hf _ (.tail _ (.head _)))
  have e_a : fb x 34 9 = a := fb_eq _ _ _ (hf _ (.tail _ (.tail _ (.head _))))
  have e_b : fb x 25 9 = b := fb_eq _ _ _ (hf _ (.tail _ (.tail _ (.tail _ (.head _)))))
  have e_m : fb x 12 4 = m := fb_eq _ _ _ (hf _ (.tail _ (.tail _ (.tail _ (.tail _ (.head _))))))
  have e_t : fb x 7 5 = t := fb_eq _ _ _ (hf _ (.tail _ (.tail _ (.tail _ (.tail _ (.tail _ (.head _)))))))
  unfold readSlot readV
  rw [ho, e_g, e_d, e_a, e_b, e_m, e_t]
  rfl

theorem Coded.vrngF (u : VUnit) (g : BitVec 4) (d a : BitVec 9) (m : BitVec 4) (t : BitVec 5) : Coded.Statement (.vrngF u g d a m t) := by
  refine Coded.of_packed (k := (.v u)) (top := 56) (n := 8) (op := 97) (fs := [⟨4, g, 52⟩, ⟨9, d, 43⟩, ⟨9, a, 34⟩, ⟨4, m, 12⟩, ⟨5, t, 7⟩]) rfl rfl rfl rfl rfl (by decide) (by decide) fun x ho hf => ?_
  have ho : fld x 56 8 = 97 := ho
  have e_g : fb x 52 4 = g := fb_eq _ _ _ (hf _ (.head _))
  have e_d : fb x 43 9 = d := fb_eq _ _ _ (hf _ (.tail _ (.head _)))
  have e_a : fb x 34 9 = a := fb_eq _ _ _ (hf _ (.tail _ (.tail _ (.head _))))
  have e_m : fb x 12 4 = m := fb_eq _ _ _ (hf _ (.tail _ (.tail _ (.tail _ (.head _)))))
  have e_t : fb x 7 5 = t := fb_eq _ _ _ (hf _ (.tail _ (.tail _ (.tail _ (.tail _ (.head _))))))
  unfold readSlot readV
  rw [ho, e_g, e_d, e_a, e_m, e_t]
  rfl

theorem Coded.movVs (u : VUnit) (g : BitVec 4) (d : BitVec 6) (a : BitVec 9) (lane : BitVec 4) : Coded.Statement (.movVs u g d a lane) := by
  refine Coded.of_packed (k := (.v u)) (top := 56) (n := 8) (op := 112) (fs := [⟨4, g, 52⟩, ⟨6, d, 43⟩, ⟨9, a, 34⟩, ⟨4, lane, 16⟩]) rfl rfl rfl rfl rfl (by decide) (by decide) fun x ho hf => ?_
  have ho : fld x 56 8 = 112 := ho
  have e_g : fb x 52 4 = g := fb_eq _ _ _ (hf _ (.head _))
  have e_d : fb x 43 6 = d := fb_eq _ _ _ (hf _ (.tail _ (.head _)))
  have e_a : fb x 34 9 = a := fb_eq _ _ _ (hf _ (.tail _ (.tail _ (.head _))))
  have e_lane : fb x 16 4 = lane := fb_eq _ _ _ (hf _ (.tail _ (.tail _ (.tail _ (.head _)))))
  unfold readSlot readV
  rw [ho, e_g, e_d, e_a, e_lane]
  rfl

theorem Coded.movMg (u : VUnit) (g : BitVec 4) (gd : BitVec 3) (ms mg : BitVec 4) : Coded.Statement (.movMg u g gd ms mg) := by
  refine Coded.of_packed (k := (.v u)) (top := 56) (n := 8) (op := 113) (fs := [⟨4, g, 52⟩, ⟨3, gd, 43⟩, ⟨4, ms, 34⟩, ⟨4, mg, 16⟩]) rfl rfl rfl rfl rfl (by decide) (by decide) fun x ho hf => ?_
  have ho : fld x 56 8 = 113 := ho
  have e_g : fb x 52 4 = g := fb_eq _ _ _ (hf _ (.head _))
  have e_gd : fb x 43 3 = gd := fb_eq _ _ _ (hf _ (.tail _ (.head _)))
  have e_ms : fb x 34 4 = ms := fb_eq _ _ _ (hf _ (.tail _ (.tail _ (.head _))))
  have e_mg : fb x 16 4 = mg := fb_eq _ _ _ (hf _ (.tail _ (.tail _ (.tail _ (.head _)))))
  unfold readSlot readV
  rw [ho, e_g, e_gd, e_ms, e_mg]
  rfl

theorem Coded.movVx (u : VUnit) (g : BitVec 4) (d : BitVec 5) (a : BitVec 9) (lane : BitVec 5) : Coded.Statement (.movVx u g d a lane) := by
  refine Coded.of_packed (k := (.v u)) (top := 56) (n := 8) (op := 114) (fs := [⟨4, g, 52⟩, ⟨5, d, 43⟩, ⟨9, a, 34⟩, ⟨5, lane, 16⟩]) rfl rfl rfl rfl rfl (by decide) (by decide) fun x ho hf => ?_
  have ho : fld x 56 8 = 114 := ho
  have e_g : fb x 52 4 = g := fb_eq _ _ _ (hf _ (.head _))
  have e_d : fb x 43 5 = d := fb_eq _ _ _ (hf _ (.tail _ (.head _)))
  have e_a : fb x 34 9 = a := fb_eq _ _ _ (hf _ (.tail _ (.tail _ (.head _))))
  have e_lane : fb x 16 5 = lane := fb_eq _ _ _ (hf _ (.tail _ (.tail _ (.tail _ (.head _)))))
  unfold readSlot readV
  rw [ho, e_g, e_d, e_a, e_lane]
  rfl

theorem Coded.mcall (g : BitVec 4) (ix sn : BitVec 6) (imm : BitVec 34) : Coded.Statement (.mcall g ix sn imm) := by
  refine Coded.of_packed (k := .m) (top := 56) (n := 8) (op := 1) (fs := [⟨4, g, 52⟩, ⟨6, ix, 46⟩, ⟨6, sn, 34⟩, ⟨34, imm, 0⟩]) rfl rfl rfl rfl rfl (by decide) (by decide) fun x ho hf => ?_
  have ho : fld x 56 8 = 1 := ho
  have e_g : fb x 52 4 = g := fb_eq _ _ _ (hf _ (.head _))
  have e_ix : fb x 46 6 = ix := fb_eq _ _ _ (hf _ (.tail _ (.head _)))
  have e_sn : fb x 34 6 = sn := fb_eq _ _ _ (hf _ (.tail _ (.tail _ (.head _))))
  have e_imm : fb x 0 34 = imm := fb_eq _ _ _ (hf _ (.tail _ (.tail _ (.tail _ (.head _)))))
  unfold readSlot readM
  rw [ho, e_g, e_ix, e_sn, e_imm]
  rfl

theorem Coded.mparami (g : BitVec 4) (k : BitVec 3) (imm : BitVec 31) : Coded.Statement (.mparami g k imm) := by
  refine Coded.of_packed (k := .m) (top := 56) (n := 8) (op := 2) (fs := [⟨4, g, 52⟩, ⟨3, k, 31⟩, ⟨31, imm, 0⟩]) rfl rfl rfl rfl rfl (by decide) (by decide) fun x ho hf => ?_
  have ho : fld x 56 8 = 2 := ho
  have e_g : fb x 52 4 = g := fb_eq _ _ _ (hf _ (.head _))
  have e_k : fb x 31 3 = k := fb_eq _ _ _ (hf _ (.tail _ (.head _)))
  have e_imm : fb x 0 31 = imm := fb_eq _ _ _ (hf _ (.tail _ (.tail _ (.head _))))
  unfold readSlot readM
  rw [ho, e_g, e_k, e_imm]
  rfl

theorem Coded.mzero (g : BitVec 4) (sn : BitVec 6) (col : BitVec 9) : Coded.Statement (.mzero g sn col) := by
  refine Coded.of_packed (k := .m) (top := 56) (n := 8) (op := 3) (fs := [⟨4, g, 52⟩, ⟨6, sn, 34⟩, ⟨9, col, 0⟩]) rfl rfl rfl rfl rfl (by decide) (by decide) fun x ho hf => ?_
  have ho : fld x 56 8 = 3 := ho
  have e_g : fb x 52 4 = g := fb_eq _ _ _ (hf _ (.head _))
  have e_sn : fb x 34 6 = sn := fb_eq _ _ _ (hf _ (.tail _ (.head _)))
  have e_col : fb x 0 9 = col := fb_eq _ _ _ (hf _ (.tail _ (.tail _ (.head _))))
  unfold readSlot readM
  rw [ho, e_g, e_sn, e_col]
  rfl

theorem Coded.mdrainV (g : BitVec 4) (d : BitVec 9) (row : BitVec 7) (col : BitVec 9) (z : BitVec 1) : Coded.Statement (.mdrainV g d row col z) := by
  refine Coded.of_packed (k := .m) (top := 56) (n := 8) (op := 4) (fs := [⟨4, g, 52⟩, ⟨9, d, 25⟩, ⟨7, row, 18⟩, ⟨9, col, 9⟩, ⟨1, z, 0⟩]) rfl rfl rfl rfl rfl (by decide) (by decide) fun x ho hf => ?_
  have ho : fld x 56 8 = 4 := ho
  have e_g : fb x 52 4 = g := fb_eq _ _ _ (hf _ (.head _))
  have e_d : fb x 25 9 = d := fb_eq _ _ _ (hf _ (.tail _ (.head _)))
  have e_row : fb x 18 7 = row := fb_eq _ _ _ (hf _ (.tail _ (.tail _ (.head _))))
  have e_col : fb x 9 9 = col := fb_eq _ _ _ (hf _ (.tail _ (.tail _ (.tail _ (.head _)))))
  have e_z : fb x 0 1 = z := fb_eq _ _ _ (hf _ (.tail _ (.tail _ (.tail _ (.tail _ (.head _))))))
  unfold readSlot readM
  rw [ho, e_g, e_d, e_row, e_col, e_z]
  rfl

theorem Coded.mdrainP (g : BitVec 4) (sn : BitVec 6) (mode : BitVec 3) (fmt : BitVec 5) (col : BitVec 9) (row rows : BitVec 7) (z : BitVec 1) : Coded.Statement (.mdrainP g sn mode fmt col row rows z) := by
  refine Coded.of_packed (k := .m) (top := 56) (n := 8) (op := 5) (fs := [⟨4, g, 52⟩, ⟨6, sn, 34⟩, ⟨3, mode, 31⟩, ⟨5, fmt, 26⟩, ⟨9, col, 17⟩, ⟨7, row, 10⟩, ⟨7, rows, 3⟩, ⟨1, z, 2⟩]) rfl rfl rfl rfl rfl (by decide) (by decide) fun x ho hf => ?_
  have ho : fld x 56 8 = 5 := ho
  have e_g : fb x 52 4 = g := fb_eq _ _ _ (hf _ (.head _))
  have e_sn : fb x 34 6 = sn := fb_eq _ _ _ (hf _ (.tail _ (.head _)))
  have e_mode : fb x 31 3 = mode := fb_eq _ _ _ (hf _ (.tail _ (.tail _ (.head _))))
  have e_fmt : fb x 26 5 = fmt := fb_eq _ _ _ (hf _ (.tail _ (.tail _ (.tail _ (.head _)))))
  have e_col : fb x 17 9 = col := fb_eq _ _ _ (hf _ (.tail _ (.tail _ (.tail _ (.tail _ (.head _))))))
  have e_row : fb x 10 7 = row := fb_eq _ _ _ (hf _ (.tail _ (.tail _ (.tail _ (.tail _ (.tail _ (.head _)))))))
  have e_rows : fb x 3 7 = rows := fb_eq _ _ _ (hf _ (.tail _ (.tail _ (.tail _ (.tail _ (.tail _ (.tail _ (.head _))))))))
  have e_z : fb x 2 1 = z := fb_eq _ _ _ (hf _ (.tail _ (.tail _ (.tail _ (.tail _ (.tail _ (.tail _ (.tail _ (.head _)))))))))
  unfold readSlot readM
  rw [ho, e_g, e_sn, e_mode, e_fmt, e_col, e_row, e_rows, e_z]
  rfl

theorem Coded.mwait (g k : BitVec 4) : Coded.Statement (.mwait g k) := by
  refine Coded.of_packed (k := .m) (top := 56) (n := 8) (op := 6) (fs := [⟨4, g, 52⟩, ⟨4, k, 0⟩]) rfl rfl rfl rfl rfl (by decide) (by decide) fun x ho hf => ?_
  have ho : fld x 56 8 = 6 := ho
  have e_g : fb x 52 4 = g := fb_eq _ _ _ (hf _ (.head _))
  have e_k : fb x 0 4 = k := fb_eq _ _ _ (hf _ (.tail _ (.head _)))
  unfold readSlot readM
  rw [ho, e_g, e_k]
  rfl

theorem Coded.mucodeLd (g : BitVec 4) (ix : BitVec 6) (words : BitVec 10) (off : BitVec 20) : Coded.Statement (.mucodeLd g ix words off) := by
  refine Coded.of_packed (k := .m) (top := 56) (n := 8) (op := 7) (fs := [⟨4, g, 52⟩, ⟨6, ix, 46⟩, ⟨10, words, 24⟩, ⟨20, off, 0⟩]) rfl rfl rfl rfl rfl (by decide) (by decide) fun x ho hf => ?_
  have ho : fld x 56 8 = 7 := ho
  have e_g : fb x 52 4 = g := fb_eq _ _ _ (hf _ (.head _))
  have e_ix : fb x 46 6 = ix := fb_eq _ _ _ (hf _ (.tail _ (.head _)))
  have e_words : fb x 24 10 = words := fb_eq _ _ _ (hf _ (.tail _ (.tail _ (.head _))))
  have e_off : fb x 0 20 = off := fb_eq _ _ _ (hf _ (.tail _ (.tail _ (.tail _ (.head _)))))
  unfold readSlot readM
  rw [ho, e_g, e_ix, e_words, e_off]
  rfl

theorem Coded.mwit (g : BitVec 4) (on : BitVec 1) : Coded.Statement (.mwit g on) := by
  refine Coded.of_packed (k := .m) (top := 56) (n := 8) (op := 8) (fs := [⟨4, g, 52⟩, ⟨1, on, 0⟩]) rfl rfl rfl rfl rfl (by decide) (by decide) fun x ho hf => ?_
  have ho : fld x 56 8 = 8 := ho
  have e_g : fb x 52 4 = g := fb_eq _ _ _ (hf _ (.head _))
  have e_on : fb x 0 1 = on := fb_eq _ _ _ (hf _ (.tail _ (.head _)))
  unfold readSlot readM
  rw [ho, e_g, e_on]
  rfl

theorem Coded.mflush (g : BitVec 4) : Coded.Statement (.mflush g) := by
  refine Coded.of_packed (k := .m) (top := 56) (n := 8) (op := 9) (fs := [⟨4, g, 52⟩]) rfl rfl rfl rfl rfl (by decide) (by decide) fun x ho hf => ?_
  have ho : fld x 56 8 = 9 := ho
  have e_g : fb x 52 4 = g := fb_eq _ _ _ (hf _ (.head _))
  unfold readSlot readM
  rw [ho, e_g]
  rfl

theorem Coded.mstat (g : BitVec 4) (c : BitVec 1) (off : BitVec 20) : Coded.Statement (.mstat g c off) := by
  refine Coded.of_packed (k := .m) (top := 56) (n := 8) (op := 10) (fs := [⟨4, g, 52⟩, ⟨1, c, 20⟩, ⟨20, off, 0⟩]) rfl rfl rfl rfl rfl (by decide) (by decide) fun x ho hf => ?_
  have ho : fld x 56 8 = 10 := ho
  have e_g : fb x 52 4 = g := fb_eq _ _ _ (hf _ (.head _))
  have e_c : fb x 20 1 = c := fb_eq _ _ _ (hf _ (.tail _ (.head _)))
  have e_off : fb x 0 20 = off := fb_eq _ _ _ (hf _ (.tail _ (.tail _ (.head _))))
  unfold readSlot readM
  rw [ho, e_g, e_c, e_off]
  rfl

theorem Coded.ldS (g : BitVec 4) (d : BitVec 6) (xb : BitVec 5) (off : BitVec 22) (sx : BitVec 1) (sz : BitVec 2) : Coded.Statement (.ldS g d xb off sx sz) := by
  refine Coded.of_packed (k := .ld) (top := 56) (n := 8) (op := 1) (fs := [⟨4, g, 52⟩, ⟨6, d, 43⟩, ⟨5, xb, 38⟩, ⟨22, off, 16⟩, ⟨1, sx, 2⟩, ⟨2, sz, 0⟩]) rfl rfl rfl rfl rfl (by decide) (by decide) fun x ho hf => ?_
  have ho : fld x 56 8 = 1 := ho
  have e_g : fb x 52 4 = g := fb_eq _ _ _ (hf _ (.head _))
  have e_d : fb x 43 6 = d := fb_eq _ _ _ (hf _ (.tail _ (.head _)))
  have e_xb : fb x 38 5 = xb := fb_eq _ _ _ (hf _ (.tail _ (.tail _ (.head _))))
  have e_off : fb x 16 22 = off := fb_eq _ _ _ (hf _ (.tail _ (.tail _ (.tail _ (.head _)))))
  have e_sx : fb x 2 1 = sx := fb_eq _ _ _ (hf _ (.tail _ (.tail _ (.tail _ (.tail _ (.head _))))))
  have e_sz : fb x 0 2 = sz := fb_eq _ _ _ (hf _ (.tail _ (.tail _ (.tail _ (.tail _ (.tail _ (.head _)))))))
  unfold readSlot readLd
  rw [ho, e_g, e_d, e_xb, e_off, e_sx, e_sz]
  rfl

theorem Coded.ldV (g : BitVec 4) (d : BitVec 9) (xb : BitVec 5) (off : BitVec 22) (m : BitVec 4) (t : BitVec 5) : Coded.Statement (.ldV g d xb off m t) := by
  refine Coded.of_packed (k := .ld) (top := 56) (n := 8) (op := 2) (fs := [⟨4, g, 52⟩, ⟨9, d, 43⟩, ⟨5, xb, 38⟩, ⟨22, off, 16⟩, ⟨4, m, 12⟩, ⟨5, t, 7⟩]) rfl rfl rfl rfl rfl (by decide) (by decide) fun x ho hf => ?_
  have ho : fld x 56 8 = 2 := ho
  have e_g : fb x 52 4 = g := fb_eq _ _ _ (hf _ (.head _))
  have e_d : fb x 43 9 = d := fb_eq _ _ _ (hf _ (.tail _ (.head _)))
  have e_xb : fb x 38 5 = xb := fb_eq _ _ _ (hf _ (.tail _ (.tail _ (.head _))))
  have e_off : fb x 16 22 = off := fb_eq _ _ _ (hf _ (.tail _ (.tail _ (.tail _ (.head _)))))
  have e_m : fb x 12 4 = m := fb_eq _ _ _ (hf _ (.tail _ (.tail _ (.tail _ (.tail _ (.head _))))))
  have e_t : fb x 7 5 = t := fb_eq _ _ _ (hf _ (.tail _ (.tail _ (.tail _ (.tail _ (.tail _ (.head _)))))))
  unfold readSlot readLd
  rw [ho, e_g, e_d, e_xb, e_off, e_m, e_t]
  rfl

theorem Coded.ldVs (g : BitVec 4) (d : BitVec 9) (xb : BitVec 5) (off : BitVec 22) (m : BitVec 4) (t : BitVec 5) : Coded.Statement (.ldVs g d xb off m t) := by
  refine Coded.of_packed (k := .ld) (top := 56) (n := 8) (op := 3) (fs := [⟨4, g, 52⟩, ⟨9, d, 43⟩, ⟨5, xb, 38⟩, ⟨22, off, 16⟩, ⟨4, m, 12⟩, ⟨5, t, 7⟩]) rfl rfl rfl rfl rfl (by decide) (by decide) fun x ho hf => ?_
  have ho : fld x 56 8 = 3 := ho
  have e_g : fb x 52 4 = g := fb_eq _ _ _ (hf _ (.head _))
  have e_d : fb x 43 9 = d := fb_eq _ _ _ (hf _ (.tail _ (.head _)))
  have e_xb : fb x 38 5 = xb := fb_eq _ _ _ (hf _ (.tail _ (.tail _ (.head _))))
  have e_off : fb x 16 22 = off := fb_eq _ _ _ (hf _ (.tail _ (.tail _ (.tail _ (.head _)))))
  have e_m : fb x 12 4 = m := fb_eq _ _ _ (hf _ (.tail _ (.tail _ (.tail _ (.tail _ (.head _))))))
  have e_t : fb x 7 5 = t := fb_eq _ _ _ (hf _ (.tail _ (.tail _ (.tail _ (.tail _ (.tail _ (.head _)))))))
  unfold readSlot readLd
  rw [ho, e_g, e_d, e_xb, e_off, e_m, e_t]
  rfl

theorem Coded.ldVg (g : BitVec 4) (d : BitVec 9) (xb : BitVec 5) (vi : BitVec 9) (m : BitVec 4) (t : BitVec 5) : Coded.Statement (.ldVg g d xb vi m t) := by
  refine Coded.of_packed (k := .ld) (top := 56) (n := 8) (op := 4) (fs := [⟨4, g, 52⟩, ⟨9, d, 43⟩, ⟨5, xb, 38⟩, ⟨9, vi, 29⟩, ⟨4, m, 12⟩, ⟨5, t, 7⟩]) rfl rfl rfl rfl rfl (by decide) (by decide) fun x ho hf => ?_
  have ho : fld x 56 8 = 4 := ho
  have e_g : fb x 52 4 = g := fb_eq _ _ _ (hf _ (.head _))
  have e_d : fb x 43 9 = d := fb_eq _ _ _ (hf _ (.tail _ (.head _)))
  have e_xb : fb x 38 5 = xb := fb_eq _ _ _ (hf _ (.tail _ (.tail _ (.head _))))
  have e_vi : fb x 29 9 = vi := fb_eq _ _ _ (hf _ (.tail _ (.tail _ (.tail _ (.head _)))))
  have e_m : fb x 12 4 = m := fb_eq _ _ _ (hf _ (.tail _ (.tail _ (.tail _ (.tail _ (.head _))))))
  have e_t : fb x 7 5 = t := fb_eq _ _ _ (hf _ (.tail _ (.tail _ (.tail _ (.tail _ (.tail _ (.head _)))))))
  unfold readSlot readLd
  rw [ho, e_g, e_d, e_xb, e_vi, e_m, e_t]
  rfl

theorem Coded.ldM (g md : BitVec 4) (xb : BitVec 5) (off : BitVec 22) : Coded.Statement (.ldM g md xb off) := by
  refine Coded.of_packed (k := .ld) (top := 56) (n := 8) (op := 5) (fs := [⟨4, g, 52⟩, ⟨4, md, 43⟩, ⟨5, xb, 38⟩, ⟨22, off, 16⟩]) rfl rfl rfl rfl rfl (by decide) (by decide) fun x ho hf => ?_
  have ho : fld x 56 8 = 5 := ho
  have e_g : fb x 52 4 = g := fb_eq _ _ _ (hf _ (.head _))
  have e_md : fb x 43 4 = md := fb_eq _ _ _ (hf _ (.tail _ (.head _)))
  have e_xb : fb x 38 5 = xb := fb_eq _ _ _ (hf _ (.tail _ (.tail _ (.head _))))
  have e_off : fb x 16 22 = off := fb_eq _ _ _ (hf _ (.tail _ (.tail _ (.tail _ (.head _)))))
  unfold readSlot readLd
  rw [ho, e_g, e_md, e_xb, e_off]
  rfl

theorem Coded.ldhS (g : BitVec 4) (d : BitVec 6) (h xo : BitVec 5) (imm : BitVec 17) (sx : BitVec 1) (sz : BitVec 2) : Coded.Statement (.ldhS g d h xo imm sx sz) := by
  refine Coded.of_packed (k := .ld) (top := 56) (n := 8) (op := 6) (fs := [⟨4, g, 52⟩, ⟨6, d, 43⟩, ⟨5, h, 38⟩, ⟨5, xo, 33⟩, ⟨17, imm, 16⟩, ⟨1, sx, 2⟩, ⟨2, sz, 0⟩]) rfl rfl rfl rfl rfl (by decide) (by decide) fun x ho hf => ?_
  have ho : fld x 56 8 = 6 := ho
  have e_g : fb x 52 4 = g := fb_eq _ _ _ (hf _ (.head _))
  have e_d : fb x 43 6 = d := fb_eq _ _ _ (hf _ (.tail _ (.head _)))
  have e_h : fb x 38 5 = h := fb_eq _ _ _ (hf _ (.tail _ (.tail _ (.head _))))
  have e_xo : fb x 33 5 = xo := fb_eq _ _ _ (hf _ (.tail _ (.tail _ (.tail _ (.head _)))))
  have e_imm : fb x 16 17 = imm := fb_eq _ _ _ (hf _ (.tail _ (.tail _ (.tail _ (.tail _ (.head _))))))
  have e_sx : fb x 2 1 = sx := fb_eq _ _ _ (hf _ (.tail _ (.tail _ (.tail _ (.tail _ (.tail _ (.head _)))))))
  have e_sz : fb x 0 2 = sz := fb_eq _ _ _ (hf _ (.tail _ (.tail _ (.tail _ (.tail _ (.tail _ (.tail _ (.head _))))))))
  unfold readSlot readLd
  rw [ho, e_g, e_d, e_h, e_xo, e_imm, e_sx, e_sz]
  rfl

theorem Coded.ldhV (g : BitVec 4) (d : BitVec 9) (h xo : BitVec 5) (imm : BitVec 17) (m : BitVec 4) (t : BitVec 5) : Coded.Statement (.ldhV g d h xo imm m t) := by
  refine Coded.of_packed (k := .ld) (top := 56) (n := 8) (op := 7) (fs := [⟨4, g, 52⟩, ⟨9, d, 43⟩, ⟨5, h, 38⟩, ⟨5, xo, 33⟩, ⟨17, imm, 16⟩, ⟨4, m, 12⟩, ⟨5, t, 7⟩]) rfl rfl rfl rfl rfl (by decide) (by decide) fun x ho hf => ?_
  have ho : fld x 56 8 = 7 := ho
  have e_g : fb x 52 4 = g := fb_eq _ _ _ (hf _ (.head _))
  have e_d : fb x 43 9 = d := fb_eq _ _ _ (hf _ (.tail _ (.head _)))
  have e_h : fb x 38 5 = h := fb_eq _ _ _ (hf _ (.tail _ (.tail _ (.head _))))
  have e_xo : fb x 33 5 = xo := fb_eq _ _ _ (hf _ (.tail _ (.tail _ (.tail _ (.head _)))))
  have e_imm : fb x 16 17 = imm := fb_eq _ _ _ (hf _ (.tail _ (.tail _ (.tail _ (.tail _ (.head _))))))
  have e_m : fb x 12 4 = m := fb_eq _ _ _ (hf _ (.tail _ (.tail _ (.tail _ (.tail _ (.tail _ (.head _)))))))
  have e_t : fb x 7 5 = t := fb_eq _ _ _ (hf _ (.tail _ (.tail _ (.tail _ (.tail _ (.tail _ (.tail _ (.head _))))))))
  unfold readSlot readLd
  rw [ho, e_g, e_d, e_h, e_xo, e_imm, e_m, e_t]
  rfl

theorem Coded.vfill (g : BitVec 4) (d : BitVec 9) (xb : BitVec 5) (off : BitVec 22) : Coded.Statement (.vfill g d xb off) := by
  refine Coded.of_packed (k := .ld) (top := 56) (n := 8) (op := 8) (fs := [⟨4, g, 52⟩, ⟨9, d, 43⟩, ⟨5, xb, 38⟩, ⟨22, off, 16⟩]) rfl rfl rfl rfl rfl (by decide) (by decide) fun x ho hf => ?_
  have ho : fld x 56 8 = 8 := ho
  have e_g : fb x 52 4 = g := fb_eq _ _ _ (hf _ (.head _))
  have e_d : fb x 43 9 = d := fb_eq _ _ _ (hf _ (.tail _ (.head _)))
  have e_xb : fb x 38 5 = xb := fb_eq _ _ _ (hf _ (.tail _ (.tail _ (.head _))))
  have e_off : fb x 16 22 = off := fb_eq _ _ _ (hf _ (.tail _ (.tail _ (.tail _ (.head _)))))
  unfold readSlot readLd
  rw [ho, e_g, e_d, e_xb, e_off]
  rfl

theorem Coded.translate (g : BitVec 4) (a : BitVec 6) (h : BitVec 5) (rw : BitVec 2) : Coded.Statement (.translate g a h rw) := by
  refine Coded.of_packed (k := .ld) (top := 56) (n := 8) (op := 9) (fs := [⟨4, g, 52⟩, ⟨6, a, 43⟩, ⟨5, h, 38⟩, ⟨2, rw, 0⟩]) rfl rfl rfl rfl rfl (by decide) (by decide) fun x ho hf => ?_
  have ho : fld x 56 8 = 9 := ho
  have e_g : fb x 52 4 = g := fb_eq _ _ _ (hf _ (.head _))
  have e_a : fb x 43 6 = a := fb_eq _ _ _ (hf _ (.tail _ (.head _)))
  have e_h : fb x 38 5 = h := fb_eq _ _ _ (hf _ (.tail _ (.tail _ (.head _))))
  have e_rw : fb x 0 2 = rw := fb_eq _ _ _ (hf _ (.tail _ (.tail _ (.tail _ (.head _)))))
  unfold readSlot readLd
  rw [ho, e_g, e_a, e_h, e_rw]
  rfl

theorem Coded.hdrop (g : BitVec 4) (h : BitVec 5) : Coded.Statement (.hdrop g h) := by
  refine Coded.of_packed (k := .ld) (top := 56) (n := 8) (op := 10) (fs := [⟨4, g, 52⟩, ⟨5, h, 38⟩]) rfl rfl rfl rfl rfl (by decide) (by decide) fun x ho hf => ?_
  have ho : fld x 56 8 = 10 := ho
  have e_g : fb x 52 4 = g := fb_eq _ _ _ (hf _ (.head _))
  have e_h : fb x 38 5 = h := fb_eq _ _ _ (hf _ (.tail _ (.head _)))
  unfold readSlot readLd
  rw [ho, e_g, e_h]
  rfl

theorem Coded.recv (g : BitVec 4) (d : BitVec 9) (rank : BitVec 4) (facet : BitVec 2) (lane : BitVec 3) (dir : BitVec 1) : Coded.Statement (.recv g d rank facet lane dir) := by
  refine Coded.of_packed (k := .ld) (top := 56) (n := 8) (op := 11) (fs := [⟨4, g, 52⟩, ⟨9, d, 43⟩, ⟨4, rank, 34⟩, ⟨2, facet, 32⟩, ⟨3, lane, 29⟩, ⟨1, dir, 28⟩]) rfl rfl rfl rfl rfl (by decide) (by decide) fun x ho hf => ?_
  have ho : fld x 56 8 = 11 := ho
  have e_g : fb x 52 4 = g := fb_eq _ _ _ (hf _ (.head _))
  have e_d : fb x 43 9 = d := fb_eq _ _ _ (hf _ (.tail _ (.head _)))
  have e_rank : fb x 34 4 = rank := fb_eq _ _ _ (hf _ (.tail _ (.tail _ (.head _))))
  have e_facet : fb x 32 2 = facet := fb_eq _ _ _ (hf _ (.tail _ (.tail _ (.tail _ (.head _)))))
  have e_lane : fb x 29 3 = lane := fb_eq _ _ _ (hf _ (.tail _ (.tail _ (.tail _ (.tail _ (.head _))))))
  have e_dir : fb x 28 1 = dir := fb_eq _ _ _ (hf _ (.tail _ (.tail _ (.tail _ (.tail _ (.tail _ (.head _)))))))
  unfold readSlot readLd
  rw [ho, e_g, e_d, e_rank, e_facet, e_lane, e_dir]
  rfl

theorem Coded.movXs (g : BitVec 4) (d : BitVec 6) (a : BitVec 5) : Coded.Statement (.movXs g d a) := by
  refine Coded.of_packed (k := .ld) (top := 56) (n := 8) (op := 12) (fs := [⟨4, g, 52⟩, ⟨6, d, 43⟩, ⟨5, a, 34⟩]) rfl rfl rfl rfl rfl (by decide) (by decide) fun x ho hf => ?_
  have ho : fld x 56 8 = 12 := ho
  have e_g : fb x 52 4 = g := fb_eq _ _ _ (hf _ (.head _))
  have e_d : fb x 43 6 = d := fb_eq _ _ _ (hf _ (.tail _ (.head _)))
  have e_a : fb x 34 5 = a := fb_eq _ _ _ (hf _ (.tail _ (.tail _ (.head _))))
  unfold readSlot readLd
  rw [ho, e_g, e_d, e_a]
  rfl

theorem Coded.ldQ (g : BitVec 4) (d : BitVec 9) (xb : BitVec 5) (off : BitVec 22) (m : BitVec 4) (t : BitVec 5) (mf : BitVec 4) : Coded.Statement (.ldQ g d xb off m t mf) := by
  refine Coded.of_packed (k := .ld) (top := 56) (n := 8) (op := 13) (fs := [⟨4, g, 52⟩, ⟨9, d, 43⟩, ⟨5, xb, 38⟩, ⟨22, off, 16⟩, ⟨4, m, 12⟩, ⟨5, t, 7⟩, ⟨4, mf, 0⟩]) rfl rfl rfl rfl rfl (by decide) (by decide) fun x ho hf => ?_
  have ho : fld x 56 8 = 13 := ho
  have e_g : fb x 52 4 = g := fb_eq _ _ _ (hf _ (.head _))
  have e_d : fb x 43 9 = d := fb_eq _ _ _ (hf _ (.tail _ (.head _)))
  have e_xb : fb x 38 5 = xb := fb_eq _ _ _ (hf _ (.tail _ (.tail _ (.head _))))
  have e_off : fb x 16 22 = off := fb_eq _ _ _ (hf _ (.tail _ (.tail _ (.tail _ (.head _)))))
  have e_m : fb x 12 4 = m := fb_eq _ _ _ (hf _ (.tail _ (.tail _ (.tail _ (.tail _ (.head _))))))
  have e_t : fb x 7 5 = t := fb_eq _ _ _ (hf _ (.tail _ (.tail _ (.tail _ (.tail _ (.tail _ (.head _)))))))
  have e_mf : fb x 0 4 = mf := fb_eq _ _ _ (hf _ (.tail _ (.tail _ (.tail _ (.tail _ (.tail _ (.tail _ (.head _))))))))
  unfold readSlot readLd
  rw [ho, e_g, e_d, e_xb, e_off, e_m, e_t, e_mf]
  rfl

theorem Coded.xadd (inSt : Bool) (g : BitVec 4) (d a b : BitVec 5) : Coded.Statement (.xadd inSt g d a b) := by
  cases inSt
  · refine Coded.of_packed (k := .ld) (top := 56) (n := 8) (op := 48) (fs := [⟨4, g, 52⟩, ⟨5, d, 43⟩, ⟨5, a, 38⟩, ⟨5, b, 33⟩]) rfl rfl rfl rfl rfl (by decide) (by decide) fun x ho hf => ?_
    have ho : fld x 56 8 = 48 := ho
    have e_g : fb x 52 4 = g := fb_eq _ _ _ (hf _ (.head _))
    have e_d : fb x 43 5 = d := fb_eq _ _ _ (hf _ (.tail _ (.head _)))
    have e_a : fb x 38 5 = a := fb_eq _ _ _ (hf _ (.tail _ (.tail _ (.head _))))
    have e_b : fb x 33 5 = b := fb_eq _ _ _ (hf _ (.tail _ (.tail _ (.tail _ (.head _)))))
    unfold readSlot readLd
    rw [ho, e_g, e_d, e_a, e_b]
    rfl
  · refine Coded.of_packed (k := .st) (top := 56) (n := 8) (op := 48) (fs := [⟨4, g, 52⟩, ⟨5, d, 43⟩, ⟨5, a, 38⟩, ⟨5, b, 33⟩]) rfl rfl rfl rfl rfl (by decide) (by decide) fun x ho hf => ?_
    have ho : fld x 56 8 = 48 := ho
    have e_g : fb x 52 4 = g := fb_eq _ _ _ (hf _ (.head _))
    have e_d : fb x 43 5 = d := fb_eq _ _ _ (hf _ (.tail _ (.head _)))
    have e_a : fb x 38 5 = a := fb_eq _ _ _ (hf _ (.tail _ (.tail _ (.head _))))
    have e_b : fb x 33 5 = b := fb_eq _ _ _ (hf _ (.tail _ (.tail _ (.tail _ (.head _)))))
    unfold readSlot readSt
    rw [ho, e_g, e_d, e_a, e_b]
    rfl

theorem Coded.xaddi (inSt : Bool) (g : BitVec 4) (d a : BitVec 5) (imm : BitVec 22) : Coded.Statement (.xaddi inSt g d a imm) := by
  cases inSt
  · refine Coded.of_packed (k := .ld) (top := 56) (n := 8) (op := 49) (fs := [⟨4, g, 52⟩, ⟨5, d, 43⟩, ⟨5, a, 38⟩, ⟨22, imm, 16⟩]) rfl rfl rfl rfl rfl (by decide) (by decide) fun x ho hf => ?_
    have ho : fld x 56 8 = 49 := ho
    have e_g : fb x 52 4 = g := fb_eq _ _ _ (hf _ (.head _))
    have e_d : fb x 43 5 = d := fb_eq _ _ _ (hf _ (.tail _ (.head _)))
    have e_a : fb x 38 5 = a := fb_eq _ _ _ (hf _ (.tail _ (.tail _ (.head _))))
    have e_imm : fb x 16 22 = imm := fb_eq _ _ _ (hf _ (.tail _ (.tail _ (.tail _ (.head _)))))
    unfold readSlot readLd
    rw [ho, e_g, e_d, e_a, e_imm]
    rfl
  · refine Coded.of_packed (k := .st) (top := 56) (n := 8) (op := 49) (fs := [⟨4, g, 52⟩, ⟨5, d, 43⟩, ⟨5, a, 38⟩, ⟨22, imm, 16⟩]) rfl rfl rfl rfl rfl (by decide) (by decide) fun x ho hf => ?_
    have ho : fld x 56 8 = 49 := ho
    have e_g : fb x 52 4 = g := fb_eq _ _ _ (hf _ (.head _))
    have e_d : fb x 43 5 = d := fb_eq _ _ _ (hf _ (.tail _ (.head _)))
    have e_a : fb x 38 5 = a := fb_eq _ _ _ (hf _ (.tail _ (.tail _ (.head _))))
    have e_imm : fb x 16 22 = imm := fb_eq _ _ _ (hf _ (.tail _ (.tail _ (.tail _ (.head _)))))
    unfold readSlot readSt
    rw [ho, e_g, e_d, e_a, e_imm]
    rfl

theorem Coded.xli (inSt : Bool) (g : BitVec 4) (d : BitVec 5) (imm : BitVec 22) : Coded.Statement (.xli inSt g d imm) := by
  cases inSt
  · refine Coded.of_packed (k := .ld) (top := 56) (n := 8) (op := 50) (fs := [⟨4, g, 52⟩, ⟨5, d, 43⟩, ⟨22, imm, 16⟩]) rfl rfl rfl rfl rfl (by decide) (by decide) fun x ho hf => ?_
    have ho : fld x 56 8 = 50 := ho
    have e_g : fb x 52 4 = g := fb_eq _ _ _ (hf _ (.head _))
    have e_d : fb x 43 5 = d := fb_eq _ _ _ (hf _ (.tail _ (.head _)))
    have e_imm : fb x 16 22 = imm := fb_eq _ _ _ (hf _ (.tail _ (.tail _ (.head _))))
    unfold readSlot readLd
    rw [ho, e_g, e_d, e_imm]
    rfl
  · refine Coded.of_packed (k := .st) (top := 56) (n := 8) (op := 50) (fs := [⟨4, g, 52⟩, ⟨5, d, 43⟩, ⟨22, imm, 16⟩]) rfl rfl rfl rfl rfl (by decide) (by decide) fun x ho hf => ?_
    have ho : fld x 56 8 = 50 := ho
    have e_g : fb x 52 4 = g := fb_eq _ _ _ (hf _ (.head _))
    have e_d : fb x 43 5 = d := fb_eq _ _ _ (hf _ (.tail _ (.head _)))
    have e_imm : fb x 16 22 = imm := fb_eq _ _ _ (hf _ (.tail _ (.tail _ (.head _))))
    unfold readSlot readSt
    rw [ho, e_g, e_d, e_imm]
    rfl

theorem Coded.xsub (inSt : Bool) (g : BitVec 4) (d a b : BitVec 5) : Coded.Statement (.xsub inSt g d a b) := by
  cases inSt
  · refine Coded.of_packed (k := .ld) (top := 56) (n := 8) (op := 51) (fs := [⟨4, g, 52⟩, ⟨5, d, 43⟩, ⟨5, a, 38⟩, ⟨5, b, 33⟩]) rfl rfl rfl rfl rfl (by decide) (by decide) fun x ho hf => ?_
    have ho : fld x 56 8 = 51 := ho
    have e_g : fb x 52 4 = g := fb_eq _ _ _ (hf _ (.head _))
    have e_d : fb x 43 5 = d := fb_eq _ _ _ (hf _ (.tail _ (.head _)))
    have e_a : fb x 38 5 = a := fb_eq _ _ _ (hf _ (.tail _ (.tail _ (.head _))))
    have e_b : fb x 33 5 = b := fb_eq _ _ _ (hf _ (.tail _ (.tail _ (.tail _ (.head _)))))
    unfold readSlot readLd
    rw [ho, e_g, e_d, e_a, e_b]
    rfl
  · refine Coded.of_packed (k := .st) (top := 56) (n := 8) (op := 51) (fs := [⟨4, g, 52⟩, ⟨5, d, 43⟩, ⟨5, a, 38⟩, ⟨5, b, 33⟩]) rfl rfl rfl rfl rfl (by decide) (by decide) fun x ho hf => ?_
    have ho : fld x 56 8 = 51 := ho
    have e_g : fb x 52 4 = g := fb_eq _ _ _ (hf _ (.head _))
    have e_d : fb x 43 5 = d := fb_eq _ _ _ (hf _ (.tail _ (.head _)))
    have e_a : fb x 38 5 = a := fb_eq _ _ _ (hf _ (.tail _ (.tail _ (.head _))))
    have e_b : fb x 33 5 = b := fb_eq _ _ _ (hf _ (.tail _ (.tail _ (.tail _ (.head _)))))
    unfold readSlot readSt
    rw [ho, e_g, e_d, e_a, e_b]
    rfl

theorem Coded.stS (g : BitVec 4) (a : BitVec 6) (xb : BitVec 5) (off : BitVec 22) (t : BitVec 5) (mode : BitVec 3) (sz : BitVec 2) : Coded.Statement (.stS g a xb off t mode sz) := by
  refine Coded.of_packed (k := .st) (top := 56) (n := 8) (op := 1) (fs := [⟨4, g, 52⟩, ⟨6, a, 43⟩, ⟨5, xb, 38⟩, ⟨22, off, 16⟩, ⟨5, t, 7⟩, ⟨3, mode, 4⟩, ⟨2, sz, 0⟩]) rfl rfl rfl rfl rfl (by decide) (by decide) fun x ho hf => ?_
  have ho : fld x 56 8 = 1 := ho
  have e_g : fb x 52 4 = g := fb_eq _ _ _ (hf _ (.head _))
  have e_a : fb x 43 6 = a := fb_eq _ _ _ (hf _ (.tail _ (.head _)))
  have e_xb : fb x 38 5 = xb := fb_eq _ _ _ (hf _ (.tail _ (.tail _ (.head _))))
  have e_off : fb x 16 22 = off := fb_eq _ _ _ (hf _ (.tail _ (.tail _ (.tail _ (.head _)))))
  have e_t : fb x 7 5 = t := fb_eq _ _ _ (hf _ (.tail _ (.tail _ (.tail _ (.tail _ (.head _))))))
  have e_mode : fb x 4 3 = mode := fb_eq _ _ _ (hf _ (.tail _ (.tail _ (.tail _ (.tail _ (.tail _ (.head _)))))))
  have e_sz : fb x 0 2 = sz := fb_eq _ _ _ (hf _ (.tail _ (.tail _ (.tail _ (.tail _ (.tail _ (.tail _ (.head _))))))))
  unfold readSlot readSt
  rw [ho, e_g, e_a, e_xb, e_off, e_t, e_mode, e_sz]
  rfl

theorem Coded.stV (g : BitVec 4) (a : BitVec 9) (xb : BitVec 5) (off : BitVec 22) (m : BitVec 4) (t : BitVec 5) (mode : BitVec 3) (src : BitVec 4) : Coded.Statement (.stV g a xb off m t mode src) := by
  refine Coded.of_packed (k := .st) (top := 56) (n := 8) (op := 2) (fs := [⟨4, g, 52⟩, ⟨9, a, 43⟩, ⟨5, xb, 38⟩, ⟨22, off, 16⟩, ⟨4, m, 12⟩, ⟨5, t, 7⟩, ⟨3, mode, 4⟩, ⟨4, src, 0⟩]) rfl rfl rfl rfl rfl (by decide) (by decide) fun x ho hf => ?_
  have ho : fld x 56 8 = 2 := ho
  have e_g : fb x 52 4 = g := fb_eq _ _ _ (hf _ (.head _))
  have e_a : fb x 43 9 = a := fb_eq _ _ _ (hf _ (.tail _ (.head _)))
  have e_xb : fb x 38 5 = xb := fb_eq _ _ _ (hf _ (.tail _ (.tail _ (.head _))))
  have e_off : fb x 16 22 = off := fb_eq _ _ _ (hf _ (.tail _ (.tail _ (.tail _ (.head _)))))
  have e_m : fb x 12 4 = m := fb_eq _ _ _ (hf _ (.tail _ (.tail _ (.tail _ (.tail _ (.head _))))))
  have e_t : fb x 7 5 = t := fb_eq _ _ _ (hf _ (.tail _ (.tail _ (.tail _ (.tail _ (.tail _ (.head _)))))))
  have e_mode : fb x 4 3 = mode := fb_eq _ _ _ (hf _ (.tail _ (.tail _ (.tail _ (.tail _ (.tail _ (.tail _ (.head _))))))))
  have e_src : fb x 0 4 = src := fb_eq _ _ _ (hf _ (.tail _ (.tail _ (.tail _ (.tail _ (.tail _ (.tail _ (.tail _ (.head _)))))))))
  unfold readSlot readSt
  rw [ho, e_g, e_a, e_xb, e_off, e_m, e_t, e_mode, e_src]
  rfl

theorem Coded.stVs (g : BitVec 4) (a : BitVec 9) (xb : BitVec 5) (off : BitVec 22) (m : BitVec 4) (t : BitVec 5) (mode : BitVec 3) (src : BitVec 4) : Coded.Statement (.stVs g a xb off m t mode src) := by
  refine Coded.of_packed (k := .st) (top := 56) (n := 8) (op := 3) (fs := [⟨4, g, 52⟩, ⟨9, a, 43⟩, ⟨5, xb, 38⟩, ⟨22, off, 16⟩, ⟨4, m, 12⟩, ⟨5, t, 7⟩, ⟨3, mode, 4⟩, ⟨4, src, 0⟩]) rfl rfl rfl rfl rfl (by decide) (by decide) fun x ho hf => ?_
  have ho : fld x 56 8 = 3 := ho
  have e_g : fb x 52 4 = g := fb_eq _ _ _ (hf _ (.head _))
  have e_a : fb x 43 9 = a := fb_eq _ _ _ (hf _ (.tail _ (.head _)))
  have e_xb : fb x 38 5 = xb := fb_eq _ _ _ (hf _ (.tail _ (.tail _ (.head _))))
  have e_off : fb x 16 22 = off := fb_eq _ _ _ (hf _ (.tail _ (.tail _ (.tail _ (.head _)))))
  have e_m : fb x 12 4 = m := fb_eq _ _ _ (hf _ (.tail _ (.tail _ (.tail _ (.tail _ (.head _))))))
  have e_t : fb x 7 5 = t := fb_eq _ _ _ (hf _ (.tail _ (.tail _ (.tail _ (.tail _ (.tail _ (.head _)))))))
  have e_mode : fb x 4 3 = mode := fb_eq _ _ _ (hf _ (.tail _ (.tail _ (.tail _ (.tail _ (.tail _ (.tail _ (.head _))))))))
  have e_src : fb x 0 4 = src := fb_eq _ _ _ (hf _ (.tail _ (.tail _ (.tail _ (.tail _ (.tail _ (.tail _ (.tail _ (.head _)))))))))
  unfold readSlot readSt
  rw [ho, e_g, e_a, e_xb, e_off, e_m, e_t, e_mode, e_src]
  rfl

theorem Coded.stVx (g : BitVec 4) (a : BitVec 9) (xb : BitVec 5) (vi : BitVec 9) (m : BitVec 4) (t : BitVec 5) (mode : BitVec 3) (src : BitVec 4) : Coded.Statement (.stVx g a xb vi m t mode src) := by
  refine Coded.of_packed (k := .st) (top := 56) (n := 8) (op := 4) (fs := [⟨4, g, 52⟩, ⟨9, a, 43⟩, ⟨5, xb, 38⟩, ⟨9, vi, 29⟩, ⟨4, m, 12⟩, ⟨5, t, 7⟩, ⟨3, mode, 4⟩, ⟨4, src, 0⟩]) rfl rfl rfl rfl rfl (by decide) (by decide) fun x ho hf => ?_
  have ho : fld x 56 8 = 4 := ho
  have e_g : fb x 52 4 = g := fb_eq _ _ _ (hf _ (.head _))
  have e_a : fb x 43 9 = a := fb_eq _ _ _ (hf _ (.tail _ (.head _)))
  have e_xb : fb x 38 5 = xb := fb_eq _ _ _ (hf _ (.tail _ (.tail _ (.head _))))
  have e_vi : fb x 29 9 = vi := fb_eq _ _ _ (hf _ (.tail _ (.tail _ (.tail _ (.head _)))))
  have e_m : fb x 12 4 = m := fb_eq _ _ _ (hf _ (.tail _ (.tail _ (.tail _ (.tail _ (.head _))))))
  have e_t : fb x 7 5 = t := fb_eq _ _ _ (hf _ (.tail _ (.tail _ (.tail _ (.tail _ (.tail _ (.head _)))))))
  have e_mode : fb x 4 3 = mode := fb_eq _ _ _ (hf _ (.tail _ (.tail _ (.tail _ (.tail _ (.tail _ (.tail _ (.head _))))))))
  have e_src : fb x 0 4 = src := fb_eq _ _ _ (hf _ (.tail _ (.tail _ (.tail _ (.tail _ (.tail _ (.tail _ (.tail _ (.head _)))))))))
  unfold readSlot readSt
  rw [ho, e_g, e_a, e_xb, e_vi, e_m, e_t, e_mode, e_src]
  rfl

theorem Coded.stM (g ms : BitVec 4) (xb : BitVec 5) (off : BitVec 22) : Coded.Statement (.stM g ms xb off) := by
  refine Coded.of_packed (k := .st) (top := 56) (n := 8) (op := 5) (fs := [⟨4, g, 52⟩, ⟨4, ms, 43⟩, ⟨5, xb, 38⟩, ⟨22, off, 16⟩]) rfl rfl rfl rfl rfl (by decide) (by decide) fun x ho hf => ?_
  have ho : fld x 56 8 = 5 := ho
  have e_g : fb x 52 4 = g := fb_eq _ _ _ (hf _ (.head _))
  have e_ms : fb x 43 4 = ms := fb_eq _ _ _ (hf _ (.tail _ (.head _)))
  have e_xb : fb x 38 5 = xb := fb_eq _ _ _ (hf _ (.tail _ (.tail _ (.head _))))
  have e_off : fb x 16 22 = off := fb_eq _ _ _ (hf _ (.tail _ (.tail _ (.tail _ (.head _)))))
  unfold readSlot readSt
  rw [ho, e_g, e_ms, e_xb, e_off]
  rfl

theorem Coded.sthS (g : BitVec 4) (a : BitVec 6) (h xo : BitVec 5) (imm : BitVec 17) (t : BitVec 5) (mode : BitVec 3) (sz : BitVec 2) : Coded.Statement (.sthS g a h xo imm t mode sz) := by
  refine Coded.of_packed (k := .st) (top := 56) (n := 8) (op := 6) (fs := [⟨4, g, 52⟩, ⟨6, a, 43⟩, ⟨5, h, 38⟩, ⟨5, xo, 33⟩, ⟨17, imm, 16⟩, ⟨5, t, 7⟩, ⟨3, mode, 4⟩, ⟨2, sz, 0⟩]) rfl rfl rfl rfl rfl (by decide) (by decide) fun x ho hf => ?_
  have ho : fld x 56 8 = 6 := ho
  have e_g : fb x 52 4 = g := fb_eq _ _ _ (hf _ (.head _))
  have e_a : fb x 43 6 = a := fb_eq _ _ _ (hf _ (.tail _ (.head _)))
  have e_h : fb x 38 5 = h := fb_eq _ _ _ (hf _ (.tail _ (.tail _ (.head _))))
  have e_xo : fb x 33 5 = xo := fb_eq _ _ _ (hf _ (.tail _ (.tail _ (.tail _ (.head _)))))
  have e_imm : fb x 16 17 = imm := fb_eq _ _ _ (hf _ (.tail _ (.tail _ (.tail _ (.tail _ (.head _))))))
  have e_t : fb x 7 5 = t := fb_eq _ _ _ (hf _ (.tail _ (.tail _ (.tail _ (.tail _ (.tail _ (.head _)))))))
  have e_mode : fb x 4 3 = mode := fb_eq _ _ _ (hf _ (.tail _ (.tail _ (.tail _ (.tail _ (.tail _ (.tail _ (.head _))))))))
  have e_sz : fb x 0 2 = sz := fb_eq _ _ _ (hf _ (.tail _ (.tail _ (.tail _ (.tail _ (.tail _ (.tail _ (.tail _ (.head _)))))))))
  unfold readSlot readSt
  rw [ho, e_g, e_a, e_h, e_xo, e_imm, e_t, e_mode, e_sz]
  rfl

theorem Coded.sthV (g : BitVec 4) (a : BitVec 9) (h xo : BitVec 5) (imm : BitVec 17) (m : BitVec 4) (t : BitVec 5) (mode : BitVec 3) (src : BitVec 4) : Coded.Statement (.sthV g a h xo imm m t mode src) := by
  refine Coded.of_packed (k := .st) (top := 56) (n := 8) (op := 7) (fs := [⟨4, g, 52⟩, ⟨9, a, 43⟩, ⟨5, h, 38⟩, ⟨5, xo, 33⟩, ⟨17, imm, 16⟩, ⟨4, m, 12⟩, ⟨5, t, 7⟩, ⟨3, mode, 4⟩, ⟨4, src, 0⟩]) rfl rfl rfl rfl rfl (by decide) (by decide) fun x ho hf => ?_
  have ho : fld x 56 8 = 7 := ho
  have e_g : fb x 52 4 = g := fb_eq _ _ _ (hf _ (.head _))
  have e_a : fb x 43 9 = a := fb_eq _ _ _ (hf _ (.tail _ (.head _)))
  have e_h : fb x 38 5 = h := fb_eq _ _ _ (hf _ (.tail _ (.tail _ (.head _))))
  have e_xo : fb x 33 5 = xo := fb_eq _ _ _ (hf _ (.tail _ (.tail _ (.tail _ (.head _)))))
  have e_imm : fb x 16 17 = imm := fb_eq _ _ _ (hf _ (.tail _ (.tail _ (.tail _ (.tail _ (.head _))))))
  have e_m : fb x 12 4 = m := fb_eq _ _ _ (hf _ (.tail _ (.tail _ (.tail _ (.tail _ (.tail _ (.head _)))))))
  have e_t : fb x 7 5 = t := fb_eq _ _ _ (hf _ (.tail _ (.tail _ (.tail _ (.tail _ (.tail _ (.tail _ (.head _))))))))
  have e_mode : fb x 4 3 = mode := fb_eq _ _ _ (hf _ (.tail _ (.tail _ (.tail _ (.tail _ (.tail _ (.tail _ (.tail _ (.head _)))))))))
  have e_src : fb x 0 4 = src := fb_eq _ _ _ (hf _ (.tail _ (.tail _ (.tail _ (.tail _ (.tail _ (.tail _ (.tail _ (.tail _ (.head _))))))))))
  unfold readSlot readSt
  rw [ho, e_g, e_a, e_h, e_xo, e_imm, e_m, e_t, e_mode, e_src]
  rfl

theorem Coded.vspill (g : BitVec 4) (a : BitVec 9) (xb : BitVec 5) (off : BitVec 22) : Coded.Statement (.vspill g a xb off) := by
  refine Coded.of_packed (k := .st) (top := 56) (n := 8) (op := 8) (fs := [⟨4, g, 52⟩, ⟨9, a, 43⟩, ⟨5, xb, 38⟩, ⟨22, off, 16⟩]) rfl rfl rfl rfl rfl (by decide) (by decide) fun x ho hf => ?_
  have ho : fld x 56 8 = 8 := ho
  have e_g : fb x 52 4 = g := fb_eq _ _ _ (hf _ (.head _))
  have e_a : fb x 43 9 = a := fb_eq _ _ _ (hf _ (.tail _ (.head _)))
  have e_xb : fb x 38 5 = xb := fb_eq _ _ _ (hf _ (.tail _ (.tail _ (.head _))))
  have e_off : fb x 16 22 = off := fb_eq _ _ _ (hf _ (.tail _ (.tail _ (.tail _ (.head _)))))
  unfold readSlot readSt
  rw [ho, e_g, e_a, e_xb, e_off]
  rfl

theorem Coded.send (g : BitVec 4) (a : BitVec 9) (rank : BitVec 4) (facet : BitVec 2) (lane : BitVec 3) (dir : BitVec 1) : Coded.Statement (.send g a rank facet lane dir) := by
  refine Coded.of_packed (k := .st) (top := 56) (n := 8) (op := 9) (fs := [⟨4, g, 52⟩, ⟨9, a, 43⟩, ⟨4, rank, 34⟩, ⟨2, facet, 32⟩, ⟨3, lane, 29⟩, ⟨1, dir, 28⟩]) rfl rfl rfl rfl rfl (by decide) (by decide) fun x ho hf => ?_
  have ho : fld x 56 8 = 9 := ho
  have e_g : fb x 52 4 = g := fb_eq _ _ _ (hf _ (.head _))
  have e_a : fb x 43 9 = a := fb_eq _ _ _ (hf _ (.tail _ (.head _)))
  have e_rank : fb x 34 4 = rank := fb_eq _ _ _ (hf _ (.tail _ (.tail _ (.head _))))
  have e_facet : fb x 32 2 = facet := fb_eq _ _ _ (hf _ (.tail _ (.tail _ (.tail _ (.head _)))))
  have e_lane : fb x 29 3 = lane := fb_eq _ _ _ (hf _ (.tail _ (.tail _ (.tail _ (.tail _ (.head _))))))
  have e_dir : fb x 28 1 = dir := fb_eq _ _ _ (hf _ (.tail _ (.tail _ (.tail _ (.tail _ (.tail _ (.head _)))))))
  unfold readSlot readSt
  rw [ho, e_g, e_a, e_rank, e_facet, e_lane, e_dir]
  rfl

theorem Coded.amoP (g : BitVec 4) (d : BitVec 6) (xb : BitVec 5) (off : BitVec 22) (t : BitVec 5) (mode : BitVec 3) (op : BitVec 4) : Coded.Statement (.amoP g d xb off t mode op) := by
  refine Coded.of_packed (k := .st) (top := 56) (n := 8) (op := 10) (fs := [⟨4, g, 52⟩, ⟨6, d, 43⟩, ⟨5, xb, 38⟩, ⟨22, off, 16⟩, ⟨5, t, 7⟩, ⟨3, mode, 4⟩, ⟨4, op, 0⟩]) rfl rfl rfl rfl rfl (by decide) (by decide) fun x ho hf => ?_
  have ho : fld x 56 8 = 10 := ho
  have e_g : fb x 52 4 = g := fb_eq _ _ _ (hf _ (.head _))
  have e_d : fb x 43 6 = d := fb_eq _ _ _ (hf _ (.tail _ (.head _)))
  have e_xb : fb x 38 5 = xb := fb_eq _ _ _ (hf _ (.tail _ (.tail _ (.head _))))
  have e_off : fb x 16 22 = off := fb_eq _ _ _ (hf _ (.tail _ (.tail _ (.tail _ (.head _)))))
  have e_t : fb x 7 5 = t := fb_eq _ _ _ (hf _ (.tail _ (.tail _ (.tail _ (.tail _ (.head _))))))
  have e_mode : fb x 4 3 = mode := fb_eq _ _ _ (hf _ (.tail _ (.tail _ (.tail _ (.tail _ (.tail _ (.head _)))))))
  have e_op : fb x 0 4 = op := fb_eq _ _ _ (hf _ (.tail _ (.tail _ (.tail _ (.tail _ (.tail _ (.tail _ (.head _))))))))
  unfold readSlot readSt
  rw [ho, e_g, e_d, e_xb, e_off, e_t, e_mode, e_op]
  rfl

theorem Coded.amoH (g : BitVec 4) (d : BitVec 6) (h xo : BitVec 5) (imm : BitVec 17) (t : BitVec 5) (mode : BitVec 3) (op : BitVec 4) : Coded.Statement (.amoH g d h xo imm t mode op) := by
  refine Coded.of_packed (k := .st) (top := 56) (n := 8) (op := 11) (fs := [⟨4, g, 52⟩, ⟨6, d, 43⟩, ⟨5, h, 38⟩, ⟨5, xo, 33⟩, ⟨17, imm, 16⟩, ⟨5, t, 7⟩, ⟨3, mode, 4⟩, ⟨4, op, 0⟩]) rfl rfl rfl rfl rfl (by decide) (by decide) fun x ho hf => ?_
  have ho : fld x 56 8 = 11 := ho
  have e_g : fb x 52 4 = g := fb_eq _ _ _ (hf _ (.head _))
  have e_d : fb x 43 6 = d := fb_eq _ _ _ (hf _ (.tail _ (.head _)))
  have e_h : fb x 38 5 = h := fb_eq _ _ _ (hf _ (.tail _ (.tail _ (.head _))))
  have e_xo : fb x 33 5 = xo := fb_eq _ _ _ (hf _ (.tail _ (.tail _ (.tail _ (.head _)))))
  have e_imm : fb x 16 17 = imm := fb_eq _ _ _ (hf _ (.tail _ (.tail _ (.tail _ (.tail _ (.head _))))))
  have e_t : fb x 7 5 = t := fb_eq _ _ _ (hf _ (.tail _ (.tail _ (.tail _ (.tail _ (.tail _ (.head _)))))))
  have e_mode : fb x 4 3 = mode := fb_eq _ _ _ (hf _ (.tail _ (.tail _ (.tail _ (.tail _ (.tail _ (.tail _ (.head _))))))))
  have e_op : fb x 0 4 = op := fb_eq _ _ _ (hf _ (.tail _ (.tail _ (.tail _ (.tail _ (.tail _ (.tail _ (.tail _ (.head _)))))))))
  unfold readSlot readSt
  rw [ho, e_g, e_d, e_h, e_xo, e_imm, e_t, e_mode, e_op]
  rfl

theorem Coded.sigw (g : BitVec 4) (a : BitVec 6) (h xo : BitVec 5) (imm : BitVec 17) : Coded.Statement (.sigw g a h xo imm) := by
  refine Coded.of_packed (k := .st) (top := 56) (n := 8) (op := 12) (fs := [⟨4, g, 52⟩, ⟨6, a, 43⟩, ⟨5, h, 38⟩, ⟨5, xo, 33⟩, ⟨17, imm, 16⟩]) rfl rfl rfl rfl rfl (by decide) (by decide) fun x ho hf => ?_
  have ho : fld x 56 8 = 12 := ho
  have e_g : fb x 52 4 = g := fb_eq _ _ _ (hf _ (.head _))
  have e_a : fb x 43 6 = a := fb_eq _ _ _ (hf _ (.tail _ (.head _)))
  have e_h : fb x 38 5 = h := fb_eq _ _ _ (hf _ (.tail _ (.tail _ (.head _))))
  have e_xo : fb x 33 5 = xo := fb_eq _ _ _ (hf _ (.tail _ (.tail _ (.tail _ (.head _)))))
  have e_imm : fb x 16 17 = imm := fb_eq _ _ _ (hf _ (.tail _ (.tail _ (.tail _ (.tail _ (.head _))))))
  unfold readSlot readSt
  rw [ho, e_g, e_a, e_h, e_xo, e_imm]
  rfl

theorem Coded.feed (g da db : BitVec 4) (ty : BitVec 5) (sm : BitVec 3) (kind tgt : BitVec 2) (cm : BitVec 20) : Coded.Statement (.feed g da db ty sm kind tgt cm) := by
  refine Coded.of_packed (k := .cp) (top := 56) (n := 8) (op := 1) (fs := [⟨4, g, 52⟩, ⟨4, da, 48⟩, ⟨4, db, 44⟩, ⟨3, sm, 29⟩, ⟨5, ty, 24⟩, ⟨2, kind, 22⟩, ⟨2, tgt, 20⟩, ⟨20, cm, 0⟩]) rfl rfl rfl rfl rfl (by decide) (by decide) fun x ho hf => ?_
  have ho : fld x 56 8 = 1 := ho
  have e_g : fb x 52 4 = g := fb_eq _ _ _ (hf _ (.head _))
  have e_da : fb x 48 4 = da := fb_eq _ _ _ (hf _ (.tail _ (.head _)))
  have e_db : fb x 44 4 = db := fb_eq _ _ _ (hf _ (.tail _ (.tail _ (.head _))))
  have e_ty : fb x 24 5 = ty := fb_eq _ _ _ (hf _ (.tail _ (.tail _ (.tail _ (.tail _ (.head _))))))
  have e_sm : fb x 29 3 = sm := fb_eq _ _ _ (hf _ (.tail _ (.tail _ (.tail _ (.head _)))))
  have e_kind : fb x 22 2 = kind := fb_eq _ _ _ (hf _ (.tail _ (.tail _ (.tail _ (.tail _ (.tail _ (.head _)))))))
  have e_tgt : fb x 20 2 = tgt := fb_eq _ _ _ (hf _ (.tail _ (.tail _ (.tail _ (.tail _ (.tail _ (.tail _ (.head _))))))))
  have e_cm : fb x 0 20 = cm := fb_eq _ _ _ (hf _ (.tail _ (.tail _ (.tail _ (.tail _ (.tail _ (.tail _ (.tail _ (.head _)))))))))
  unfold readSlot readCp
  rw [ho, e_g, e_da, e_db, e_ty, e_sm, e_kind, e_tgt, e_cm]
  rfl

theorem Coded.lcopy (g da db : BitVec 4) (cm : BitVec 20) : Coded.Statement (.lcopy g da db cm) := by
  refine Coded.of_packed (k := .cp) (top := 56) (n := 8) (op := 2) (fs := [⟨4, g, 52⟩, ⟨4, da, 48⟩, ⟨4, db, 44⟩, ⟨20, cm, 0⟩]) rfl rfl rfl rfl rfl (by decide) (by decide) fun x ho hf => ?_
  have ho : fld x 56 8 = 2 := ho
  have e_g : fb x 52 4 = g := fb_eq _ _ _ (hf _ (.head _))
  have e_da : fb x 48 4 = da := fb_eq _ _ _ (hf _ (.tail _ (.head _)))
  have e_db : fb x 44 4 = db := fb_eq _ _ _ (hf _ (.tail _ (.tail _ (.head _))))
  have e_cm : fb x 0 20 = cm := fb_eq _ _ _ (hf _ (.tail _ (.tail _ (.tail _ (.head _)))))
  unfold readSlot readCp
  rw [ho, e_g, e_da, e_db, e_cm]
  rfl

theorem Coded.bulkSet (g da db : BitVec 4) (pos : BitVec 2) : Coded.Statement (.bulkSet g da db pos) := by
  refine Coded.of_packed (k := .cp) (top := 56) (n := 8) (op := 3) (fs := [⟨4, g, 52⟩, ⟨4, da, 48⟩, ⟨4, db, 44⟩, ⟨2, pos, 0⟩]) rfl rfl rfl rfl rfl (by decide) (by decide) fun x ho hf => ?_
  have ho : fld x 56 8 = 3 := ho
  have e_g : fb x 52 4 = g := fb_eq _ _ _ (hf _ (.head _))
  have e_da : fb x 48 4 = da := fb_eq _ _ _ (hf _ (.tail _ (.head _)))
  have e_db : fb x 44 4 = db := fb_eq _ _ _ (hf _ (.tail _ (.tail _ (.head _))))
  have e_pos : fb x 0 2 = pos := fb_eq _ _ _ (hf _ (.tail _ (.tail _ (.tail _ (.head _)))))
  unfold readSlot readCp
  rw [ho, e_g, e_da, e_db, e_pos]
  rfl

theorem Coded.bulkGo (g en : BitVec 4) (cm : BitVec 20) : Coded.Statement (.bulkGo g en cm) := by
  refine Coded.of_packed (k := .cp) (top := 56) (n := 8) (op := 4) (fs := [⟨4, g, 52⟩, ⟨4, en, 20⟩, ⟨20, cm, 0⟩]) rfl rfl rfl rfl rfl (by decide) (by decide) fun x ho hf => ?_
  have ho : fld x 56 8 = 4 := ho
  have e_g : fb x 52 4 = g := fb_eq _ _ _ (hf _ (.head _))
  have e_en : fb x 20 4 = en := fb_eq _ _ _ (hf _ (.tail _ (.head _)))
  have e_cm : fb x 0 20 = cm := fb_eq _ _ _ (hf _ (.tail _ (.tail _ (.head _))))
  unfold readSlot readCp
  rw [ho, e_g, e_en, e_cm]
  rfl

theorem Coded.bulkCancel (g en : BitVec 4) (tag : BitVec 16) : Coded.Statement (.bulkCancel g en tag) := by
  refine Coded.of_packed (k := .cp) (top := 56) (n := 8) (op := 5) (fs := [⟨4, g, 52⟩, ⟨4, en, 20⟩, ⟨16, tag, 0⟩]) rfl rfl rfl rfl rfl (by decide) (by decide) fun x ho hf => ?_
  have ho : fld x 56 8 = 5 := ho
  have e_g : fb x 52 4 = g := fb_eq _ _ _ (hf _ (.head _))
  have e_en : fb x 20 4 = en := fb_eq _ _ _ (hf _ (.tail _ (.head _)))
  have e_tag : fb x 0 16 = tag := fb_eq _ _ _ (hf _ (.tail _ (.tail _ (.head _))))
  unfold readSlot readCp
  rw [ho, e_g, e_en, e_tag]
  rfl

theorem Coded.winOpen (g da db : BitVec 4) (band : BitVec 3) (rr fill : BitVec 8) (cm : BitVec 20) : Coded.Statement (.winOpen g da db band rr fill cm) := by
  refine Coded.of_packed (k := .cp) (top := 56) (n := 8) (op := 6) (fs := [⟨4, g, 52⟩, ⟨4, da, 48⟩, ⟨4, db, 44⟩, ⟨8, fill, 31⟩, ⟨8, rr, 23⟩, ⟨3, band, 20⟩, ⟨20, cm, 0⟩]) rfl rfl rfl rfl rfl (by decide) (by decide) fun x ho hf => ?_
  have ho : fld x 56 8 = 6 := ho
  have e_g : fb x 52 4 = g := fb_eq _ _ _ (hf _ (.head _))
  have e_da : fb x 48 4 = da := fb_eq _ _ _ (hf _ (.tail _ (.head _)))
  have e_db : fb x 44 4 = db := fb_eq _ _ _ (hf _ (.tail _ (.tail _ (.head _))))
  have e_band : fb x 20 3 = band := fb_eq _ _ _ (hf _ (.tail _ (.tail _ (.tail _ (.tail _ (.tail _ (.head _)))))))
  have e_rr : fb x 23 8 = rr := fb_eq _ _ _ (hf _ (.tail _ (.tail _ (.tail _ (.tail _ (.head _))))))
  have e_fill : fb x 31 8 = fill := fb_eq _ _ _ (hf _ (.tail _ (.tail _ (.tail _ (.head _)))))
  have e_cm : fb x 0 20 = cm := fb_eq _ _ _ (hf _ (.tail _ (.tail _ (.tail _ (.tail _ (.tail _ (.tail _ (.head _))))))))
  unfold readSlot readCp
  rw [ho, e_g, e_da, e_db, e_band, e_rr, e_fill, e_cm]
  rfl

theorem Coded.winAdv (g : BitVec 4) (band : BitVec 3) (k : BitVec 8) (cm : BitVec 20) : Coded.Statement (.winAdv g band k cm) := by
  refine Coded.of_packed (k := .cp) (top := 56) (n := 8) (op := 7) (fs := [⟨4, g, 52⟩, ⟨8, k, 23⟩, ⟨3, band, 20⟩, ⟨20, cm, 0⟩]) rfl rfl rfl rfl rfl (by decide) (by decide) fun x ho hf => ?_
  have ho : fld x 56 8 = 7 := ho
  have e_g : fb x 52 4 = g := fb_eq _ _ _ (hf _ (.head _))
  have e_band : fb x 20 3 = band := fb_eq _ _ _ (hf _ (.tail _ (.tail _ (.head _))))
  have e_k : fb x 23 8 = k := fb_eq _ _ _ (hf _ (.tail _ (.head _)))
  have e_cm : fb x 0 20 = cm := fb_eq _ _ _ (hf _ (.tail _ (.tail _ (.tail _ (.head _)))))
  unfold readSlot readCp
  rw [ho, e_g, e_band, e_k, e_cm]
  rfl

theorem Coded.winClose (g : BitVec 4) (band : BitVec 3) (cm : BitVec 20) : Coded.Statement (.winClose g band cm) := by
  refine Coded.of_packed (k := .cp) (top := 56) (n := 8) (op := 8) (fs := [⟨4, g, 52⟩, ⟨3, band, 20⟩, ⟨20, cm, 0⟩]) rfl rfl rfl rfl rfl (by decide) (by decide) fun x ho hf => ?_
  have ho : fld x 56 8 = 8 := ho
  have e_g : fb x 52 4 = g := fb_eq _ _ _ (hf _ (.head _))
  have e_band : fb x 20 3 = band := fb_eq _ _ _ (hf _ (.tail _ (.head _)))
  have e_cm : fb x 0 20 = cm := fb_eq _ _ _ (hf _ (.tail _ (.tail _ (.head _))))
  unfold readSlot readCp
  rw [ho, e_g, e_band, e_cm]
  rfl

theorem Coded.ifetch (g da : BitVec 4) (words : BitVec 14) (cm : BitVec 20) : Coded.Statement (.ifetch g da words cm) := by
  refine Coded.of_packed (k := .cp) (top := 56) (n := 8) (op := 9) (fs := [⟨4, g, 52⟩, ⟨4, da, 48⟩, ⟨14, words, 20⟩, ⟨20, cm, 0⟩]) rfl rfl rfl rfl rfl (by decide) (by decide) fun x ho hf => ?_
  have ho : fld x 56 8 = 9 := ho
  have e_g : fb x 52 4 = g := fb_eq _ _ _ (hf _ (.head _))
  have e_da : fb x 48 4 = da := fb_eq _ _ _ (hf _ (.tail _ (.head _)))
  have e_words : fb x 20 14 = words := fb_eq _ _ _ (hf _ (.tail _ (.tail _ (.head _))))
  have e_cm : fb x 0 20 = cm := fb_eq _ _ _ (hf _ (.tail _ (.tail _ (.tail _ (.head _)))))
  unfold readSlot readCp
  rw [ho, e_g, e_da, e_words, e_cm]
  rfl

theorem Coded.crcRd (g : BitVec 4) (rst : BitVec 1) (ac : BitVec 2) (tag : BitVec 16) : Coded.Statement (.crcRd g rst ac tag) := by
  refine Coded.of_packed (k := .cp) (top := 56) (n := 8) (op := 10) (fs := [⟨4, g, 52⟩, ⟨1, rst, 20⟩, ⟨2, ac, 18⟩, ⟨16, tag, 0⟩]) rfl rfl rfl rfl rfl (by decide) (by decide) fun x ho hf => ?_
  have ho : fld x 56 8 = 10 := ho
  have e_g : fb x 52 4 = g := fb_eq _ _ _ (hf _ (.head _))
  have e_rst : fb x 20 1 = rst := fb_eq _ _ _ (hf _ (.tail _ (.head _)))
  have e_ac : fb x 18 2 = ac := fb_eq _ _ _ (hf _ (.tail _ (.tail _ (.head _))))
  have e_tag : fb x 0 16 = tag := fb_eq _ _ _ (hf _ (.tail _ (.tail _ (.tail _ (.head _)))))
  unfold readSlot readCp
  rw [ho, e_g, e_rst, e_ac, e_tag]
  rfl

theorem Coded.barArr (g : BitVec 4) (xb : BitVec 5) (inn out : BitVec 8) : Coded.Statement (.barArr g xb inn out) := by
  refine Coded.of_packed (k := .sy) (top := 26) (n := 6) (op := 1) (fs := [⟨4, g, 22⟩, ⟨5, xb, 17⟩, ⟨8, inn, 9⟩, ⟨8, out, 1⟩]) rfl rfl rfl rfl rfl (by decide) (by decide) fun x ho hf => ?_
  have ho : fld x 26 6 = 1 := ho
  have e_g : fb x 22 4 = g := fb_eq _ _ _ (hf _ (.head _))
  have e_xb : fb x 17 5 = xb := fb_eq _ _ _ (hf _ (.tail _ (.head _)))
  have e_inn : fb x 9 8 = inn := fb_eq _ _ _ (hf _ (.tail _ (.tail _ (.head _))))
  have e_out : fb x 1 8 = out := fb_eq _ _ _ (hf _ (.tail _ (.tail _ (.tail _ (.head _)))))
  unfold readSlot readSy
  rw [ho, e_g, e_xb, e_inn, e_out]
  rfl

theorem Coded.barWait (g : BitVec 4) (xb : BitVec 5) (sg : BitVec 6) : Coded.Statement (.barWait g xb sg) := by
  refine Coded.of_packed (k := .sy) (top := 26) (n := 6) (op := 2) (fs := [⟨4, g, 22⟩, ⟨5, xb, 17⟩, ⟨6, sg, 11⟩]) rfl rfl rfl rfl rfl (by decide) (by decide) fun x ho hf => ?_
  have ho : fld x 26 6 = 2 := ho
  have e_g : fb x 22 4 = g := fb_eq _ _ _ (hf _ (.head _))
  have e_xb : fb x 17 5 = xb := fb_eq _ _ _ (hf _ (.tail _ (.head _)))
  have e_sg : fb x 11 6 = sg := fb_eq _ _ _ (hf _ (.tail _ (.tail _ (.head _))))
  unfold readSlot readSy
  rw [ho, e_g, e_xb, e_sg]
  rfl

theorem Coded.wait (g cls : BitVec 4) (k : BitVec 6) : Coded.Statement (.wait g cls k) := by
  refine Coded.of_packed (k := .sy) (top := 26) (n := 6) (op := 3) (fs := [⟨4, g, 22⟩, ⟨4, cls, 18⟩, ⟨6, k, 12⟩]) rfl rfl rfl rfl rfl (by decide) (by decide) fun x ho hf => ?_
  have ho : fld x 26 6 = 3 := ho
  have e_g : fb x 22 4 = g := fb_eq _ _ _ (hf _ (.head _))
  have e_cls : fb x 18 4 = cls := fb_eq _ _ _ (hf _ (.tail _ (.head _)))
  have e_k : fb x 12 6 = k := fb_eq _ _ _ (hf _ (.tail _ (.tail _ (.head _))))
  unfold readSlot readSy
  rw [ho, e_g, e_cls, e_k]
  rfl

theorem Coded.drain (g : BitVec 4) : Coded.Statement (.drain g) := by
  refine Coded.of_packed (k := .sy) (top := 26) (n := 6) (op := 4) (fs := [⟨4, g, 22⟩]) rfl rfl rfl rfl rfl (by decide) (by decide) fun x ho hf => ?_
  have ho : fld x 26 6 = 4 := ho
  have e_g : fb x 22 4 = g := fb_eq _ _ _ (hf _ (.head _))
  unfold readSlot readSy
  rw [ho, e_g]
  rfl

theorem Coded.pbar (g : BitVec 4) : Coded.Statement (.pbar g) := by
  refine Coded.of_packed (k := .sy) (top := 26) (n := 6) (op := 5) (fs := [⟨4, g, 22⟩]) rfl rfl rfl rfl rfl (by decide) (by decide) fun x ho hf => ?_
  have ho : fld x 26 6 = 5 := ho
  have e_g : fb x 22 4 = g := fb_eq _ _ _ (hf _ (.head _))
  unfold readSlot readSy
  rw [ho, e_g]
  rfl

theorem Coded.tsync (g : BitVec 4) (mask : BitVec 16) : Coded.Statement (.tsync g mask) := by
  refine Coded.of_packed (k := .sy) (top := 26) (n := 6) (op := 6) (fs := [⟨4, g, 22⟩, ⟨16, mask, 6⟩]) rfl rfl rfl rfl rfl (by decide) (by decide) fun x ho hf => ?_
  have ho : fld x 26 6 = 6 := ho
  have e_g : fb x 22 4 = g := fb_eq _ _ _ (hf _ (.head _))
  have e_mask : fb x 6 16 = mask := fb_eq _ _ _ (hf _ (.tail _ (.head _)))
  unfold readSlot readSy
  rw [ho, e_g, e_mask]
  rfl

theorem Coded.yadd (g : BitVec 4) (yd : BitVec 2) (ak : BitVec 1) (a : BitVec 6) (bk : BitVec 2) (b : BitVec 11) : Coded.Statement (.yadd g yd ak a bk b) := by
  refine Coded.of_packed (k := .sy) (top := 26) (n := 6) (op := 7) (fs := [⟨4, g, 22⟩, ⟨2, yd, 20⟩, ⟨1, ak, 19⟩, ⟨6, a, 13⟩, ⟨2, bk, 11⟩, ⟨11, b, 0⟩]) rfl rfl rfl rfl rfl (by decide) (by decide) fun x ho hf => ?_
  have ho : fld x 26 6 = 7 := ho
  have e_g : fb x 22 4 = g := fb_eq _ _ _ (hf _ (.head _))
  have e_yd : fb x 20 2 = yd := fb_eq _ _ _ (hf _ (.tail _ (.head _)))
  have e_ak : fb x 19 1 = ak := fb_eq _ _ _ (hf _ (.tail _ (.tail _ (.head _))))
  have e_a : fb x 13 6 = a := fb_eq _ _ _ (hf _ (.tail _ (.tail _ (.tail _ (.head _)))))
  have e_bk : fb x 11 2 = bk := fb_eq _ _ _ (hf _ (.tail _ (.tail _ (.tail _ (.tail _ (.head _))))))
  have e_b : fb x 0 11 = b := fb_eq _ _ _ (hf _ (.tail _ (.tail _ (.tail _ (.tail _ (.tail _ (.head _)))))))
  unfold readSlot readSy
  rw [ho, e_g, e_yd, e_ak, e_a, e_bk, e_b]
  rfl

theorem Coded.ysub (g : BitVec 4) (yd : BitVec 2) (ak : BitVec 1) (a : BitVec 6) (bk : BitVec 2) (b : BitVec 11) : Coded.Statement (.ysub g yd ak a bk b) := by
  refine Coded.of_packed (k := .sy) (top := 26) (n := 6) (op := 8) (fs := [⟨4, g, 22⟩, ⟨2, yd, 20⟩, ⟨1, ak, 19⟩, ⟨6, a, 13⟩, ⟨2, bk, 11⟩, ⟨11, b, 0⟩]) rfl rfl rfl rfl rfl (by decide) (by decide) fun x ho hf => ?_
  have ho : fld x 26 6 = 8 := ho
  have e_g : fb x 22 4 = g := fb_eq _ _ _ (hf _ (.head _))
  have e_yd : fb x 20 2 = yd := fb_eq _ _ _ (hf _ (.tail _ (.head _)))
  have e_ak : fb x 19 1 = ak := fb_eq _ _ _ (hf _ (.tail _ (.tail _ (.head _))))
  have e_a : fb x 13 6 = a := fb_eq _ _ _ (hf _ (.tail _ (.tail _ (.tail _ (.head _)))))
  have e_bk : fb x 11 2 = bk := fb_eq _ _ _ (hf _ (.tail _ (.tail _ (.tail _ (.tail _ (.head _))))))
  have e_b : fb x 0 11 = b := fb_eq _ _ _ (hf _ (.tail _ (.tail _ (.tail _ (.tail _ (.tail _ (.head _)))))))
  unfold readSlot readSy
  rw [ho, e_g, e_yd, e_ak, e_a, e_bk, e_b]
  rfl

theorem Coded.yand (g : BitVec 4) (yd : BitVec 2) (ak : BitVec 1) (a : BitVec 6) (bk : BitVec 2) (b : BitVec 11) : Coded.Statement (.yand g yd ak a bk b) := by
  refine Coded.of_packed (k := .sy) (top := 26) (n := 6) (op := 9) (fs := [⟨4, g, 22⟩, ⟨2, yd, 20⟩, ⟨1, ak, 19⟩, ⟨6, a, 13⟩, ⟨2, bk, 11⟩, ⟨11, b, 0⟩]) rfl rfl rfl rfl rfl (by decide) (by decide) fun x ho hf => ?_
  have ho : fld x 26 6 = 9 := ho
  have e_g : fb x 22 4 = g := fb_eq _ _ _ (hf _ (.head _))
  have e_yd : fb x 20 2 = yd := fb_eq _ _ _ (hf _ (.tail _ (.head _)))
  have e_ak : fb x 19 1 = ak := fb_eq _ _ _ (hf _ (.tail _ (.tail _ (.head _))))
  have e_a : fb x 13 6 = a := fb_eq _ _ _ (hf _ (.tail _ (.tail _ (.tail _ (.head _)))))
  have e_bk : fb x 11 2 = bk := fb_eq _ _ _ (hf _ (.tail _ (.tail _ (.tail _ (.tail _ (.head _))))))
  have e_b : fb x 0 11 = b := fb_eq _ _ _ (hf _ (.tail _ (.tail _ (.tail _ (.tail _ (.tail _ (.head _)))))))
  unfold readSlot readSy
  rw [ho, e_g, e_yd, e_ak, e_a, e_bk, e_b]
  rfl

theorem Coded.yxor (g : BitVec 4) (yd : BitVec 2) (ak : BitVec 1) (a : BitVec 6) (bk : BitVec 2) (b : BitVec 11) : Coded.Statement (.yxor g yd ak a bk b) := by
  refine Coded.of_packed (k := .sy) (top := 26) (n := 6) (op := 10) (fs := [⟨4, g, 22⟩, ⟨2, yd, 20⟩, ⟨1, ak, 19⟩, ⟨6, a, 13⟩, ⟨2, bk, 11⟩, ⟨11, b, 0⟩]) rfl rfl rfl rfl rfl (by decide) (by decide) fun x ho hf => ?_
  have ho : fld x 26 6 = 10 := ho
  have e_g : fb x 22 4 = g := fb_eq _ _ _ (hf _ (.head _))
  have e_yd : fb x 20 2 = yd := fb_eq _ _ _ (hf _ (.tail _ (.head _)))
  have e_ak : fb x 19 1 = ak := fb_eq _ _ _ (hf _ (.tail _ (.tail _ (.head _))))
  have e_a : fb x 13 6 = a := fb_eq _ _ _ (hf _ (.tail _ (.tail _ (.tail _ (.head _)))))
  have e_bk : fb x 11 2 = bk := fb_eq _ _ _ (hf _ (.tail _ (.tail _ (.tail _ (.tail _ (.head _))))))
  have e_b : fb x 0 11 = b := fb_eq _ _ _ (hf _ (.tail _ (.tail _ (.tail _ (.tail _ (.tail _ (.head _)))))))
  unfold readSlot readSy
  rw [ho, e_g, e_yd, e_ak, e_a, e_bk, e_b]
  rfl

theorem Coded.ycmp (g : BitVec 4) (yd : BitVec 2) (ak : BitVec 1) (a : BitVec 6) (bk : BitVec 1) (b : BitVec 6) (cond : BitVec 3) : Coded.Statement (.ycmp g yd ak a bk b cond) := by
  refine Coded.of_packed (k := .sy) (top := 26) (n := 6) (op := 11) (fs := [⟨4, g, 22⟩, ⟨2, yd, 20⟩, ⟨1, ak, 19⟩, ⟨6, a, 13⟩, ⟨1, bk, 12⟩, ⟨6, b, 6⟩, ⟨3, cond, 3⟩]) rfl rfl rfl rfl rfl (by decide) (by decide) fun x ho hf => ?_
  have ho : fld x 26 6 = 11 := ho
  have e_g : fb x 22 4 = g := fb_eq _ _ _ (hf _ (.head _))
  have e_yd : fb x 20 2 = yd := fb_eq _ _ _ (hf _ (.tail _ (.head _)))
  have e_ak : fb x 19 1 = ak := fb_eq _ _ _ (hf _ (.tail _ (.tail _ (.head _))))
  have e_a : fb x 13 6 = a := fb_eq _ _ _ (hf _ (.tail _ (.tail _ (.tail _ (.head _)))))
  have e_bk : fb x 12 1 = bk := fb_eq _ _ _ (hf _ (.tail _ (.tail _ (.tail _ (.tail _ (.head _))))))
  have e_b : fb x 6 6 = b := fb_eq _ _ _ (hf _ (.tail _ (.tail _ (.tail _ (.tail _ (.tail _ (.head _)))))))
  have e_cond : fb x 3 3 = cond := fb_eq _ _ _ (hf _ (.tail _ (.tail _ (.tail _ (.tail _ (.tail _ (.tail _ (.head _))))))))
  unfold readSlot readSy
  rw [ho, e_g, e_yd, e_ak, e_a, e_bk, e_b, e_cond]
  rfl

theorem Coded.chkY (g : BitVec 4) (ya yb : BitVec 2) : Coded.Statement (.chkY g ya yb) := by
  refine Coded.of_packed (k := .sy) (top := 26) (n := 6) (op := 12) (fs := [⟨4, g, 22⟩, ⟨2, ya, 20⟩, ⟨2, yb, 18⟩]) rfl rfl rfl rfl rfl (by decide) (by decide) fun x ho hf => ?_
  have ho : fld x 26 6 = 12 := ho
  have e_g : fb x 22 4 = g := fb_eq _ _ _ (hf _ (.head _))
  have e_ya : fb x 20 2 = ya := fb_eq _ _ _ (hf _ (.tail _ (.head _)))
  have e_yb : fb x 18 2 = yb := fb_eq _ _ _ (hf _ (.tail _ (.tail _ (.head _))))
  unfold readSlot readSy
  rw [ho, e_g, e_ya, e_yb]
  rfl

theorem Coded.chkV (g : BitVec 4) (a b : BitVec 9) (m : BitVec 4) : Coded.Statement (.chkV g a b m) := by
  refine Coded.of_packed (k := .sy) (top := 26) (n := 6) (op := 13) (fs := [⟨4, g, 22⟩, ⟨9, a, 13⟩, ⟨9, b, 4⟩, ⟨4, m, 0⟩]) rfl rfl rfl rfl rfl (by decide) (by decide) fun x ho hf => ?_
  have ho : fld x 26 6 = 13 := ho
  have e_g : fb x 22 4 = g := fb_eq _ _ _ (hf _ (.head _))
  have e_a : fb x 13 9 = a := fb_eq _ _ _ (hf _ (.tail _ (.head _)))
  have e_b : fb x 4 9 = b := fb_eq _ _ _ (hf _ (.tail _ (.tail _ (.head _))))
  have e_m : fb x 0 4 = m := fb_eq _ _ _ (hf _ (.tail _ (.tail _ (.tail _ (.head _)))))
  unfold readSlot readSy
  rw [ho, e_g, e_a, e_b, e_m]
  rfl

theorem Coded.chkS (g : BitVec 4) (ya : BitVec 2) (a : BitVec 6) : Coded.Statement (.chkS g ya a) := by
  refine Coded.of_packed (k := .sy) (top := 26) (n := 6) (op := 14) (fs := [⟨4, g, 22⟩, ⟨2, ya, 20⟩, ⟨6, a, 14⟩]) rfl rfl rfl rfl rfl (by decide) (by decide) fun x ho hf => ?_
  have ho : fld x 26 6 = 14 := ho
  have e_g : fb x 22 4 = g := fb_eq _ _ _ (hf _ (.head _))
  have e_ya : fb x 20 2 = ya := fb_eq _ _ _ (hf _ (.tail _ (.head _)))
  have e_a : fb x 14 6 = a := fb_eq _ _ _ (hf _ (.tail _ (.tail _ (.head _))))
  unfold readSlot readSy
  rw [ho, e_g, e_ya, e_a]
  rfl

theorem Coded.nop : Coded.Statement .nop := by
  refine Coded.of_packed_micro (op := 0) (fs := []) rfl rfl rfl (by decide) fun x ho hf => ?_
  have ho : fld x 124 4 = 0 := ho
  unfold readMicro
  rw [ho]
  rfl

theorem Coded.popA : Coded.Statement .popA := by
  refine Coded.of_packed_micro (op := 1) (fs := []) rfl rfl rfl (by decide) fun x ho hf => ?_
  have ho : fld x 124 4 = 1 := ho
  unfold readMicro
  rw [ho]
  rfl

theorem Coded.popB : Coded.Statement .popB := by
  refine Coded.of_packed_micro (op := 2) (fs := []) rfl rfl rfl (by decide) fun x ho hf => ?_
  have ho : fld x 124 4 = 2 := ho
  unfold readMicro
  rw [ho]
  rfl

theorem Coded.pass (ovr : BitVec 1) : Coded.Statement (.pass ovr) := by
  refine Coded.of_packed_micro (op := 3) (fs := [⟨1, ovr, 88⟩]) rfl rfl rfl (by decide) fun x ho hf => ?_
  have ho : fld x 124 4 = 3 := ho
  have e_ovr : fb x 88 1 = ovr := fb_eq _ _ _ (hf _ (.head _))
  unfold readMicro
  rw [ho, e_ovr]
  rfl

theorem Coded.passSp (ovr : BitVec 1) : Coded.Statement (.passSp ovr) := by
  refine Coded.of_packed_micro (op := 4) (fs := [⟨1, ovr, 88⟩]) rfl rfl rfl (by decide) fun x ho hf => ?_
  have ho : fld x 124 4 = 4 := ho
  have e_ovr : fb x 88 1 = ovr := fb_eq _ _ _ (hf _ (.head _))
  unfold readMicro
  rw [ho, e_ovr]
  rfl

theorem Coded.acc (val : BitVec 16) (src : BitVec 2) : Coded.Statement (.acc val src) := by
  refine Coded.of_packed_micro (op := 5) (fs := [⟨16, val, 96⟩, ⟨2, src, 94⟩]) rfl rfl rfl (by decide) fun x ho hf => ?_
  have ho : fld x 124 4 = 5 := ho
  have e_val : fb x 96 16 = val := fb_eq _ _ _ (hf _ (.head _))
  have e_src : fb x 94 2 = src := fb_eq _ _ _ (hf _ (.tail _ (.head _)))
  unfold readMicro
  rw [ho, e_val, e_src]
  rfl

theorem Coded.zero : Coded.Statement .zero := by
  refine Coded.of_packed_micro (op := 6) (fs := []) rfl rfl rfl (by decide) fun x ho hf => ?_
  have ho : fld x 124 4 = 6 := ho
  unfold readMicro
  rw [ho]
  rfl

theorem Coded.shift (val : BitVec 16) (src : BitVec 2) : Coded.Statement (.shift val src) := by
  refine Coded.of_packed_micro (op := 7) (fs := [⟨16, val, 96⟩, ⟨2, src, 94⟩]) rfl rfl rfl (by decide) fun x ho hf => ?_
  have ho : fld x 124 4 = 7 := ho
  have e_val : fb x 96 16 = val := fb_eq _ _ _ (hf _ (.head _))
  have e_src : fb x 94 2 = src := fb_eq _ _ _ (hf _ (.tail _ (.head _)))
  unfold readMicro
  rw [ho, e_val, e_src]
  rfl

theorem Coded.microLoop (tgt : BitVec 10) (ctr : BitVec 1) (val : BitVec 16) (src : BitVec 2) : Coded.Statement (.microLoop tgt ctr val src) := by
  refine Coded.of_packed_micro (op := 8) (fs := [⟨10, tgt, 114⟩, ⟨1, ctr, 112⟩, ⟨16, val, 96⟩, ⟨2, src, 94⟩]) rfl rfl rfl (by decide) fun x ho hf => ?_
  have ho : fld x 124 4 = 8 := ho
  have e_tgt : fb x 114 10 = tgt := fb_eq _ _ _ (hf _ (.head _))
  have e_ctr : fb x 112 1 = ctr := fb_eq _ _ _ (hf _ (.tail _ (.head _)))
  have e_val : fb x 96 16 = val := fb_eq _ _ _ (hf _ (.tail _ (.tail _ (.head _))))
  have e_src : fb x 94 2 = src := fb_eq _ _ _ (hf _ (.tail _ (.tail _ (.tail _ (.head _)))))
  unfold readMicro
  rw [ho, e_tgt, e_ctr, e_val, e_src]
  rfl

theorem Coded.jump (tgt : BitVec 10) : Coded.Statement (.jump tgt) := by
  refine Coded.of_packed_micro (op := 9) (fs := [⟨10, tgt, 114⟩]) rfl rfl rfl (by decide) fun x ho hf => ?_
  have ho : fld x 124 4 = 9 := ho
  have e_tgt : fb x 114 10 = tgt := fb_eq _ _ _ (hf _ (.head _))
  unfold readMicro
  rw [ho, e_tgt]
  rfl

theorem Coded.microEnd : Coded.Statement .microEnd := by
  refine Coded.of_packed_micro (op := 10) (fs := []) rfl rfl rfl (by decide) fun x ho hf => ?_
  have ho : fld x 124 4 = 10 := ho
  unfold readMicro
  rw [ho]
  rfl

theorem Coded.scale (val : BitVec 16) (src : BitVec 2) : Coded.Statement (.scale val src) := by
  refine Coded.of_packed_micro (op := 11) (fs := [⟨16, val, 96⟩, ⟨2, src, 94⟩]) rfl rfl rfl (by decide) fun x ho hf => ?_
  have ho : fld x 124 4 = 11 := ho
  have e_val : fb x 96 16 = val := fb_eq _ _ _ (hf _ (.head _))
  have e_src : fb x 94 2 = src := fb_eq _ _ _ (hf _ (.tail _ (.head _)))
  unfold readMicro
  rw [ho, e_val, e_src]
  rfl

theorem Coded.wit : Coded.Statement .wit := by
  refine Coded.of_packed_micro (op := 12) (fs := []) rfl rfl rfl (by decide) fun x ho hf => ?_
  have ho : fld x 124 4 = 12 := ho
  unfold readMicro
  rw [ho]
  rfl

theorem Coded.sync (val : BitVec 16) (src : BitVec 2) : Coded.Statement (.sync val src) := by
  refine Coded.of_packed_micro (op := 13) (fs := [⟨16, val, 96⟩, ⟨2, src, 94⟩]) rfl rfl rfl (by decide) fun x ho hf => ?_
  have ho : fld x 124 4 = 13 := ho
  have e_val : fb x 96 16 = val := fb_eq _ _ _ (hf _ (.head _))
  have e_src : fb x 94 2 = src := fb_eq _ _ _ (hf _ (.tail _ (.head _)))
  unfold readMicro
  rw [ho, e_val, e_src]
  rfl

theorem Coded.bundleIssue (core : Nat) : Coded.Statement (.bundleIssue core) :=
  Coded.of_event rfl rfl

theorem Coded.bundleCommit (core : Nat) : Coded.Statement (.bundleCommit core) :=
  Coded.of_event rfl rfl

theorem Coded.resultLanding (core facet : Nat) : Coded.Statement (.resultLanding core facet) :=
  Coded.of_event rfl rfl

theorem Coded.timingErrorReplay (core : Nat) : Coded.Statement (.timingErrorReplay core) :=
  Coded.of_event rfl rfl

theorem Coded.watchdogExpiry (core facet : Nat) : Coded.Statement (.watchdogExpiry core facet) :=
  Coded.of_event rfl rfl

theorem Coded.quantumExpiry (core : Nat) : Coded.Statement (.quantumExpiry core) :=
  Coded.of_event rfl rfl

theorem Coded.facetSwitch (core : Nat) : Coded.Statement (.facetSwitch core) :=
  Coded.of_event rfl rfl

theorem Coded.matrixItemRun (core : Nat) : Coded.Statement (.matrixItemRun core) :=
  Coded.of_event rfl rfl

theorem Coded.ballastPass (geode : Nat) (on : Bool) : Coded.Statement (.ballastPass geode on) :=
  Coded.of_event rfl rfl

theorem Coded.tsyncMeetingComplete (geode launch : Nat) (mask : BitVec 16) : Coded.Statement (.tsyncMeetingComplete geode launch mask) :=
  Coded.of_event rfl rfl

theorem Coded.engineOperationComplete (core facet : Nat) : Coded.Statement (.engineOperationComplete core facet) :=
  Coded.of_event rfl rfl

theorem Coded.completionRecordPost (core facet : Nat) : Coded.Statement (.completionRecordPost core facet) :=
  Coded.of_event rfl rfl

theorem Coded.fifoAppend (core : Nat) (tgt : FeedTarget) : Coded.Statement (.fifoAppend core tgt) :=
  Coded.of_event rfl rfl

theorem Coded.bandRowArrival (core band : Nat) : Coded.Statement (.bandRowArrival core band) :=
  Coded.of_event rfl rfl

theorem Coded.bulkEngineTakeCommand (e : Nat) : Coded.Statement (.bulkEngineTakeCommand e) :=
  Coded.of_event rfl rfl

theorem Coded.hostBulkGo (e : Nat) (v : BitVec 64) : Coded.Statement (.hostBulkGo e v) :=
  Coded.of_event rfl rfl

theorem Coded.engineCountdown (e : Nat) : Coded.Statement (.engineCountdown e) :=
  Coded.of_event rfl rfl

theorem Coded.ringMessageArrival (geode id : Nat) : Coded.Statement (.ringMessageArrival geode id) :=
  Coded.of_event rfl rfl

theorem Coded.accessPerformAtHome (id : Nat) : Coded.Statement (.accessPerformAtHome id) :=
  Coded.of_event rfl rfl

theorem Coded.walkEnd (core facet hn : Nat) : Coded.Statement (.walkEnd core facet hn) :=
  Coded.of_event rfl rfl

theorem Coded.invalGo (v : BitVec 64) : Coded.Statement (.invalGo v) :=
  Coded.of_event rfl rfl

theorem Coded.invalComplete : Coded.Statement .invalComplete :=
  Coded.of_event rfl rfl

theorem Coded.refresh (vein chan : Nat) (due waiting : Bool) : Coded.Statement (.refresh vein chan due waiting) :=
  Coded.of_event rfl rfl

theorem Coded.patrolVisit (vein : Nat) (f : Found) : Coded.Statement (.patrolVisit vein f) :=
  Coded.of_event rfl rfl

theorem Coded.durablePatrolVisit (f : Found) : Coded.Statement (.durablePatrolVisit f) :=
  Coded.of_event rfl rfl

theorem Coded.logcntPop (unit : Nat) : Coded.Statement (.logcntPop unit) :=
  Coded.of_event rfl rfl

theorem Coded.writeQueueToMedia : Coded.Statement .writeQueueToMedia :=
  Coded.of_event rfl rfl

theorem Coded.sealConfirm : Coded.Statement .sealConfirm :=
  Coded.of_event rfl rfl

theorem Coded.hpbarGo : Coded.Statement .hpbarGo :=
  Coded.of_event rfl rfl

theorem Coded.holdupTest (ok : Bool) : Coded.Statement (.holdupTest ok) :=
  Coded.of_event rfl rfl

theorem Coded.powerGoodDeassert (drained : Bool) : Coded.Statement (.powerGoodDeassert drained) :=
  Coded.of_event rfl rfl

theorem Coded.powerGoodAssert (fails : Option Nat) (holdup : Bool) : Coded.Statement (.powerGoodAssert fails holdup) :=
  Coded.of_event rfl rfl

theorem Coded.mirrorEnable (k : Nat) : Coded.Statement (.mirrorEnable k) :=
  Coded.of_event rfl rfl

theorem Coded.mirrorDisable (k : Nat) : Coded.Statement (.mirrorDisable k) :=
  Coded.of_event rfl rfl

theorem Coded.mirrorSyncComplete (k : Nat) : Coded.Statement (.mirrorSyncComplete k) :=
  Coded.of_event rfl rfl

theorem Coded.mirrorWriteAck (k : Nat) : Coded.Statement (.mirrorWriteAck k) :=
  Coded.of_event rfl rfl

theorem Coded.mirrorPartnerUnreachable (k : Nat) : Coded.Statement (.mirrorPartnerUnreachable k) :=
  Coded.of_event rfl rfl

theorem Coded.mirrorRepair (k word : Nat) (partner : Option (BitVec 256)) : Coded.Statement (.mirrorRepair k word partner) :=
  Coded.of_event rfl rfl

theorem Coded.map (slot : Nat) : Coded.Statement (.map slot) :=
  Coded.of_event rfl rfl

theorem Coded.unmap (slot : Nat) : Coded.Statement (.unmap slot) :=
  Coded.of_event rfl rfl

theorem Coded.unmapComplete (slot : Nat) : Coded.Statement (.unmapComplete slot) :=
  Coded.of_event rfl rfl

theorem Coded.kill (slot : Nat) : Coded.Statement (.kill slot) :=
  Coded.of_event rfl rfl

theorem Coded.packetStart (slot : Nat) : Coded.Statement (.packetStart slot) :=
  Coded.of_event rfl rfl

theorem Coded.launchDispatch (slot : Nat) : Coded.Statement (.launchDispatch slot) :=
  Coded.of_event rfl rfl

theorem Coded.waitPacketSatisfied (slot : Nat) : Coded.Statement (.waitPacketSatisfied slot) :=
  Coded.of_event rfl rfl

theorem Coded.packetCompletion (slot : Nat) : Coded.Statement (.packetCompletion slot) :=
  Coded.of_event rfl rfl

theorem Coded.tokenRefill (p : Nat) : Coded.Statement (.tokenRefill p) :=
  Coded.of_event rfl rfl

theorem Coded.preemptionPolicy (slot geode : Nat) : Coded.Statement (.preemptionPolicy slot geode) :=
  Coded.of_event rfl rfl

theorem Coded.geodeFreeze (geode : Nat) (reason : BitVec 2) : Coded.Statement (.geodeFreeze geode reason) :=
  Coded.of_event rfl rfl

theorem Coded.fossilWriteComplete (k : Nat) : Coded.Statement (.fossilWriteComplete k) :=
  Coded.of_event rfl rfl

theorem Coded.fossilRestore (k : Nat) : Coded.Statement (.fossilRestore k) :=
  Coded.of_event rfl rfl

theorem Coded.checkpointRequest (slot : Nat) : Coded.Statement (.checkpointRequest slot) :=
  Coded.of_event rfl rfl

theorem Coded.checkpointSave (slot : Nat) : Coded.Statement (.checkpointSave slot) :=
  Coded.of_event rfl rfl

theorem Coded.checkpointTimeout (slot : Nat) : Coded.Statement (.checkpointTimeout slot) :=
  Coded.of_event rfl rfl

theorem Coded.resume (core facet : Nat) : Coded.Statement (.resume core facet) :=
  Coded.of_event rfl rfl

theorem Coded.enter (core facet : Nat) : Coded.Statement (.enter core facet) :=
  Coded.of_event rfl rfl

theorem Coded.parkreq (core facet : Nat) : Coded.Statement (.parkreq core facet) :=
  Coded.of_event rfl rfl

theorem Coded.geodeMapWrite (n : Nat) (v : BitVec 32) (fw : Bool) : Coded.Statement (.geodeMapWrite n v fw) :=
  Coded.of_event rfl rfl

theorem Coded.lodeIdWrite (v : BitVec 64) (fw : Bool) : Coded.Statement (.lodeIdWrite v fw) :=
  Coded.of_event rfl rfl

theorem Coded.sparingSequence (geode : Nat) (spare : Option SpareSlot) : Coded.Statement (.sparingSequence geode spare) :=
  Coded.of_event rfl rfl

theorem Coded.epochEnd (r : EpochReport) : Coded.Statement (.epochEnd r) :=
  Coded.of_event rfl rfl

theorem Coded.frequencyStep (geode : Nat) : Coded.Statement (.frequencyStep geode) :=
  Coded.of_event rfl rfl

theorem Coded.temperatureCritical (geode : Nat) (temp : BitVec 8) : Coded.Statement (.temperatureCritical geode temp) :=
  Coded.of_event rfl rfl

theorem Coded.currentReport (amps : List Nat) (other : Nat) : Coded.Statement (.currentReport amps other) :=
  Coded.of_event rfl rfl

theorem Coded.activityWindow (geode busy : Nat) : Coded.Statement (.activityWindow geode busy) :=
  Coded.of_event rfl rfl

theorem Coded.extctlGo (v : BitVec 64) (fw : Bool) : Coded.Statement (.extctlGo v fw) :=
  Coded.of_event rfl rfl

theorem Coded.attestationReport (nonce : BitVec 384) (pa : Nat) : Coded.Statement (.attestationReport nonce pa) :=
  Coded.of_event rfl rfl

theorem Coded.envelopeReceive (e : Envelope) (mgmt : Bool) : Coded.Statement (.envelopeReceive e mgmt) :=
  Coded.of_event rfl rfl

theorem Coded.manifestReplace (digests : List (BitVec 384)) (svn : BitVec 16) (payload : List (BitVec 8)) :
    Coded.Statement (.manifestReplace digests svn payload) :=
  Coded.of_event rfl rfl

theorem Coded.inFieldTest (t : ScanTest) : Coded.Statement (.inFieldTest t) :=
  Coded.of_event rfl rfl

theorem Coded.portTrain (k lanes gbps : Nat) : Coded.Statement (.portTrain k lanes gbps) :=
  Coded.of_event rfl rfl

theorem Coded.flitCrcError (k : Nat) : Coded.Statement (.flitCrcError k) :=
  Coded.of_event rfl rfl

theorem Coded.fabricRequestArrival (r : FabricRequest) : Coded.Statement (.fabricRequestArrival r) :=
  Coded.of_event rfl rfl

theorem Coded.fabricTimeout (id : Nat) : Coded.Statement (.fabricTimeout id) :=
  Coded.of_event rfl rfl

theorem Coded.pcieInboundRequest (r : PcieRequest) : Coded.Statement (.pcieInboundRequest r) :=
  Coded.of_event rfl rfl

theorem Coded.managementFrame (f : MgmtFrame) : Coded.Statement (.managementFrame f) :=
  Coded.of_event rfl rfl

theorem Coded.registerWrite (addr : Nat) (v : HostAccess) (fw : Bool) : Coded.Statement (.registerWrite addr v fw) :=
  Coded.of_event rfl rfl

theorem Coded.localFeederCommandStart (core : Nat) : Coded.Statement (.localFeederCommandStart core) :=
  Coded.of_event rfl rfl

theorem Coded.fabricError (lode : BitVec 16) (cause : BitVec 4) : Coded.Statement (.fabricError lode cause) :=
  Coded.of_event rfl rfl

theorem Coded.wakePin (level : Bool) : Coded.Statement (.wakePin level) :=
  Coded.of_event rfl rfl

theorem Coded.pcieLinkTrain (lanes gts : Nat) : Coded.Statement (.pcieLinkTrain lanes gts) :=
  Coded.of_event rfl rfl

end Sys2Proof.Laws
end

