-- ==== Sys2Proof/Laws/Ports.lean ====
section
/-! SUPPORT. What the operations that rows share can do: requests for the lines of other lodes, the return from a frame, a repair, and a
row that is made whole or stands. -/

namespace Sys2Proof.Machine

/-- A step that reaches no other lode goes on at once. -/
@[simp] theorem State.linesGo_nil (s : State) : s.linesGo [] [] = ([], true, s) := rfl

/-- While a line has no request yet, the step does not go on. -/
theorem State.linesGo_waits {s : State} {held : List PortReq} {pas : List (Nat × Nat)} (h : (linesLeft held pas).isEmpty = false) :
    (s.linesGo held pas).2.1 = false := by
  simp only [State.linesGo, h, Bool.false_and]
  split <;> rfl

/-- Once every line's request has its answer, the step goes on and holds no request. -/
theorem State.linesGo_done {s : State} {held : List PortReq} {pas : List (Nat × Nat)} (h : linesLeft held pas = [])
    (hd : ∀ r ∈ held, r.done = true) : s.linesGo held pas = ([], true, s) := by
  have hf : held.filter (fun r => !r.done && s.lineFirst r) = [] := List.filter_eq_nil_iff.2 fun r hr => by simp [hd r hr]
  have hm : (held.map fun r => if (!r.done && s.lineFirst r) = true then { r with done := true } else r) = held := by
    conv_rhs => rw [← List.map_id held]
    exact List.map_congr_left fun r hr => by simp [hd r hr]
  have ha : held.all (fun r => r.done) = true := List.all_eq_true.2 hd
  simp only [State.linesGo, h, List.findSome?_nil, List.isEmpty_nil, Bool.true_and, hm, hf, ha, if_true, List.foldl_nil]

/-- A return from a frame that is not on another lode reads nothing over ports. -/
theorem State.returnGo_here {s : State} {c fn : Nat} (h : ∀ lode pa, s.framePlace (s.facet c fn) ≠ some (.away lode pa)) :
    s.returnGo c fn = (true, s) := by
  unfold State.returnGo
  cases hp : s.framePlace (s.facet c fn) with
  | none => simp only [hp]
  | some x => cases x with
    | away l p => exact absurd hp (h l p)
    | here p => simp only [hp]

/-- A repair that fails keeps the poison of a word that had it, and makes a find of one that had not. -/
theorem State.repairFails_eq (s : State) (x : Repair) (c : Nat) :
    s.repairFails x c =
      if s.poisoned (32 * x.word) then (s.dropRepair x.word).fabErr (s.mirLode x.k) c
      else (((s.dropRepair x.word).fabErr (s.mirLode x.k) c).forgetFlaw (32 * x.word)).foundBad (32 * x.word) x.kind x.req x.sym := rfl

/-- Everything an attempt at a row can answer: what stops the row, the row's state, that state while another row stands, or the state
before the row, standing. -/
theorem State.attempt_cases (s : State) (row : State → Out) :
    (∀ t, row { s with stands := false } = .next t →
        (t.stands = true ∧ s.attempt row = .next (s.standing t))
          ∨ (t.stands = false ∧ s.stands = true ∧ s.attempt row = .next { t with stands := true })
          ∨ (t.stands = false ∧ s.stands = false ∧ s.attempt row = .next t))
      ∧ ∀ o, row { s with stands := false } = o → (∀ t, o ≠ .next t) → s.attempt row = o := by
  refine ⟨fun t h => ?_, fun o h hn => ?_⟩
  · cases ht : t.stands <;> cases hs : s.stands <;> simp [State.attempt, h, ht, hs]
  · subst h
    unfold State.attempt
    cases hr : row { s with stands := false } with
    | next t => exact absurd hr (hn t)
    | fault r => rfl
    | refused r => rfl

/-- A row that stands changes nothing but what is asked to be repaired. -/
theorem State.standing_keeps (s t : State) :
    (s.standing t).mem = s.mem ∧ (s.standing t).media = s.media ∧ (s.standing t).durQ = s.durQ ∧ (s.standing t).cores = s.cores
      ∧ (s.standing t).geodes = s.geodes ∧ (s.standing t).dev = s.dev ∧ (s.standing t).accs = s.accs
      ∧ (s.standing t).memPoison = s.memPoison ∧ (s.standing t).stands = true :=
  ⟨rfl, rfl, rfl, rfl, rfl, rfl, rfl, rfl, rfl⟩

end Sys2Proof.Machine
end

