-- ==== Sys2Proof/Laws/Slot.lean ====
section
/-! SUPPORT. What the shared operations of slots and micro-words can do: the frame of a slot operation, the frame of a
micro-operation, and the issue and landing of results. -/

namespace Sys2Proof.Machine

/-- A ready operation has its effect. -/
theorem slotOp_ready {i : Instr} {s t : State} (h : s.ready i = true) : slotOp i s t = .next t := by
  simp only [State.ready, Bool.and_eq_true, Bool.or_eq_true, Bool.not_eq_true', Option.isNone_iff_eq_none] at h
  obtain ⟨⟨hr, hg⟩, hp | ⟨⟨hw, ht⟩, hh⟩⟩ := h
  · simp [slotOp, hr, hg, hp]
  · by_cases hp : s.me.latch.passed = true
    · simp [slotOp, hr, hg, hp]
    · simp [slotOp, hr, hg, hp, hw, ht, hh]

/-- An idle operation has none. -/
theorem slotOp_idle {i : Instr} {s t : State} (h : s.idle i = true) : slotOp i s t = .next s := by
  simp only [State.idle, Bool.and_eq_true, Bool.or_eq_true, Bool.not_eq_true', Option.isNone_iff_eq_none] at h
  obtain ⟨⟨hr, hg⟩, hp | ⟨⟨hw, ht⟩, hh⟩⟩ := h
  · simp [slotOp, hr, hg, hp]
  · by_cases hp : s.me.latch.passed = true
    · simp [slotOp, hr, hg, hp]
    · simp [slotOp, hr, hg, hp, hw, ht, hh]

/-- Everything a slot operation can do: stand, trap, be offered, or have its effect. -/
theorem slotOp_cases (i : Instr) (s t : State) :
    slotOp i s t = .next s ∨ (∃ x, s.issueTrap i = some x ∧ slotOp i s t = .next (s.takeTrap x))
      ∨ (s.holds i = true ∧ slotOp i s t = .next (s.offer i)) ∨ (s.ready i = true ∧ slotOp i s t = .next t) := by
  by_cases hr : s.me.resident = true
  · by_cases hp : s.me.latch.passed = true
    · by_cases hg : s.guard i.guard = true
      · right; right; right; simp [slotOp, State.ready, hr, hp, hg]
      · left; simp [slotOp, hr, hp, hg]
    · by_cases hw : s.waits i = true
      · left; simp [slotOp, hr, hp, hw]
      · cases ht : s.issueTrap i with
        | some x => right; left; exact ⟨x, rfl, by simp [slotOp, hr, hp, hw, ht]⟩
        | none =>
          by_cases hh : s.holds i = true
          · right; right; left; exact ⟨hh, by simp [slotOp, hr, hp, hw, ht, hh]⟩
          · by_cases hg : s.guard i.guard = true
            · right; right; right; simp [slotOp, State.ready, hr, hp, hw, ht, hh, hg]
            · left; simp [slotOp, hr, hp, hw, ht, hh, hg]
  · left; simp [slotOp, hr]

/-- A micro-operation of a running invocation has its effect. -/
theorem microOp_invokes {s : State} {v : Invocation} (e : Invocation → State) (h : s.invokes v) : microOp s e = .next (e v) := by
  obtain ⟨hi, he⟩ := h
  simp [microOp, hi, he]

/-! ### Results -/

@[simp] theorem State.me_land (s : State) (w : RegWrite) (lat : Nat) (fl : BitVec 6) (ac : Nat) (po : Bool) :
    (s.land w lat fl ac po).me = s.me.issue w lat fl ac po := State.me_modMe _ _

@[simp] theorem State.fn_land (s : State) (w : RegWrite) (lat : Nat) (fl : BitVec 6) (ac : Nat) (po : Bool) :
    (s.land w lat fl ac po).fn = s.fn := State.fn_modMe _ _

/-- A result leaves the other cores alone. -/
theorem State.core_land_other (s : State) (w : RegWrite) (lat : Nat) (fl : BitVec 6) (ac : Nat) (po : Bool) (c : Nat) (h : c ≠ s.cur) :
    (s.land w lat fl ac po).core c = s.core c := State.core_modFacet_other _ _ _ _ _ h

/-- The results in flight to a register other than the one written stay. -/
theorem Facet.issue_other (f : Facet) (w : RegWrite) (lat : Nat) (fl : BitVec 6) (ac : Nat) (po : Bool) (r : RegId) (h : w.id ≠ r) :
    ((f.issue w lat fl ac po).landings.filter fun l => l.write.id == r) = f.landings.filter fun l => l.write.id == r := by
  have key : ∀ ls : List Landing, ((ls.map fun l => if l.write.id == w.id then { l with stale := true } else l).filter fun l => l.write.id == r)
      = ls.filter fun l => l.write.id == r := by
    intro ls
    induction ls with
    | nil => rfl
    | cons l t ih =>
      rw [List.map_cons, List.filter_cons, List.filter_cons, ih]
      by_cases hl : l.write.id == w.id
      · have : (l.write.id == r) = false := by
          rw [eq_of_beq hl]; exact beq_false_of_ne h
        simp [hl, this]
      · simp [hl]
  have hw : (w.id == r) = false := beq_false_of_ne h
  unfold Facet.issue
  simp only [List.filter_append]
  split
  · simp [hw]
  · rw [Facet.overtake, key]; simp [hw]

end Sys2Proof.Machine
end

