-- ==== Sys2Proof/Machine/Preub.lean ====
section
/-! DEFINITION. Preub, the portable word form (16 R424 to R430): the words of a Preub program, the Talhel instruction that a
64-bit operation is, the dependence groups and their scopes, and what each RV64I instruction is in Talhel (R429). Machine/PreubRun.lean runs them; the
kernels that the machine launches hold Talhel bundles. -/

namespace Sys2Proof.Machine

/-- R424: the words of a Preub program. -/
inductive PreubWord where
  /-- a 32-bit RV64I instruction -/
  | rv (w : BitVec 32)
  /-- the mark that ends a dependence group -/
  | stop
  /-- the mark that sets the scope up to the next group end -/
  | scope (code : BitVec 3)
  /-- a 64-bit operation with its STOP bit: the Talhel slot (VA stands for either vector slot) and instruction -/
  | op (k : Slot) (i : Instr) (stop : Bool)
deriving DecidableEq, Repr

/-! ## The 64-bit operations (R430) -/

/-- The slot of a class, with the vector unit that preubld takes. -/
def preubSlot (u : VUnit) (cls : Nat) : Option Slot :=
  match cls with
  | 0 => some (.v u)
  | 1 => some .m
  | 2 => some .ld
  | 3 => some .st
  | 4 => some .cp
  | 5 => some .sy
  | 6 => some .s
  | _ => none

/-- The fields after the guard of a class 0 operation: V-R with the third source of R428, V-I, or X-F. -/
def preubV (op p : Nat) : List (Nat × Nat) :=
  let d := fld p 22 9
  let a := fld p 31 9
  let common := [(d, 43), (fld p 52 12, 4)]
  if op == 0x49 || op == 0x4A then common ++ [(fld p 31 18, 16)]
  else if op == 0x42 || op == 0x45 then common ++ [(a, 34), (wrapInt (sextNat (fld p 40 9) 9) 18, 16)]
  else if op == 0x70 || op == 0x71 || op == 0x72 then common ++ [(a, 34), (fld p 40 9, 16)]
  else common ++ [(a, 34), (fld p 40 9, 25)] ++ (if op == 4 || op == 5 || op == 6 then [(d, 16)] else [])

/-- LS-P operations with a byte offset, a stride or an immediate at Talhel [37:16]. -/
def preubImm (st : Bool) (op : Nat) : Bool :=
  if st then [0x01, 0x02, 0x03, 0x05, 0x08, 0x0A, 0x31, 0x32].contains op
  else [0x01, 0x02, 0x03, 0x05, 0x08, 0x0D, 0x31, 0x32].contains op

/-- LS-H operations. -/
def preubHandle (st : Bool) (op : Nat) : Bool :=
  if st then [0x06, 0x07, 0x0B, 0x0C].contains op else [0x06, 0x07, 0x09, 0x0A].contains op

/-- The fields after the guard of a class 2 or 3 operation. -/
def preubLs (st : Bool) (op p : Nat) : List (Nat × Nat) :=
  let f := fld p 36 12
  [(fld p 22 9, 43), (fld p 31 5, 38), (fld p 48 16, 0)] ++
    (if preubHandle st op then [(fld p 36 5, 33), (fld p 41 7, 16)]
    else if preubImm st op then [(wrapInt (sextNat f 12) 22, 16)]
    else [(f, 26)])

/-- S-RI operations (R55). -/
def preubRi (op : Nat) : Bool :=
  decide (0x20 ≤ op ∧ op ≤ 0x29) || decide (0x60 ≤ op ∧ op ≤ 0x6D) || op == 0x46 || op == 0x47

/-- The fields after the guard of a class 6 operation. -/
def preubS (op p : Nat) : List (Nat × Nat) :=
  if preubRi op then
    [(fld p 46 18, 34), (if op == 0x28 then fld p 22 24 else wrapInt (sextNat (fld p 22 24) 24) 34, 0)]
  else [(fld p 22 42, 10)]

/-- R430: the fields after the guard, of any class. -/
def preubFields (cls op p : Nat) : List (Nat × Nat) :=
  match cls with
  | 0 => preubV op p
  | 1 => [(fld p 22 6, 46), (fld p 28 34, 0)]
  | 2 => preubLs false op p
  | 3 => preubLs true op p
  | 4 => [(fld p 22 4, 48), (fld p 26 4, 44), (fld p 30 19, 20), (fld p 49 4, 16), (fld p 53 11, 0)]
  | 5 => [(fld p 22 22, 0)]
  | _ => preubS op p

/-- R430, R424: the bits that a class reserves are zero. -/
def preubReserved (cls p : Nat) : Bool :=
  match cls with
  | 0 => fld p 49 3 == 0
  | 1 => fld p 62 2 == 0
  | 5 => fld p 21 1 == 0 && fld p 44 20 == 0
  | _ => true

/-- R430: opcodes that class 6 refuses. -/
def preubRefusedOp (cls op : Nat) : Bool :=
  cls == 6 && (decide (0x50 ≤ op ∧ op ≤ 0x57) || op == 0x62 || op == 0x65)

/-- R430: the Talhel word that the fields of a 64-bit operation build. -/
def preubTalhel (p : Nat) : Nat :=
  let cls := fld p 12 3
  let op := fld p 15 7
  let fs := preubFields cls op p
  if cls == 5 then word 0 ([(op, 26), (fld p 11 1, 25), (fld p 8 3, 22)] ++ fs)
  else word 0 ([(op, 56), (fld p 11 1, 55), (fld p 8 3, 52)] ++ fs)

/-- R428: a facet on which every vector name denotes the register of its number, so that registers are names. -/
def preubFacet : Facet := { vblocks := upto 16 }

/-- The registers an operation names: its guard, its sources and its destinations. -/
def preubNames (i : Instr) : List RegId :=
  .g (i.guard.toNat % 8) :: (sources preubFacet i ++ dests preubFacet i)

/-- R428: the privileged opcodes, which preubld keeps to itself; `rdsys` is none of them. -/
def reservedOp : Instr → Bool
  | .wrsys _ _ _ => true
  | .eret _ => true
  | _ => false

/-- R428: the names and opcodes that are reserved to preubld do not appear, those of the declared rotating region (its base and its
size) among them. -/
def preubNamesOk (rot : Option (Nat × Nat)) (i : Instr) : Bool :=
  (vnames i).all (fun v =>
      decide (v.toNat < 384) && match rot with | some (b, n) => !decide (b ≤ v.toNat ∧ v.toNat < b + n) | none => true)
    && (preubNames i).all (fun r => match r with | .s n => decide (n < 32) | .g n => decide (n < 4) | _ => true)
    && !reservedOp i

/-- R424, R428, R430: a 64-bit operation. `none`: preubld refuses the kernel. -/
def readPreubOp (u : VUnit) (rot : Option (Nat × Nat)) (p : Nat) : Option PreubWord :=
  let cls := fld p 12 3
  match preubSlot u cls with
  | none => none
  | some k =>
    if !preubReserved cls p || preubRefusedOp cls (fld p 15 7) then none
    else
      match decodeSlot k (preubTalhel p) with
      | .ok (some i) => if preubNamesOk rot i then some (.op k i (fld p 7 1 == 1)) else none
      | _ => none

/-- R425: a mark. -/
def readPreubMark (w : Nat) : Option PreubWord :=
  if w == 0x0000000B then some .stop
  else if fld w 0 12 == 0x08B && fld w 15 17 == 0 && fld w 12 3 != 7 then some (.scope (fb w 12 3))
  else none

/-! ## RV64I instructions (R429) -/

/-- R429: what an RV64I instruction is in Talhel. Register xk is s(k); `g4`, `s63` and `x31` are the registers that preubld takes for
itself here (R428, log entry 41). -/
inductive PreubAct where
  /-- S or SY instructions, in order -/
  | run (is : List Instr)
  /-- a scratchpad access, whose address preubld lays in `x31` -/
  | mem (is : List Instr)
  /-- a compare into `g4`, then a branch that is taken when g4 is `on` -/
  | branch (cmp : Instr) (on : Bool) (off : Int)
  /-- a transfer that leaves its link in s(d) -/
  | jal (d : BitVec 6) (off : Int)
  /-- a transfer to the code address that an instruction leaves in `s63`, and its link in s(d) -/
  | jalr (d : BitVec 6) (sum : Instr)
  /-- the code address of the word at an offset from this one, in s(d) -/
  | auipc (d : BitVec 6) (off : Int)
deriving DecidableEq, Repr

/-- The immediate of the RISC-V B format. -/
def rvImmB (w : Nat) : Int :=
  sextNat (fld w 8 4 * 2 + fld w 25 6 * 2 ^ 5 + fld w 7 1 * 2 ^ 11 + fld w 31 1 * 2 ^ 12) 13

/-- The immediate of the RISC-V J format. -/
def rvImmJ (w : Nat) : Int :=
  sextNat (fld w 21 10 * 2 + fld w 20 1 * 2 ^ 11 + fld w 12 8 * 2 ^ 12 + fld w 31 1 * 2 ^ 20) 21

/-- R429: register forms of one width: ADD to AND, the shifts, SLT and SLTU. -/
def rvReg (f7 f3 : Nat) (d a b : BitVec 6) : Option (List Instr) :=
  match f7, f3 with
  | 0x00, 0 => some [.add 0 d a b]
  | 0x20, 0 => some [.sub 0 d a b]
  | 0x00, 1 => some [.shl 0 d a b]
  | 0x00, 2 => some [.cmpLt 0 4 a b, .movGs 0 d 4]
  | 0x00, 3 => some [.cmpLtn 0 4 a b, .movGs 0 d 4]
  | 0x00, 4 => some [.xor 0 d a b]
  | 0x00, 5 => some [.shr 0 d a b]
  | 0x20, 5 => some [.sra 0 d a b]
  | 0x00, 6 => some [.or 0 d a b]
  | 0x00, 7 => some [.and 0 d a b]
  | _, _ => none

/-- R429: immediate forms; `k` is the shift amount, `f` the bits above it. -/
def rvImm (f3 f : Nat) (d a k : BitVec 6) (imm : BitVec 34) : Option (List Instr) :=
  match f3, f with
  | 0, _ => some [.addi 0 d a imm]
  | 1, 0x00 => some [.shli 0 d a k]
  | 2, _ => some [.cmpiLt 0 4 a imm, .movGs 0 d 4]
  | 3, _ => some [.li 0 63 imm, .cmpLtn 0 4 a 63, .movGs 0 d 4]
  | 4, _ => some [.xori 0 d a imm]
  | 5, 0x00 => some [.shri 0 d a k]
  | 5, 0x10 => some [.srai 0 d a k]
  | 6, _ => some [.ori 0 d a imm]
  | 7, _ => some [.andi 0 d a imm]
  | _, _ => none

/-- R429: the compare of a branch, and the guard value on which it is taken. -/
def rvBranch (f3 : Nat) (a b : BitVec 6) : Option (Instr × Bool) :=
  match f3 with
  | 0 => some (.cmpEq 0 4 a b, true)
  | 1 => some (.cmpEq 0 4 a b, false)
  | 4 => some (.cmpLt 0 4 a b, true)
  | 5 => some (.cmpLt 0 4 a b, false)
  | 6 => some (.cmpLtn 0 4 a b, true)
  | 7 => some (.cmpLtn 0 4 a b, false)
  | _ => none

/-- R218, R429: the address bits(s(a) + imm, 23, 0) goes into `x31`, and the access is made there. -/
def rvMem (i : Instr) (a : BitVec 6) (imm : Int) : PreubAct :=
  .mem [.addi 0 63 a (BitVec.ofInt 34 imm), .zext 0 63 63 24, .movSx 0 31 63, i]

/-- FENCE (R429). -/
def isFence (x : BitVec 32) : Bool := fld x.toNat 0 7 == 0x0F && fld x.toNat 12 3 == 0

/-- R424, R429: an RV64I instruction as Talhel instructions; `none`: preubld refuses the word. FENCE and FENCE.I carry their
reserved fields as zero. The result of a 64-bit operation that is narrowed stands in `s63`, so that the word may start again. -/
def rvAct (x : BitVec 32) : Option PreubAct :=
  let w := x.toNat
  let d : BitVec 6 := BitVec.ofNat 6 (fld w 7 5)
  let a : BitVec 6 := BitVec.ofNat 6 (fld w 15 5)
  let b : BitVec 6 := BitVec.ofNat 6 (fld w 20 5)
  let f3 := fld w 12 3
  let f7 := fld w 25 7
  let i12 : Int := sextNat (fld w 20 12) 12
  let imm : BitVec 34 := BitVec.ofInt 34 i12
  let narrow (l : List Instr) : PreubAct := .run (l ++ [.sext 0 d 63 32])
  match w % 128 with
  | 0x37 => some (.run [.li 0 d (BitVec.ofInt 34 (sextNat (fld w 12 20 * 4096) 32))])
  | 0x17 => some (.auipc d (sextNat (fld w 12 20 * 4096) 32))
  | 0x33 => (rvReg f7 f3 d a b).map .run
  | 0x13 => (rvImm f3 (fld w 26 6) d a (fb w 20 6) imm).map .run
  | 0x1B =>
    if f3 == 0 || (f3 == 1 || f3 == 5) && fld w 25 1 == 0 then (rvImm f3 (fld w 26 6) 63 a (fb w 20 6) imm).map narrow else none
  | 0x3B => if f3 == 0 || f3 == 1 || f3 == 5 then (rvReg f7 f3 63 a b).map narrow else none
  | 0x03 =>
    if f3 == 7 then none else some (rvMem (.ldS 0 d 31 0 (if f3 < 4 then 1 else 0) (BitVec.ofNat 2 (f3 % 4))) a i12)
  | 0x23 =>
    if 4 ≤ f3 then none
    else some (rvMem (.stS 0 b 31 0 0 0 (BitVec.ofNat 2 f3)) a (sextNat (fld w 7 5 + fld w 25 7 * 2 ^ 5) 12))
  | 0x63 => (rvBranch f3 a b).map fun c => .branch c.1 c.2 (rvImmB w)
  | 0x6F => some (.jal d (rvImmJ w))
  | 0x67 => if f3 == 0 then some (.jalr d (.addi 0 63 a imm)) else none
  | 0x0F =>
    if fld w 7 5 != 0 || fld w 15 5 != 0 then none
    else if f3 == 0 then some (.run [.drain 0])
    else if f3 == 1 && fld w 20 12 == 0 then some (.run [.ifence 0])
    else none
  | 0x73 => if w == 0x00000073 then some (.run [.sys 0 0]) else if w == 0x00100073 then some (.run [.trapi 0 0]) else none
  | _ => none

/-- R424: the first word of a Preub program and the bytes after it. -/
def readPreub (u : VUnit) (rot : Option (Nat × Nat)) (bs : List (BitVec 8)) : Option (PreubWord × List (BitVec 8)) :=
  let w := leNat (bs.take 4)
  let m := w % 128
  if bs.length < 4 then none
  else if m == 0x3F then
    if bs.length < 8 then none else (readPreubOp u rot (leNat (bs.take 8))).map fun x => (x, bs.drop 8)
  else if m == 0x0B then (readPreubMark w).map fun x => (x, bs.drop 4)
  else if (rvAct (BitVec.ofNat 32 w)).isSome then some (.rv (BitVec.ofNat 32 w), bs.drop 4)
  else none

/-- R424: the words of a program of at most `fuel` words; `none`: preubld refuses it and nothing of it runs. -/
def readPreubs (u : VUnit) (rot : Option (Nat × Nat)) : Nat → List (BitVec 8) → Option (List PreubWord)
  | _, [] => some []
  | 0, _ => none
  | n + 1, bs =>
    match readPreub u rot bs with
    | some (x, t) => (readPreubs u rot n t).map fun l => x :: l
    | none => none

/-! ## Dependence groups (R425, R426) -/

/-- R426: a word that ends its dependence group. -/
def PreubWord.ends : PreubWord → Bool
  | .stop => true
  | .op _ _ st => st
  | _ => false

/-- R426: the group index of every word, from 0 at the entry, in program order. -/
def preubGroups : List PreubWord → Nat → List Nat
  | [], _ => []
  | w :: t, n => n :: preubGroups t (if w.ends then n + 1 else n)

/-- R425: the scope in force at every word; each group starts at scope 0. -/
def preubScopes : List PreubWord → BitVec 3 → List (BitVec 3)
  | [], _ => []
  | w :: t, sc =>
    let now := match w with | .scope c => c | _ => sc
    now :: preubScopes t (if w.ends then 0 else now)

/-- The registers an RV64I instruction reads (the RISC-V formats of its major opcode: log entry 41). -/
def rvSources (w : BitVec 32) : List RegId :=
  let m := w.toNat % 128
  let a := RegId.s (fld w.toNat 15 5)
  let b := RegId.s (fld w.toNat 20 5)
  if m == 0x33 || m == 0x3B || m == 0x63 || m == 0x23 then [a, b]
  else if m == 0x13 || m == 0x1B || m == 0x03 || m == 0x67 then [a]
  else []

/-- The registers an RV64I instruction writes. -/
def rvDests (w : BitVec 32) : List RegId :=
  let m := w.toNat % 128
  if m == 0x63 || m == 0x23 || m == 0x0F || m == 0x73 then [] else [.s (fld w.toNat 7 5)]

/-- R426: registers, guards and masks that a word reads or writes. -/
def PreubWord.touches : PreubWord → List RegId
  | .rv w => rvSources w ++ rvDests w
  | .op _ i _ => preubNames i
  | _ => []

/-- R426: registers, guards and masks that a word writes; s0, g0 and m0 hold constants. -/
def PreubWord.writes (w : PreubWord) : List RegId :=
  let l := match w with
    | .rv x => rvDests x
    | .op _ i _ => dests preubFacet i
    | _ => []
  l.filter fun r => r != .s 0 && r != .g 0 && r != .m 0

/-- R229: a store reads its register as floating-point numbers, and rounds them. -/
def storeRounds (t : BitVec 5) (src : BitVec 4) : Bool := decide (1 ≤ (stSrc t src).toNat ∧ (stSrc t src).toNat ≤ 5)

/-- R68 to R80, R150, R161, R166, R171, R192, R228, R229, R231, R232: an operation that raises sticky flags: floating-point arithmetic, conversions to a
floating-point type and reductions, saturating integers, `ld.q` of a block-scaled format, stores that round, the atomic `fadd`, and a covering matrix operation. -/
def raisesFlags : Instr → Bool
  | .fadd _ _ _ _ _ _ _ | .fsub _ _ _ _ _ _ _ | .fmul _ _ _ _ _ _ _ | .fdiv _ _ _ _ _ _ _ | .fscale _ _ _ _ _ _ _ => true
  | .fma _ _ _ _ _ _ _ _ | .fms _ _ _ _ _ _ _ _ | .fnma _ _ _ _ _ _ _ _ => true
  | .fsqrt _ _ _ _ _ _ | .frcp _ _ _ _ _ _ | .frsq _ _ _ _ _ _ | .fexp2 _ _ _ _ _ _ | .flog2 _ _ _ _ _ _ => true
  | .fcvt _ _ _ _ _ _ _ _ | .fround _ _ _ _ _ _ _ _ _ | .fredAdd _ _ _ _ _ _ => true
  | .iadds _ _ _ _ _ _ _ | .isubs _ _ _ _ _ _ _ | .iredAdd _ _ _ _ _ _ => true
  | .icvt _ _ _ _ _ _ _ t sb => tyF t || sb == 1
  | .ldQ _ _ _ _ _ _ mf => mf == 6 || mf == 7
  | .stS _ _ _ _ t _ _ => t != 0
  | .sthS _ _ _ _ _ t _ _ => t != 0
  | .stV _ _ _ _ _ t _ src | .stVs _ _ _ _ _ t _ src | .stVx _ _ _ _ _ t _ src | .sthV _ _ _ _ _ _ t _ src => storeRounds t src
  | .amoP _ _ _ _ _ _ op => op == 7
  | .amoH _ _ _ _ _ _ _ op => op == 7
  | i => covers i

/-- R426: what an operation does with the facet's flags: it reads them, or writes them. One that raises flags writes them; several
that only raise do not conflict, since a raise is an OR (log entry 41). -/
structure FlagUse where
  reads : Bool := false
  clears : Bool := false
  raises : Bool := false
deriving DecidableEq, Repr

/-- R426: an operation's use of the facet's flags. -/
def PreubWord.flagOp : PreubWord → FlagUse
  | .op _ (.flagsRd _ _) _ => { reads := true }
  | .op _ (.flagsClr _ _) _ => { clears := true }
  | .op _ i _ => { raises := raisesFlags i }
  | _ => {}

/-- R426: a later operation's use of the flags after the group's. -/
def FlagUse.ok (before now : FlagUse) : Bool :=
  !((before.raises || before.clears) && (now.reads || now.clears) || before.clears && now.raises)

/-- The uses together. -/
def FlagUse.and (a b : FlagUse) : FlagUse :=
  { reads := a.reads || b.reads, clears := a.clears || b.clears, raises := a.raises || b.raises }

/-- R426: no operation reads or writes what an earlier one of its group writes. `ws` and `fw`: what the group has written and its
uses of the flags. -/
def preubGroupsOk : List PreubWord → List RegId → FlagUse → Bool
  | [], _, _ => true
  | w :: t, ws, fw =>
    w.touches.all (fun r => !ws.contains r) && fw.ok w.flagOp
      && preubGroupsOk t (if w.ends then [] else ws ++ w.writes) (if w.ends then {} else fw.and w.flagOp)

/-! ## Programs -/

/-- The bytes of a word. -/
def PreubWord.bytes : PreubWord → Nat
  | .op _ _ _ => 8
  | _ => 4

/-- The words with their byte offsets. -/
def preubPlaces : List PreubWord → Nat → List (Nat × PreubWord)
  | [], _ => []
  | w :: t, o => (o, w) :: preubPlaces t (o + w.bytes)

/-- R429: the offsets that a transfer of the word names. -/
def preubTarget (o : Nat) (w : PreubWord) : Option Int :=
  match w with
  | .rv x => match rvAct x with | some (.branch _ _ d) => some (o + d) | some (.jal _ d) => some (o + d) | _ => none
  | _ => none

/-- R424 to R430: the program in the bytes; `none`: preubld refuses the kernel. A branch or JAL names a word of the kernel (log
entry 41). -/
def preubLoad (u : VUnit) (rot : Option (Nat × Nat)) (bs : List (BitVec 8)) : Option (List (Nat × PreubWord)) :=
  match readPreubs u rot (bs.length + 1) bs with
  | none => none
  | some ws =>
    let ps := preubPlaces ws 0
    if preubGroupsOk ws [] {} && ps.all fun p => match preubTarget p.1 p.2 with | some t => ps.any fun q => (q.1 : Int) == t | none => true
    then some ps
    else none

/-- R426: the offsets at which dependence groups start. -/
def preubStarts : List (Nat × PreubWord) → Bool → List Nat
  | [], _ => []
  | p :: t, first => (if first then [p.1] else []) ++ preubStarts t p.2.ends

end Sys2Proof.Machine
end

