-- ==== Sys2Proof/Machine/PreubRun.lean ====
section
/-! DEFINITION. The meaning of a Preub program (16 R425 to R429): its words run in their order on one facet, each as its Talhel
instructions issued one a bundle at the scope its marks set, with the idle cycles that leave no result on its way (R427). The
machine itself fetches Talhel bundles only; the run here is what preubld's bundles must amount to (log entry 41). -/

namespace Sys2Proof.Machine

/-- A run of a Preub program on a facet of the package. -/
structure PreubRun where
  /-- the program's words with their byte offsets -/
  words : List (Nat × PreubWord)
  core : Nat
  facet : Nat
  /-- byte offset of the word that runs -/
  pos : Nat := 0
  /-- Talhel instructions of the word that have issued -/
  issued : Nat := 0
  /-- the kernel's own value of `x31` while a word uses it -/
  saved : Option (BitVec 32) := none
  /-- the program's turn, or the rest of the package's -/
  mine : Bool := true
  state : State
deriving DecidableEq, Repr

/-- The word that runs. -/
def PreubRun.word (r : PreubRun) : Option PreubWord := (r.words.find? fun p => p.1 == r.pos).map (·.2)

/-- What stands at the run's place of a list that holds an element for each word. -/
def PreubRun.here {α : Type} (r : PreubRun) (off : Nat) (l : List α) : Option α :=
  ((r.words.zip l).find? fun p => p.1.1 == off).map (·.2)

/-- R425, R429: the scope at which the word that runs issues: that of its place, and lode scope for FENCE. -/
def PreubRun.scope (r : PreubRun) : BitVec 3 :=
  let marked := (r.here r.pos (preubScopes (r.words.map (·.2)) 0)).getD 0
  match r.word with
  | some (.rv x) => if isFence x then 3 else marked
  | _ => marked

/-- R426: the static group index of the word at an offset. -/
def PreubRun.group (r : PreubRun) (off : Nat) : Nat := (r.here off (preubGroups (r.words.map (·.2)) 0)).getD 0

/-- R429: the Talhel code address of the word at an offset. -/
def preubAddr (off : Nat) : BitVec 64 := BitVec.ofNat 64 (4 * Config.preubPlace (off / 4))

/-- The bundles of a word: one for each Talhel instruction; a STOP mark's is empty. -/
def PreubWord.bundles : PreubWord → List (Option Instr)
  | .stop => [none]
  | .scope _ => []
  | .op _ i _ => [some i]
  | .rv x =>
    match rvAct x with
    | some (.run is) => is.map some
    | some (.mem is) => is.map some
    | some (.branch c _ _) => [some c]
    | some (.jalr _ i) => [some i]
    | _ => []

/-- R427: the idle cycles after which every result that has a bound has reached it. -/
def State.elapse (s : State) (c fn : Nat) : State :=
  (s.modFacet c fn fun f => { f with clock := (f.landings.map (·.due)).foldl max f.clock }).settle c fn

/-- The word uses `x31`. -/
def PreubWord.usesX31 : PreubWord → Bool
  | .rv x => match rvAct x with | some (.mem _) => true | _ => false
  | _ => false

/-- `x31` has the kernel's own value again. -/
def PreubRun.restored (r : PreubRun) (s : State) : State :=
  match r.saved with
  | some v => s.modFacet r.core r.facet fun f => { f with x := f.x.set 31 v }
  | none => s

/-- The facet as the program's next bundle finds it: its place, and `x31` set aside while a word uses it. -/
def PreubRun.enter (r : PreubRun) : PreubRun :=
  let s := { r.state with cur := r.core, freeCtr := r.state.freeCtr + 1 }.modCore r.core fun k => { k with run := r.facet, idle := false }
  let s := s.elapse r.core r.facet
  let s := s.modMe fun f => { f with pc := (preubAddr r.pos).toNat % 32768, bank := (preubAddr r.pos).getLsbD 15 }
  let uses := match r.word with | some w => w.usesX31 | none => false
  { r with saved := if uses && r.saved.isNone then some (s.me.x.get 31 0) else r.saved, state := s }

/-- R429: a link, or an AUIPC's result. -/
def State.preubLink (s : State) (d : BitVec 6) (v : BitVec 64) : State := if d == 0 then s else s.putS d v 1

/-- R429: the words that a JALR may go to: those after a JAL, and group starts that an AUIPC names. -/
def PreubRun.entries (r : PreubRun) : List Nat :=
  r.words.flatMap fun p =>
    match p.2 with
    | .rv x =>
      match rvAct x with
      | some (.jal l _) => if l == 0 then [] else [p.1 + 4]
      | some (.auipc _ d) => if (preubStarts r.words true).any fun o => (o : Int) == p.1 + d then [((p.1 : Int) + d).toNat] else []
      | _ => []
    | _ => []

/-- The word is done: the run goes on at an offset. -/
def PreubRun.goes (r : PreubRun) (off : Nat) (s : State) : PreubRun :=
  { r with pos := off, issued := 0, saved := none, state := r.restored s }

/-- R39, R426: a transfer that is taken ends the run of its dependence group, unless it goes forward within it (log entry 41). -/
def PreubRun.jumps (r : PreubRun) (off : Nat) (s : State) : PreubRun :=
  r.goes off (if r.pos < off ∧ r.group off = r.group r.pos then s else s.modMe fun f => { f with group := f.group + 1 })

/-- R429: what a word does after its Talhel instructions have committed: a transfer, a link, or the next word. A target that is
no group start of the kernel traps in the place of its `brs`. -/
def PreubRun.done (r : PreubRun) (w : PreubWord) (s : State) : PreubRun :=
  let next := r.goes (r.pos + w.bytes)
  match w with
  | .rv x =>
    match rvAct x with
    | some (.branch _ on d) =>
      if s.readG 4 == on then r.jumps ((r.pos : Int) + d).toNat s else next s
    | some (.jal l d) => r.jumps ((r.pos : Int) + d).toNat (s.preubLink l (preubAddr (r.pos + 4)))
    | some (.jalr l _) =>
      match r.entries.find? fun o => preubAddr o == s.readS 63 with
      | some o => r.jumps o (s.preubLink l (preubAddr (r.pos + 4)))
      | none => { r with issued := 0, state := s.takeTrap (trapOf (.brs 0 63 0) .illegalEncoding) }
    | some (.auipc l d) =>
      next (s.preubLink l
        (if (preubStarts r.words true).any fun o => (o : Int) == r.pos + d then preubAddr ((r.pos : Int) + d).toNat
        else Config.preubAuipc r.pos))
    | _ => next s
  | _ => next s

/-- R427, R428: the decode checks of a Talhel instruction that stands alone in its bundle. -/
def State.preubFault (s : State) (scope : BitVec 3) (i : Instr) : Option TrapInfo :=
  match encode i, i.slot? with
  | some w, some k => decodeTrap false (slotFault false s.me.allot 0 0 scope k w).toList
  | _, _ => none

/-- R427: the program's next bundle is offered. It holds and is offered again, it traps and its word starts again when the handler
has returned (R429), with `x31` as the kernel has it in the frame, or it passes, its operations happen and it commits. -/
def PreubRun.offerOne (r : PreubRun) : Host.Outcome PreubRun Fault Refusal :=
  match r.word with
  | none => .next r
  | some w =>
    let r := r.enter
    let s := r.state
    match w.bundles[r.issued]? with
    | none => .next (r.done w s)
    | some oi =>
      let h : Header :=
        { scope := r.scope, safe := false, switch := false, gend := w.ends && r.issued + 1 == w.bundles.length, present := 0, idle := 0 }
      let s := s.modMe fun f => { f with latch := { f.latch with scope := r.scope } }
      let t :=
        match oi.bind (s.preubFault r.scope) with
        | some e => (r.restored s).takeTrap e
        | none => State.tryIssueFrom r.restored s { h := h, size := 0, ops := oi.toList }
      if (t.facet r.core r.facet).latch.passed then
        match finish (.next t) with
        | .next u => .next { r with issued := r.issued + 1, state := u }
        | .fault e => .fault e
        | .refused e => .refused e
      else if (t.facet r.core r.facet).intrap then .next { r with issued := 0, saved := none, state := t }
      else .next { r with state := t }

/-- R429: the bundles of a word that uses `x31` are offered one after another in one step, as long as they pass. -/
def PreubRun.offerRun : Nat → PreubRun → Host.Outcome PreubRun Fault Refusal
  | 0, r => .next r
  | n + 1, r =>
    match r.offerOne with
    | .next t => if t.pos == r.pos && t.issued == r.issued + 1 then t.offerRun n else .next t
    | o => o

/-- R429: a word that uses `x31` leaves it as the kernel has it, whether its access has issued or the word is to start again. -/
def PreubRun.settled (r : PreubRun) (w : PreubWord) : PreubRun :=
  { r with issued := if r.issued < w.bundles.length then 0 else r.issued, saved := none, state := r.restored r.state }

/-- R427, R429: the program's next bundle is offered; a word that uses `x31` is one indivisible step. -/
def PreubRun.offer (r : PreubRun) : Host.Outcome PreubRun Fault Refusal :=
  match r.word with
  | none => .next r
  | some w =>
    if !w.usesX31 then r.offerOne
    else
      match r.offerRun (if r.issued < w.bundles.length then w.bundles.length - r.issued else 1) with
      | .next t => .next (t.settled w)
      | o => o

/-- R353: the program's next bundle is offered, or it stands until the repairs that it asks for are made. -/
def PreubRun.attempt (r : PreubRun) : Host.Outcome PreubRun Fault Refusal :=
  match { r with state := { r.state with stands := false } }.offer with
  | .next t => .next (if t.state.stands then { r with state := r.state.standing t.state } else t)
  | o => o

/-- The program's facet can run a word: it is there, in no handler, neither parked nor frozen, and no bundle of it commits. -/
def PreubRun.runs (r : PreubRun) : Bool :=
  let f := r.state.facet r.core r.facet
  f.resident && !f.intrap && !f.parked && !f.latch.passed && !(r.state.geode (geodeOf r.core)).frozen

/-- R427: a step of the program, or of the package around it, in turn. The facet's handlers are Talhel code and run as any. -/
def PreubRun.step (r : PreubRun) : Host.Outcome PreubRun Fault Refusal :=
  if r.mine && r.runs then { r with mine := false }.attempt
  else
    let o : Host.Outcome State Fault Refusal :=
      match r.state.turn, r.state.nextIssuer with
      | false, some c =>
        if c == r.core && (r.state.core c).run == r.facet && r.runs then .next { r.state with turn := true }
        else Sys2Proof.Machine.step r.state
      | _, _ => Sys2Proof.Machine.step r.state
    match o with
    | .next s => .next { r with mine := true, state := s }
    | .fault e => .fault e
    | .refused e => .refused e

/-- R424, R427: the run of a Preub kernel from its entry on a facet, whose kernel declares the rotating region (R108); `none`:
preubld refuses the kernel and nothing of it runs. -/
def PreubRun.start (u : VUnit) (bs : List (BitVec 8)) (core facet : Nat) (s : State) : Option PreubRun :=
  (preubLoad u (s.facet core facet).rotRegion bs).map fun ws => { words := ws, core := core, facet := facet, state := s }

end Sys2Proof.Machine
end

