-- ==== Sys2Proof/Tests/Slice0.lean ====
section
/-! SUPPORT. Tests: the checks of well-formedness refuse, words of the spec decode, each statement with hypotheses has a state
and operands that meet them, and single steps give the values that the spec's rules name. -/

namespace Sys2Proof.Tests

set_option Elab.async false

open Sys2Proof Sys2Proof.Machine

/-! ## A small state -/

/-- A resident facet of launch 1 on core 0 at logical cycle 100. -/
def facet0 : Facet :=
  { resident := true, launch := 1, ntasks := 1, clock := 100, vblocks := [0, 1, 2], cblocks := [0, 1, 2], pbar := 2
    s := [(6, 0x60), (7, 3)], x := [(1, 0x100)]
    d := [(3, 0x10040), (4, 0x4000000)], q := [(0, 0x42), (7, 16)], staging := [(2, 0x1000040)]
    h := [(1, { valid := true, r := true, w := true, psize := 0, frame := 1 })], lsDepth := 1
    rbase := some 0, ringMask := 3 }

/-- Its core: a record for it, a band it owns, a routine and the micro-word store of its kernel. -/
def core0 : Core :=
  { run := 0, facets := [(0, facet0)], evq := [⟨0, 9, 0⟩], bands := [(0, { isOpen := true, rowBytes := 64, rrows := 4, fill := 4, t := 4 })]
    routines := [⟨0, 0, [0xA0000000000000000000000000000000]⟩] }

/-- Its launch, with a window of four pages on core 0. -/
def launch0 : Launch :=
  { slot := 2, words := [], pasid := 0, kernel := {}, image := 0, toPlace := [], ntasks := 1, windows := [(0, [0, 1, 2, 3])] }

/-- A message for it from rank 1. -/
def msg0 : Msg :=
  { id := 1, launch := 1, src := 1, srcFacet := 0, dst := 0, dstFacet := 0, lane := 0, dir := false, stamp := 83, val := {}
    buffered := true }

/-- The package around it. -/
def st : State := { cores := [(0, core0)], launches := [(1, launch0)], geodes := [(0, { msgs := [msg0] })] }

/-- The same with the facet changed. -/
def stWith (f : Facet → Facet) : State := st.modMe f

/-- An instruction is well formed and ready. -/
def fits (s : State) (i : Instr) : Bool := i.wf && s.ready i
/-! ## Ill-formed instructions

One term for each operand that a check of the spec limits (R45, R52, R155 and the entries), every other operand legal. -/

/-- Each is refused. -/
theorem test_illformed_1 :
    ([.add128 0 1 6 8, .add128 0 4 1 8, .add128 0 4 6 1, .sext 0 4 6 0, .zext 0 4 6 0, .cmpEq 0 0 6 7, .cmpNe 0 0 6 7,
      .cmpLt 0 0 6 7, .cmpLtn 0 0 6 7, .cmpLe 0 0 6 7, .cmpLen 0 0 6 7, .cmpiEq 0 0 6 0, .cmpiLt 0 0 6 0, .gand 0 0 1 2,
      .gor 0 0 1 2, .gnot 0 0 1, .loop 0 1 0 0 0, .loopi 0 1 0 0 0, .rdid 0 4 9, .rdsys 0 4 3, .wrsys 0 6 1, .evpop 0 1,
      .wfe 0 0, .movSg 0 0 6, .movSv 0 384 6 0, .fadd .a 0 384 6 7 0 1, .fadd .a 0 4 384 7 0 1, .fadd .a 0 4 6 384 0 1,
      .fadd .a 0 4 6 7 0 0, .fsub .a 0 384 6 7 0 1, .fsub .a 0 4 384 7 0 1, .fsub .a 0 4 6 384 0 1, .fsub .a 0 4 6 7 0 0,
      .fmul .a 0 384 6 7 0 1, .fmul .a 0 4 384 7 0 1, .fmul .a 0 4 6 384 0 1, .fmul .a 0 4 6 7 0 0, .fmin .a 0 384 6 7 0 1,
      .fmin .a 0 4 384 7 0 1, .fmin .a 0 4 6 384 0 1, .fmin .a 0 4 6 7 0 0, .fmax .a 0 384 6 7 0 1, .fmax .a 0 4 384 7 0 1,
      .fmax .a 0 4 6 384 0 1, .fmax .a 0 4 6 7 0 0, .fdiv .a 0 384 6 7 0 1, .fdiv .a 0 4 384 7 0 1, .fdiv .a 0 4 6 384 0 1,
      .fdiv .a 0 4 6 7 0 0, .fscale .a 0 384 6 7 0 1, .fscale .a 0 4 384 7 0 1, .fscale .a 0 4 6 384 0 1,
      .fscale .a 0 4 6 7 0 0, .fma .a 0 384 6 7 9 0 1, .fma .a 0 4 384 7 9 0 1, .fma .a 0 4 6 384 9 0 1,
      .fma .a 0 4 6 7 384 0 1, .fma .a 0 4 6 7 9 0 0, .fms .a 0 384 6 7 9 0 1, .fms .a 0 4 384 7 9 0 1] : List Instr).all (fun i => !i.wf) = true := by decide +kernel

/-- Each is refused. -/
theorem test_illformed_2 :
    ([.fms .a 0 4 6 384 9 0 1, .fms .a 0 4 6 7 384 0 1, .fms .a 0 4 6 7 9 0 0, .fnma .a 0 384 6 7 9 0 1,
      .fnma .a 0 4 384 7 9 0 1, .fnma .a 0 4 6 384 9 0 1, .fnma .a 0 4 6 7 384 0 1, .fnma .a 0 4 6 7 9 0 0,
      .fabs .a 0 384 6 0 1, .fabs .a 0 4 384 0 1, .fabs .a 0 4 6 0 0, .fneg .a 0 384 6 0 1, .fneg .a 0 4 384 0 1,
      .fneg .a 0 4 6 0 0, .fsqrt .a 0 384 6 0 1, .fsqrt .a 0 4 384 0 1, .fsqrt .a 0 4 6 0 0, .frcp .a 0 384 6 0 1,
      .frcp .a 0 4 384 0 1, .frcp .a 0 4 6 0 0, .frsq .a 0 384 6 0 1, .frsq .a 0 4 384 0 1, .frsq .a 0 4 6 0 0,
      .fexp2 .a 0 384 6 0 1, .fexp2 .a 0 4 384 0 1, .fexp2 .a 0 4 6 0 0, .flog2 .a 0 384 6 0 1, .flog2 .a 0 4 384 0 1,
      .flog2 .a 0 4 6 0 0, .fcvt .a 0 384 6 2 0 0 1, .fcvt .a 0 4 384 2 0 0 1, .fcvt .a 0 4 6 0 0 0 1,
      .fcvt .a 0 4 6 2 384 0 1, .fcvt .a 0 4 6 2 0 0 0, .fround .a 0 384 6 1 0 0 1 0, .fround .a 0 4 384 1 0 0 1 0,
      .fround .a 0 4 6 0 0 0 1 0, .fround .a 0 4 6 1 384 0 1 0, .fround .a 0 4 6 1 0 0 0 0, .fround .a 0 4 6 1 0 0 1 5,
      .fclass .a 0 0 6 1 0 1 0, .fclass .a 0 3 384 1 0 1 0, .fclass .a 0 3 6 1 0 0 0, .fclass .a 0 3 6 1 0 1 3,
      .fcmp .a 0 0 6 7 0 1 0, .fcmp .a 0 3 384 7 0 1 0, .fcmp .a 0 3 6 384 0 1 0, .fcmp .a 0 3 6 7 0 0 0,
      .fredAdd .a 0 384 6 0 1, .fredAdd .a 0 4 384 0 1, .fredAdd .a 0 4 6 0 0, .fredMax .a 0 384 6 0 1,
      .fredMax .a 0 4 384 0 1, .fredMax .a 0 4 6 0 0, .fredMin .a 0 384 6 0 1, .fredMin .a 0 4 384 0 1, .fredMin .a 0 4 6 0 0,
      .bscale .a 0 384 6 0 4 1, .bscale .a 0 4 384 0 4 1, .bscale .a 0 4 6 0 0 1] : List Instr).all (fun i => !i.wf) = true := by decide +kernel

/-- Each is refused. -/
theorem test_illformed_3 :
    ([.bscale .a 0 4 6 0 4 3, .iadd .a 0 384 6 7 0 19, .iadd .a 0 4 384 7 0 19, .iadd .a 0 4 6 384 0 19, .iadd .a 0 4 6 7 0 0,
      .isub .a 0 384 6 7 0 19, .isub .a 0 4 384 7 0 19, .isub .a 0 4 6 384 0 19, .isub .a 0 4 6 7 0 0, .imul .a 0 384 6 7 0 19,
      .imul .a 0 4 384 7 0 19, .imul .a 0 4 6 384 0 19, .imul .a 0 4 6 7 0 0, .imulh .a 0 384 6 7 0 19,
      .imulh .a 0 4 384 7 0 19, .imulh .a 0 4 6 384 0 19, .imulh .a 0 4 6 7 0 0, .iand .a 0 384 6 7 0 19,
      .iand .a 0 4 384 7 0 19, .iand .a 0 4 6 384 0 19, .iand .a 0 4 6 7 0 0, .ior .a 0 384 6 7 0 19, .ior .a 0 4 384 7 0 19,
      .ior .a 0 4 6 384 0 19, .ior .a 0 4 6 7 0 0, .ixor .a 0 384 6 7 0 19, .ixor .a 0 4 384 7 0 19, .ixor .a 0 4 6 384 0 19,
      .ixor .a 0 4 6 7 0 0, .ishl .a 0 384 6 7 0 19, .ishl .a 0 4 384 7 0 19, .ishl .a 0 4 6 384 0 19, .ishl .a 0 4 6 7 0 0,
      .ishr .a 0 384 6 7 0 19, .ishr .a 0 4 384 7 0 19, .ishr .a 0 4 6 384 0 19, .ishr .a 0 4 6 7 0 0, .isra .a 0 384 6 7 0 19,
      .isra .a 0 4 384 7 0 19, .isra .a 0 4 6 384 0 19, .isra .a 0 4 6 7 0 0, .imin .a 0 384 6 7 0 19, .imin .a 0 4 384 7 0 19,
      .imin .a 0 4 6 384 0 19, .imin .a 0 4 6 7 0 0, .imax .a 0 384 6 7 0 19, .imax .a 0 4 384 7 0 19, .imax .a 0 4 6 384 0 19,
      .imax .a 0 4 6 7 0 0, .iadds .a 0 384 6 7 0 19, .iadds .a 0 4 384 7 0 19, .iadds .a 0 4 6 384 0 19,
      .iadds .a 0 4 6 7 0 0, .isubs .a 0 384 6 7 0 19, .isubs .a 0 4 384 7 0 19, .isubs .a 0 4 6 384 0 19,
      .isubs .a 0 4 6 7 0 0, .iabs .a 0 384 6 0 19, .iabs .a 0 4 384 0 19, .iabs .a 0 4 6 0 0] : List Instr).all (fun i => !i.wf) = true := by decide +kernel

/-- Each is refused. -/
theorem test_illformed_4 :
    ([.iclz .a 0 384 6 0 19, .iclz .a 0 4 384 0 19, .iclz .a 0 4 6 0 0, .ipopc .a 0 384 6 0 19, .ipopc .a 0 4 384 0 19,
      .ipopc .a 0 4 6 0 0, .ibint3 .a 0 384 6 0 19, .ibint3 .a 0 4 384 0 19, .ibint3 .a 0 4 6 0 0, .icmp .a 0 0 6 7 0 19 0,
      .icmp .a 0 3 384 7 0 19 0, .icmp .a 0 3 6 384 0 19 0, .icmp .a 0 3 6 7 0 0 0, .icmp .a 0 3 6 7 0 19 7,
      .iredAdd .a 0 384 6 0 19, .iredAdd .a 0 4 384 0 19, .iredAdd .a 0 4 6 0 0, .iadd128 .a 0 384 6 7 0 27,
      .iadd128 .a 0 4 384 7 0 27, .iadd128 .a 0 4 6 384 0 27, .iadd128 .a 0 4 6 7 0 0, .icvt .a 0 384 6 19 0 0 19 0,
      .icvt .a 0 4 384 19 0 0 19 0, .icvt .a 0 4 6 0 0 0 19 0, .icvt .a 0 4 6 19 384 0 19 0, .icvt .a 0 4 6 19 0 0 0 0,
      .icvt .a 0 4 6 19 0 0 19 3, .vsel .a 0 384 6 7 0 1, .vsel .a 0 4 384 7 0 1, .vsel .a 0 4 6 384 0 1, .vsel .a 0 4 6 7 0 7,
      .vperm .a 0 384 6 7 0 1, .vperm .a 0 4 384 7 0 1, .vperm .a 0 4 6 384 0 1, .vperm .a 0 4 6 7 0 7,
      .vzip .a 0 384 6 7 0 1 0, .vzip .a 0 4 384 7 0 1 0, .vzip .a 0 4 6 384 0 1 0, .vzip .a 0 4 6 7 0 7 0,
      .vzip .a 0 4 6 7 0 1 3, .vunzip .a 0 384 6 7 0 1 0, .vunzip .a 0 4 384 7 0 1 0, .vunzip .a 0 4 6 384 0 1 0,
      .vunzip .a 0 4 6 7 0 7 0, .vunzip .a 0 4 6 7 0 1 3, .vrev .a 0 384 6 0 1, .vrev .a 0 4 384 0 1, .vrev .a 0 4 6 0 7,
      .vcompress .a 0 384 6 0 1, .vcompress .a 0 4 384 0 1, .vcompress .a 0 4 6 0 7, .vexpand .a 0 384 6 0 1,
      .vexpand .a 0 4 384 0 1, .vexpand .a 0 4 6 0 7, .vbcast .a 0 384 6 0 0 1, .vbcast .a 0 4 384 0 0 1,
      .vbcast .a 0 4 6 262143 0 1, .vbcast .a 0 4 6 0 0 7, .vslide .a 0 384 6 0 0 1, .vslide .a 0 4 384 0 0 1] : List Instr).all (fun i => !i.wf) = true := by decide +kernel

/-- Each is refused. -/
theorem test_illformed_5 :
    ([.vslide .a 0 4 6 8192 0 1, .vslide .a 0 4 6 0 0 7, .viota .a 0 384 0 0 19, .viota .a 0 4 0 0 0, .vmovi .a 0 384 0 0 1,
      .vmovi .a 0 4 0 0 7, .mand .a 0 0 1 2, .mor .a 0 0 1 2, .mxor .a 0 0 1 2, .mnot .a 0 0 1, .mpopc .a 0 384 1 0 19,
      .mpopc .a 0 4 1 0 0, .mfirst .a 0 384 1 0 19, .mfirst .a 0 4 1 0 0, .vrng .a 0 384 6 7 0 26, .vrng .a 0 4 384 7 0 26,
      .vrng .a 0 4 6 384 0 26, .vrng .a 0 4 6 7 0 0, .vrngF .a 0 384 6 0 1, .vrngF .a 0 4 384 0 1, .vrngF .a 0 4 6 0 0,
      .movVs .a 0 4 384 0, .movMg .a 0 0 1 2, .movVx .a 0 4 384 0, .mzero 0 0 8, .mdrainV 0 384 0 0 0, .mdrainV 0 4 0 8 0,
      .mdrainP 0 0 0 1 8 0 7 0, .mucodeLd 0 0 0 1, .mstat 0 0 1, .ldV 0 384 1 0 0 1, .ldV 0 4 1 0 0 7, .ldVs 0 384 1 0 0 1,
      .ldVs 0 4 1 0 0 7, .ldVg 0 384 1 9 0 19, .ldVg 0 4 1 384 0 19, .ldVg 0 4 1 9 0 0, .ldM 0 0 1 0, .ldhV 0 384 1 1 0 0 1,
      .ldhV 0 4 1 1 0 0 7, .vfill 0 384 1 0, .vfill 0 4 1 1, .translate 0 6 1 0, .recv 0 384 1 0 0 0, .ldQ 0 384 1 0 0 2 3,
      .ldQ 0 4 1 0 0 0 3, .ldQ 0 4 1 0 0 2 0, .stS 0 6 1 0 1 0 3, .stS 0 6 1 0 0 1 3, .stV 0 384 1 0 0 1 0 0,
      .stV 0 6 1 0 0 7 0 0, .stV 0 6 1 0 0 1 5 0, .stV 0 6 1 0 0 1 0 7, .stVs 0 384 1 0 0 1 0 0, .stVs 0 6 1 0 0 7 0 0,
      .stVs 0 6 1 0 0 1 5 0, .stVs 0 6 1 0 0 1 0 7, .stVx 0 384 1 9 0 19 0 0, .stVx 0 6 1 384 0 19 0 0, .stVx 0 6 1 9 0 0 0 0] : List Instr).all (fun i => !i.wf) = true := by decide +kernel

/-- Each is refused. -/
theorem test_illformed_6 :
    ([.stVx 0 6 1 9 0 19 1 0, .stVx 0 6 1 9 0 19 0 3, .sthS 0 6 1 1 0 1 0 3, .sthS 0 6 1 1 0 0 1 3, .sthV 0 384 1 1 0 0 1 0 0,
      .sthV 0 6 1 1 0 0 7 0 0, .sthV 0 6 1 1 0 0 1 5 0, .sthV 0 6 1 1 0 0 1 0 7, .vspill 0 384 1 0, .vspill 0 6 1 1,
      .send 0 384 1 0 0 0, .amoP 0 4 1 0 0 0 0, .amoP 0 4 1 0 19 1 0, .amoP 0 4 1 0 19 0 3, .amoH 0 4 1 1 0 0 0 0,
      .amoH 0 4 1 1 0 19 1 0, .amoH 0 4 1 1 0 19 0 3, .feed 0 2 3 1 0 0 0 0, .feed 0 2 3 0 1 0 0 0, .feed 0 2 3 0 0 3 0 0,
      .feed 0 2 3 0 0 0 3 0, .bulkSet 0 2 3 3, .winOpen 0 2 4 1 0 2 0, .winOpen 0 2 4 1 4 0 0, .ifetch 0 2 16383 0,
      .wait 0 15 0, .yadd 0 0 0 5 2 5, .yadd 0 0 0 1 0 5, .ysub 0 0 0 5 0 32, .ysub 0 0 0 1 3 32, .ysub 0 0 0 1 0 1,
      .yand 0 0 0 5 0 32, .yand 0 0 0 1 3 32, .yand 0 0 0 1 0 1, .yxor 0 0 0 5 0 32, .yxor 0 0 0 1 3 32, .yxor 0 0 0 1 0 1,
      .ycmp 0 0 0 5 0 1 0, .ycmp 0 0 0 1 0 5 0, .ycmp 0 0 0 1 0 1 7, .chkV 0 384 6 0, .chkV 0 6 384 0] : List Instr).all (fun i => !i.wf) = true := by decide +kernel

/-- R97: two sources of one bank are refused. -/
theorem test_illformed_banks :
    ([.fadd .a 0 4 6 8 0 1, .fsub .a 0 4 6 8 0 1, .fmul .a 0 4 6 8 0 1, .fmin .a 0 4 6 8 0 1, .fmax .a 0 4 6 8 0 1,
      .fdiv .a 0 4 6 8 0 1, .fscale .a 0 4 6 8 0 1, .fma .a 0 4 6 8 9 0 1, .fms .a 0 4 6 8 9 0 1, .fnma .a 0 4 6 8 9 0 1,
      .fcmp .a 0 3 6 8 0 1 0, .iadd .a 0 4 6 8 0 19, .isub .a 0 4 6 8 0 19, .imul .a 0 4 6 8 0 19, .imulh .a 0 4 6 8 0 19,
      .iand .a 0 4 6 8 0 19, .ior .a 0 4 6 8 0 19, .ixor .a 0 4 6 8 0 19, .ishl .a 0 4 6 8 0 19, .ishr .a 0 4 6 8 0 19,
      .isra .a 0 4 6 8 0 19, .imin .a 0 4 6 8 0 19, .imax .a 0 4 6 8 0 19, .iadds .a 0 4 6 8 0 19, .isubs .a 0 4 6 8 0 19,
      .icmp .a 0 3 6 8 0 19 0, .iadd128 .a 0 4 6 8 0 27, .vsel .a 0 4 6 8 0 1, .vperm .a 0 4 6 8 0 1, .vzip .a 0 4 6 8 0 1 0,
      .vunzip .a 0 4 6 8 0 1 0, .vrng .a 0 4 6 8 0 26] : List Instr).all (fun i => i.fieldsOk && !i.banksOk) = true := by decide +kernel

/-! ## Witnesses: the slot operations -/

theorem witness_ScalarArithmeticResults :
    ([.add 0 4 6 7, .sub 0 4 6 7, .mul 0 4 6 7, .mulh 0 4 6 7, .mulhn 0 4 6 7, .and 0 4 6 7, .or 0 4 6 7, .xor 0 4 6 7,
     .shl 0 4 6 7, .shr 0 4 6 7, .sra 0 4 6 7, .rot 0 4 6 7, .min 0 4 6 7, .max 0 4 6 7, .minn 0 4 6 7, .maxn 0 4 6 7,
     .sel 0 4 6 7 1 0, .addi 0 4 6 7, .andi 0 4 6 0, .ori 0 4 6 0, .xori 0 4 6 0, .shli 0 4 6 5, .shri 0 4 6 5, .srai 0 4 6 5,
     .li 0 4 7, .lih 0 4 7, .muli 0 4 6 0] : List Instr).all (fits st) = true := by decide +kernel

theorem witness_DivisionFollowsItsTable :
    ([.div 0 4 6 7, .divn 0 4 6 7, .rem 0 4 6 7, .remn 0 4 6 7] : List Instr).all (fits st) = true := by decide +kernel

theorem witness_WideSumSpansItsPairs :
    ([.add128 0 4 6 8] : List Instr).all (fits st) = true := by decide +kernel

theorem witness_BitInstructionsMoveEveryBit :
    ([.clz 0 4 6, .ctz 0 4 6, .popc 0 4 6, .bint3 0 4 6, .bdint3 0 4 6, .bint2 0 4 6, .bdint2 0 4 6, .brev 0 4 6, .sext 0 4 6 8,
     .zext 0 4 6 8] : List Instr).all (fits st) = true := by decide +kernel

theorem witness_ComparesWriteTheirGuard :
    ([.cmpEq 0 3 6 7, .cmpNe 0 3 6 7, .cmpLt 0 3 6 7, .cmpLtn 0 3 6 7, .cmpLe 0 3 6 7, .cmpLen 0 3 6 7, .cmpiEq 0 3 6 0,
     .cmpiLt 0 3 6 0, .gand 0 3 1 2, .gor 0 3 1 2, .gnot 0 3 1] : List Instr).all (fits st) = true := by decide +kernel

theorem witness_TransfersLatchTheirTarget :
    ([.br 0 0, .brs 0 6 0, .call 0 0 0, .ret 0 6, .lexit 0 0, .brb 0 0 16] : List Instr).all (fits st) = true := by decide +kernel

theorem witness_LoopInstructionsOpenTheirEntry :
    ([.loop 0 0 0 0 0, .loopi 0 0 0 0 0] : List Instr).all (fits st) = true := by decide +kernel

theorem witness_SystemReadsIssueTheirValue :
    ([.rdid 0 4 0, .rdsys 0 4 0x10, .rdtime 0 4, .rdcyc 0 4, .flagsRd 0 4, .flagsClr 0 0, .evpop 0 4, .setest 0 6 0] : List Instr).all (fits st) = true := by decide +kernel

theorem witness_WaitsEndWithoutOtherEffect :
    ([.ifence 0, .wfe 0 1, .barWait 0 1 7, .wait 0 0 0, .drain 0, .mwait 0 0, .chkY 0 1 1, .chkV 0 6 6 0, .chkS 0 1 0, .pbar 0,
     .tsync 0 1] : List Instr).all (fits st) = true := by decide +kernel
/-- setest with no entry, and with an entry with and without a scale. -/
theorem witness_SystemReads_estimates :
    let s := stWith fun f => { f with estTable := [(3, 5)] }
    s.ready (.setest 0 6 0) = true ∧ s.ready (.setest 0 6 3) = true ∧ s.ready (.setest 0 0 3) = true
      ∧ s.me.estTable.find 0 = none ∧ s.me.estTable.find 3 = some 5 := by decide +kernel

theorem witness_CommitRequestsAreLatched :
    ([.halt 0, .yield 0, .sys 0 0, .trapi 0 0, .wrsys 0 6 0x10] : List Instr).all (fits st) = true := by decide +kernel

theorem witness_CrossFileCopiesMoveTheirValue :
    ([.movGs 0 4 1, .movSg 0 3 6, .movSv 0 4 6 0, .movSx 0 4 6, .movSq 0 4 6, .movSd 0 4 6, .movVs .a 0 4 6 0,
     .movMg .a 0 3 1 2, .movVx .a 0 4 6 0, .movXs 0 4 6] : List Instr).all (fits st) = true := by decide +kernel

theorem witness_FloatArithmeticResults :
    ([.fadd .a 0 4 6 7 0 1, .fsub .a 0 4 6 7 0 1, .fmul .a 0 4 6 7 0 1, .fmin .a 0 4 6 7 0 1, .fmax .a 0 4 6 7 0 1,
     .fdiv .a 0 4 6 7 0 1, .fscale .a 0 4 6 7 0 1, .fma .a 0 4 6 7 9 0 1, .fms .a 0 4 6 7 9 0 1, .fnma .a 0 4 6 7 9 0 1] : List Instr).all (fits st) = true := by decide +kernel

theorem witness_FloatUnaryTestAndReductionResults :
    ([.fabs .a 0 4 6 0 1, .fneg .a 0 4 6 0 1, .fsqrt .a 0 4 6 0 1, .frcp .a 0 4 6 0 1, .frsq .a 0 4 6 0 1, .fexp2 .a 0 4 6 0 1,
     .flog2 .a 0 4 6 0 1, .fcvt .a 0 4 6 2 0 0 1, .fround .a 0 4 6 1 0 0 1 0, .fclass .a 0 3 6 1 0 1 0, .fcmp .a 0 3 6 7 0 1 0,
     .fredAdd .a 0 4 6 0 1, .fredMax .a 0 4 6 0 1, .fredMin .a 0 4 6 0 1, .bscale .a 0 4 6 0 4 1] : List Instr).all (fits st) = true := by decide +kernel

theorem witness_IntegerElementsFollowTheirRule :
    ([.iadd .a 0 4 6 7 0 19, .isub .a 0 4 6 7 0 19, .imul .a 0 4 6 7 0 19, .imulh .a 0 4 6 7 0 19, .iand .a 0 4 6 7 0 19,
     .ior .a 0 4 6 7 0 19, .ixor .a 0 4 6 7 0 19, .ishl .a 0 4 6 7 0 19, .ishr .a 0 4 6 7 0 19, .isra .a 0 4 6 7 0 19,
     .imin .a 0 4 6 7 0 19, .imax .a 0 4 6 7 0 19, .iabs .a 0 4 6 0 19, .iclz .a 0 4 6 0 19, .ipopc .a 0 4 6 0 19] : List Instr).all (fits st) = true := by decide +kernel

theorem witness_IntegerSaturationAndReductionResults :
    ([.iadds .a 0 4 6 7 0 19, .isubs .a 0 4 6 7 0 19, .ibint3 .a 0 4 6 0 19, .icmp .a 0 3 6 7 0 19 0, .iredAdd .a 0 4 6 0 19,
     .iadd128 .a 0 4 6 7 0 27, .icvt .a 0 4 6 19 0 0 19 0, .vrng .a 0 4 6 7 0 26, .vrngF .a 0 4 6 0 1] : List Instr).all (fits st) = true := by decide +kernel

theorem witness_VectorMovesPlaceElements :
    ([.vsel .a 0 4 6 7 0 1, .vperm .a 0 4 6 7 0 1, .vzip .a 0 4 6 7 0 1 0, .vunzip .a 0 4 6 7 0 1 0, .vrev .a 0 4 6 0 1,
     .vcompress .a 0 4 6 0 1, .vexpand .a 0 4 6 0 1, .vbcast .a 0 4 6 0 0 1, .vslide .a 0 4 6 0 0 1, .viota .a 0 4 0 0 19,
     .vmovi .a 0 4 0 0 1, .mand .a 0 3 1 2, .mor .a 0 3 1 2, .mxor .a 0 3 1 2, .mnot .a 0 3 1, .mpopc .a 0 4 1 0 19,
     .mfirst .a 0 4 1 0 19] : List Instr).all (fits st) = true := by decide +kernel

theorem witness_MatrixInstructionsQueueTheirItem :
    ([.mparami 0 0 0, .mcall 0 56 0 0, .mzero 0 0 0, .mdrainP 0 0 0 1 0 0 7 0, .mdrainV 0 4 0 0 0, .mucodeLd 0 0 0 0, .mwit 0 0,
     .mflush 0, .mstat 0 0 0] : List Instr).all (fits st) = true := by decide +kernel

theorem witness_ScratchpadLoadsIssueTheirBytes :
    ([.ldS 0 4 1 0 0 3, .ldV 0 4 1 0 0 1, .ldVs 0 4 1 0 0 1, .ldVg 0 4 1 9 0 19, .ldM 0 3 1 0, .ldQ 0 4 1 0 0 2 3, .vfill 0 4 1 0] : List Instr).all (fits st) = true := by decide +kernel

theorem witness_ScratchpadStoresWriteTheirBytes :
    ([.stS 0 6 1 0 0 0 3, .stV 0 6 1 0 0 1 0 0, .stVs 0 6 1 0 0 1 0 0, .stVx 0 6 1 9 0 19 0 0, .stM 0 1 1 0, .vspill 0 6 1 0,
     .amoP 0 4 1 0 19 0 0] : List Instr).all (fits st) = true := by decide +kernel

theorem witness_HandleAccessesLeaveTheCore :
    ([.ldhS 0 4 1 1 0 0 3, .ldhV 0 4 1 1 0 0 1, .sthS 0 6 1 1 0 0 0 3, .sthV 0 6 1 1 0 0 1 0 0, .amoH 0 4 1 1 0 19 0 0,
     .sigw 0 6 1 1 0, .translate 0 6 1 1, .hdrop 0 1] : List Instr).all (fits st) = true := by decide +kernel

theorem witness_AddressRegistersWrap :
    ([.xadd false 0 4 6 7, .xaddi false 0 4 6 0, .xli false 0 4 0, .xsub false 0 4 6 7] : List Instr).all (fits st) = true := by decide +kernel

theorem witness_RingInstructionsMoveMessages :
    ([.send 0 6 1 0 0 0, .recv 0 4 1 0 0 0] : List Instr).all (fits st) = true := by decide +kernel

theorem witness_EngineCommandsJoinTheirQueues :
    ([.feed 0 2 3 0 0 0 0 0, .lcopy 0 2 3 0, .bulkSet 0 2 3 0, .bulkGo 0 0 0, .bulkCancel 0 0 0, .winOpen 0 2 4 1 4 2 0,
     .winAdv 0 0 2 0, .winClose 0 0 0, .ifetch 0 2 3 0, .crcRd 0 0 0 0] : List Instr).all (fits st) = true := by decide +kernel

/-- Feeds of the three kinds to either FIFO, and a facet whose command an engine holds in its shadow set or works on. -/
theorem witness_EngineCommands_kinds :
    let c : BulkCmd := { words := [], cm := 7, launch := 1 }
    ([.feed 0 2 3 0 0 0 0 0, .feed 0 2 3 0 0 0 1 0, .feed 0 2 3 0 0 1 0 0, .feed 0 2 5 3 0 2 0 0, .crcRd 0 1 0 0] : List Instr).all
        (fits (stWith fun f => { f with d := f.d ++ [(5, 4)] })) = true
      ∧ ({ st with bulk := [(2, { shadow := some c, active := some c })] } : State).ready (.bulkCancel 0 2 7) = true
      ∧ (c.host = false ∧ c.core = st.cur ∧ c.facet = st.fn ∧ c.launch = st.me.launch) ∧ c.cm.extractLsb' 0 16 = (7 : BitVec 16)
      ∧ c.cm.extractLsb' 0 16 ≠ (8 : BitVec 16) ∧ ({ shadow := some c, active := some c } : Bulk).finished = false := by decide +kernel

theorem witness_CheckerOperationsResults :
    ([.yadd 0 0 0 1 2 5, .ysub 0 0 0 1 0 32, .yand 0 0 0 1 0 32, .yxor 0 0 0 1 0 32, .ycmp 0 0 0 1 0 1 0, .barArr 0 1 0 0] : List Instr).all (fits st) = true := by decide +kernel

theorem witness_ScratchpadStoreThenLoadReturnsTheValue :
    ([.stS 0 6 1 0 0 0 3] : List Instr).all (fits st) = true := by decide +kernel

/-! ## Witnesses: micro-operations and events -/

/-- A routine call of 16 columns of f16 on core 0, with both tiles popped. -/
def call0 : Invocation :=
  { facet := 0, item := { kind := .call 56 0, q := [0x42, 0], n := 16 }, words := builtIn 56 |>.getD [] }

/-- The core with a call running. -/
def stCall (v : Invocation) : State := st.modHere fun k => { k with inv := some v }

/-- A tile of zeros. -/
def tile (n : Nat) : List FByte := List.replicate n ⟨0, false⟩

/-- The core with a call running and both shares full. -/
def stTiles (v : Invocation) : State := (stCall v).modMe fun f => { f with fifoA := tile 16384, fifoB := tile 2048 }

theorem witness_invokes : (stCall call0).invokes call0 := ⟨rfl, rfl⟩
/-- The window of 16 columns at its two ends; a loop of one pass and of two. -/
theorem witness_MicroControl :
    call0.inWindow call0.cb = true ∧ call0.inWindow 1 = false ∧ (0 : BitVec 10).toNat < call0.words.length
      ∧ call0.ctr0.getD (max (call0.operand 0 1 2) 1 - 1) = 0 ∧ call0.ctr0.getD (max (call0.operand 0 2 2) 1 - 1) ≠ 0
      ∧ call0.ctr1.getD (max (call0.operand 0 1 3) 1 - 1) = 0 ∧ call0.ctr1.getD (max (call0.operand 0 2 3) 1 - 1) ≠ 0
      ∧ call0.item.place = 0 := by decide +kernel
theorem witness_MicroControl_sync :
    let v := { call0 with item := { call0.item with place := 5 } }
    let s := (stCall v).modMe fun f => { f with order := [{ id := 5, kind := 8 }] }
    s.invokes v ∧ v.item.place ≠ 0 ∧ (s.here.facet v.facet).order = [{ id := 5, kind := 8 }] ∧ s.here.evq.length < 64 :=
  ⟨⟨rfl, rfl⟩, by decide, rfl, by decide⟩
theorem witness_MicroTiles_pop :
    (stTiles call0).invokes call0 ∧ call0.part.length ≤ aTileBytes call0.aty call0.spn
      ∧ aTileBytes call0.aty call0.spn - call0.part.length ≤ ((stTiles call0).here.facet 0).fifoA.length
      ∧ bTileBytes call0.bty call0.spn call0.item.n - call0.part.length ≤ ((stTiles call0).here.facet 0).fifoB.length :=
  ⟨⟨rfl, rfl⟩, by decide +kernel, by decide +kernel, by decide +kernel⟩
/-- A call with its tiles popped: dense, and sparse with bitmaps that select the right number of elements. -/
def call1 : Invocation := { call0 with tileA := some [], tileB := some [] }
/-- A row whose 16 groups of 24 positions have four stored elements each. -/
def sparseRow : List FByte :=
  (List.replicate 16 [⟨0x0F, false⟩, ⟨0, false⟩, ⟨0, false⟩]).flatten ++ List.replicate 128 ⟨0, false⟩
/-- The sparse call of SPN 1. -/
def call2 : Invocation :=
  { call0 with item := { call0.item with q := [0x442, 0] }, tileA := some (List.replicate 128 sparseRow).flatten, tileB := some [] }
theorem witness_MicroTiles_pass :
    (stCall call1).invokes call1 ∧ call1.spn = 0 ∧ call1.inWindow call1.cb = true
      ∧ (([] : List FByte) ++ []).any (·.poison) = false
      ∧ (rect 0 128 call1.cb.toNat call1.item.n).any (fun p => (stCall call1).here.accBad ((stCall call1).here.facet 0) p.1 p.2) = false
      ∧ ((stCall call1).here.facet 0).witOn = false ∧ call1.wit = false :=
  ⟨⟨rfl, rfl⟩, by decide +kernel, by decide +kernel, by decide +kernel, by decide +kernel, by decide +kernel, by decide +kernel⟩
theorem take_row {α : Type} (r : List α) (n i : Nat) (h : i < n) :
    ((List.replicate n r).flatten.drop (i * r.length)).take r.length = r := by
  induction n generalizing i with
  | zero => omega
  | succ n ih =>
    rw [List.replicate_succ, List.flatten_cons]
    cases i with
    | zero => simp
    | succ i =>
      have : (i + 1) * r.length = r.length + i * r.length := by ring
      rw [this, ← List.drop_drop, List.drop_left]
      exact ih i (by omega)
theorem witness_MicroTiles_passSp :
    call2.spn ≠ 0 ∧ (upto 128).all (fun k => rowFormed call2.spn (aRow call2 (plain (call2.tileA.getD [])) k).1) = true := by
  refine ⟨by decide, List.all_eq_true.2 fun k hk => ?_⟩
  have hp : plain (call2.tileA.getD []) = (List.replicate 128 (plain sparseRow)).flatten := by
    simp [call2, plain]
  have hr : (aRow call2 (plain (call2.tileA.getD [])) k).1 = (aRow call2 (plain sparseRow) 0).1 := by
    have hl : mapBytes call2.spn + rowBytes call2.aty 64 = (plain sparseRow).length := by decide +kernel
    have hs : call2.spn ≠ 0 := by decide
    simp only [aRow, hp, hl, hs, if_false]
    rw [take_row _ _ _ (List.mem_range.1 hk), Nat.zero_mul, List.drop_zero, List.take_length]
  rw [hr]
  decide +kernel
theorem witness_MicroTiles_acc :
    let v := { call0 with item := { call0.item with q := [0x231, 32 * 512] } }
    pairInt v.aty = true ∧ v.inWindow v.cb = true ∧ v.inWindow (v.cb + 16 * sextNat (v.operand 0 1 2) 16) = true := by decide +kernel
theorem witness_MicroTiles_scale : pairInt call0.aty = false ∧ call0.inWindow call0.cb = true := by decide +kernel

/-- The package with the bundle of one word at offset 0 and with a facet changed. -/
def stCode (k : Slot) (w : Nat) (e : Facet → Facet := id) : State :=
  (st.modHere fun c => { c with ist := Memory.put [] 0 (oneSlotBytes k w) }).modMe e

theorem witness_CoreEvents_issue :
    let s := stCode .s 0x0100C10800000000
    s.canIssue 0 = true ∧ (s.offeredAt 0).passes (s.offeredAt 0).fetched = true := by decide +kernel
/-- A latch of a bundle that has passed. -/
def latch0 : Latch := { size := 12, passed := true }
theorem witness_CoreEvents_commit :
    let s := stWith fun f => { f with latch := latch0 }
    (s.facet 0 (s.core 0).run).latch = latch0 ∧ (s.facet 0 (s.core 0).run).resident = true
      ∧ { latch0 with target := some (true, 64) }.target = some (true, 64) ∧ { latch0 with isLoop := true }.target = none := by
  decide +kernel
theorem witness_CoreEvents_halt :
    let s := stWith fun f => { f with latch := { latch0 with halted := true } }
    (s.facet 0 (s.core 0).run).latch.halted = true ∧ (s.facet 0 (s.core 0).run).latch.passed = true := by decide +kernel
theorem witness_CoreEvents_replay :
    st.canIssue 0 = true ∧ (stWith fun f => { f with replays := 6 }).canIssue 0 = true
      ∧ ((stWith fun f => { f with replays := 6 }).facet 0 0).replays + 1 < 8
      ∧ ((stWith fun f => { f with replays := 7 }).facet 0 0).replays = 7 := by decide +kernel
/-- A facet whose bundle waits for a record that is not there, and a second one that can run. -/
def stTwo : State :=
  ((stCode .s ((encode (.evpop 0 4)).getD 0)).modHere fun k => { k with evq := [], quantum := 4096, stalled := true }).modFacet 0 1 fun _ =>
    { facet0 with pc := 12, ordinal := 1, task := 1 }
theorem witness_CoreEvents_watchdog :
    (stTwo.facet 0 0).resident = true ∧ (stTwo.facet 0 0).parked = false ∧ (stTwo.geode (geodeOf 0)).frozen = false
      ∧ stTwo.blocked 0 0 = true := by decide +kernel
theorem witness_CoreEvents_switch :
    4096 ≤ (stTwo.core 0).quantum ∧ (stTwo.facet 0 (stTwo.core 0).run).latch.passed = false ∧ stTwo.nextReady 0 = some 1
      ∧ stTwo.runBlocked 0 = true := by decide +kernel
/-- A parked facet with a written frame, its handler at offset 0 of a system segment. -/
def stParked : State :=
  (st.modHere fun k => { k with segs := [⟨0, 0, true, false, 0, 64, [1]⟩] }).modMe fun f =>
    { f with parked := true, frameOk := true, tbase := 0x8000000000000000 }
theorem witness_CoreEvents_parked :
    (stParked.facet 0 0).resident = true ∧ (stParked.facet 0 0).parked = true ∧ (stParked.facet 0 0).frameOk = true
      ∧ (stParked.geode (geodeOf 0)).frozen = false ∧ (stParked.facet 0 0).outstanding = false
      ∧ (stParked.openAccesses 0 0 3).isEmpty = true ∧ (stParked.facet 0 0).intrap = false
      ∧ tbaseOk (stParked.core 0) (stParked.facet 0 0) = true := by decide +kernel
/-- The facet's frame lies on lode 5, which port 0 reaches, and its bundle returns. -/
def stReturn (e : Nat) : State :=
  { stParked.modMe (fun f => { f with parked := false, latch := { latch0 with returned := true } }) with
    mem := ((((((Memory.putNum [] 0 8 (0x1000 + 1)).putNum 0x1000 8 (0x20 * 256 + 1)).putNum 0x2000 8 (0x30 * 256 + 1)).putNum 0x3000 8
      (0x40 * 256 + 1)).putNum 0x4000 8 (0x50 * 256 + 1)).putNum 0x5000 8 e), dev := [(aPort 0, 5)] }
/-- A return waits for the handler's accesses, and for the lines of a frame on another lode. -/
theorem witness_CoreEvents_return :
    (stReturn 0x2004F).returnHeld 0 0 = false ∧ (stReturn 0x2004F).returnGo 0 0 = (true, stReturn 0x2004F)
      ∧ { stReturn 0x2004F with accs := [{ id := 1, core := 0, facet := 0, launch := 1, home := .spad 1, scope := 0, op := .arrive 0 1 0 }] }.returnHeld 0 0 = true
      ∧ (stReturn 0x50000000000CF).returnHeld 0 0 = false
      ∧ (stReturn 0x50000000000CF).framePlace ((stReturn 0x50000000000CF).facet 0 0) = some (.away 5 0)
      ∧ ((stReturn 0x50000000000CF).returnGo 0 0).1 = false := by
  have h : (stReturn 0x50000000000CF).framePlace ((stReturn 0x50000000000CF).facet 0 0) = some (.away 5 0) := by decide +kernel
  have hf : ((stReturn 0x50000000000CF).facet 0 0).frameFailed = false ∧ (stReturn 0x50000000000CF).frameStored 0 0 5 0 = false := by
    decide +kernel
  have hl : (linesLeft ((stReturn 0x50000000000CF).facet 0 0).framePorts (frameReadWords.map fun i => (5, 0 + 32 * i))).isEmpty = false := by
    decide +kernel
  refine ⟨by decide +kernel, State.returnGo_here ?_, by decide +kernel, by decide +kernel, h, ?_⟩
  · have h' : (stReturn 0x2004F).framePlace ((stReturn 0x2004F).facet 0 0) = some (.here 0x20000) := by decide +kernel
    intro lode pa hp
    exact absurd (h'.symm.trans hp) (by simp)
  · simp only [State.returnGo, h, hf.1, hf.2, State.linesGo_waits hl]
    rfl
theorem witness_CoreEvents_parkreq :
    (st.facet 0 0).resident = true ∧ (st.facet 0 0).parked = false ∧ (st.geode (geodeOf 0)).frozen = false := by decide +kernel

theorem witness_EngineEvents_items :
    let it : Item := { kind := .flush }
    let s := stWith fun f => { f with items := [it] }
    (s.core 0).inv = none ∧ (s.core 0).nextItem = some (0, it) ∧ ((stCall call0).core 0).inv = some call0 ∧ call0.ended = false
      ∧ call0.words[call0.pc]? = some 0x10000000000000000000000000000000
      ∧ decodeMicro (0x10000000000000000000000000000000 : BitVec 128).toNat = some .popA
      ∧ startsPass .popA = false ∧ startsPass (.pass 0) = true ∧ (((stCall call0).noBallast 0).geode 0).limited = false
      ∧ (((stCall call0).modGeode 0 fun g => { g with limited := true }).noBallast 0 |>.geode 0).limited = true
      ∧ ((stCall call0).noBallast 0).rampHeld 0 = false
      ∧ (((stCall call0).modHere fun k => { k with arr := 256 }).noBallast 0).rampHeld 0 = true
      ∧ ({ call0 with pc := 99 }.words[99]? = none) ∧ decodeMicro (15 * 2 ^ 124) = none
      ∧ ((stCall { call0 with ended := true }).core 0).inv = some { call0 with ended := true } := by decide +kernel
theorem witness_EngineEvents_meeting :
    let s := st.modGeode 0 fun g => { g with tsync := [⟨0, 0, 1, 1⟩] }
    (1 : BitVec 16) ≠ 0 ∧ s.meetingReady 1 1 0 = true := by decide +kernel
/-- The oldest operation of the facet, its work done, and complete. -/
def stOrder (complete : Bool) : State := stWith fun f => { f with order := [{ id := 3, kind := 1, done := true, complete := complete }] }
theorem witness_EngineEvents_records :
    ((stOrder false).core 0).facets.any (fun f => f.1 == 0 && !f.2.order.isEmpty) = true
      ∧ ((stOrder false).facet 0 0).order = [{ id := 3, kind := 1, done := true }]
      ∧ ((stOrder true).facet 0 0).order = [{ id := 3, kind := 1, done := true, complete := true }]
      ∧ ((stOrder true).core 0).evq.length < 64 := by decide +kernel
/-- A feed of one row of 64 bytes from the facet's own window. -/
def feed0 : EngineCmd := { facet := 0, id := 3, op := .sp 0 0 64 1 }
theorem witness_EngineEvents_feed :
    let s := st.modHere fun k => { k with feedA := [feed0] }
    (s.core 0).feeder .a = [feed0] ∧ s.clear feed0.after feed0.mir = true ∧ (s.core 0).postHeld [1] 0 = false
      ∧ min ((s.facet 0 feed0.facet).room .a) (64 - feed0.pos % 64) = 64
      ∧ (s.core 0).lockedBefore feed0.id (banksOf (upto 64)) = false := by decide +kernel
theorem witness_EngineEvents_bands :
    let s := st.modHere fun k => { k with bands := [(0, { ops := [{ id := 3, rows := 2 }] }), (1, { ops := [{ id := 4, close := true }] })] }
    ((s.core 0).bands.get 0 {}).ops = [{ id := 3, rows := 2 }] ∧ ((s.core 0).bands.get 1 {}).ops = [{ id := 4, close := true }]
      ∧ s.clear [] false = true ∧ (s.core 0).postHeld [6, 7] 0 = false ∧ (s.core 0).postHeld [6, 7] 1 = false
      ∧ (s.core 0).bandFed 1 4 = false := by decide +kernel
theorem witness_EngineEvents_local :
    let x : EngineCmd := { facet := 0, id := 3, op := .lcopy 0 64 32 1 0 0 }
    let y : EngineCmd := { facet := 0, id := 3, op := .ifetch 0 0 4 true }
    let s := st.modHere fun k => { k with feedL := [x, y] }
    (s.core 0).feedL = [x, y] ∧ s.clear x.after x.mir = true ∧ (s.core 0).postHeld [3, 4] 0 = false := by decide +kernel
/-- A bulk command of one row of 64 bytes from scratchpad 0 of core 0 to offset 4096. -/
def bulk0 : BulkCmd := { words := [0x2000000000000000, 0x2000000000001000, 0x1000040, 0, 0, 0], cm := 0, launch := 1 }
/-- An engine with a command. -/
def stBulk (b : Bulk) : State := { st with bulk := [(2, b)] }
theorem witness_EngineEvents_bulk :
    ((stBulk { shadow := some bulk0 }).bulk.get 2 {}).active = none ∧ ((stBulk { shadow := some bulk0 }).bulk.get 2 {}).shadow = some bulk0
      ∧ (stBulk { shadow := some bulk0 }).cores.any (fun k => k.2.postHeld [5] 2) = false
      ∧ (stBulk { active := some bulk0 }).bulkHeld bulk0 = false ∧ (stBulk { active := some bulk0 }).clear bulk0.after bulk0.mir = true
      ∧ (stBulk { active := some bulk0 }).bulkCheck bulk0 = 0
      ∧ (stBulk { active := some { bulk0 with words := [] } }).bulkCheck { bulk0 with words := [] } ≠ 0
      ∧ ((stBulk { active := some bulk0, cancelled := true }).bulk.get 2 {}).place bulk0 % 64 = 0
      ∧ ((stBulk {}).bulk.get 15 {}).shadow = none
      ∧ ((stBulk { shadow := some bulk0 }).bulk.get 2 {}).shadow.isSome = true := by decide +kernel
/-- A cancelled command stops at a piece's boundary and goes on inside a piece; a win.close is the oldest operation, its work done. -/
theorem witness_EngineEvents_stop :
    let stop (b : Bulk) : Bool := b.cancelled && (b.place bulk0 % 64 == 0 || b.col == 0 && b.row != 0 || !(stBulk b).bulkStands bulk0)
    stop { active := some bulk0, cancelled := true } = true ∧ stop { active := some bulk0, cancelled := true, col := 4 } = false
      ∧ stop { active := some bulk0, checked := true } = false ∧ (stBulk { active := some bulk0, checked := true }).bulkHeld bulk0 = false
      ∧ (stBulk { active := some bulk0, checked := true }).clear bulk0.after bulk0.mir = true
      ∧ ((stWith fun f => { f with order := [{ id := 3, kind := 7, done := true }] }).facet 0 0).order = [{ id := 3, kind := 7, done := true }]
      ∧ ((stWith fun f => { f with order := [{ id := 3, kind := 7, done := true }] }).core 0).facets.any (fun f => f.1 == 0 && !f.2.order.isEmpty)
        = true := by decide +kernel
theorem witness_EngineEvents_countdown :
    let s := stBulk { active := some bulk0, finished := true, outDue := true, inDue := true }
    let t := stBulk { active := some bulk0, finished := true, inDue := true }
    s.drainEnded 2 = s ∧ t.drainEnded 2 = t ∧ s.bulkHeld bulk0 = false ∧ (s.bulk.get 2 {}).finished = true
      ∧ (s.bulk.get 2 {}).outDue = true ∧ (t.bulk.get 2 {}).outDue = false ∧ (t.bulk.get 2 {}).inDue = true := by decide +kernel
theorem witness_EngineEvents_ring :
    let m : Msg := { msg0 with id := 2, buffered := false }
    let s := st.modGeode 0 fun g => { g with msgs := [m, { m with id := 3, dstFacet := 1 }] }
    (s.geode 0).msgs.find? (fun m => m.id == 2 && !m.buffered) = some m
      ∧ m.reaches (s.geode 0).msgs = true ∧ ((s.core (coreAt 0 m.dst)).slotOfOrdinal m.launch m.dstFacet).isSome = true
      ∧ (s.core (coreAt 0 m.dst)).slotOfOrdinal m.launch 1 = none := by decide +kernel

/-- A store of a byte to main memory that nothing holds, and one to an unpopulated address. -/
def acc0 (pa : Nat) : Access := { id := 7, core := 0, facet := 0, launch := 1, scope := 3, home := .main, op := .store [{ addr := pa, b := 9 }] }
theorem witness_MemoryEvents_access :
    let s := { st with accs := [acc0 64] }
    let t := { st with accs := [acc0 0x8000000000] }
    s.accs.find? (fun a => a.id == 7) = some (acc0 64) ∧ s.mayPerform (acc0 64) = true ∧ (acc0 64).unpopulated = false
      ∧ t.mayPerform (acc0 0x8000000000) = true ∧ (acc0 0x8000000000).unpopulated = true := by decide +kernel
/-- Page tables of address space 0 that map page 0 of 64 KiB, through five levels of tables from 0x1000 on, to frame 2. -/
def tables : Memory :=
  ((((((Memory.putNum [] 0 8 (0x1000 + 1)).putNum 0x1000 8 (0x20 * 256 + 1)).putNum 0x2000 8 (0x30 * 256 + 1)).putNum 0x3000 8 (0x40 * 256 + 1)).putNum
    0x4000 8 (0x50 * 256 + 1)).putNum 0x5000 8 (0x200 * 256 + 0x4F))
/-- The package with those tables and a pending handle. -/
def stWalk (va : BitVec 57) : State :=
  { stWith (fun f => { f with h := [(2, { pend := true, r := true, va := va })] }) with mem := tables }
theorem witness_MemoryEvents_walk :
    ((stWalk 0).facet 0 0).pendingH 2 = some { pend := true, r := true, va := 0 } ∧ ((stWalk 0).geode (geodeOf 0)).frozen = false
      ∧ ((stWalk 0).walk ((stWalk 0).facet 0 0).pasid 0).toOption.isSome = true
      ∧ ((stWalk 65536).facet 0 0).pendingH 2 = some { pend := true, r := true, va := 65536 }
      ∧ ((stWalk 65536).walk ((stWalk 0).facet 0 0).pasid 65536).toOption = none := by decide +kernel
theorem witness_MemoryEvents_inval :
    let s := { st with inval := some [9] }
    let u := (st.devPut (aMmr + 0x10) 23 0 (wbits (0 : BitVec 64) 23 0)).countPkg 0x04 1
    let pinned : State := st.modMe fun f => { f with h := [(1, { valid := true, pin := true, psize := 0, frame := 1 })] }
    st.inval = none ∧ wbits (0 : BitVec 64) 3 2 ≠ 3 ∧ wbits (12 : BitVec 64) 3 2 = 3
      ∧ st.cores.any (fun k => k.2.facets.any fun f => f.2.resident && f.2.pins (u.invalArg 0)) = false
      ∧ st.fossils.any (fun x => x.used && x.cores.any fun k => k.2.facets.any fun f => f.2.resident && f.2.pins (u.invalArg 0)) = false
      ∧ pinned.cores.any (fun k => k.2.facets.any fun f => f.2.resident && f.2.pins (u.invalArg 0)) = true
      ∧ s.inval = some [9] ∧ s.accs.any (fun a => [9].contains a.id) = false := by decide +kernel
/-- A refresh balance of a channel. -/
def stBal (v : BitVec 64) : State := { st with dev := [(aVein 0 + 0x100, v)] }
theorem witness_MemoryEvents_refresh :
    sextNat ((stBal 0xF8).devFld (aVein 0 + 0x100 + 8 * 0) 7 0) 8 = -8 ∧ sextNat ((stBal 0xF9).devFld (aVein 0 + 0x100 + 8 * 0) 7 0) 8 = -7
      ∧ sextNat ((stBal 7).devFld (aVein 0 + 0x100 + 8 * 0) 7 0) 8 = 7 := by decide +kernel
/-- One entry of the durable queue. -/
def entry0 : DurEntry := { line := 2 ^ 34, data := List.replicate 64 5 }
theorem witness_MemoryEvents_durable :
    let s := { st with durQ := [entry0], seals := [{ host := true }], dev := [(aDstat, 0)] }
    st.devFld (aVein 7 + 0x40) 0 0 ≠ 0 ∧ st.devFld (unitBase 8 + 0x40) 0 0 ≠ 0 ∧ s.durQ = [entry0] ∧ s.devFld aDstat 0 0 ≠ 1
      ∧ s.seals.find? (fun q => q.host || !s.frozenTask q.core q.facet q.launch) = some { host := true } := by decide +kernel

/-- Registers of mirrored range 2: 2 MiB at 0, in a state. -/
def stMir (w : BitVec 64) (size : BitVec 64 := 1) : State :=
  { st with dev := [(aMir 2 + 8, size), (aMir 2 + 0x10, w), (0x80000050000, 9)], mirQ := [{ k := 2, word := 5, addr := 160, data := 0, poison := false }] }
theorem witness_MirrorEvents :
    (stMir 0).mirEn 2 ≠ 1 ∧ (stMir 0 0).mirRefused 2 = true ∧ (stMir 0x1000000000000).mirRefused 2 = false ∧ (stMir 3).mirEn 2 ≠ 0
      ∧ (stMir 3).mirState 2 = 1 ∧ (stMir 5).mirState 2 = 2 ∧ (stMir 3).mirQ.find? (fun w => w.k == 2) = some { k := 2, word := 5, addr := 160, data := 0, poison := false }
      ∧ (stMir 5).repairable (32 * 4) = some 2 ∧ (stMir 5).poisoned (32 * 4) = false
      ∧ { stMir 3 with mirQ := [], mirPos := [(2, 0x10000)] }.mirCopied 2 = true
      ∧ (stMir 0x1000000000003).route ((stMir 0x1000000000003).mirLode 2) 160 = .fail 3
      ∧ ((stMir 0x1000000000003).devSet (aPort 0) 5).route ((stMir 0x1000000000003).mirLode 2) 160 = .away := by decide +kernel
/-- A mirror write that a port holds: no request before it, and one for the same line before it. -/
theorem witness_MirrorEvents_ports :
    let r : PortReq := { port := 2, lode := 9, line := 1, ident := 0, addr := 0, seq := 8 }
    let w : MirWrite := { k := 2, word := 5, addr := 160, data := 0, poison := false, port := some r }
    let t : State := { stMir 3 with mirQ := [w] }
    let u : State := { t with accs := [{ acc0 0 with home := .remote 9, ports := [{ r with port := 3, seq := 7 }] }] }
    t.mirState 2 = 1 ∧ t.mirQ.find? (fun w => w.k == 2) = some w ∧ t.lineFirst r = true
      ∧ u.mirState 2 = 1 ∧ u.mirQ.find? (fun w => w.k == 2) = some w ∧ u.lineFirst r = false
      ∧ (stMir 3).route ((stMir 3).mirLode 2) 160 ≠ .away := by decide +kernel
/-- An active range with a partner lode that a port reaches, and a word of it to repair. -/
theorem witness_MirrorEvents_repair :
    let s := (stMir 0x1000000000005).devSet (aPort 0) 5
    s.repairable (32 * 4) = some 2 ∧ (∀ c, s.repairRoute (s.repairOf 2 4) ≠ .fail c)
      ∧ (s.repairReq (s.repairOf 2 4)).isSome = true ∧ (s.repairReq (s.repairOf 2 4)).all s.lineFirst = true
      ∧ { s with memPoison := [4] }.poisoned (32 * 4) = true ∧ { s with memPoison := [4] }.repairable (32 * 4) = some 2
      ∧ s.poisoned (32 * 4) = false := by
  refine ⟨by decide +kernel, ?_, by decide +kernel, by decide +kernel, by decide +kernel, by decide +kernel, by decide +kernel⟩
  have h : ((stMir 0x1000000000005).devSet (aPort 0) 5).repairRoute (((stMir 0x1000000000005).devSet (aPort 0) 5).repairOf 2 4) = .away := by
    decide +kernel
  intro c hc
  exact absurd (h.symm.trans hc) (by simp)
/-- The repair of a word waits for an earlier request for its line; with no port up it has no route. -/
theorem witness_MirrorEvents_repairWaits :
    let s := (stMir 0x1000000000005).devSet (aPort 0) 5
    let x := s.repairOf 2 4
    let r : PortReq := { port := 0, lode := 1, line := (s.mirPartner 2 4) / 64, ident := 0, addr := 0, seq := 8 }
    let t : State := { s with repairs := [{ x with port := some r }], accs := [{ acc0 0 with home := .remote 1, ports := [{ r with seq := 7 }] }] }
    t.repairable (32 * 4) = some 2 ∧ t.repairReq (t.repairOf 2 4) = some r ∧ t.lineFirst r = false
      ∧ (t.repairOf 2 4).port.isSome = true ∧ (s.repairOf 2 4).port.isSome = false
      ∧ (stMir 0x1000000000005).repairRoute ((stMir 0x1000000000005).repairOf 2 4) = .fail 3 := by
  decide +kernel

/-- A queue slot with a packet ring at 64 KiB. -/
def slot0 : QSlot := { qaddr := 0x10000, state := 1, widx := 1, log2 := 4, base := 0x20000 }
/-- The package with slot 3 in a state, and a packet word at its ring. -/
def stSlot (q : QSlot) (w0 : Nat := 0) : State :=
  { st with slots := [(3, q)], mem := (Memory.putNum [] 0x10010 8 (0x20000 + 6)).putNum 0x20000 8 w0 }
theorem witness_QueueEvents_map :
    let s := stSlot { slot0 with state := 0 }
    let u := s.readOwn ((s.qslot 3).header 0) 32
    (s.qslot 3).state = 0
      ∧ ringBad (s.qslot 3).qaddr.toNat (4096 * wbits (u.ownWord ((s.qslot 3).header 0x10)) 47 12)
          (wbits (u.ownWord ((s.qslot 3).header 0x10)) 3 0) = false
      ∧ u.ownWord ((s.qslot 3).header 0) = u.ownWord ((s.qslot 3).header 8) := by decide +kernel
theorem witness_QueueEvents_unmap :
    ((stSlot slot0).qslot 3).state = 1 ∧ ((stSlot { slot0 with state := 3 }).qslot 3).state = 3
      ∧ ((stSlot { slot0 with state := 2 }).qslot 3).state = 2 ∧ ((stSlot { slot0 with state := 2 }).qslot 3).cur = none := by
  decide +kernel
theorem witness_QueueEvents_kill :
    let s := stSlot { slot0 with cur := some [1] }
    let t := stSlot { slot0 with cur := some [2] }
    (s.qslot 3).cur = some [1] ∧ (s.qslot 3).finished = false ∧ wbits (pw [1] 0) 7 0 = 1
      ∧ (t.qslot 3).cur = some [2] ∧ wbits (pw [2] 0) 7 0 ≠ 1 := by decide +kernel
theorem witness_QueueEvents_start :
    let ws (k : Nat) :=
      (upto 8).map (fun i => ((stSlot slot0 k).readOwn ((stSlot slot0 k).qslot 3).packetPa 64).ownWord (((stSlot slot0 k).qslot 3).packetPa + 8 * i))
    ((stSlot slot0 1).qslot 3).state = 1 ∧ ((stSlot slot0 1).qslot 3).cur = none ∧ (stSlot slot0 1).accepting = true
      ∧ ((stSlot slot0 1).qslot 3).forceErr = false ∧ ((stSlot slot0 1).qslot 3).widx ≠ ((stSlot slot0 1).qslot 3).ridx
      ∧ wbits (pw (ws 1) 0) 7 0 = 1 ∧ wbits (pw (ws 2) 0) 7 0 = 2 ∧ wbits (pw (ws 3) 0) 7 0 = 3
      ∧ wbits (pw (ws 0) 0) 7 0 = 0 ∧ wbits (pw (ws 4) 0) 7 0 = 4 := by decide +kernel
/-- A kernel image of one facet, one segment of no bytes, at virtual address 0 of the page that the tables map. -/
def image0 : Memory :=
  ((tables.putNum 0x20000 8 (0x4D494B5A + 2 ^ 32)).putNum 0x20008 8 (1 + 0x800 * 2 ^ 32)).putNum 0x20010 8 (2 ^ 32 + 0x80)
/-- The package with the image, geode 0 assigned. -/
def stImage : State := { mem := image0, dev := [(aGeodeMap 0, 0x800)] }
/-- A launch packet of one core of geode 0. -/
def packet0 : List (BitVec 64) := [0x100000001, 1, 0, 0, 0, 0, 0, 0]
/-- The same once the image has been read. -/
def stRead : State := (stImage.modSlot 3 fun q => { q with sigs := [] }).meetKernel (stImage.qslot 3).pasid (pw packet0 2).toNat
theorem witness_QueueEvents_launch :
    stImage.launchOk (stImage.qslot 3).part.toNat packet0 = true ∧ pw packet0 3 = 0
      ∧ (∃ kn, stRead.readKernel (stImage.qslot 3).pasid (pw packet0 2).toNat = .ok kn ∧ kn.ckrec = 0 ∧ kn.refused = false)
      ∧ (setBitsOf (gmask packet0) 40).any (fun g => stRead.geodeState g == 2) = false := by
  refine ⟨by decide +kernel, by decide +kernel, ?_, by decide +kernel⟩
  have h : ∀ x : Except ImageErr Kernel, (match x with | .ok k => k.ckrec == 0 && !k.refused | .error _ => false) = true →
      ∃ kn, x = .ok kn ∧ kn.ckrec = 0 ∧ kn.refused = false := by
    intro x hx
    cases x with
    | error c => cases hx
    | ok kn => exact ⟨kn, rfl, by simpa using hx⟩
  exact h (stRead.readKernel (stImage.qslot 3).pasid (pw packet0 2).toNat) (by decide +kernel)
/-- A launch of slot 3 on geode 0, not placed; the packet asks for 2 tokens of pre-emption. -/
def launch3 (words : List (BitVec 64)) : Launch :=
  { slot := 3, words := words, pasid := 0, kernel := {}, image := 0x20000, toPlace := [0], ntasks := 1 }
/-- The package with that launch, slot 3 above slot 2 in priority, and geode 0 assigned. -/
def stLaunch (words : List (BitVec 64)) (done : List Nat := []) : State :=
  { st with slots := [(3, { slot0 with cur := some words, launch := 5, prio := 2 })]
            launches := [(1, launch0), (5, { launch3 words with done := done, toPlace := if done.isEmpty then [0] else [] })]
            dev := [(aGeodeMap 0, 0x800), (aPart 0 + 8, 5)] }
theorem witness_QueueEvents_dispatch :
    (stLaunch packet0).launches.find ((stLaunch packet0).qslot 3).launch = some (launch3 packet0)
      ∧ (stLaunch packet0).nextToPlace = some 3 := by decide +kernel
theorem witness_QueueEvents_wait :
    let s := stSlot { slot0 with cur := some [2], sigs := [{ remote := none, pa := 0x20000, val := 6 }] } 7
    (s.qslot 3).cur = some [2] ∧ wbits (pw [2] 0) 7 0 = 2 ∧ (s.qslot 3).finished = false
      ∧ (s.qslot 3).sigs.any s.sigWaits = false ∧ s.sigsFirst (s.qslot 3).sigs = true
      ∧ (s.qslot 3).sigs.all ((s.qslot 3).sigs.foldl State.readSignal s).signalThere = true := by decide +kernel
theorem witness_QueueEvents_complete :
    (stLaunch packet0 [0]).canComplete 3 = true ∧ ((stLaunch packet0 [0]).qslot 3).cur = some packet0
      ∧ ((stLaunch packet0 [0]).qslot 3).sigs.any (stLaunch packet0 [0]).sigWaits = false
      ∧ (stLaunch packet0 [0]).sigsFirst ((stLaunch packet0 [0]).qslot 3).sigs = true := by decide +kernel
/-- A launch that asks for 2 tokens and needs four facet slots of core 0. -/
def launch4 : Launch := { launch3 [0x100020001, 1, 0, 0, 0, 0, 0, 0] with kernel := { facets := 4 } }
/-- The package with that launch waiting. -/
def stAsk : State := { stLaunch packet0 with launches := [(1, launch0), (5, launch4)] }
theorem witness_QueueEvents_policy :
    stAsk.mayAsk 3 0 = true ∧ stAsk.launches.find (stAsk.qslot 3).launch = some launch4 := by decide +kernel

/-- The package with a fossil area of two slots for partition 0. -/
def stArea (fs : List Fossil) : State := { st with fossils := fs, dev := [(aGeodeMap 0, 0x800), (aPart 0 + 0xC0, 0x4000002)] }
theorem witness_Fossil_freeze :
    ((stArea []).geode 0).frozen = false ∧ (stArea []).freeFossil ((stArea []).geodePart 0) = some 0x4000000 := by decide +kernel
/-- The fossil of geode 39, on which nothing runs, in a state. -/
def fossil0 (state : BitVec 2) : Fossil := { st.fossilOf 39 0 0x4000000 with state := state, trev := 0, cores := [], windows := [] }
/-- The package with that fossil. -/
def stFossil (state : BitVec 2) (m : BitVec 64) : State := { stArea [fossil0 state] with dev := [(aGeodeMap 39, m)] }
/-- The same with its geode being replaced, every slot of its die out of use but its own. -/
def stReplaced : State :=
  { stArea [{ fossil0 1 with reason := 1 }] with
      dev := [(aGeodeMap 39, 0x40)], failedSlots := (upto 22).map (32 + ·) }
theorem witness_Fossil_write :
    (stFossil 1 0).fossils[0]? = some (fossil0 1) ∧ (fossil0 1).used = true ∧ (fossil0 1).state = 1 ∧ (fossil0 1).reason = 0
      ∧ stReplaced.fossils[0]? = some { fossil0 1 with reason := 1 } ∧ stReplaced.geodeState 39 = 1
      ∧ ({ fossil0 1 with reason := 1 } : Fossil).reason ≠ 0 := ⟨rfl, rfl, rfl, rfl, rfl, by decide +kernel, by decide⟩
/-- A fossil whose geode is whole and at rest is ready; in a memory of zeros its header is that of no fossil. -/
theorem witness_Fossil_restore :
    (stFossil 2 0).fossils[0]? = some (fossil0 2) ∧ (stFossil 2 0).fossilReady (fossil0 2) = true
      ∧ (stFossil 2 0).fossilMatches (fossil0 2) = false := by
  refine ⟨rfl, by decide +kernel, by decide +kernel⟩
/-- A header of an empty body, where the layout hash of the slot, which the fuses hold, is 0. -/
theorem witness_Fossil_restore_matches (h : Config.slotLhash 1 0 = 0) :
    let s := { stFossil 2 0 with mem := (Memory.putNum [] 0x4000000 8 (2 * 2 ^ 16)) }
    s.fossils[0]? = some (fossil0 2) ∧ s.fossilReady (fossil0 2) = true ∧ s.fossilMatches (fossil0 2) = true := by
  refine ⟨rfl, by decide +kernel, ?_⟩
  have d : ({ stFossil 2 0 with mem := (Memory.putNum [] 0x4000000 8 (2 * 2 ^ 16)) } : State).devFld (aGeodeMap 39) 4 0 = 0 := by decide +kernel
  have e : (Config.slotLhash 1 0).toNat = 0 := by rw [h]; rfl
  have m : ∀ l : Nat, l = 0 → (
      ({ stFossil 2 0 with mem := (Memory.putNum [] 0x4000000 8 (2 * 2 ^ 16)) } : State).numAt (0x4000000 + 8 * 2) 8 == l) = true := by
    rintro _ rfl; decide +kernel
  simp only [State.fossilMatches, show (fossil0 2).lgeo = 39 from rfl, d, show (39 : Nat) / 20 = 1 from rfl, m _ e,
    show (fossil0 2).pa = 0x4000000 from rfl, Bool.and_true]
  decide +kernel
/-- The launch of the facet is asked for a checkpoint, its facet held; the position map knows its place. -/
def stHeld : State :=
  let l := { launch0 with ckAsk := true, kernel := { posmap := [(4, 0)] } }
  { (stWith fun f => { f with ckRequested := true, ckHeld := true }) with
      launches := [(1, l)], slots := [(2, { slot0 with launch := 1 })], dev := [(aPart 0 + 0xD0, 0), (aPart 0 + 0xD8, 0xFFFFFFFF)] }
theorem witness_Checkpoint_request :
    let s := { st with slots := [(2, { slot0 with launch := 1 })] }
    s.launches.find (s.qslot 2).launch = some launch0 ∧ launch0.ckAsk = false ∧ (s.facetsOf (s.qslot 2).launch).isEmpty = false
      ∧ s.someParked (s.qslot 2).launch = false ∧ (s.modMe fun f => { f with parked := true }).someParked (s.qslot 2).launch = true := by
  decide +kernel
/-- The record of that launch that is being written. -/
def record0 : Ckpt :=
  { state := 0, part := 0, pasid := 0, slot := 2, packet := 0, kernel := 0, posmap := [], pa := 0, bytes := 256, ntasks := 1
    launch := 1, done := [], tasks := [], windows := [] }
theorem witness_Checkpoint_save :
    ∃ l, stHeld.launches.find (stHeld.qslot 2).launch = some l ∧ l.ckAsk = true ∧ (stHeld.facetsOf (stHeld.qslot 2).launch).isEmpty = false
      ∧ stHeld.allHeld (stHeld.qslot 2).launch = true ∧ stHeld.someParked (stHeld.qslot 2).launch = false
      ∧ stHeld.writing (stHeld.qslot 2).launch = none ∧ { stHeld with ckpts := [record0] }.writing (stHeld.qslot 2).launch = some 0
      ∧ stHeld.saveBad (stHeld.qslot 2).launch l = false
      ∧ ((stHeld.facetsOf (stHeld.qslot 2).launch).map fun x => stHeld.ckTask l.kernel x.1 x.2.1).any Option.isNone = false
      ∧ ∀ n, (stHeld.recordPlace (stHeld.qslot l.slot).part.toNat).1 + (recordHeader + (Config.recordBytes stHeld.freeCtr n l.windows.length).toNat)
          ≤ (stHeld.recordPlace (stHeld.qslot l.slot).part.toNat).2 := by
  refine ⟨{ launch0 with ckAsk := true, kernel := { posmap := [(4, 0)] } }, by decide +kernel, rfl, by decide +kernel, by decide +kernel,
    by decide +kernel, by decide +kernel, by decide +kernel, by decide +kernel, by decide +kernel, ?_⟩
  intro n
  have h : stHeld.recordPlace (stHeld.qslot launch0.slot).part.toNat = (0, 0xFFFFFFFF0000) := by decide +kernel
  rw [show ({ launch0 with ckAsk := true, kernel := { posmap := [(4, 0)] } } : Launch).slot = launch0.slot from rfl, h]
  have k := (Config.recordBytes stHeld.freeCtr n 1).isLt
  have r : recordHeader = 256 := rfl
  show 0 + (recordHeader + (Config.recordBytes stHeld.freeCtr n 1).toNat) ≤ 0xFFFFFFFF0000
  omega
/-- A record is written while a store of the launch is on its way to another lode. -/
theorem witness_Checkpoint_waits :
    let s := { stHeld with ckpts := [record0], accs := [{ acc0 0 with home := .remote 5 }] }
    s.writing (s.qslot 2).launch = some 0 ∧ s.allHeld (s.qslot 2).launch = true ∧ s.someParked (s.qslot 2).launch = false
      ∧ s.accs.any (fun a => a.launch == (s.qslot 2).launch) = true
      ∧ stHeld.accs.any (fun a => a.launch == (stHeld.qslot 2).launch) = false := by decide +kernel
/-- Every placed task of the launch has ended, and geode 39 is left to place. -/
theorem witness_Checkpoint_rest :
    let l := { launch0 with ckAsk := true, toPlace := [39] }
    let s : State := { stHeld with cores := [], launches := [(1, l)] }
    (s.facetsOf (s.qslot 2).launch).isEmpty = true ∧ l.toPlace ≠ [] ∧ s.allHeld (s.qslot 2).launch = true
      ∧ s.someParked (s.qslot 2).launch = false ∧ s.writing (s.qslot 2).launch = none ∧ launch0.ckpt = none := by decide +kernel
theorem witness_Checkpoint_timeout :
    let s := stHeld.modMe fun f => { f with ckHeld := false }
    (s.facetsOf (s.qslot 2).launch).all (fun x => x.2.2.ckHeld) = false := by decide +kernel
/-- Geode 0 with a free fossil slot and no slot chosen, and with neither a fossil slot nor a spare. -/
theorem witness_Sparing :
    let s := { stArea [] with dev := [(aGeodeMap 0, 0x800)], failedSlots := upto 22 }
    (stArea []).geodeState 0 = 0 ∧ ((stArea []).geode 0).frozen = false
      ∧ (stArea []).freeFossil ((stArea []).geodePart 0) = some 0x4000000 ∧ (none : Option SpareSlot).any (·.forTest) = false
      ∧ s.geodeState 0 = 0 ∧ s.freeFossil (s.geodePart 0) = none := by
  decide +kernel

/-- The power registers with a code, a temperature or a current limit. -/
def stPower (gstat : BitVec 64) : State := { st with dev := [(aGstat 0, gstat)] }
theorem witness_PowerEvents_step :
    (stPower 7).devFld (aGstat 0) 8 3 < (stPower 7).targetCode 0 ∧ (stPower 7).devFld (aGstat 0) 8 3 < 63
      ∧ (stPower 0x1F8).targetCode 0 < (stPower 0x1F8).devFld (aGstat 0) 8 3
      ∧ (stPower (BitVec.ofNat 64 (8 * (stPower 0).targetCode 0))).targetCode 0 = (stPower 0).targetCode 0 := by decide +kernel
/-- The limit on the temperature code and on the current at their boundaries: 105, and 95 % of 3,800 A. -/
theorem witness_PowerEvents_limits :
    st.devFld (aPower + 0x48) 37 30 ≤ (105 : BitVec 8).toNat ∧ (([3800] : List Nat).take 40).sum + 0 ≤ st.devFld (aPower + 0x48) 29 18
      ∧ st.devFld (aPower + 0x60) 12 12 = 0 ∧ 100 * ((([3609] : List Nat).take 40).sum + 0) < 95 * st.devFld (aPower + 0x48) 29 18
      ∧ 95 * st.devFld (aPower + 0x48) 29 18 ≤ 100 * ((([3610] : List Nat).take 40).sum + 0)
      ∧ ([3610] : List Nat)[0]? = some ((([3610] : List Nat).take 40).foldl max 0) := by decide +kernel
theorem witness_PowerEvents_power :
    st.powered = true ∧ { st with powered := false, wake := true }.powered = false ∧ { st with powered := false, wake := true }.wake = true
      ∧ { st with powered := false, wake := false }.wake = false := ⟨rfl, rfl, rfl, rfl⟩
/-- A hold on the current, and its release at 90 % of 3,800 A; the busy count too far below the activity. -/
theorem witness_PowerEvents_release :
    let s := { st with dev := [(aPower + 0x60, 0x1000)] }
    s.devFld (aPower + 0x60) 12 12 = 1 ∧ 100 * ((([3420] : List Nat).take 40).sum + 0) ≤ 90 * s.devFld (aPower + 0x48) 29 18
      ∧ (st.modGeode 0 fun g => { g with activity := 256 }).falling 0 = true := by decide +kernel
/-- Five array cycles of one core and three of another of the geode, three of the geode's five in the window that ends. -/
theorem witness_PowerEvents_activity :
    let s := (st.modHere fun k => { k with arr := 5 }).modCore 1 fun k => { k with arr := 3 }
    s.busyOf 0 = 5 ∧ s.busyOf 0 - min 2 (s.busyOf 0) = 3 ∧ min 256 3 ≤ (s.geode 0).activity + s.rstep
      ∧ (s.geode 0).activity ≤ min 256 3 + s.rstep := by decide +kernel

theorem witness_ManagementEvents_map :
    (stFossil 2 0).geodeState 39 = 0 ∧ ((stFossil 2 0).launchesOn 39).isEmpty = true ∧ ((stFossil 2 0).geode 39).frozen = false
      ∧ (stFossil 2 0).namedInProgress 39 = false := by
  decide +kernel
theorem witness_ManagementEvents_idle :
    let s : State := { dev := [(aMeas + 0x240, 0x10000), (aBoot, 1)] }
    s.lodeIdle = true ∧ s.recovery = false ∧ s.devFld aBoot 0 0 = 1
      ∧ { s with dev := [(aBoot, 0)] }.devFld aBoot 0 0 ≠ 1 ∧ (0x8000000000000001 : BitVec 64).getLsbD 63 = true := by decide +kernel
theorem witness_ManagementEvents_report (nonce : BitVec 384) :
    place 0x1000 = .main ∧ place (0x1000 + (st.attestation nonce).length - 1) = .main := by
  refine ⟨by decide, ?_⟩
  have h : ∀ n v, (beBytes n v).length = n := by intro n v; simp [beBytes, length_leBytes]
  have d : ∀ a, (st.digestAt a).length = 48 := by intro a; simp [State.digestAt]
  simp [State.attestation, h, d, length_leBytes, place]
/-- An envelope of no payload, of firmware with security version 1. -/
def env0 : Envelope :=
  { header := leBytes 4 0x56534E5A ++ leBytes 2 1 ++ leBytes 2 1 ++ leBytes 8 0 ++ beBytes 48 (sha384 []).toNat ++ List.replicate 64 0
    sigRsa := List.replicate 384 0, sigSlh := List.replicate 16224 0, payload := [] }
/-- The same as a manifest or a test package. -/
def envOf (kind : Nat) : Envelope := { env0 with header := env0.header.take 4 ++ leBytes 2 kind ++ env0.header.drop 6 }
/-- Each is accepted where its signatures verify under the fused keys, which the model leaves open. -/
theorem witness_ManagementEvents_envelope (kind : Nat) (hk : kind ∈ [1, 2, 3])
    (h : Config.signaturesVerify (envOf kind).header env0.sigRsa env0.sigSlh = true) :
    let s : State := { dev := [(aMeas + 0x240, 0x100010001)], manifestEnv := some (envOf 2), testEnv := some (envOf 3) }
    s.accepts (envOf kind) = true ∧ s.recovery = false ∧ envKind (envOf kind) = kind ∧ s.lodeIdle = true
      ∧ envField (envOf kind) 6 2 = (1 : BitVec 16).toNat := by
  have h6 : env0.sigRsa.length = 384 ∧ env0.sigSlh.length = 16224 := ⟨List.length_replicate, List.length_replicate⟩
  have hh : ∀ k ∈ [1, 2, 3],
      (envOf k).header.length = 128 ∧ envField (envOf k) 0 4 = 0x56534E5A ∧ envKind (envOf k) = k ∧ envField (envOf k) 8 8 = 0
        ∧ envField (envOf k) 6 2 = 1 ∧ ((envOf k).header.drop 16).take 48 = beBytes 48 (sha384 []).toNat
        ∧ ((envOf k).header.drop 64).all (· == 0) = true
        ∧ decide (({ dev := [(aMeas + 0x240, 0x100010001)] } : State).fusedSvn k ≤ 1) = true := by decide +kernel
  obtain ⟨h1, h2, h3, h4, h5, h7, h8, h9⟩ := hh kind hk
  have hb : decide (1 ≤ kind ∧ kind ≤ 3) = true := by
    rcases List.mem_cons.1 hk with rfl | hk <;> first | rfl | rcases List.mem_cons.1 hk with rfl | hk <;> first | rfl | simp_all
  have hs : ∀ k, ({ dev := [(aMeas + 0x240, 0x100010001)], manifestEnv := some (envOf 2), testEnv := some (envOf 3) } : State).fusedSvn k
      = ({ dev := [(aMeas + 0x240, 0x100010001)] } : State).fusedSvn k := fun _ => rfl
  refine ⟨?_, rfl, h3, by decide +kernel, h5⟩
  have e1 : (envOf kind).sigRsa = env0.sigRsa := rfl
  have e2 : (envOf kind).sigSlh = env0.sigSlh := rfl
  have e3 : (envOf kind).payload = [] := rfl
  simp only [State.accepts, h1, h2, h3, h4, h5, h7, h8, hb, hs, h9, e1, e2, e3, h6.1, h6.2, h, beq_self_eq_true, Bool.and_self,
    List.length_nil]
/-- A test package for a free slot of die 0, of that slot's revision and layout hash. -/
def test0 (r : BitVec 64) : ScanTest :=
  { die := false, slot := 21, trev := Config.slotTrev 0 21, lhash := Config.slotLhash 0 21, patterns := [(1, r)] }
theorem witness_ManagementEvents_test (r : BitVec 64) :
    let s : State := { dev := (upto 20).map fun n => (aGeodeMap n, BitVec.ofNat 64 n) }
    (test0 r).slot.toNat < 22 ∧ s.slotTaken 0 (test0 r).slot.toNat = false ∧ (test0 r).trev = Config.slotTrev 0 (test0 r).slot.toNat
      ∧ (test0 r).lhash = Config.slotLhash 0 (test0 r).slot.toNat
      ∧ (test0 1).patterns.all (fun p => p.1 == p.2) = true ∧ (test0 2).patterns.all (fun p => p.1 == p.2) = false
      ∧ s.failedSlots.contains (32 * 0 + (test0 r).slot.toNat) = false
      ∧ { s with failedSlots := [21] }.failedSlots.contains (32 * 0 + (test0 r).slot.toNat) = true :=
  ⟨show (21 : BitVec 5).toNat < 22 by decide,
    show ({ dev := (upto 20).map fun n => (aGeodeMap n, BitVec.ofNat 64 n) } : State).slotTaken 0 21 = false by decide +kernel,
    rfl, rfl, by decide, by decide, rfl, rfl⟩
/-- The wake pin with power-good high and the package off. -/
theorem witness_ManagementEvents_wake :
    let s := { st with powered := false, pgood := some (none, true) }
    s.powered = false ∧ s.pgood = some (none, true) ∧ st.pgood = none := ⟨rfl, rfl, rfl⟩
/-- A host core's load of 8 bytes from main memory, from a hole, and from a poisoned word. -/
theorem witness_ManagementEvents_host :
    memPlace 64 8 = true ∧ place 64 ≠ .device ∧ memPlace 0x8000000000 8 = false ∧ place 0x8000000000 ≠ .device
      ∧ ((upto 8).map (64 + ·)).any (st.noteWords ((upto 8).map (64 + ·)) false whoHost).poisoned = false
      ∧ ((upto 8).map (64 + ·)).any ({ st with memPoison := [2] }.noteWords ((upto 8).map (64 + ·)) false whoHost).poisoned = true := by
  decide +kernel
/-- Power registers are telemetry, the partitions' are not. -/
theorem witness_ManagementEvents_telemetry :
    telemetry 0x800000A0048 = true ∧ 0x800000A0048 % 8 = 0 ∧ st.rowHeld (.telemetry 0x800000A0048) = false
      ∧ telemetry (aPart 0 + 0x40) = false := by decide +kernel
/-- An access to a register of a core of a frozen geode waits with its sender, and so does that sender's next one. -/
theorem witness_ManagementEvents_held :
    let st := { st with dev := [(aGeodeMap 0, 0)] }
    let s := st.modGeode 0 fun g => { g with frozen := true }
    let r : HeldRow := .host (aCore 0) ⟨1, .load 8⟩ false
    s.rowHeld r = true ∧ { st with heldRows := [r] }.rowHeld (.host 64 ⟨1, .load 8⟩ false) = true
      ∧ st.rowHeld r = false ∧ st.rowHeld (.host 64 ⟨1, .load 8⟩ false) = false := by decide +kernel
theorem witness_ManagementEvents_pcie : 0 ∈ [0, 1, 2, 4, 8, 16] ∧ 16 ∈ [0, 1, 2, 4, 8, 16] ∧ 128 ≤ 128 := by decide
theorem witness_ManagementEvents_register : place 0x80000000008 = .device ∧ 0x80000000008 % 8 = 0 := by decide

/-- The package with an export window that lets lode 5 read, write and update the first 64 KiB, and a port in a state. -/
def stFabric (port : BitVec 64) : State :=
  { st with dev := [(aExport 0 + 8, 1), (aExport 0 + 16, 0x300050005), (aPort 23, port)] }
theorem witness_FabricEvents_requests :
    (stFabric 0).admits (5 : BitVec 16).toNat 0xFFF8 8 true false = true ∧ (stFabric 0).admits (5 : BitVec 16).toNat 0xFFF8 8 false true = true
      ∧ (stFabric 0).admits (5 : BitVec 16).toNat 0xFFFC (atomicBytes 19) true true = true
      ∧ (stFabric 0).admits (5 : BitVec 16).toNat 0x10000 8 true false = false := by decide +kernel
/-- A PCIe request to the page that the tables map, whatever address space firmware has given its requester. -/
theorem witness_FabricEvents_pcie :
    let s : State := { mem := tables }
    (s.spansAt 0 false 0 64).2 = false ∧ (∃ cs, s.cellsOf (s.spansAt 0 false 0 64).1 = (cs, none))
      ∧ (s.spansAt 0 true 0 64).2 = false ∧ (∃ cs, s.cellsOf (s.spansAt 0 true 0 64).1 = (cs, none))
      ∧ s.meetPages 0 0 64 whoHost.req = s ∧ (∀ w, (s.countPages 0 w 0 64 true).mem = s.mem)
      ∧ (∀ w, (s.engineGo [] (s.cellsOf (s.spansAt 0 w 0 64).1).1).2.1 = true) := by
  have h : ∀ w, ((({ mem := tables } : State).cellsOf (({ mem := tables } : State).spansAt 0 w 0 64).1).2) = none := by decide +kernel
  have e : ∀ p : List Cell × Option (Nat × Nat), p.2 = none → p = (p.1, none) := by rintro ⟨a, b⟩ rfl; rfl
  exact ⟨by decide +kernel, ⟨_, e _ (h false)⟩, by decide +kernel, ⟨_, e _ (h true)⟩, by decide +kernel, by decide +kernel, by decide +kernel⟩
/-- The page of address space 0 is one of lode 5, which port 0 reaches. -/
def stAway : State := { mem := tables.putNum 0x5000 8 (5 * 2 ^ 48 + 0x8F), dev := [(aPort 0, 5)] }
/-- A PCIe request to a page of lode 5 waits, whether or not a port has room for it. -/
theorem witness_FabricEvents_pcieAway :
    let s := stAway
    (s.spansAt 0 false 0 64).2 = false ∧ (s.cellsOf (s.spansAt 0 false 0 64).1).2 = none ∧ s.meetPages 0 0 64 whoHost.req = s
      ∧ (s.engineGo [] (s.cellsOf (s.spansAt 0 false 0 64).1).1).2.1 = false := by
  refine ⟨by decide +kernel, by decide +kernel, by decide +kernel, ?_⟩
  have h : (linesLeft [] (awayPas (stAway.cellsOf (stAway.spansAt 0 false 0 64).1).1)).isEmpty = false := by decide +kernel
  generalize (stAway.cellsOf (stAway.spansAt 0 false 0 64).1).1 = cs at h ⊢
  exact State.linesGo_waits h
/-- Port 23, the last one: enabled and down, up, with 0, 30 and 31 retries. -/
theorem witness_FabricEvents_ports :
    (stFabric 1).devFld (aPort 23) 0 0 ≠ 0 ∧ (stFabric 1).devFld (aPort 23) 2 1 ≠ 3 ∧ (stFabric 5).devFld (aPort 23) 2 1 = 2
      ∧ { stFabric 5 with flitRuns := [(23, 30)] }.flitRuns.get 23 0 + 1 < 32
      ∧ { stFabric 5 with flitRuns := [(23, 31)] }.flitRuns.get 23 0 = 31 := by decide +kernel
/-- A request that a port has accepted. -/
def req0 : PortReq := { port := 2, lode := 5, line := 0, ident := 0, addr := 0, seq := 9 }
/-- A remote store that waits for the answer of its line. -/
def remote0 : Access := { acc0 0 with home := .remote 5, ports := [req0] }
theorem witness_FabricEvents_errors :
    let s := { st with accs := [remote0] }
    s.accs.find? (fun a => a.ports.any fun r => r.seq == 9 && !r.done) = some remote0
      ∧ s.allReqs = [req0] ∧ st.allReqs = [] := by
  decide +kernel

/-! ## Witnesses: the statements about the machine -/

/-- The package whose only core has the bundle of one `add` at offset 0. -/
def stAdd : State := stCode .s 0x0100C10800000000 fun f => { f with landings := [], rbase := none }
theorem witness_StepRunsTheDecodedBundle :
    stAdd.turn = false ∧ stAdd.stands = false ∧ stAdd.nextIssuer = some 0 ∧ (Instr.add 0 3 1 2).slot?.isSome = true
      ∧ (stAdd.offered 0).fetched.ops = [.add 0 3 1 2] ∧ (stAdd.offered 0).passes (stAdd.offered 0).fetched = true
      ∧ (∃ u, exec (.add 0 3 1 2) { (stAdd.offered 0).pass (stAdd.offered 0).fetched with due := [.bundleCommit 0] } = .next u
          ∧ u.due = [.bundleCommit 0]
          ∧ ∃ v, exec (.bundleCommit 0) { u with due := [] } = .next v ∧ v.due = [] ∧ v.stands = false) := by
  refine ⟨rfl, rfl, by decide +kernel, rfl, by decide +kernel, by decide +kernel, _, rfl, by decide +kernel, _, rfl, by decide +kernel,
    by decide +kernel⟩
/-- The bundle of a `sys` whose frame's walk meets an uncorrectable word of an active mirrored range. -/
def stStand : State :=
  { stCode .s 0x6300000000000007 fun f => { f with landings := [], rbase := none, tbase := 0x8000000000000000 } with
    mem := tables, flaws := [(0, .uncorrectable 5)], dev := [(aMir 2 + 8, 1), (aMir 2 + 0x10, 0x1000000000005), (aGeodeMap 0, 0)] }
theorem witness_StepRunsTheDecodedBundle_stands :
    stStand.turn = false ∧ stStand.stands = false ∧ stStand.nextIssuer = some 0
      ∧ (stStand.offered 0).fetched.ops = [.sys 0 7] ∧ (stStand.offered 0).passes (stStand.offered 0).fetched = true
      ∧ (∃ u, exec (.sys 0 7) { (stStand.offered 0).pass (stStand.offered 0).fetched with due := [.bundleCommit 0] } = .next u
          ∧ u.due = [.bundleCommit 0]
          ∧ ∃ v, exec (.bundleCommit 0) { u with due := [] } = .next v ∧ v.due = [] ∧ v.stands = true) := by
  refine ⟨rfl, rfl, by decide +kernel, by decide +kernel, by decide +kernel, _, rfl, by decide +kernel, _, rfl, by decide +kernel,
    by decide +kernel⟩
/-- The bundle of one `wrsys` in a system segment ends at the last byte of the bank. -/
def stFetch : State :=
  (st.modHere fun c =>
    { c with ist := Memory.put [] 32756 (oneSlotBytes .s 0x6200050000000014), segs := [⟨0, 0, true, false, 32000, 768, [1]⟩] }).modMe
      fun f => { f with pc := 32756 }
theorem witness_FetchReadsTheStoredBundle :
    (Instr.wrsys 0 5 0x014).wf = true ∧ (Instr.wrsys 0 5 0x014).slot? = some .s ∧ encode (.wrsys 0 5 0x014) = some 0x6200050000000014
      ∧ stFetch.me.pc + (4 + slotBytes .s) ≤ Config.bankBytes
      ∧ stFetch.here.ist.bytes (codeAddr stFetch.me.bank stFetch.me.pc) (4 + slotBytes .s) = oneSlotBytes .s 0x6200050000000014
      ∧ stFetch.here.istPoison = [] ∧ stFetch.here.sysAt stFetch.me.bank stFetch.me.pc = true
      ∧ placeOk stFetch.me.pc (4 + slotBytes .s) 0 (.wrsys 0 5 0x014) = true
      ∧ (vnames (.wrsys 0 5 0x014)).all (fun v => decide (v.toNat < stFetch.me.allot)) = true := by decide +kernel
theorem witness_DecodeInvertsEncode :
    ([.add 0 3 1 2, .ldhV 0 7 3 5 2 0 0, .microLoop 0x3FF 1 0xFFFF 3] : List Instr).all (·.wf) = true
      ∧ decodeSlot .s 0x0100C10800000000 = .ok (some (.add 0 3 1 2))
      ∧ ([.nop, .popA, .pass 1, .acc 0xFFFF 3, .microLoop 0x3FF 1 0xFFFF 3, .sync 0x8000 1] : List Instr).all (·.wf) = true
      ∧ decodeMicro 0x10000000000000000000000000000000 = some .popA := by decide +kernel
theorem witness_StepKeepsMemoriesCanonical :
    let s := { stAdd with mem := tables, durQ := [{ entry0 with sealed := true }, entry0] }
    s.canonical = true ∧ ∃ t, step s = .next t := by
  refine ⟨by decide +kernel, ?_⟩
  have h : (match step { stAdd with mem := tables, durQ := [{ entry0 with sealed := true }, entry0] } with
    | .next _ => true | _ => false) = true := by decide +kernel
  revert h
  cases step { stAdd with mem := tables, durQ := [{ entry0 with sealed := true }, entry0] } with
  | next t => exact fun _ => ⟨t, rfl⟩
  | fault f => exact fun h => nomatch h
  | refused r => exact fun h => nomatch h
/-- A core with bytes in its scratchpad and its instruction store, and a fossil that holds one. -/
theorem witness_StepKeepsScratchpadsCanonical :
    let k : Core := { core0 with spad := [(5, 1), (64, 7)], ist := [(0, 1)] }
    let s : State := { st with cores := [(0, k)], fossils := [{ fossil0 2 with cores := [(coreAt 39 0, k)] }] }
    s.spadsCanonical = true ∧ { st with cores := [(0, { k with spad := [(5, 1), (5, 2)] })] }.spadsCanonical = false
      ∧ (match step { stAdd with fossils := s.fossils } with | .next _ => true | _ => false) = true ∧ stAdd.spadsCanonical = true := by
  decide +kernel
theorem witness_HardWiredRegisters :
    (RegWrite.s 0 5).void = true ∧ (RegWrite.g 0 false).void = true ∧ (RegWrite.m 0 0).void = true := by decide
/-- Bounds of 3 at cycle 100 and of 1 at cycle 101: the register is undefined at 101 and 102 and reads the second value at 103. -/
theorem witness_ResultsAreReadable :
    facet0.flight (.s 5) = [] ∧ facet0.replayed (.s 5) = false ∧ facet0.intrap = false ∧ facet0.clock < 101
      ∧ (facet0.clock < 102 ∧ 102 < facet0.clock + 3) ∧ (facet0.clock < 103 ∧ facet0.clock + 3 ≤ 103)
      ∧ (101 < 102 ∧ 102 < max (facet0.clock + 3) (101 + 1)) ∧ (101 < 103 ∧ max (facet0.clock + 3) (101 + 1) ≤ 103) := by decide +kernel
theorem witness_FalseGuard : (Instr.add 8 4 6 7).slot?.isSome = true ∧ st.idle (.add 8 4 6 7) = true := by decide +kernel
/-- A send to the facet's own rank is an illegal encoding. -/
theorem witness_FailingCheck :
    (Instr.send 0 6 0 0 0 0).slot?.isSome = true ∧ st.me.resident = true ∧ st.me.latch.passed = false ∧ st.waits (.send 0 6 0 0 0 0) = false
      ∧ st.issueTrap (.send 0 6 0 0 0 0) = some (trapOf (.send 0 6 0 0 0 0) .illegalEncoding) := by decide +kernel
/-- For the frames: a load, a store to the own core, an atomic and a loop. -/
theorem witness_Frames :
    ([.ldS 0 4 1 0 0 3, .stS 0 6 1 0 0 0 3, .amoP 0 4 1 0 19 0 0, .loopi 0 0 0 9 7] : List Instr).all (fits st) = true
      ∧ roundsAtIssue (.stM 0 1 1 0) = false ∧ roundsAtIssue (.ldhS 0 4 1 1 0 0 3) = false
      ∧ st.spadWrites (.ldS 0 4 1 0 0 3) = none ∧ (st.spadWrites (.stS 0 6 1 0 0 0 3)).isSome = true
      ∧ (∀ ws, st.spadWrites (.stS 0 6 1 0 0 0 3) = some ws → ∀ w ∈ ws, st.spCore w.addr = st.cur) := by
  refine ⟨by decide +kernel, rfl, rfl, by decide +kernel, by decide +kernel, ?_⟩
  have h : ((st.spadWrites (.stS 0 6 1 0 0 0 3)).getD []).all (fun w => st.spCore w.addr == st.cur) = true := by decide +kernel
  intro ws hw w hm
  rw [hw] at h
  exact eq_of_beq (List.all_eq_true.1 h w hm)
/-- A store to the scratchpad of rank 1 writes no place of the own core; an atomic there. -/
theorem witness_Frames_peer :
    let s := { st with launches := [(1, { launch0 with windows := [(0, [0, 1, 2, 3]), (1, [0, 1, 2, 3])] })] }.modMe fun f =>
      { f with x := [(1, BitVec.ofNat 32 (2 ^ 20 + 0x100))] }
    s.ready (.stS 0 6 1 0 0 0 3) = true ∧ (s.spadWrites (.stS 0 6 1 0 0 0 3)).isSome = true
      ∧ ((s.spadWrites (.stS 0 6 1 0 0 0 3)).getD []).all (fun w => s.spCore w.addr == coreAt 0 1) = true ∧ s.cur ≠ coreAt 0 1
      ∧ s.ready (.amoP 0 4 1 0 19 0 0) = true ∧ s.spCore (spAddr (s.readX 1) 0 / tyBytes 19 * tyBytes 19) ≠ s.cur := by
  decide +kernel
/-- The facet with a frame in local memory (a pinned page that may be written) and a handler. -/
def stTrap (pin : Nat) : State := { stParked.modMe (fun f => { f with parked := false }) with mem := (tables.putNum 0x5000 8 (0x200 * 256 + 0xF + pin)) }
/-- Each clause of trap entry: in a handler; delivered by park; a bad base; a bad frame; into the handler. -/
theorem witness_TrapEntry :
    ((stTrap 64).modMe fun f => { f with intrap := true }).me.intrap = true ∧ (stTrap 64).me.intrap = false
      ∧ ({ cause := .watchdog } : TrapInfo).parks = true ∧ ({ cause := .sys } : TrapInfo).parks = false
      ∧ tbaseOk st.here st.me = false ∧ tbaseOk (stTrap 64).here (stTrap 64).me = true ∧ (stTrap 0).framePlace (stTrap 0).me = none
      ∧ tbaseOk (stTrap 0).here (stTrap 0).me = true ∧ ((stTrap 64).framePlace (stTrap 64).me).isSome = true := by decide +kernel
/-- The same conditions where no error stands at the frame's walk. -/
theorem witness_TrapEntry_walk :
    ((stTrap 64).meetWalk (stTrap 64).me.pasid (stTrap 64).me.tframe.toNat 0).framePlace (stTrap 64).me = some (.here 0x20000)
      ∧ (stTrap 64).canonical = true ∧ (stTrap 64).me.flight (.s 5) = [] ∧ place 0x20000 = .main
      ∧ ((stTrap 0).meetWalk (stTrap 0).me.pasid (stTrap 0).me.tframe.toNat 0).framePlace (stTrap 0).me = none := by decide +kernel
theorem witness_SoftwareTrap :
    let s := (stTrap 64).modMe fun f => { f with latch := latch0 }
    s.ready (.sys 0 7) = true ∧ s.ready (.trapi 0 7) = true ∧ s.me.latch.passed = true ∧ s.me.latch.halted = false
      ∧ s.me.latch.sysWrite = none ∧ s.me.intrap = false ∧ s.me.latch.returned = false ∧ (s.geode (geodeOf s.cur)).frozen = false
      ∧ s.flaws = [] ∧ tbaseOk s.here s.me = true ∧ (s.framePlace s.me).isSome = true := by decide +kernel
/-- A frame of zeros; one whose RESUME has a bit outside its fields; none. -/
theorem witness_ReturnRestoresTheFrame :
    (stTrap 64).framePlace (stTrap 64).me = some (.here 0x20000) ∧ (stTrap 64).framePoisoned (stTrap 64).me (.here 0x20000) = false
      ∧ { stTrap 64 with memPoison := [0x1000] }.framePoisoned (stTrap 64).me (.here 0x20000) = true
      ∧ wbits ((stTrap 64).frameNum (.here 0x20000) 0x10) 63 16 = 0 ∧ wbits ((stTrap 64).frameNum (.here 0x20000) 0x10) 1 0 = 0
      ∧ wbits ({ stTrap 64 with mem := (stTrap 64).mem.putNum 0x20010 8 2 }.frameNum (.here 0x20000) 0x10) 1 0 ≠ 0
      ∧ (stTrap 0).framePlace (stTrap 0).me = none
      ∧ (stTrap 64).meetFrame 0 0 = stTrap 64 ∧ (stTrap 0).meetFrame 0 0 = stTrap 0
      ∧ { stTrap 64 with memPoison := [0x1000] }.meetFrame 0 0 = { stTrap 64 with memPoison := [0x1000] } := by decide +kernel
/-- FSTATE with LSDEPTH 7 and with another depth; a facet with and without a rotating region. -/
theorem witness_Return_fields :
    wbits ({ stTrap 64 with mem := (stTrap 64).mem.putNum 0x20020 8 14 }.frameNum (.here 0x20000) 0x20) 3 1 = 7
      ∧ wbits ((stTrap 64).frameNum (.here 0x20000) 0x20) 3 1 ≠ 7
      ∧ ((stTrap 64).modMe fun f => { f with rotRegion := some (32, 16) }).me.rotRegion = some (32, 16) ∧ (stTrap 64).me.rotRegion = none
      ∧ (stTrap 64).me.flight (.h 1) = [] ∧ (stTrap 64).me.flight (.v 6) = [] := by
  decide +kernel
theorem witness_SystemRegisterWrites :
    let l := { latch0 with sysWrite := some (0x14, 2) }
    let s := stWith fun f => { f with latch := l }
    (s.facet 0 (s.core 0).run).latch = l ∧ l.passed = true ∧ l.halted = false ∧ l.after = none ∧ l.returned = false ∧ l.parked = false
      ∧ l.yielded = false ∧ (2 : BitVec 64).getLsbD 1 = true ∧ { facet0 with rotRegion := some (32, 16) }.rotRegion = some (32, 16)
      ∧ (s.geode (geodeOf 0)).frozen = false ∧ facet0.rotRegion = none ∧ wbits (14 : BitVec 64) 3 1 = 7 := by decide +kernel
/-- A write of each register that may be written, in turn; words that name GROUP and index 0x4C. -/
theorem witness_SystemRegisterWrites_indices :
    ([0, 0x10, 0x11, 0x14, 0x40, 0x4B] : List (BitVec 12)).all (fun ix => fits st (.wrsys 0 6 ix)) = true
      ∧ readSlot .s 0x6200060000000001 = some (.wrsys 0 6 1) ∧ readSlot .s 0x620006000000004C = some (.wrsys 0 6 0x4C)
      ∧ 0x6200060000000001 / 2 ^ opLo .s ≠ 0 ∧ slotFault true 96 0 12 0 .s 0x620006000000004C = some ⟨0, .illegalEncoding, 0⟩
      ∧ readSlot .s 0x6101000000000015 = some (.rdsys 0 4 0x15) := by decide +kernel
/-- A handle that is not valid, one without W, the last byte of its page and the first one beyond, a device page. -/
theorem witness_HandleChecks :
    (st.hUse (.ldhS 0 4 2 1 0 0 3)).map (fun u => u.h.valid) = some false
      ∧ (st.hUse (.ldhS 0 4 1 1 0 0 3)).map (fun u => (u.h.valid, u.h.r, u.h.inPage 65528 8, u.h.inPage 65529 8)) = some (true, true, true, false)
      ∧ (st.hUse (.sthS 0 6 1 1 0 0 0 3)).map (fun u => (u.h.w, u.devForm, u.ea % 8)) = some (true, true, 0)
      ∧ st.guard (Instr.ldhS 0 4 2 1 0 0 3).guard = true ∧ st.parityTrap (.ldhS 0 4 2 1 0 0 3) true = none := by decide +kernel
theorem witness_PrivilegedOpcodes :
    readSlot .s 0x6200050000000014 = some (.wrsys 0 5 0x014) ∧ 0x6200050000000014 / 2 ^ opLo .s ≠ 0
      ∧ readSlot .s 0x6500000000000000 = some (.eret 0) ∧ slotFault false 96 0 12 0 .s 0x6500000000000000 = some ⟨0, .privileged, 0⟩
      ∧ systemIndex 0x10 = true ∧ systemIndex 0x4B = true := by decide +kernel
/-- Each clause of a walk: poison, no entry, malformed leaves and tables, a leaf, a table. -/
theorem witness_PageWalk :
    (({ mem := tables, memPoison := [0x5000 / 32] } : State).poisoned 0x5000 = true) ∧ ({ mem := tables } : State).poisoned 0x5000 = false
      ∧ (({ mem := tables } : State).numAt 0x5008 8).testBit 0 = false
      ∧ (({ mem := tables } : State).numAt 0x5000 8).testBit 1 = true ∧ (({ mem := tables } : State).numAt 0x4000 8).testBit 1 = false
      ∧ place (256 * nbits (({ mem := tables } : State).numAt 0x5000 8) 47 8) = .main
      ∧ 256 * nbits (({ mem := tables } : State).numAt 0x5000 8) 47 8 % 2 ^ pageBits (BitVec.ofNat 2 0) = 0
      ∧ place 0x8000000000 = .hole ∧ place 0x80000000000 = .device := by decide +kernel
/-- Good leaves: 2 MiB of the durable tier, 64 KiB of lode 5, 64 KiB of a device. -/
theorem witness_PageWalk_leaves :
    (∀ e ∈ [2 ^ 40 + 3], place (256 * nbits e 47 8) = .durable ∧ 256 * nbits e 47 8 % 2 ^ pageBits (BitVec.ofNat 2 1) = 0
        ∧ nbits e 63 48 = 0 ∧ e.testBit 0 = true ∧ e.testBit 1 = true ∧ e.testBit 7 = false)
      ∧ (∀ e ∈ [5 * 2 ^ 48 + 2 ^ 7 + 3], place (256 * nbits e 47 8) = .main ∧ 256 * nbits e 47 8 % 2 ^ pageBits (BitVec.ofNat 2 0) = 0
        ∧ nbits e 63 48 = 5 ∧ e.testBit 0 = true ∧ e.testBit 1 = true ∧ e.testBit 7 = true)
      ∧ (∀ e ∈ [0x80000000003], place (256 * nbits e 47 8) = .device ∧ 256 * nbits e 47 8 % 2 ^ pageBits (BitVec.ofNat 2 0) = 0
        ∧ nbits e 63 48 = 0 ∧ e.testBit 0 = true ∧ e.testBit 1 = true ∧ e.testBit 7 = false) := by decide +kernel
theorem witness_Revocation :
    let u := (st.devPut (aMmr + 0x10) 23 0 (wbits (0 : BitVec 64) 23 0)).countPkg 0x04 1
    st.inval = none ∧ wbits (0 : BitVec 64) 3 2 ≠ 3
      ∧ st.cores.any (fun k => k.2.facets.any fun f => f.2.resident && f.2.pins (u.invalArg 0)) = false
      ∧ st.fossils.any (fun x => x.used && x.cores.any fun k => k.2.facets.any fun f => f.2.resident && f.2.pins (u.invalArg 0)) = false
      ∧ (u.invalArg 0).matches st.me.pasid (st.me.h.get 1 {}) = true := by decide +kernel
theorem witness_DurableBytes :
    { st with durQ := [{ entry0 with sealed := true }, entry0] }.canonical = true ∧ place 0x7FFFFFFFFF = .main ∧ place 0x10000000000 = .durable
      ∧ place 0x1FFFFFFFFFF = .durable := by decide +kernel
theorem witness_StoreThenLoad :
    st.ready (.stS 0 6 1 0 0 0 3) = true ∧ st.spCore (spAddr (st.readX 1) 0) = st.cur ∧ spOff (spAddr (st.readX 1) 0) % 8 = 0
      ∧ st.here.spadPoison = [] ∧ st.here.spad.wf = true ∧ (st.spadStore (bytesAtBase (spAddr (st.readX 1) 0) (leBytes 8 0x60))).ready (.ldS 0 4 1 0 0 3) = true := by
  decide +kernel
theorem witness_StoreAtHome :
    let s := { st with accs := [acc0 64] }
    s.accs.find? (fun a => a.id == 7) = some (acc0 64) ∧ s.mayPerform (acc0 64) = true ∧ (acc0 64).home = .main
      ∧ ([64] : List Nat).Nodup ∧ place 64 = .main ∧ s.canonical = true ∧ s.memPoison = [] ∧ s.flaws = [] ∧ s.devFld (aMmr + 0x20) 3 0 < 8
      ∧ (∀ v < 8, s.devFld (aVein v + 0x38) 0 0 = 0) := by decide +kernel
/-- Two entries that end where the bundle ends, the upper with a count of 1 and the lower, rotating, with a count of 2. -/
theorem witness_LoopEnd :
    let f := { facet0 with lstk := [(0, { stop := 12, count := 2, rot := true }), (1, { stop := 12, count := 1 })], lsDepth := 2 }
    let l : Latch := { size := 12 }
    l.target = none ∧ l.isLoop = false ∧ l.returned = false ∧ l.yielded = false ∧ ({ l with yielded := true } : Latch).yielded = true ∧ (f.lstk.get 1 {}).stop = l.pc + l.size ∧ (f.lstk.get 1 {}).bank = f.bank
      ∧ (f.lstk.get 1 {}).count.toNat ≤ 1 ∧ ({ f with lsDepth := 1 }.lstk.get 0 {}).stop = l.pc + l.size
      ∧ 1 < (f.lstk.get 0 {}).count.toNat ∧ (f.lstk.get 0 {}).rot = true
      ∧ ∀ k < 0, ¬((f.lstk.get k {}).stop = l.pc + l.size ∧ (f.lstk.get k {}).bank = f.bank) := by decide +kernel
theorem witness_CommitRequests_eret : (stWith fun f => { f with intrap := true }).ready (.eret 0) = true := by decide +kernel
theorem witness_SystemReads_record : st.here.recordsOf st.fn = [⟨0, 9, 0⟩] := by decide +kernel
theorem witness_RingInstructions_message :
    (st.buffered (1 : BitVec 4).toNat (0 : BitVec 2).toNat (0 : BitVec 3).toNat ((0 : BitVec 1) == 1)).find?
      (fun x => x.stamp.toNat == st.recvStamp (1 : BitVec 4).toNat ((0 : BitVec 1) == 1)) = some msg0 := by decide +kernel
/-- The corners of the division table: by zero, and the most negative number by -1. -/
theorem witness_Division_corners :
    (stWith fun f => { f with s := [(7, 0)] }).readS 7 = 0
      ∧ (stWith fun f => { f with s := [(6, BitVec.intMin 64), (7, BitVec.allOnes 64)] }).readS 6 = BitVec.intMin 64
      ∧ (stWith fun f => { f with s := [(6, BitVec.intMin 64), (7, BitVec.allOnes 64)] }).readS 7 = BitVec.allOnes 64 := by decide +kernel
/-! ## Words of the spec

Each word is written from the encoding tables of R44, R140, R203 and the instruction's entry: opcode in bits 63 to 56 (31 to 27 in
the SY slot, 127 to 124 of a micro-word), guard below it, then the operands. -/

/-- R140: the loop of the worked example: END is 11 words ahead, the count 16. -/
theorem test_decode_loopi : decodeSlot .s 0x55000000002C0010 = .ok (some (.loopi 0 0 0 11 16)) := by decide +kernel
/-- R44: `add s3, s1, s2`, field by field: OP 01, G 0, D 3, A 1, B 2. -/
theorem test_decode_add_fields :
    decodeSlot .s (0x01 * 2 ^ 56 + 0 * 2 ^ 52 + 3 * 2 ^ 46 + 1 * 2 ^ 40 + 2 * 2 ^ 34) = .ok (some (.add 0 3 1 2)) := by decide +kernel
/-- R52: a set reserved bit below the B field is an illegal encoding; an opcode without an entry is undefined. -/
theorem test_decode_refuses :
    decodeSlot .s 0x0100C10800000001 = .error .illegal ∧ decodeSlot .s 0xFF00000000000000 = .error .undefinedOpcode := by decide +kernel
/-- R208: the built-in routine 56 is pop.a, pop.b, pass, end. -/
theorem test_decode_routine :
    (builtIn 56).map (fun l => l.map fun w => decodeMicro w.toNat)
      = some [some .popA, some .popB, some (.pass 0), some .microEnd] := by decide +kernel
/-- A header with the S slot present and the word of `add` after it, in the stored form of R40. -/
theorem test_decode_stored : decodeTableWord 96 (0x0100C10800000000 * 2 ^ 32 + 0x80 * 2 ^ 16) = some (.add 0 3 1 2) := by decide +kernel

/-! ## Single steps

The expected values are worked out by hand from the rule that each test names. -/

/-- What an operation issued last. -/
def issued (o : Out) : Option RegWrite := match o with | .next t => t.me.landings.getLast?.map (·.write) | _ => none
/-- A field of the next state. -/
def got {α : Type} (o : Out) (f : State → α) : Option α := match o with | .next t => some (f t) | _ => none
/-- The package with two scalar registers. -/
def stRegs (a b : BitVec 64) : State := stWith fun f => { f with s := [(6, a), (7, b)] }
/-- The package with the first 8 bytes of two vector registers. -/
def stVecs (a b : Nat) : State := st.modHere fun k => { k with vfile := [(6, ⟨BitVec.ofNat 1024 a, 0⟩), (7, ⟨BitVec.ofNat 1024 b, 0⟩)] }
/-- The first four bytes that an operation issued to a vector register. -/
def lane0 (o : Out) : Option Nat := match issued o with | some (.v _ v) => some (v.val.toNat % 2 ^ 32) | _ => none

/-- R121: the sum wraps. -/
theorem test_add_wraps : issued (exec (.add 0 4 6 7) (stRegs (BitVec.allOnes 64) 1)) = some (.s 4 0) := by decide +kernel
/-- R122: -7 / 2 truncates to -3, the remainder is -1. -/
theorem test_div_truncates :
    issued (exec (.div 0 4 6 7) (stRegs (BitVec.ofInt 64 (-7)) 2)) = some (.s 4 (BitVec.ofInt 64 (-3)))
      ∧ issued (exec (.rem 0 4 6 7) (stRegs (BitVec.ofInt 64 (-7)) 2)) = some (.s 4 (BitVec.ofInt 64 (-1))) := by decide +kernel
/-- R123: the carry out of the low halves enters the high half. -/
theorem test_add128_carries :
    issued (exec (.add128 0 4 6 8) (stWith fun f => { f with s := [(6, BitVec.allOnes 64), (7, 3), (8, 1), (9, 4)] })) = some (.s 5 8) := by
  decide +kernel
/-- R126: `bint3` puts bit 1 at bit 3. -/
theorem test_bint3 : issued (exec (.bint3 0 4 6) (stRegs 3 0)) = some (.s 4 9) := by decide +kernel
/-- R157: 1.0 + 1.0 is 2.0 in f32. -/
theorem test_fadd_one : lane0 (exec (.fadd .a 0 4 6 7 0 1) (stVecs 0x3F800000 0x3F800000)) = some 0x40000000 := by decide +kernel
/-- R160: i32 saturates at 2^31 - 1. -/
theorem test_iadds_clamps : lane0 (exec (.iadds .a 0 4 6 7 0 19) (stVecs 0x7FFFFFFF 1)) = some 0x7FFFFFFF := by decide +kernel
/-- R5, R231: `st.s` of 8 bytes puts the lowest byte at the lowest address. -/
theorem test_st_little_endian :
    got (exec (.stS 0 6 1 0 0 0 3) (stRegs 0x0102 0)) (fun t => (t.here.spad.get 0x100, t.here.spad.get 0x101)) = some (2, 1) := by
  decide +kernel
/-- R196: the immediate of `mparami` is sign-extended. -/
theorem test_mparami_sign : issued (exec (.mparami 0 1 0x7FFFFFFF) st) = some (.q 1 (BitVec.allOnes 64)) := by decide +kernel
/-- R242, R389: a `send` to the own rank traps with cause 1 and the ST slot's number; without a valid trap base the
facet parks with code 0x20 (R384). -/
theorem test_send_self_traps :
    got (exec (.send 0 6 0 0 0 0) { st with dev := [(aGeodeMap 0, 0x800)] }) (fun t => (wbits t.me.tcause 4 0, wbits t.me.tcause 20 18, t.me.parked, t.me.parkCode))
      = some (1, 5, true, 0x20) := by decide +kernel
/-- R51: a false guard writes nothing. -/
theorem test_false_guard : got (exec (.add 8 4 6 7) st) (fun t => t.me.landings.length) = some 0 := by decide +kernel
/-- R34, R39: the step from a bundle of `add` moves the place by 12 bytes and the clock by 1. -/
theorem test_step_add : got (step stAdd) (fun t => (t.me.pc, t.me.clock)) = some (12, 101) := by decide +kernel
/-- R347: the oldest line of the write queue reaches the media. -/
theorem test_queue_to_media :
    got (exec .writeQueueToMedia { st with durQ := [entry0] }) (fun t => (t.media.get 0x10000000000, t.durQ.length)) = some (5, 0) := by
  decide +kernel
/-- R435, R437: SHA-384 of "abc" as FIPS 180-4 prints it (log entry 38). -/
theorem test_sha384_abc :
    sha384 [0x61, 0x62, 0x63]
      = 0xcb00753f45a35e8bb5a03d699ac65007272c32ab0eded1631a8b605a43ff5bed8086072ba1e7cc2358baeca134c825a7#384 := by decide +kernel

/-- R372, R453: a record that a host event ring of LOG2 4 takes interrupts the host cores; a ring below LOG2 4 is off. -/
theorem test_ring_interrupts :
    ((State.reset.devPut (aPart 0 + 0x10) 3 0 4).heqPost 0 1 0 0 0 0).hostIrqs = [(aPart 0 + 0x10, 1)]
      ∧ ((State.reset.devPut (aPart 0 + 0x10) 3 0 3).heqPost 0 1 0 0 0 0).hostIrqs = [] := by decide +kernel

/-! ## Waiting messages -/

/-- Message `n` of five that rank 3 sent to rank 6, the first four in its buffer. -/
def msgTo6 (n : Nat) : Msg := { msg0 with id := n, src := 3, dst := 6, buffered := n < 5 }

/-- R238, R244 (the outcome table): the fifth message waits at stop 5 and holds the lane back to its sender; stops 2 and 6, which
it has not to pass, are free. -/
theorem test_fifthMessageHoldsTheLane :
    (List.range 8).map (fun u => laneHeld ((List.range 6).tail.map msgTo6) u 0 false)
      = [false, false, false, true, true, true, false, false] := by decide +kernel

/-! ## The portable form -/

/-- R130, R137: a yield in a loop's last bundle is a taken transfer: nothing is matched. -/
theorem test_yield_matches_no_end :
    let f := { facet0 with lstk := [(0, { stop := 12, count := 2 })], lsDepth := 1 }
    (f.continueAt { size := 12, yielded := true }).pc = 12 ∧ (f.continueAt { size := 12, yielded := true }).lstk = f.lstk
      ∧ ((f.continueAt { size := 12 }).lstk.get 0 {}).count = 1 := by decide +kernel
/-- R89: of two malformed blocks a sparse feed ends at the first that has been read whole. -/
theorem test_badBlocks :
    let full : ShaleBlock := { map := List.replicate 24 ⟨255, false⟩, raw := [], cells := [] }
    (badBlocks 2 [full, { full with map := [] }]).map (·.length) = some 1 ∧ (badBlocks 2 [{ full with map := [] }]).isNone = true := by
  decide +kernel
/-- R166, R170, R426: a block scale and a wrapping integer conversion raise no flag, a saturating one may. -/
theorem test_raisesFlags_integers :
    raisesFlags (.bscale .a 0 4 6 0 4 1) = false ∧ raisesFlags (.icvt .a 0 4 6 20 0 0 19 0) = false
      ∧ raisesFlags (.icvt .a 0 4 6 20 0 0 19 1) = true := by decide
/-- R228, R426: a load of vector words raises no flag, so it may share a group with a read of the flags; an arithmetic operation
raises some. -/
theorem test_raisesFlags : raisesFlags (.fadd .a 0 4 6 7 0 1) = true ∧ (∀ d m t, raisesFlags (.ldV 0 d 4 6 m t) = false) := by
  exact ⟨rfl, fun _ _ _ => rfl⟩

/-- R425: the mark at lode scope is 0x0000_308B, and a STOP mark is 0x0000_000B. -/
theorem test_preub_marks :
    readPreubMark 0x0000308B = some (.scope 3) ∧ readPreubMark 0x0000000B = some .stop := by decide +kernel
/-- R430: `fma.f32 v10, v2, v5` with STOP is 0x0080_0501_0282_00BF and the Talhel word 0x0400_5008_0A0A_0080. -/
theorem test_preub_fma :
    readPreubOp .a none 0x00800501028200BF = some (.op (.v .a) (.fma .a 0 10 2 5 10 0 1) true)
      ∧ encode (.fma .a 0 10 2 5 10 0 1) = some 0x040050080A0A0080 := by decide +kernel
/-- R430: `add x3, x1, x2` (0x0020_81B3) is the Talhel word 0x0100_C108_0000_0000. -/
theorem test_preub_add : rvAct 0x002081B3 = some (.run [.add 0 3 1 2]) ∧ encode (.add 0 3 1 2) = some 0x0100C10800000000 := by decide +kernel
/-- R426: one group holds both operations of R430's pair; a later operation of the group may not read x3. -/
theorem test_preub_group :
    (readPreubs .a none 2 (leBytes 4 0x002081B3 ++ leBytes 8 0x00800501028200BF)).map (fun l => preubGroupsOk l [] {}) = some true
      ∧ (readPreubs .a none 2 (leBytes 4 0x002081B3 ++ leBytes 4 0x00018213)).map (fun l => preubGroupsOk l [] {}) = some false := by
  decide +kernel
/-- R427, R429: the word `add x3, x1, x2` of a kernel issues one Talhel instruction, and `jal x0, 8` (0x0080_006F) goes on 8 bytes
further, here and in the run's place. -/
theorem test_preub_run :
    (PreubWord.rv 0x002081B3).bundles = [some (.add 0 3 1 2)]
      ∧ (({ words := [(0, .rv 0x0080006F)], core := 0, facet := 0, state := st } : PreubRun).done (.rv 0x0080006F) st).pos = 8 := by
  decide +kernel

end Sys2Proof.Tests
end

section
/-! SUPPORT. Which parts of a facet a register's reading rests on (R32, R49, R50, R386), and the hard-wired registers (R7). -/

namespace Sys2Proof.Machine

/-! ### What a reading rests on -/

/-- Two facets at one logical cycle have the same results on their way to a register. -/
structure Facet.SameInFlight (t f : Facet) (r : RegId) : Prop where
  clock : t.clock = f.clock
  flight : t.flight r = f.flight r
  replayed : t.replayed r = f.replayed r
  replay : t.replay = f.replay

/-- Only the results in flight to the register itself can leave it undefined. -/
theorem Facet.undef_eq_flight (f : Facet) (r : RegId) :
    f.undef r = (((f.flight r).any fun l => l.older f.clock && decide (f.clock < l.due)) || f.replayed r) := by
  simp [Facet.undef, Facet.flight, List.any_filter, Bool.and_assoc]

/-- Only the results in flight to the register itself can have landed in it. -/
theorem Facet.landed_eq_flight (f : Facet) (r : RegId) :
    f.landed r = (f.flight r).find? fun l => l.older f.clock && !l.stale && l.access == 0 := by
  rw [Facet.landed, Facet.flight, List.find?_filter]
  congr 1
  funext l
  simp [Bool.and_assoc, Bool.beq_eq_decide_eq]

/-- A landing supplies a handle only when the handle is the register it writes. -/
theorem Landing.handle?_eq_none {l : Landing} {n : Nat} (h : l.write.id ≠ .h n) : l.handle? n = none := by
  cases hw : l.write with
  | h k v =>
    have hk : k ≠ n := fun hk => h (by rw [hw, hk]; rfl)
    simp [Landing.handle?, hw, hk]
  | _ => simp [Landing.handle?, hw]

/-- The values that an undefined handle may show are those of the results in flight to it. -/
theorem Facet.flightH_eq_flight (f : Facet) (n : Nat) :
    f.flightH n = ((f.flight (.h n)).filter fun l => l.older f.clock).filterMap (·.handle? n)
      ++ if f.replayed (.h n) then f.replay.filterMap (·.handle? n) else [] := by
  rw [Facet.flightH, Facet.flight, List.filter_filter, List.filterMap_filter, List.filterMap_filter]
  congr 2
  funext l
  by_cases hl : l.write.id = .h n
  · simp [hl]
  · simp [Landing.handle?_eq_none hl]

section
variable {t f : Facet} {n : Nat}

theorem Facet.SameInFlight.undef {r : RegId} (h : t.SameInFlight f r) : t.undef r = f.undef r := by
  rw [Facet.undef_eq_flight, Facet.undef_eq_flight, h.clock, h.flight, h.replayed]

theorem Facet.SameInFlight.arrived {r : RegId} (h : t.SameInFlight f r) : t.arrived r = f.arrived r := by
  rw [Facet.arrived, Facet.arrived, Facet.landed_eq_flight, Facet.landed_eq_flight, h.clock, h.flight]

theorem Facet.SameInFlight.flightH (h : t.SameInFlight f (.h n)) : t.flightH n = f.flightH n := by
  rw [Facet.flightH_eq_flight, Facet.flightH_eq_flight, h.clock, h.flight, h.replayed, h.replay]

theorem Facet.SameInFlight.readS (h : t.SameInFlight f (.s n)) (hs : t.s = f.s) (ctr : Nat) : t.readS ctr n = f.readS ctr n := by
  simp only [Facet.readS, h.undef, h.arrived, hs]

theorem Facet.SameInFlight.readG (h : t.SameInFlight f (.g n)) (hg : t.g = f.g) (ctr : Nat) : t.readG ctr n = f.readG ctr n := by
  simp only [Facet.readG, h.undef, h.arrived, hg]

theorem Facet.SameInFlight.readM (h : t.SameInFlight f (.m n)) (hm : t.m = f.m) (ctr : Nat) : t.readM ctr n = f.readM ctr n := by
  simp only [Facet.readM, h.undef, h.arrived, hm]

theorem Facet.SameInFlight.readX (h : t.SameInFlight f (.x n)) (hx : t.x = f.x) (ctr : Nat) : t.readX ctr n = f.readX ctr n := by
  simp only [Facet.readX, h.undef, h.arrived, hx]

theorem Facet.SameInFlight.readH (h : t.SameInFlight f (.h n)) (hh : t.h = f.h) (ctr : Nat) : t.readH ctr n = f.readH ctr n := by
  simp only [Facet.readH, h.undef, h.arrived, h.flightH, hh]

theorem Facet.SameInFlight.readQ (h : t.SameInFlight f (.q n)) (hq : t.q = f.q) (ctr : Nat) : t.readQ ctr n = f.readQ ctr n := by
  simp only [Facet.readQ, h.undef, h.arrived, hq]

theorem Facet.SameInFlight.readD (h : t.SameInFlight f (.d n)) (hd : t.d = f.d) (ctr : Nat) : t.readD ctr n = f.readD ctr n := by
  simp only [Facet.readD, h.undef, h.arrived, hd]

theorem Facet.SameInFlight.readY (h : t.SameInFlight f (.y n)) (hy : t.y = f.y) (ctr : Nat) : t.readY ctr n = f.readY ctr n := by
  simp only [Facet.readY, h.undef, h.arrived, hy]

theorem Facet.SameInFlight.readV (h : t.SameInFlight f (.v n)) (k : Core) (ctr : Nat) : k.readV t ctr n = k.readV f ctr n := by
  simp only [Core.readV, h.undef, h.arrived]

end

/-- R386: a write of one register in a handler takes no other register from the results of the program. -/
theorem Facet.replayed_issue_other (f : Facet) (w : RegWrite) (lat : Nat) (fl : BitVec 6) (ac : Nat) (po : Bool) {r : RegId}
    (h : w.id ≠ r) : (f.issue w lat fl ac po).replayed r = f.replayed r := by
  have hr : r ≠ w.id := h.symm
  cases hi : f.intrap <;> simp [Facet.replayed, Facet.issue, hi, hr]

/-- R49, R50: a result issued for one register changes at no cycle what is on its way to another. -/
theorem Facet.sameInFlight_issue_other (f : Facet) (w : RegWrite) (lat : Nat) (fl : BitVec 6) (ac : Nat) (po : Bool) (c : Nat)
    {r : RegId} (h : w.id ≠ r) : Facet.SameInFlight { f.issue w lat fl ac po with clock := c } { f with clock := c } r where
  clock := rfl
  flight := f.issue_other w lat fl ac po r h
  replayed := f.replayed_issue_other w lat fl ac po h
  replay := rfl

/-! ### The hard-wired registers (R7) -/

@[simp] theorem Facet.readS_zero (f : Facet) (ctr : Nat) : f.readS ctr 0 = 0 := if_pos rfl
@[simp] theorem Facet.readG_zero (f : Facet) (ctr : Nat) : f.readG ctr 0 = true := if_pos rfl
@[simp] theorem Facet.readM_zero (f : Facet) (ctr : Nat) : f.readM ctr 0 = BitVec.allOnes 128 := if_pos rfl

/-- A write is discarded exactly when it names s0, g0 or m0. -/
theorem RegWrite.void_iff (w : RegWrite) : w.void = true ↔ w.id ∈ [RegId.s 0, .g 0, .m 0] := by
  cases w <;> simp [RegWrite.void, RegWrite.id]

section
variable (f : Facet) {w : RegWrite} (hw : w.void = true) (lat : Nat) (fl : BitVec 6) (ac : Nat) (po : Bool) (c ctr n : Nat)
include hw

/-- A discarded write leaves every register but the hard-wired ones as it was in flight. -/
theorem Facet.sameInFlight_issue_void {r : RegId} (hr : r ∉ [RegId.s 0, .g 0, .m 0]) :
    Facet.SameInFlight { f.issue w lat fl ac po with clock := c } { f with clock := c } r :=
  f.sameInFlight_issue_other w lat fl ac po c fun h => hr (h ▸ w.void_iff.1 hw)

theorem Facet.readS_issue_void :
    { f.issue w lat fl ac po with clock := c }.readS ctr n = { f with clock := c }.readS ctr n := by
  by_cases hn : n = 0
  · simp [hn]
  · exact (f.sameInFlight_issue_void hw lat fl ac po c (by simpa using hn)).readS rfl ctr

theorem Facet.readG_issue_void :
    { f.issue w lat fl ac po with clock := c }.readG ctr n = { f with clock := c }.readG ctr n := by
  by_cases hn : n = 0
  · simp [hn]
  · exact (f.sameInFlight_issue_void hw lat fl ac po c (by simpa using hn)).readG rfl ctr

theorem Facet.readM_issue_void :
    { f.issue w lat fl ac po with clock := c }.readM ctr n = { f with clock := c }.readM ctr n := by
  by_cases hn : n = 0
  · simp [hn]
  · exact (f.sameInFlight_issue_void hw lat fl ac po c (by simpa using hn)).readM rfl ctr

end

/-- R50, R7: a landing that is stale, as one of a hard-wired register is from its issue, raises its flags and writes nothing. -/
theorem Core.landOne_stale (k : Core) (fn : Nat) {l : Landing} (h : l.stale = true) :
    k.landOne fn l = k.modFacet fn fun f => { f with flags := f.flags ||| l.flags } := by
  simp only [Core.landOne, h, if_true]
  split <;> rfl

/-- Settles O45: a write of s0, g0 or m0 names no register that reads anything but its fixed value, and it is issued stale, so that
its landing raises flags alone. -/
theorem hardWiredRegistersDiscardWrites : Obligations.HardWiredRegistersDiscardWrites := by
  intro f ctr n c w lat fl po
  refine ⟨⟨f.readS_zero ctr, f.readG_zero ctr, f.readM_zero ctr⟩, fun hw => ⟨?_, ?_⟩⟩
  · have same := fun (r : RegId) => f.sameInFlight_issue_void hw lat fl 0 po c (r := r)
    exact ⟨f.readS_issue_void hw lat fl 0 po c ctr n, f.readG_issue_void hw lat fl 0 po c ctr n,
      f.readM_issue_void hw lat fl 0 po c ctr n, (same (.x n) (by simp)).readX rfl ctr, (same (.h n) (by simp)).readH rfl ctr,
      (same (.q n) (by simp)).readQ rfl ctr, (same (.d n) (by simp)).readD rfl ctr, (same (.y n) (by simp)).readY rfl ctr,
      fun k => (same (.v n) (by simp)).readV k ctr⟩
  · rintro k t fn rfl
    rw [Core.landOne_stale k fn rfl, Core.facet_modFacet_same]
    exact ⟨rfl, rfl, rfl, rfl, rfl, rfl, rfl, rfl, rfl⟩

end Sys2Proof.Machine
end

section
/-! SUPPORT. Fields of a device register: what a write of one field reads as, in that field and in the others (R8). -/

namespace Sys2Proof.Machine

/-- Writing a field keeps the bits above and below it. -/
theorem setBits_eq (x : BitVec 64) (hi lo v : Nat) :
    setBits x hi lo v = BitVec.ofNat 64
      (2 ^ lo * (2 ^ (hi + 1 - lo) * (x.toNat / 2 ^ lo / 2 ^ (hi + 1 - lo)) + v % 2 ^ (hi + 1 - lo)) + x.toNat % 2 ^ lo) := by
  have hlow : x.toNat = 2 ^ lo * (x.toNat / 2 ^ lo) + x.toNat % 2 ^ lo := (Nat.div_add_mod _ _).symm
  have hfld := (Nat.div_add_mod (x.toNat / 2 ^ lo) (2 ^ (hi + 1 - lo))).symm
  rw [setBits, wbits, nbits]
  congr 1
  generalize x.toNat / 2 ^ lo / 2 ^ (hi + 1 - lo) = q at *
  generalize x.toNat / 2 ^ lo % 2 ^ (hi + 1 - lo) = f at *
  generalize x.toNat / 2 ^ lo = d at *
  generalize x.toNat % 2 ^ lo = r at *
  generalize v % 2 ^ (hi + 1 - lo) = u
  rw [hlow, hfld, Nat.mul_add, Nat.mul_add, Nat.mul_comm f, Nat.mul_comm u]
  omega

theorem getLsbD_setBits (x : BitVec 64) (hi lo v i : Nat) :
    (setBits x hi lo v).getLsbD i
      = (decide (i < 64) && if i < lo then x.getLsbD i else if i ≤ hi then v.testBit (i - lo) else x.getLsbD i) := by
  have hr : x.toNat % 2 ^ lo < 2 ^ lo := Nat.mod_lt _ (Nat.two_pow_pos _)
  have hu : v % 2 ^ (hi + 1 - lo) < 2 ^ (hi + 1 - lo) := Nat.mod_lt _ (Nat.two_pow_pos _)
  rw [setBits_eq, BitVec.getLsbD_ofNat, Nat.testBit_two_pow_mul_add _ hr]
  congr 1
  by_cases hlo : i < lo
  · simp only [hlo, Nat.testBit_mod_two_pow, if_true, decide_true, Bool.true_and, BitVec.testBit_toNat]
  · rw [if_neg hlo, if_neg hlo, Nat.testBit_two_pow_mul_add _ hu]
    by_cases hhi : i ≤ hi
    · simp [hhi, Nat.testBit_mod_two_pow, show i - lo < hi + 1 - lo by omega]
    · simp only [if_neg hhi, if_neg (show ¬i - lo < hi + 1 - lo by omega), Nat.testBit_div_two_pow, BitVec.testBit_toNat]
      congr 1
      omega

theorem testBit_wbits (x : BitVec 64) (hi lo i : Nat) :
    (wbits x hi lo).testBit i = (decide (i < hi + 1 - lo) && x.getLsbD (lo + i)) := by
  rw [wbits, nbits, Nat.testBit_mod_two_pow, Nat.testBit_div_two_pow, BitVec.testBit_toNat, Nat.add_comm i]

/-- A field reads back what was written to it, as far as it is wide. -/
theorem wbits_setBits_same (x : BitVec 64) {hi : Nat} (lo v : Nat) (h : hi < 64) :
    wbits (setBits x hi lo v) hi lo = v % 2 ^ (hi + 1 - lo) := by
  refine Nat.eq_of_testBit_eq fun i => ?_
  rw [testBit_wbits, getLsbD_setBits, Nat.testBit_mod_two_pow]
  by_cases hi' : i < hi + 1 - lo
  · simp [hi', show lo + i < 64 by omega, show lo + i ≤ hi by omega]
  · simp [hi']

/-- A field that lies apart from the one written reads as before. -/
theorem wbits_setBits_apart (x : BitVec 64) {hi lo a b : Nat} (v : Nat) (h : a < lo ∨ hi < b) :
    wbits (setBits x hi lo v) a b = wbits x a b := by
  refine Nat.eq_of_testBit_eq fun i => ?_
  rw [testBit_wbits, testBit_wbits, getLsbD_setBits]
  by_cases hi' : i < a + 1 - b
  · by_cases hw : b + i < 64
    · by_cases hlo : b + i < lo
      · simp [hi', hw, hlo]
      · simp [hi', hw, hlo, show ¬b + i ≤ hi by omega]
    · simp [hw, BitVec.getLsbD_of_ge x (b + i) (by omega)]
  · simp [hi']

/-- A number's field is as wide as its bits. -/
@[simp] theorem nbits_mod (x hi lo : Nat) : nbits x hi lo % 2 ^ (hi + 1 - lo) = nbits x hi lo := Nat.mod_mod _ _

theorem State.devFld_devPut_same (s : State) (a : Nat) {hi : Nat} (lo v : Nat) (h : hi < 64) :
    (s.devPut a hi lo v).devFld a hi lo = v % 2 ^ (hi + 1 - lo) := by
  rw [State.devFld, State.devPut, State.devGet_devSet_same, wbits_setBits_same _ _ _ h]

/-- Another field of the register stands. -/
theorem State.devFld_devPut_apart (s : State) (a : Nat) {hi lo x y : Nat} (v : Nat) (h : x < lo ∨ hi < y) :
    (s.devPut a hi lo v).devFld a x y = s.devFld a x y := by
  rw [State.devFld, State.devPut, State.devGet_devSet_same, wbits_setBits_apart _ _ h, State.devFld]

end Sys2Proof.Machine
end

section
/-! SUPPORT. Firmware, management, host and test events, one lemma for each form that O37 speaks of (R18, R320, R331, R436 to R442,
R454, R455, R465). -/

namespace Sys2Proof.Machine

/-! ### Firmware's writes and the measurements -/

/-- R439: an extension of a measurement changes device registers alone. -/
@[simp] theorem State.extendMeas_failedSlots (s : State) (k : Nat) (data : List (BitVec 8)) :
    (s.extendMeas k data).failedSlots = s.failedSlots := by
  unfold State.extendMeas
  dsimp only
  exact foldl_keeps State.failedSlots _ (fun _ _ => State.devSet_failedSlots _ _ _) _ _

/-- R18: firmware's write of a free geode's map entry reaches PART and ASSIGNED. -/
theorem exec_geodeMapWrite {n : Nat} (v : BitVec 32) {s : State} (hn : n < 40) (hst : s.geodeState n = 0)
    (hl : (s.launchesOn n).isEmpty = true) (hf : (s.geode n).frozen = false) (hp : s.namedInProgress n = false) :
    exec (.geodeMapWrite n v true) s = .next (s.devPut (aGeodeMap n) 11 8 (nbits v.toNat 11 8)) := by
  change execGeodeMapWrite n v true s = _
  simp [execGeodeMapWrite, Nat.not_le.2 hn, hst, hl, hf, hp]

/-- R465: firmware's write of LODE_ID on an idle lode. -/
theorem exec_lodeIdWrite (v : BitVec 64) {s : State} (h : s.lodeIdle = true) :
    exec (.lodeIdWrite v true) s = .next (s.devPut aLodeId 47 0 (wbits v 47 0)) := by
  change execLodeIdWrite v true s = _
  simp [execLodeIdWrite, h]

theorem exec_extctlGo {v : BitVec 64} (s : State) (h : v.getLsbD 63 = true) :
    exec (.extctlGo v true) s = .next (s.extendMeas (wbits v 2 0) (s.digestAt (aMeas + 0x210))) := by
  change execExtctlGo v true s = _
  simp [execExtctlGo, h]

/-- R440: a report goes to a buffer that lies in one of the two memories. -/
theorem exec_attestationReport (nonce : BitVec 384) {pa : Nat} {s : State}
    (h : place pa = .main ∧ place (pa + (s.attestation nonce).length - 1) = .main
      ∨ place pa = .durable ∧ place (pa + (s.attestation nonce).length - 1) = .durable) :
    exec (.attestationReport nonce pa) s = .next (s.putOwn pa (s.attestation nonce)) := by
  change execAttestationReport nonce pa s = _
  obtain ⟨h1, h2⟩ | ⟨h1, h2⟩ := h <;> simp [execAttestationReport, h1, h2]

/-! ### Envelopes, the manifest and the in-field test -/

section
variable {e : Envelope} {s : State}

theorem exec_envelopeReceive (e : Envelope) (mgmt : Bool) (s : State) :
    exec (.envelopeReceive e mgmt) s = execEnvelopeReceive e mgmt s := rfl

/-- R437, R438: an accepted firmware image goes to the slot that is not running. -/
theorem execEnvelopeReceive_firmware (mgmt : Bool) (ha : s.accepts e = true) (hr : s.recovery = false) (hk : envKind e = 1) :
    execEnvelopeReceive e mgmt s = .next (if s.devFld aBoot 0 0 = 1 then { s with replyOk := true, fwA := some e, update := some false }
      else { s with replyOk := true, fwB := some e, update := some true }) := by
  simp only [execEnvelopeReceive, ha, hr, hk, bne_self_eq_false, Bool.and_false, Bool.not_true, Bool.or_self, Bool.false_and]
  rfl

theorem execEnvelopeReceive_manifest (ha : s.accepts e = true) (hr : s.recovery = false) (hk : envKind e = 2) :
    execEnvelopeReceive e false s = .next { s with replyOk := true, manifestEnv := some e } := by
  simp [execEnvelopeReceive, ha, hr, hk]

theorem execEnvelopeReceive_test (ha : s.accepts e = true) (hr : s.recovery = false) (hk : envKind e = 3) :
    execEnvelopeReceive e false s = .next { s with replyOk := true, testEnv := some e } := by
  simp [execEnvelopeReceive, ha, hr, hk]

/-- R438, R455: in recovery the management port's firmware image goes to slot A. -/
theorem execEnvelopeReceive_recovery (ha : s.accepts e = true) (hr : s.recovery = true) (hk : envKind e = 1) :
    execEnvelopeReceive e true s = .next { s with replyOk := true, fwA := some e } := by
  simp [execEnvelopeReceive, ha, hr, hk]

/-- R437, R455: an envelope that is not accepted, or not from where it comes, changes the answer alone. -/
theorem execEnvelopeReceive_refused {mgmt : Bool}
    (h : s.accepts e = false ∨ mgmt = true ∧ envKind e ≠ 1 ∨ s.recovery = true ∧ (mgmt = false ∨ envKind e ≠ 1)) :
    execEnvelopeReceive e mgmt s = .next { s with replyOk := false } := by
  have hg : (!s.accepts e || mgmt && envKind e != 1 || s.recovery && !mgmt) = true := by
    obtain ha | ⟨rfl, hk⟩ | ⟨hr, hm⟩ := h
    · simp [ha]
    · simp [hk]
    · cases mgmt with
      | false => simp [hr]
      | true => simp [hm.resolve_left nofun]
  simp [execEnvelopeReceive, hg]

/-- R436, R437: the held manifest of this SVN replaces the old one on an idle lode. -/
theorem exec_manifestReplace (digests : List (BitVec 384)) {svn : BitVec 16} (hm : s.manifestEnv = some e) (hi : s.lodeIdle = true)
    (hr : s.recovery = false) (ha : s.accepts e = true) (hs : envField e 6 2 = svn.toNat) :
    exec (.manifestReplace digests svn e.payload) s
      = .next ({ s with manifest := digests, manifestEnv := none }.extendMeas 2 (beBytes 48 (sha384 e.payload).toNat)) := by
  change execManifestReplace digests svn e.payload s = _
  simp [execManifestReplace, hm, hi, hr, ha, hs]

end

/-- R441: the test package may run on a slot of a die: the slot holds no geode, the accepted package names its revision and layout
hash, and the fuses have left it in use. -/
structure State.Testable (s : State) (t : ScanTest) (e : Envelope) (die : Nat) : Prop where
  side : die = if t.die then 1 else 0
  env : s.testEnv = some e
  slot : t.slot.toNat < 22
  free : s.slotTaken die t.slot.toNat = false
  accepted : s.accepts e = true
  trev : t.trev = Config.slotTrev die t.slot.toNat
  lhash : t.lhash = Config.slotLhash die t.slot.toNat
  fuses : Config.fusedOut die t.slot.toNat = false

/-- The leading patterns that answer as they should are all of them exactly when every pattern does. -/
theorem length_takeWhile_beq {α : Type} (p : α → Bool) (l : List α) : ((l.takeWhile p).length == l.length) = l.all p := by
  rw [Bool.eq_iff_iff, beq_iff_eq, List.all_eq_true, ← List.takeWhile_eq_self_iff]
  exact ⟨(List.takeWhile_prefix p).eq_of_length, congrArg _⟩

/-- R442: the word that TEST reads after a test on a slot of a die: whether it passed, where, and how many patterns went well before
the first that did not. -/
def testWord (t : ScanTest) (die : Nat) : BitVec 64 :=
  let good := (t.patterns.takeWhile fun p => p.1 == p.2).length
  let pass := good == t.patterns.length
  BitVec.ofNat 64 (1 + (if pass then 2 else 0) + t.slot.toNat * 4 + die * 2 ^ 7 + (if pass then 0 else good * 2 ^ 32))

theorem testWord_of_pass {t : ScanTest} (die : Nat) (h : t.patterns.all (fun p => p.1 == p.2) = true) :
    testWord t die = BitVec.ofNat 64 (1 + 2 + t.slot.toNat * 4 + die * 2 ^ 7 + 0) := by
  rw [testWord, length_takeWhile_beq, h]
  simp

/-- R442: what a test's result does to the slot, which was out of use or not, where `spares` are in use before: one that passes is in
use again, one that fails is out of use, and the count of spares follows. -/
def State.judgeSlot (s : State) (pass out : Bool) (id spares : Nat) : State :=
  if pass && out then { s with failedSlots := s.failedSlots.filter (· != id) }.devPut 0x80000000000 27 24 (spares + 1)
  else if !pass && !out then { s with failedSlots := id :: s.failedSlots }.devPut 0x80000000000 27 24 (spares - 1)
  else s

@[simp] theorem State.judgeSlot_spare (s : State) (id spares : Nat) : s.judgeSlot true false id spares = s := rfl

/-- After the judgement the slot is in use exactly when it has passed. -/
theorem State.contains_judgeSlot {s : State} {out : Bool} {id : Nat} (pass : Bool) (spares : Nat) (h : s.failedSlots.contains id = out) :
    (s.judgeSlot pass out id spares).failedSlots.contains id = !pass := by
  cases pass <;> cases out
  · simp [State.judgeSlot]
  · exact h
  · exact h
  · simp [State.judgeSlot]

/-- R439, R442: a test that may run is measured, reported and judged. -/
theorem exec_inFieldTest {s u : State} {t : ScanTest} {e : Envelope} {die : Nat} (h : s.Testable t e die)
    (hu : u = s.extendMeas 3 (beBytes 48 (sha384 e.payload).toNat)) :
    exec (.inFieldTest t) s = .next ((u.devSet aTest (testWord t die)).judgeSlot (t.patterns.all fun p => p.1 == p.2)
      (u.failedSlots.contains (32 * die + t.slot.toNat)) (32 * die + t.slot.toNat) (u.devFld 0x80000000000 27 24)) := by
  obtain ⟨hside, henv, hslot, hfree, hacc, htrev, hlhash, hfuse⟩ := h
  have hgo : ¬(decide (22 ≤ t.slot.toNat) || s.slotTaken die t.slot.toNat || !s.accepts e || t.trev != Config.slotTrev die t.slot.toNat
      || t.lhash != Config.slotLhash die t.slot.toNat) = true := by
    simp [hslot, hfree, hacc, ← htrev, ← hlhash]
  change execInFieldTest t s = _
  unfold execInFieldTest testWord
  rw [← hside, henv, ← length_takeWhile_beq]
  refine congrArg Host.Outcome.next ((if_neg hgo).trans ?_)
  rw [← hu]
  exact (if_neg (Bool.eq_false_iff.1 hfuse)).trans rfl

/-! ### The management port, the wake pin and PCIe -/

/-- R400: a telemetry read that reaches a frozen geode waits; any other is answered. -/
theorem exec_telemetry (a : Nat) (s : State) :
    exec (.managementFrame (.telemetry a)) s
      = .next (if s.rowHeld (.telemetry a) then s.holdRow (.telemetry a) else s.telemetryRead a) := rfl

/-- R28: the pin's rise brings the package up where power-good is high already. -/
theorem exec_wakePin_rise {s : State} {x : Option Nat × Bool} (hg : s.pgood = some x) (hp : s.powered = false) :
    exec (.wakePin true) s = .next ({ s with wake := true }.powerUp x.1 x.2) := by
  change execWakePin true s = _
  simp only [execWakePin, hg, hp, Bool.false_eq_true, if_false]

/-- R28: the pin's rise alone changes nothing more, with power-good low or the package powered. -/
theorem exec_wakePin_wait {s : State} (h : s.pgood = none ∨ s.powered = true) :
    exec (.wakePin true) s = .next { s with wake := true } := by
  change execWakePin true s = _
  unfold execWakePin
  obtain hg | hp := h
  · simp only [hg]
  · cases hg : s.pgood <;> simp only [hp, if_true]

theorem exec_pcieLinkTrain {lanes gts : Nat} (s : State) (hl : lanes ∈ [0, 1, 2, 4, 8, 16]) (hg : gts ≤ 128) :
    exec (.pcieLinkTrain lanes gts) s = .next { s with pcieLanes := lanes, pcieGts := gts } := by
  change execPcieLinkTrain lanes gts s = _
  simp only [execPcieLinkTrain, List.contains_iff_mem.2 hl, hg, decide_true, Bool.and_self, if_true]

/-! ### Accesses of the host cores -/

theorem exec_registerWrite_held {addr : Nat} {v : HostAccess} {fw : Bool} {s : State} (h : s.rowHeld (.host addr v fw) = true) :
    exec (.registerWrite addr v fw) s = .next (s.holdRow (.host addr v fw)) := by
  change execRegisterWrite addr v fw s = _
  rw [execRegisterWrite, if_pos h]

theorem exec_registerWrite {addr : Nat} {v : HostAccess} {fw : Bool} {s : State} (h : s.rowHeld (.host addr v fw) = false) :
    exec (.registerWrite addr v fw) s = .next (s.hostAccess addr v fw) := by
  change execRegisterWrite addr v fw s = _
  rw [execRegisterWrite, if_neg (Bool.eq_false_iff.1 h)]

section
variable {core addr : Nat} (s : State) (fw : Bool) (hc : core < 24)
include hc

/-- R320: an access to device registers that does not begin at a multiple of 8 faults. -/
theorem State.hostAccess_misaligned (op : HostOp) (hp : place addr = .device) (ha : addr % 8 ≠ 0) :
    s.hostAccess addr ⟨core, op⟩ fw = s.hostDone core [] true := by
  unfold State.hostAccess
  dsimp only
  rw [if_neg (Nat.not_le.2 hc), if_pos (beq_iff_eq.2 hp), if_pos (bne_iff_ne.2 ha)]

/-- R320: a write of the 8-byte register at a multiple of 8. -/
theorem State.hostAccess_word (v : BitVec 64) (hp : place addr = .device) (ha : addr % 8 = 0) :
    s.hostAccess addr ⟨core, .word v⟩ fw = (s.regWrite addr v fw).hostDone core [] false := by
  unfold State.hostAccess
  dsimp only
  rw [if_neg (Nat.not_le.2 hc), if_pos (beq_iff_eq.2 hp), if_neg (by simp [ha])]

/-- R320: a read of the 8-byte register at a multiple of 8. -/
theorem State.hostAccess_load8 (hp : place addr = .device) (ha : addr % 8 = 0) :
    s.hostAccess addr ⟨core, .load 8⟩ fw = s.hostDone core (leBytes 8 (s.regRead addr).toNat) false := by
  unfold State.hostAccess
  dsimp only
  rw [if_neg (Nat.not_le.2 hc), if_pos (beq_iff_eq.2 hp), if_neg (by simp [ha])]
  rfl

/-- R320: an access to device registers that is no 8-byte one faults. -/
theorem State.hostAccess_not8 {op : HostOp} (hw : ∀ v, op ≠ .word v) (h8 : op ≠ .load 8) (hp : place addr = .device)
    (ha : addr % 8 = 0) : s.hostAccess addr ⟨core, op⟩ fw = s.hostDone core [] true := by
  unfold State.hostAccess
  dsimp only
  rw [if_neg (Nat.not_le.2 hc), if_pos (beq_iff_eq.2 hp), if_neg (by simp [ha])]
  cases op with
  | word v => exact absurd rfl (hw v)
  | store bs => rfl
  | load n =>
    -- `split` fails on the match on the literal 8; a length below it and one above it each compute.
    obtain hlt | hgt := Nat.lt_or_gt_of_ne fun hn : n = 8 => h8 (congrArg _ hn)
    · interval_cases n <;> rfl
    · obtain ⟨k, rfl⟩ := Nat.exists_eq_add_of_le' hgt
      rfl

theorem State.hostAccess_store (bs : List (BitVec 8)) (hp : place addr ≠ .device) (hm : memPlace addr bs.length = true) :
    s.hostAccess addr ⟨core, .store bs⟩ fw
      = (s.storeMain (bytesAtBase addr bs) false false whoHost {}).hostDone core [] false (some (addr, bs.length)) := by
  unfold State.hostAccess
  dsimp only
  rw [if_neg (Nat.not_le.2 hc), if_neg (mt beq_iff_eq.1 hp), State.hostStore, if_pos hm]

theorem State.hostAccess_load (n : Nat) (hp : place addr ≠ .device) :
    s.hostAccess addr ⟨core, .load n⟩ fw = s.hostLoad core addr n := by
  unfold State.hostAccess
  dsimp only
  rw [if_neg (Nat.not_le.2 hc), if_neg (mt beq_iff_eq.1 hp)]

end

/-- R331: a host core's load from memory answers with its bytes, or faults when one of them is poisoned. -/
theorem State.hostLoad_memory (s : State) (core : Nat) {pa n : Nat} (hm : memPlace pa n = true) {t : State}
    (ht : t = s.noteWords ((upto n).map (pa + ·)) false whoHost) :
    s.hostLoad core pa n = (t.hot ((upto n).map (pa + ·)) whoHost).hostDone core
      (if ((upto n).map (pa + ·)).any t.poisoned then [] else t.bytesAt pa n) (((upto n).map (pa + ·)).any t.poisoned)
      (some (pa, n)) := by
  subst ht
  simp only [State.hostLoad, hm, Bool.not_true, Bool.false_eq_true, if_false]

/-- R13: a core's own cache holds no more lines than it has room for. -/
theorem HostCore.length_touch_lines (h : HostCore) (pa n : Nat) : (h.touch pa n).lines.length ≤ hostLines :=
  List.length_take_le _ _

/-- R13, R280: the first line of the bytes that a core reaches is in its cache. -/
theorem HostCore.contains_touch_lines (h : HostCore) (pa : Nat) {n : Nat} (hn : 0 < n) :
    (h.touch pa n).lines.contains (pa / 64) = true := by
  obtain ⟨k, hk⟩ : ∃ k, cdiv (pa % 64 + n) 64 = k + 1 := Nat.exists_eq_succ_of_ne_zero (by unfold cdiv; omega)
  simp [HostCore.touch, hk, upto, hostLines, List.range_succ_eq_map]

section
variable (s : State) (core : Nat) (bs : List (BitVec 8)) (bad : Bool)

theorem State.hosts_hostDone_none : (s.hostDone core bs bad).hosts.get core {} = { s.hosts.get core {} with reply := bs, faulted := bad } :=
  Tbl.get_set_same _ _ _ _

theorem State.hosts_hostDone_some (pa n : Nat) :
    (s.hostDone core bs bad (some (pa, n))).hosts.get core {}
      = ({ s.hosts.get core {} with reply := bs, faulted := bad } : HostCore).touch pa n :=
  Tbl.get_set_same _ _ _ _

end

/-- Settles O37: each event by its lemma above; where it may act, its row is the change that its rule names, and where it may not, the
answer or the wait. -/
theorem managementEventsAct : Obligations.ManagementEventsAct := by
  unfold Obligations.ManagementEventsAct
  refine ⟨?map, ?lode, ?extend, ?report, ?envelope, ?refused, ?manifest, ?test, ?frame, ?telemetry, ?wake, ?link, ?held, ?device,
    ?hostCore, ?memory⟩
  case map =>
    intro n v s hn hst hl hf hp
    refine ⟨_, exec_geodeMapWrite v hn hst hl hf hp, ?_, ?_, ?_⟩
    · rw [State.devFld_devPut_same _ _ _ _ (by decide), nbits_mod]
    · exact State.devFld_devPut_apart _ _ _ (by decide)
    · exact State.devFld_devPut_apart _ _ _ (by decide)
  case lode =>
    intro v s h
    refine ⟨_, exec_lodeIdWrite v h, ?_⟩
    rw [State.devFld_devPut_same _ _ _ _ (by decide), wbits, nbits_mod]
  case extend => exact fun v s h => exec_extctlGo s h
  case report => exact fun nonce pa s h => exec_attestationReport nonce h
  case envelope =>
    intro e mgmt s ha hr
    refine ⟨fun hk hb => ?_, fun hk hb => ?_, execEnvelopeReceive_manifest ha hr, execEnvelopeReceive_test ha hr⟩
    · rw [exec_envelopeReceive, execEnvelopeReceive_firmware mgmt ha hr hk, if_pos hb]
    · rw [exec_envelopeReceive, execEnvelopeReceive_firmware mgmt ha hr hk, if_neg hb]
  case refused =>
    intro e mgmt s
    refine ⟨execEnvelopeReceive_refused, fun ha hr hm hk => ?_⟩
    subst hm
    exact execEnvelopeReceive_recovery ha hr hk
  case manifest => exact fun digests svn e s hm hi hr ha hs => exec_manifestReplace digests hm hi hr ha hs
  case test =>
    intro t e s u die id hdie hid henv hslot hfree hacc htrev hlhash hfuse hu
    subst hid
    have hout : u.failedSlots = s.failedSlots := hu ▸ s.extendMeas_failedSlots _ _
    have h : s.Testable t e die := ⟨hdie, henv, hslot, hfree, hacc, htrev, hlhash, hfuse⟩
    refine ⟨fun hp ho => ?_, fun hp _ => ⟨_, exec_inFieldTest h hu, ?_⟩, fun hp => ⟨_, exec_inFieldTest h hu, ?_⟩⟩
    · rw [exec_inFieldTest h hu, hp, hout, ho, State.judgeSlot_spare, testWord_of_pass die hp]
    · exact (State.contains_judgeSlot _ _ rfl).trans (congrArg not hp)
    · exact (State.contains_judgeSlot _ _ rfl).trans (congrArg not hp)
  case frame => exact fun nonce e s => ⟨rfl, rfl⟩
  case telemetry =>
    intro a s
    refine ⟨fun hh ha ht => ?_, fun hh hn => ?_, fun hh => ?_⟩
    · rw [exec_telemetry, hh, if_neg Bool.false_ne_true, State.telemetryRead, if_pos ⟨ha, ht⟩]
    · have hno : ¬(a % 8 = 0 ∧ telemetry a = true) := by
        rintro ⟨ha, ht⟩
        simp [ha, ht] at hn
      rw [exec_telemetry, hh, if_neg Bool.false_ne_true, State.telemetryRead, if_neg hno]
    · rw [exec_telemetry, if_pos hh, State.holdRow]
  case wake => exact fun s => ⟨rfl, exec_wakePin_wait, fun x => exec_wakePin_rise⟩
  case link => exact fun lanes gts s => exec_pcieLinkTrain s
  case held => exact fun core addr op fw s => exec_registerWrite_held
  case device =>
    intro core addr v fw s hc hp hh
    refine ⟨fun ha => ⟨fun n hn => ?_, fun bs => ?_, ?_, ?_⟩, fun ha op => ?_⟩
    · rw [exec_registerWrite (hh _), s.hostAccess_not8 fw hc (by simp) (by simpa using hn) hp ha]
    · rw [exec_registerWrite (hh _), s.hostAccess_not8 fw hc (by simp) (by simp) hp ha]
    · rw [exec_registerWrite (hh _), s.hostAccess_word fw hc v hp ha]
    · rw [exec_registerWrite (hh _), s.hostAccess_load8 fw hc hp ha]
    · rw [exec_registerWrite (hh _), s.hostAccess_misaligned fw hc op hp ha]
  case hostCore =>
    intro core bs bad mem s h hh
    subst hh
    cases mem with
    | none =>
      rw [State.hosts_hostDone_none]
      exact ⟨rfl, rfl, rfl, rfl, rfl, rfl, fun _ => rfl, nofun⟩
    | some m =>
      obtain ⟨pa, n⟩ := m
      rw [State.hosts_hostDone_some]
      refine ⟨rfl, rfl, rfl, rfl, rfl, rfl, nofun, ?_⟩
      rintro _ _ ⟨⟩
      exact ⟨HostCore.length_touch_lines _ _ _, HostCore.contains_touch_lines _ _⟩
  case memory =>
    intro core addr n bs fw s hc hh
    refine ⟨fun hm hp => ?_, fun hm hp => ?_, fun hm hp t ht => ⟨fun hb => ?_, fun hb => ?_⟩⟩
    · rw [exec_registerWrite (hh _), s.hostAccess_store fw hc bs hp hm]
    · rw [exec_registerWrite (hh _), s.hostAccess_load fw hc n hp, State.hostLoad, hm]
      rfl
    · rw [exec_registerWrite (hh _), s.hostAccess_load fw hc n hp, s.hostLoad_memory core hm ht, hb]
      rfl
    · rw [exec_registerWrite (hh _), s.hostAccess_load fw hc n hp, s.hostLoad_memory core hm ht, hb]
      rfl

end Sys2Proof.Machine
end

section
/-! SUPPORT. The frame of what the hardware itself writes to memory (11 R330 to R339, 12 R353): beside the memories, their errors and
counters, the mirror's queue, the registers and the slots' notified indices, a state stands. -/

namespace Sys2Proof.Machine

/-- What stands of a state whatever the hardware writes to memory of its own: the state with all that such a write may reach blank. -/
def State.beside (s : State) : State :=
  { s with
    mem := [], memPoison := [], media := [], mediaLost := none, mediaKnown := [], durQ := [], durPoison := [], flaws := [], repairs := []
    stands := false, mirQ := [], dev := [], logs := [], slots := [], hostIrqs := [], nextId := 0 }

/-- The launches of states that agree beside memory. -/
theorem State.launches_of_beside {s t : State} (h : t.beside = s.beside) : t.launches = s.launches :=
  show t.beside.launches = s.beside.launches by rw [h]

/-! ### Registers and counters -/

@[simp] theorem State.devPut_beside (s : State) (a hi lo v : Nat) : (s.devPut a hi lo v).beside = s.beside := rfl
@[simp] theorem State.devAdd_beside (s : State) (a hi lo v : Nat) : (s.devAdd a hi lo v).beside = s.beside := rfl
@[simp] theorem State.interruptHost_beside (s : State) (a : Nat) : (s.interruptHost a).beside = s.beside := rfl
@[simp] theorem State.notify_beside (s : State) : s.notify.beside = s.beside := rfl

@[simp] theorem State.countAt_beside (s : State) (a ev n : Nat) : (s.countAt a ev n).beside = s.beside := by
  unfold State.countAt
  dsimp only
  split
  · split <;> simp
  · rfl

@[simp] theorem State.count_beside (s : State) (base counters ev n : Nat) : (s.count base counters ev n).beside = s.beside :=
  foldl_keeps _ _ (fun _ _ => State.countAt_beside _ _ _ _) _ _

@[simp] theorem State.countVein_beside (s : State) (v ev n : Nat) : (s.countVein v ev n).beside = s.beside := s.count_beside _ _ _ _
@[simp] theorem State.countPkg_beside (s : State) (ev n : Nat) : (s.countPkg ev n).beside = s.beside := s.count_beside _ _ _ _

@[simp] theorem State.countRead_beside (s : State) (g : Nat) : (s.countRead g).beside = s.beside := by
  unfold State.countRead
  split <;> simp

@[simp] theorem State.writtenBack_beside (s : State) (g : Nat) : (s.writtenBack g).beside = s.beside := by
  unfold State.writtenBack
  split <;> simp

@[simp] theorem State.subst_beside (s : State) (pa : Nat) : (s.subst pa).beside = s.beside := by
  unfold State.subst
  dsimp only
  split <;> simp

@[simp] theorem State.countWords_beside (s : State) (pa n ev : Nat) : (s.countWords pa n ev).beside = s.beside := by
  unfold State.countWords
  dsimp only
  repeat' split
  all_goals simp

/-! ### Bytes and their errors -/

/-- The durable queue is of what a write may reach. -/
theorem State.durQ_beside (s : State) (q : List DurEntry) : ({ s with durQ := q } : State).beside = s.beside := rfl

@[simp] theorem State.toMedia_beside (s : State) (e : DurEntry) : (s.toMedia e).beside = s.beside := by
  have hmedia : ∀ (t : State) (m : Memory) (k p : List Nat),
      ({ t with media := m, mediaKnown := k, durPoison := p } : State).beside = t.beside := fun _ _ _ _ => rfl
  exact hmedia _ _ _ _

@[simp] theorem State.drainOldest_beside (s : State) : s.drainOldest.beside = s.beside := by
  unfold State.drainOldest
  split
  · rfl
  · rw [State.durQ_beside, State.toMedia_beside]

@[simp] theorem State.durMakeRoom_beside (s : State) : s.durMakeRoom.beside = s.beside := by
  unfold State.durMakeRoom
  split <;> simp

@[simp] theorem State.durPut_beside (s : State) (pa : Nat) (b : BitVec 8) : (s.durPut pa b).beside = s.beside := by
  unfold State.durPut
  dsimp only
  split
  · rfl
  · rw [State.durQ_beside, State.durMakeRoom_beside]

@[simp] theorem State.putByte_beside (s : State) (pa : Nat) (b : BitVec 8) : (s.putByte pa b).beside = s.beside := by
  unfold State.putByte
  split
  · rfl
  · simp
  · rfl

@[simp] theorem State.putRaw_beside (bs : List (BitVec 8)) (s : State) (pa : Nat) : (s.putRaw pa bs).beside = s.beside := by
  induction bs generalizing s pa with
  | nil => rfl
  | cons b r ih => rw [State.putRaw, ih, State.putByte_beside]

@[simp] theorem State.setDurBad_beside (s : State) (line : Nat) (b : Bool) : (s.setDurBad line b).beside = s.beside := by
  unfold State.setDurBad
  split <;> rfl

@[simp] theorem State.forgetFlaw_beside (s : State) (pa : Nat) : (s.forgetFlaw pa).beside = s.beside := rfl

@[simp] theorem State.cleanWord_beside (s : State) (pa : Nat) : (s.cleanWord pa).beside = s.beside := by
  unfold State.cleanWord
  dsimp only
  split
  · rfl
  · simp
  · rfl

@[simp] theorem State.poisonWord_beside (s : State) (pa : Nat) : (s.poisonWord pa).beside = s.beside := by
  unfold State.poisonWord
  split
  · split <;> rfl
  · simp
  · rfl

/-! ### The mirror -/

@[simp] theorem State.mirPort_beside (s : State) : s.mirPort.beside = s.beside := by
  unfold State.mirPort
  split
  · exact State.countPkg_beside _ _ _
  · rfl

@[simp] theorem State.mirrorWord_beside (s : State) (word : Nat) (w : Author) : (s.mirrorWord word w).beside = s.beside := by
  unfold State.mirrorWord
  split
  · exact State.mirPort_beside _
  · split
    · rfl
    · split <;> rfl

@[simp] theorem State.forward_beside (s : State) (pa n : Nat) : (s.forward pa n).beside = s.beside := by
  unfold State.forward
  rw [State.notify_beside]
  split
  · exact foldl_keeps State.beside _ (fun _ _ => State.mirrorWord_beside _ _ _) _ _
  · rfl

/-! ### Errors met and reported -/

@[simp] theorem State.askRepair_beside (s : State) (k g kind req : Nat) (sym : BitVec 7) :
    (s.askRepair k g kind req sym).beside = s.beside := rfl

@[simp] theorem State.finds_beside (s : State) (g : Nat) (f : Found) (kind req : Nat) : (s.finds g f kind req).1.beside = s.beside := by
  unfold State.finds
  dsimp only
  repeat' split
  all_goals simp

@[simp] theorem State.findAt_beside (s : State) (pa kind req : Nat) : (s.findAt pa kind req).1.beside = s.beside := by
  unfold State.findAt
  split
  · split <;> simp
  · rfl

@[simp] theorem State.mergeWord_beside (s : State) (g : Nat) (tol tpol : Bool) (req : Nat) :
    (s.mergeWord g tol tpol req).1.beside = s.beside := by
  unfold State.mergeWord
  dsimp only
  repeat' split
  all_goals simp

@[simp] theorem State.writeOwn_beside (s : State) (pa : Nat) (bs : List (BitVec 8)) (tol tpol : Bool) (req : Nat) :
    (s.writeOwn pa bs tol tpol req).1.beside = s.beside := by
  unfold State.writeOwn
  split
  · rfl
  · dsimp only
    rw [State.forward_beside, foldl_keeps State.beside _ (fun _ _ => State.cleanWord_beside _ _), State.countWords_beside,
      State.putRaw_beside]
    exact foldl_keeps (fun x : State × List Report => x.1.beside)
      (fun x g => ((x.1.mergeWord g tol tpol req).1, x.2 ++ (x.1.mergeWord g tol tpol req).2))
      (fun x g => x.1.mergeWord_beside g tol tpol req) _ _

@[simp] theorem State.logReport_beside (s : State) (r : Report) : (s.logReport r).1.beside = s.beside := by
  have hlogs : ∀ (t : State) (l : Tbl (List LogEntry)), ({ t with logs := l } : State).beside = t.beside := fun _ _ => rfl
  unfold State.logReport
  dsimp only
  repeat' split
  all_goals simp only [State.devAdd_beside, State.countVein_beside, State.devPut_beside, hlogs]

@[simp] theorem State.ringWrite_beside (s : State) (a least : Nat) (bs : List (BitVec 8)) :
    (s.ringWrite a least bs).1.beside = s.beside := by
  unfold State.ringWrite
  dsimp only
  split
  · rfl
  · split <;> simp

@[simp] theorem State.meqWrite_beside (s : State) (kind vein slot seq addr : Nat) :
    (s.meqWrite kind vein slot seq addr).1.beside = s.beside := by
  unfold State.meqWrite
  dsimp only
  split <;> simp

@[simp] theorem State.reportIn_beside (n : Nat) (s : State) (r : Report) : (s.reportIn n r).beside = s.beside := by
  induction n generalizing s r with
  | zero => rfl
  | succ n ih =>
    unfold State.reportIn
    dsimp only
    split
    · rw [foldl_keeps State.beside _ (fun s r => ih s r), State.meqWrite_beside, State.logReport_beside]
    · exact State.logReport_beside _ _

@[simp] theorem State.reports_beside (s : State) (rs : List Report) : (s.reports rs).beside = s.beside :=
  foldl_keeps State.beside _ (fun _ _ => State.reportIn_beside _ _ _) rs s

/-- A write of the hardware's own leaves alone what lies beside memory. -/
@[simp] theorem State.putOwn_beside (s : State) (pa : Nat) (bs : List (BitVec 8)) (tol tpol : Bool) :
    (s.putOwn pa bs tol tpol).beside = s.beside := by
  simp [State.putOwn]

end Sys2Proof.Machine
end

section
/-! SUPPORT. Geodes freeze, fossils are written and restored, checkpoints are asked for, saved and given up, geodes are spared: one
lemma for each form that O35 speaks of (R17, R397 to R407). -/

namespace Sys2Proof.Machine

/-! ### Launches stay listed -/

/-- Setting a key takes no other from a table. -/
theorem Tbl.isSome_find_set {α : Type} {t : Tbl α} {j : Nat} (k : Nat) (v : α) (h : (t.find j).isSome) :
    ((t.set k v).find j).isSome := by
  by_cases hj : j = k
  · simp [hj]
  · rwa [Tbl.find_set_other _ _ _ _ hj]

/-- A change of the value under one key is found there. -/
theorem Tbl.find_map_at {α : Type} (t : Tbl α) (k : Nat) (f : α → α) :
    Tbl.find (t.map fun e => if e.1 == k then (k, f e.2) else e) k = (Tbl.find t k).map f := by
  induction t with
  | nil => rfl
  | cons e r ih =>
    obtain ⟨j, v⟩ := e
    rw [List.map_cons]
    by_cases hj : j = k
    · simp [Tbl.find, hj]
    · simpa [Tbl.find, hj] using ih

@[simp] theorem State.leaves_launches (s : State) (g launch task : Nat) : (s.leaves g launch task).launches = s.launches := rfl
@[simp] theorem State.withdraw_launches (s : State) (c fn : Nat) : (s.withdraw c fn).launches = s.launches := rfl

section
variable {s : State} {id : Nat} (h : (s.launches.find id).isSome)
include h

theorem State.markLost_listed (launch : Nat) : ((s.markLost launch).launches.find id).isSome := by
  unfold State.markLost
  split
  · exact Tbl.isSome_find_set _ _ h
  · exact h

theorem State.dropMsgs_listed (c launch ord : Nat) : ((s.dropMsgs c launch ord).launches.find id).isSome := by
  unfold State.dropMsgs
  dsimp only
  split
  · exact State.markLost_listed (by rwa [State.modGeode_launches]) launch
  · exact h

theorem State.dropWindows_listed (launch g : Nat) : ((s.dropWindows launch g).launches.find id).isSome := by
  unfold State.dropWindows
  split
  · exact h
  · split
    · exact Tbl.isSome_find_set _ _ h
    · exact h

/-- R96: a facet that is vacated takes no launch away. -/
theorem State.vacate_listed (c fn : Nat) : ((s.vacate c fn).launches.find id).isSome := by
  unfold State.vacate
  dsimp only
  rw [State.leaves_launches]
  refine State.dropWindows_listed (State.dropMsgs_listed ?_ _ _ _) _ _
  rwa [State.modCore_launches, State.withdraw_launches]

theorem State.foldl_vacate_listed (l : List (Nat × Nat × Facet)) :
    ((l.foldl (fun s x => s.vacate x.1 x.2.1) s).launches.find id).isSome := by
  induction l generalizing s with
  | nil => exact h
  | cons x l ih => exact ih (State.vacate_listed h _ _)

end

@[simp] theorem State.putRecordHeader_launches (s : State) (r : Ckpt) (crc : BitVec 32) :
    (s.putRecordHeader r crc).launches = s.launches :=
  State.launches_of_beside (State.putOwn_beside _ _ _ _ _)

/-- R404: a record's new STATE is written to memory and changes no launch. -/
@[simp] theorem State.markRecord_launches (s : State) (i : Nat) (st : BitVec 2) : (s.markRecord i st).launches = s.launches := by
  unfold State.markRecord
  have hckpts : ∀ (t : State) (c : List Ckpt), ({ t with ckpts := c } : State).launches = t.launches := fun _ _ => rfl
  split
  · rw [hckpts, State.putRecordHeader_launches]
  · rfl

/-! ### Freezing and fossils -/

theorem exec_geodeFreeze {geode pa : Nat} (reason : BitVec 2) {s : State} (hg : geode < 40) (hf : (s.geode geode).frozen = false)
    (hp : s.freeFossil (s.geodePart geode) = some pa) :
    exec (.geodeFreeze geode reason) s = .next (s.freezeInto geode reason pa) := by
  change execGeodeFreeze geode reason s = _
  simp [execGeodeFreeze, Nat.not_le.2 hg, hf, hp]

/-- R403: what becomes of a fossil's geode once the stream has ended: one that is being replaced takes its spare, or goes offline. -/
def State.streamEnded (t : State) (f : Fossil) : State :=
  if t.geodeState f.lgeo != 1 || f.reason == 0 then t
  else
    match t.pickSpare f with
    | some x => t.takeSpare f.lgeo x
    | none => t.goOffline f.lgeo

section
variable {t : State} {f : Fossil}

theorem State.streamEnded_stay (h : t.geodeState f.lgeo ≠ 1 ∨ f.reason = 0) : t.streamEnded f = t := by
  rw [State.streamEnded, if_pos (by simpa using h)]

theorem State.streamEnded_spare {x : Nat} (hs : t.geodeState f.lgeo = 1) (hr : f.reason ≠ 0) (hx : t.pickSpare f = some x) :
    t.streamEnded f = t.takeSpare f.lgeo x := by
  rw [State.streamEnded, if_neg (by simpa [hs] using hr), hx]

theorem State.streamEnded_offline (hs : t.geodeState f.lgeo = 1) (hr : f.reason ≠ 0) (hx : t.pickSpare f = none) :
    t.streamEnded f = t.goOffline f.lgeo := by
  rw [State.streamEnded, if_neg (by simpa [hs] using hr), hx]

end

/-- R401: the stream of a fossil ends. -/
theorem exec_fossilWriteComplete {k : Nat} {s t : State} {f h : Fossil} (hk : s.fossils[k]? = some f) (hu : f.used = true)
    (hs : f.state = 1) (hh : h = { f with state := 2, held := f.held ++ s.regAccesses f.lgeo })
    (ht : t = (((s.modFossil k fun _ => h).modGeode f.lgeo fun e => { e with frozen := false }).putOwn (f.pa + 4096)
      h.body).putFossilHeader h) :
    exec (.fossilWriteComplete k) s = .next (t.streamEnded h) := by
  have hgo : ¬(!f.used || f.state != 1) = true := by simp [hu, hs]
  have hgeo : f.lgeo = h.lgeo := by rw [hh]
  have hpa : f.pa = h.pa := by rw [hh]
  rw [hgeo, hpa] at ht
  change execFossilWriteComplete k s = _
  unfold execFossilWriteComplete
  rw [hk]
  refine congrArg Host.Outcome.next ((if_neg hgo).trans ?_)
  rw [← hh, ht]
  rfl

/-- R402: a fossil that comes up is restored when it matches its geode, and killed when not. -/
theorem exec_fossilRestore {k : Nat} {s t : State} {f : Fossil} (hk : s.fossils[k]? = some f) (hr : s.fossilReady f = true)
    (ht : t = s.readFossil f) :
    exec (.fossilRestore k) s = .next (if t.fossilMatches f then t.restoreFossil k f else t.killFossil k f 0) := by
  have hgo : ¬(!s.fossilReady f) = true := by simp [hr]
  change execFossilRestore k s = _
  unfold execFossilRestore
  rw [hk, ht]
  exact congrArg Host.Outcome.next (if_neg hgo)

/-! ### Sparing -/

/-- R17, R403: the tasks of a geode that goes offline end as killed. -/
def State.killOn (s : State) (g : Nat) : State :=
  (s.cores.flatMap fun k => if geodeOf k.1 == g then (k.2.facets.filter fun y => y.2.resident).map fun y => (k.1, y.1) else []).foldl
    (fun t p => (t.killTask p.1 p.2).tasksDone (t.facet p.1 p.2).launch [] (stKilled ||| stUnavail)) (s.goOffline g)

/-- R403: what firmware does with a geode that is to be spared, `f` the fossil that would hold it: it is moved aside where a fossil slot
is free, though not for a test with no spare; with neither slot nor spare it goes offline, though not for a test. -/
def State.spared (s : State) (g : Nat) (x : Option SpareSlot) (f : Fossil) : State :=
  match s.freeFossil (s.geodePart g), s.pickSpare f with
  | some pa, some _ => (s.devPut (aGeodeMap g) 7 6 1).freezeInto g f.reason pa x
  | some pa, none => if x.any (·.forTest) then s else (s.devPut (aGeodeMap g) 7 6 1).freezeInto g f.reason pa x
  | none, some _ => s
  | none, none => if x.any (·.forTest) then s else s.killOn g

section
variable {s : State} {g : Nat} {x : Option SpareSlot} {f : Fossil}

theorem State.spared_freeze {pa : Nat} (hp : s.freeFossil (s.geodePart g) = some pa)
    (h : (s.pickSpare f).isSome = true ∨ x.any (·.forTest) = false) :
    s.spared g x f = (s.devPut (aGeodeMap g) 7 6 1).freezeInto g f.reason pa x := by
  cases hk : s.pickSpare f with
  | some k => simp only [State.spared, hp, hk]
  | none =>
    have ht : x.any (·.forTest) = false := h.resolve_left (by simp [hk])
    simp only [State.spared, hp, hk, ht, Bool.false_eq_true, if_false]

theorem State.spared_offline (hp : s.freeFossil (s.geodePart g) = none) (hk : s.pickSpare f = none)
    (ht : x.any (·.forTest) = false) : s.spared g x f = s.killOn g := by
  simp only [State.spared, hp, hk, ht, Bool.false_eq_true, if_false]

/-- R403, R441: the sparing sequence of an active geode. -/
theorem exec_sparingSequence (hg : g < 40) (hst : s.geodeState g = 0) (hf : (s.geode g).frozen = false)
    (h : f = { s.fossilOf g (if x.any (·.forTest) then 2 else 1) 0 with spare := x }) :
    exec (.sparingSequence g x) s = .next (s.spared g x f) := by
  have hgo : ¬(decide (40 ≤ g) || s.geodeState g != 0 || (s.geode g).frozen) = true := by simp [hg, hst, hf]
  change execSparingSequence g x s = _
  unfold execSparingSequence
  refine congrArg Host.Outcome.next ((if_neg hgo).trans ?_)
  subst h
  cases x <;> rfl

end

/-! ### Checkpoints -/

section
variable {slot : Nat} {s : State} {l : Launch} (hl : s.launches.find (s.qslot slot).launch = some l)
include hl

/-- R404, R407: a checkpoint is asked of every facet of a launch that holds one; a parked one fails it. -/
theorem exec_checkpointRequest (ha : l.ckAsk = false)
    (hf : (s.facetsOf (s.qslot slot).launch).isEmpty = false ∨ (s.frozenOf (s.qslot slot).launch).isEmpty = false) :
    exec (.checkpointRequest slot) s = .next (if s.someParked (s.qslot slot).launch then s.checkpointFails (s.qslot slot).launch
      else { s with launches := s.launches.set (s.qslot slot).launch { l with ckAsk := true } }.modFacetsOf (s.qslot slot).launch
        fun f => { f with ckRequested := true }) := by
  change execCheckpointRequest slot s = _
  unfold execCheckpointRequest
  dsimp only
  rw [hl]
  dsimp only
  rw [if_neg (by obtain hf | hf := hf <;> simp [ha, hf])]

/-- R407: a facet that has not reached its safe point in time fails the checkpoint. -/
theorem exec_checkpointTimeout (ha : l.ckAsk = true)
    (hf : (s.facetsOf (s.qslot slot).launch).all (fun x => x.2.2.ckHeld) = false
      ∨ (s.frozenOf (s.qslot slot).launch).all (·.ckHeld) = false) :
    exec (.checkpointTimeout slot) s = .next (s.checkpointFails (s.qslot slot).launch) := by
  change execCheckpointTimeout slot s = _
  unfold execCheckpointTimeout
  dsimp only
  rw [hl]
  dsimp only
  rw [if_pos (by obtain hf | hf := hf <;> simp only [ha, hf, Bool.false_and, Bool.and_false, Bool.not_false, Bool.and_self])]

/-- R407: a facet that parks fails a checkpoint that is asked for. -/
theorem exec_checkpointSave_parked (ha : l.ckAsk = true) (hp : s.someParked (s.qslot slot).launch = true) :
    exec (.checkpointSave slot) s = .next (s.checkpointFails (s.qslot slot).launch) := by
  change execCheckpointSave slot s = _
  unfold execCheckpointSave
  dsimp only
  rw [hl]
  dsimp only
  rw [if_neg (by simp [ha]), if_pos hp]

section
variable (ha : l.ckAsk = true) (hp : s.someParked (s.qslot slot).launch = false)
  (hf : (s.facetsOf (s.qslot slot).launch).isEmpty = false ∨ l.toPlace ≠ []) (hh : s.allHeld (s.qslot slot).launch = true)
include ha hp hf hh

/-- R404: the record of a launch that is held is written. -/
theorem exec_checkpointSave_write (hw : s.writing (s.qslot slot).launch = none) :
    exec (.checkpointSave slot) s = .next (s.saveRecord (s.qslot slot).launch l) := by
  change execCheckpointSave slot s = _
  unfold execCheckpointSave
  dsimp only
  rw [hl]
  dsimp only
  rw [if_neg (by simp [ha]), if_neg (by simp [hp]), if_neg (by obtain hf | hf := hf <;> simp [hf, hh]), hw]

/-- R404, R306: once the record is written, what the launch holds is given up when its last access has performed. -/
theorem exec_checkpointSave_end {i : Nat} (hw : s.writing (s.qslot slot).launch = some i) :
    exec (.checkpointSave slot) s = .next (if s.accs.any fun a => a.launch == (s.qslot slot).launch then s
      else s.endSave (s.qslot slot).launch i) := by
  change execCheckpointSave slot s = _
  unfold execCheckpointSave
  dsimp only
  rw [hl]
  dsimp only
  rw [if_neg (by simp [ha]), if_neg (by simp [hp]), if_neg (by obtain hf | hf := hf <;> simp [hf, hh]), hw]

end

end

/-- R404: after a save the launch stands without windows, and is to be placed again from its record. -/
theorem State.find_endSave {s : State} {id : Nat} (i : Nat) (h : (s.launches.find id).isSome) :
    ∃ l, (s.endSave id i).launches.find id = some l ∧ l.ckAsk = false ∧ l.windows = [] ∧ l.ckpt = some i := by
  obtain ⟨l, hl⟩ := Option.isSome_iff_exists.1 (State.foldl_vacate_listed h (s.facetsOf id))
  rw [← State.markRecord_launches _ i 1] at hl
  have hend := Tbl.find_map_at ((((s.facetsOf id).foldl (fun s x => s.vacate x.1 x.2.1) s).markRecord i 1).launches) id fun l =>
    { l with ckAsk := false, windows := [], ckpt := some i, toPlace := ((s.facetsOf id).map fun x => geodeOf x.1).eraseDups ++ l.toPlace }
  exact ⟨_, hend.trans (congrArg _ hl), rfl, rfl, rfl⟩

/-- A checkpoint record goes behind the others. -/
@[simp] theorem State.putRecord_ckpts (s : State) (r : Ckpt) : (s.putRecord r).ckpts = s.ckpts ++ [r] := rfl

theorem State.carried_of_first {s : State} {l : Launch} (h : l.ckpt = none) : s.carried l = ([], []) := by
  rw [State.carried, h]
  rfl

/-- Entries that are all there are all kept. -/
theorem length_filterMap_of_any {α : Type} {l : List (Option α)} (h : l.any Option.isNone = false) :
    (l.filterMap fun x => x).length = l.length :=
  List.reduceOption_length_eq_iff.2 (by simpa [List.any_eq_false, Option.isSome_iff_ne_none] using h)

/-- R404, R405: the record of a launch whose tasks all stand at safe points, with room in the area: what it holds, and where it is. -/
theorem State.saveRecord_record {id n : Nat} {s t : State} {l : Launch} (ht : t = s.noteWindows l) (hb : t.saveBad id l = false)
    (hn : ((t.facetsOf id).map fun x => t.ckTask l.kernel x.1 x.2.1).any Option.isNone = false)
    (hlen : n = recordHeader + (Config.recordBytes t.freeCtr
        (((t.facetsOf id).map fun x => t.ckTask l.kernel x.1 x.2.1).length + (t.carried l).1.length)
        (l.windows.length + (t.carried l).2.length)).toNat)
    (hroom : (t.recordPlace (s.qslot l.slot).part.toNat).1 + n ≤ (t.recordPlace (s.qslot l.slot).part.toNat).2) :
    ∃ r, s.saveRecord id l = t.putRecord r ∧ r.launch = id ∧ r.state = 0 ∧ r.windows = t.ckWindows l ++ (t.carried l).2
      ∧ r.pa = (t.recordPlace (s.qslot l.slot).part.toNat).1 ∧ r.bytes = n ∧ r.pasid = l.pasid ∧ r.done = l.done
      ∧ r.tasks.length = (t.facetsOf id).length + (t.carried l).1.length := by
  have hgo : ¬(t.saveBad id l || ((t.facetsOf id).map fun x => t.ckTask l.kernel x.1 x.2.1).any Option.isNone
      || decide ((t.recordPlace (s.qslot l.slot).part.toNat).2 < (t.recordPlace (s.qslot l.slot).part.toNat).1 + n)) = true := by
    simp only [hb, hn, Bool.false_or, decide_eq_true_eq]
    omega
  subst hlen
  unfold State.saveRecord
  dsimp only
  rw [← ht, if_neg hgo]
  refine ⟨_, rfl, rfl, rfl, rfl, rfl, rfl, rfl, rfl, ?_⟩
  rw [List.length_append, length_filterMap_of_any hn, List.length_map]

/-! ### The statement -/

/-- Settles O35: each event by its lemma above. -/
theorem fossilAndCheckpointEventsAct : Obligations.FossilAndCheckpointEventsAct := by
  unfold Obligations.FossilAndCheckpointEventsAct
  refine ⟨?freeze, ?written, ?restore, ?request, ?save, ?record, ?timeout, ?sparing⟩
  case freeze => exact fun geode pa reason s => exec_geodeFreeze reason
  case written =>
    intro k s t f h hk hu hs hh ht
    have hgeo : f.lgeo = h.lgeo := by rw [hh]
    have hreason : f.reason = h.reason := by rw [hh]
    rw [exec_fossilWriteComplete hk hu hs hh ht, hgeo, hreason]
    exact ⟨fun hst => congrArg _ (State.streamEnded_stay hst), fun hst hr =>
      ⟨fun x hx => congrArg _ (State.streamEnded_spare hst hr hx), fun hx => congrArg _ (State.streamEnded_offline hst hr hx)⟩⟩
  case restore =>
    intro k s t f hk hr ht
    rw [exec_fossilRestore hk hr ht]
    exact ⟨fun hm => by rw [if_pos hm], fun hm => by rw [if_neg (Bool.eq_false_iff.1 hm)]⟩
  case request =>
    intro slot s l hl ha hf
    rw [exec_checkpointRequest hl ha hf]
    exact ⟨fun hp => by rw [if_neg (Bool.eq_false_iff.1 hp)], fun hp => by rw [if_pos hp]⟩
  case save =>
    intro slot s l hl ha
    refine ⟨exec_checkpointSave_parked hl ha, fun hp hf hh => ⟨exec_checkpointSave_write hl ha hp hf hh, fun i hw => ?_⟩⟩
    rw [exec_checkpointSave_end hl ha hp hf hh hw]
    exact ⟨fun hacc => by rw [if_pos hacc], fun hacc => by rw [if_neg (Bool.eq_false_iff.1 hacc)],
      State.find_endSave i (by rw [hl]; rfl)⟩
  case record =>
    intro id n s t l ht hb hn hlen hroom
    obtain ⟨r, hsave, hid, hst, hwin, hpa, hbytes, hpasid, hdone, htasks⟩ := State.saveRecord_record ht hb hn hlen hroom
    refine ⟨r, ?_, hid, hst, hwin, hpa, hbytes, hpasid, hdone, htasks, State.carried_of_first⟩
    rw [hsave, State.putRecord_ckpts, List.getLast?_concat]
  case timeout => exact fun slot s l => exec_checkpointTimeout
  case sparing =>
    intro geode x s f hg hst hfz hf
    refine ⟨fun pa hp hor => ?_, fun hp hk ht => ?_⟩
    · rw [exec_sparingSequence hg hst hfz hf, State.spared_freeze hp hor]
    · rw [exec_sparingSequence hg hst hfz hf, State.spared_offline hp hk ht, State.killOn]

end Sys2Proof.Machine
end

section
/-! SUPPORT. Words and instructions: every instruction that has a word is read back from it, and a word that decodes is its instruction's
own (R43 to R45, R52, R55, R203). -/

namespace Sys2Proof.Laws

/-- Every row of the table: those that have a word each by its own lemma, the events because they have none. -/
theorem Coded.all (i : Instr) : Coded.Statement i := by
  cases i
  case add => apply Coded.add
  case sub => apply Coded.sub
  case mul => apply Coded.mul
  case mulh => apply Coded.mulh
  case mulhn => apply Coded.mulhn
  case div => apply Coded.div
  case divn => apply Coded.divn
  case rem => apply Coded.rem
  case remn => apply Coded.remn
  case and => apply Coded.and
  case or => apply Coded.or
  case xor => apply Coded.xor
  case shl => apply Coded.shl
  case shr => apply Coded.shr
  case sra => apply Coded.sra
  case rot => apply Coded.rot
  case min => apply Coded.min
  case max => apply Coded.max
  case minn => apply Coded.minn
  case maxn => apply Coded.maxn
  case sel => apply Coded.sel
  case add128 => apply Coded.add128
  case addi => apply Coded.addi
  case andi => apply Coded.andi
  case ori => apply Coded.ori
  case xori => apply Coded.xori
  case shli => apply Coded.shli
  case shri => apply Coded.shri
  case srai => apply Coded.srai
  case li => apply Coded.li
  case lih => apply Coded.lih
  case muli => apply Coded.muli
  case clz => apply Coded.clz
  case ctz => apply Coded.ctz
  case popc => apply Coded.popc
  case bint3 => apply Coded.bint3
  case bdint3 => apply Coded.bdint3
  case bint2 => apply Coded.bint2
  case bdint2 => apply Coded.bdint2
  case brev => apply Coded.brev
  case sext => apply Coded.sext
  case zext => apply Coded.zext
  case cmpEq => apply Coded.cmpEq
  case cmpNe => apply Coded.cmpNe
  case cmpLt => apply Coded.cmpLt
  case cmpLtn => apply Coded.cmpLtn
  case cmpLe => apply Coded.cmpLe
  case cmpLen => apply Coded.cmpLen
  case cmpiEq => apply Coded.cmpiEq
  case cmpiLt => apply Coded.cmpiLt
  case gand => apply Coded.gand
  case gor => apply Coded.gor
  case gnot => apply Coded.gnot
  case br => apply Coded.br
  case brs => apply Coded.brs
  case call => apply Coded.call
  case ret => apply Coded.ret
  case loop => apply Coded.loop
  case loopi => apply Coded.loopi
  case lexit => apply Coded.lexit
  case brb => apply Coded.brb
  case halt => apply Coded.halt
  case yield => apply Coded.yield
  case rdid => apply Coded.rdid
  case rdsys => apply Coded.rdsys
  case wrsys => apply Coded.wrsys
  case sys => apply Coded.sys
  case trapi => apply Coded.trapi
  case eret => apply Coded.eret
  case ifence => apply Coded.ifence
  case evpop => apply Coded.evpop
  case rdtime => apply Coded.rdtime
  case rdcyc => apply Coded.rdcyc
  case setest => apply Coded.setest
  case flagsRd => apply Coded.flagsRd
  case flagsClr => apply Coded.flagsClr
  case wfe => apply Coded.wfe
  case movGs => apply Coded.movGs
  case movSg => apply Coded.movSg
  case movSv => apply Coded.movSv
  case movSx => apply Coded.movSx
  case movSq => apply Coded.movSq
  case movSd => apply Coded.movSd
  case fadd => apply Coded.fadd
  case fsub => apply Coded.fsub
  case fmul => apply Coded.fmul
  case fmin => apply Coded.fmin
  case fmax => apply Coded.fmax
  case fdiv => apply Coded.fdiv
  case fscale => apply Coded.fscale
  case fma => apply Coded.fma
  case fms => apply Coded.fms
  case fnma => apply Coded.fnma
  case fabs => apply Coded.fabs
  case fneg => apply Coded.fneg
  case fsqrt => apply Coded.fsqrt
  case frcp => apply Coded.frcp
  case frsq => apply Coded.frsq
  case fexp2 => apply Coded.fexp2
  case flog2 => apply Coded.flog2
  case fcvt => apply Coded.fcvt
  case fround => apply Coded.fround
  case fclass => apply Coded.fclass
  case fcmp => apply Coded.fcmp
  case fredAdd => apply Coded.fredAdd
  case fredMax => apply Coded.fredMax
  case fredMin => apply Coded.fredMin
  case bscale => apply Coded.bscale
  case iadd => apply Coded.iadd
  case isub => apply Coded.isub
  case imul => apply Coded.imul
  case imulh => apply Coded.imulh
  case iand => apply Coded.iand
  case ior => apply Coded.ior
  case ixor => apply Coded.ixor
  case ishl => apply Coded.ishl
  case ishr => apply Coded.ishr
  case isra => apply Coded.isra
  case imin => apply Coded.imin
  case imax => apply Coded.imax
  case iadds => apply Coded.iadds
  case isubs => apply Coded.isubs
  case iabs => apply Coded.iabs
  case iclz => apply Coded.iclz
  case ipopc => apply Coded.ipopc
  case ibint3 => apply Coded.ibint3
  case icmp => apply Coded.icmp
  case iredAdd => apply Coded.iredAdd
  case iadd128 => apply Coded.iadd128
  case icvt => apply Coded.icvt
  case vsel => apply Coded.vsel
  case vperm => apply Coded.vperm
  case vzip => apply Coded.vzip
  case vunzip => apply Coded.vunzip
  case vrev => apply Coded.vrev
  case vcompress => apply Coded.vcompress
  case vexpand => apply Coded.vexpand
  case vbcast => apply Coded.vbcast
  case vslide => apply Coded.vslide
  case viota => apply Coded.viota
  case vmovi => apply Coded.vmovi
  case mand => apply Coded.mand
  case mor => apply Coded.mor
  case mxor => apply Coded.mxor
  case mnot => apply Coded.mnot
  case mpopc => apply Coded.mpopc
  case mfirst => apply Coded.mfirst
  case vrng => apply Coded.vrng
  case vrngF => apply Coded.vrngF
  case movVs => apply Coded.movVs
  case movMg => apply Coded.movMg
  case movVx => apply Coded.movVx
  case mcall => apply Coded.mcall
  case mparami => apply Coded.mparami
  case mzero => apply Coded.mzero
  case mdrainV => apply Coded.mdrainV
  case mdrainP => apply Coded.mdrainP
  case mwait => apply Coded.mwait
  case mucodeLd => apply Coded.mucodeLd
  case mwit => apply Coded.mwit
  case mflush => apply Coded.mflush
  case mstat => apply Coded.mstat
  case ldS => apply Coded.ldS
  case ldV => apply Coded.ldV
  case ldVs => apply Coded.ldVs
  case ldVg => apply Coded.ldVg
  case ldM => apply Coded.ldM
  case ldhS => apply Coded.ldhS
  case ldhV => apply Coded.ldhV
  case vfill => apply Coded.vfill
  case translate => apply Coded.translate
  case hdrop => apply Coded.hdrop
  case recv => apply Coded.recv
  case movXs => apply Coded.movXs
  case ldQ => apply Coded.ldQ
  case xadd => apply Coded.xadd
  case xaddi => apply Coded.xaddi
  case xli => apply Coded.xli
  case xsub => apply Coded.xsub
  case stS => apply Coded.stS
  case stV => apply Coded.stV
  case stVs => apply Coded.stVs
  case stVx => apply Coded.stVx
  case stM => apply Coded.stM
  case sthS => apply Coded.sthS
  case sthV => apply Coded.sthV
  case vspill => apply Coded.vspill
  case send => apply Coded.send
  case amoP => apply Coded.amoP
  case amoH => apply Coded.amoH
  case sigw => apply Coded.sigw
  case feed => apply Coded.feed
  case lcopy => apply Coded.lcopy
  case bulkSet => apply Coded.bulkSet
  case bulkGo => apply Coded.bulkGo
  case bulkCancel => apply Coded.bulkCancel
  case winOpen => apply Coded.winOpen
  case winAdv => apply Coded.winAdv
  case winClose => apply Coded.winClose
  case ifetch => apply Coded.ifetch
  case crcRd => apply Coded.crcRd
  case barArr => apply Coded.barArr
  case barWait => apply Coded.barWait
  case wait => apply Coded.wait
  case drain => apply Coded.drain
  case pbar => apply Coded.pbar
  case tsync => apply Coded.tsync
  case yadd => apply Coded.yadd
  case ysub => apply Coded.ysub
  case yand => apply Coded.yand
  case yxor => apply Coded.yxor
  case ycmp => apply Coded.ycmp
  case chkY => apply Coded.chkY
  case chkV => apply Coded.chkV
  case chkS => apply Coded.chkS
  case nop => apply Coded.nop
  case popA => apply Coded.popA
  case popB => apply Coded.popB
  case pass => apply Coded.pass
  case passSp => apply Coded.passSp
  case acc => apply Coded.acc
  case zero => apply Coded.zero
  case shift => apply Coded.shift
  case microLoop => apply Coded.microLoop
  case jump => apply Coded.jump
  case microEnd => apply Coded.microEnd
  case scale => apply Coded.scale
  case wit => apply Coded.wit
  case sync => apply Coded.sync
  all_goals exact Coded.of_event rfl rfl

end Sys2Proof.Laws

namespace Sys2Proof

open Sys2Proof.Laws

/-! ### Slot words -/

section
variable {k : Slot} {w : Nat} {i : Instr}

/-- R52: the fate of a word whose opcode is assigned, by the instruction that its fields make. -/
theorem decodeSlot_of_read (h0 : w / 2 ^ opLo k ≠ 0) (hr : readSlot k w = some i) :
    decodeSlot k w = if encode i != some w || !i.fieldsOk then .error .illegal
      else if !i.banksOk then .error .bankConflict else .ok (some i) := by
  have hw : w ≠ 0 := fun h => h0 (by rw [h, Nat.zero_div])
  simp only [decodeSlot, beq_iff_eq, hw, h0, if_false, hr]

/-- R52: a word that decodes to an instruction holds its fields, is its own encoding, and breaks none of its limits. -/
theorem decodeSlot_ok (h : decodeSlot k w = .ok (some i)) :
    readSlot k w = some i ∧ encode i = some w ∧ i.fieldsOk = true ∧ i.banksOk = true := by
  by_cases hw : w = 0
  · simp [decodeSlot, hw] at h
  by_cases h0 : w / 2 ^ opLo k = 0
  · simp [decodeSlot, hw, h0] at h
  cases hr : readSlot k w with
  | none => simp [decodeSlot, hw, h0, hr] at h
  | some j =>
    rw [decodeSlot_of_read h0 hr] at h
    split at h
    · cases h
    · rename_i he
      split at h
      · cases h
      · rename_i hb
        cases h
        simp only [Bool.or_eq_true, bne_iff_ne, ne_eq, Bool.not_eq_true', not_or, Decidable.not_not, Bool.not_eq_false] at he hb
        exact ⟨rfl, he.1, he.2, hb⟩

/-- R52: a field outside its limits is an illegal encoding. -/
theorem decodeSlot_illegal (h0 : w / 2 ^ opLo k ≠ 0) (hr : readSlot k w = some i) (hf : i.fieldsOk = false) :
    decodeSlot k w = .error .illegal := by
  simp [decodeSlot_of_read h0 hr, hf]

/-- R52: a word whose opcode is assigned is illegal, has a bank conflict, or decodes. -/
theorem decodeSlot_assigned (h0 : w / 2 ^ opLo k ≠ 0) (hr : readSlot k w = some i) :
    decodeSlot k w = .error .illegal ∨ decodeSlot k w = .error .bankConflict ∨ decodeSlot k w = .ok (some i) := by
  rw [decodeSlot_of_read h0 hr]
  split
  · exact .inl rfl
  · split
    · exact .inr (.inl rfl)
    · exact .inr (.inr rfl)

end

/-! ### Micro-words -/

section
variable {w : Nat} {i : Instr}

/-- R204: no micro-operation's entry limits its fields. -/
theorem readMicro_wf (h : readMicro w = some i) : i.wf = true := by
  unfold readMicro at h
  split at h <;> cases h <;> rfl

/-- R203, R206: a micro-word that decodes holds its instruction's fields and is its own encoding. -/
theorem decodeMicro_some (h : decodeMicro w = some i) : readMicro w = some i ∧ encode i = some w := by
  cases hr : readMicro w with
  | none => simp [decodeMicro, hr] at h
  | some j =>
    simp only [decodeMicro, hr, beq_iff_eq, ite_eq_iff, Option.some.injEq, and_false, or_false, reduceCtorEq] at h
    obtain ⟨he, rfl⟩ := h
    exact ⟨rfl, he⟩

end

/-- Settles O42: every row is read back from its word, one lemma a constructor, and the decoder compares the word with the encoding of
what it has read. -/
theorem decodeInvertsEncode : Obligations.DecodeInvertsEncode := by
  unfold Obligations.DecodeInvertsEncode
  refine ⟨Coded.all, ?micro, ?slot, ?word⟩
  case micro =>
    intro o c v r t i hi _
    simp only [List.mem_cons, List.not_mem_nil, or_false] at hi
    obtain rfl | rfl | rfl | rfl | rfl | rfl | rfl | rfl | rfl | rfl | rfl | rfl | rfl | rfl := hi <;> exact ⟨_, rfl⟩
  case slot =>
    intro k w i h
    obtain ⟨-, he, hf, hb⟩ := decodeSlot_ok h
    exact ⟨by simp [Instr.wf, hf, hb], he⟩
  case word =>
    intro w i h
    obtain ⟨hr, he⟩ := decodeMicro_some h
    exact ⟨readMicro_wf hr, he⟩

/-- Settles O40: the decoder computes each word. -/
theorem specWordsDecodeToTheirInstruction : Obligations.SpecWordsDecodeToTheirInstruction := by
  unfold Obligations.SpecWordsDecodeToTheirInstruction
  refine ⟨?_, ?_, ?_, ?_, ?_, ?_, ?_, ?_, ?_, ?_, ?_, ?_, ?_, ?_, ?_⟩ <;> decide +kernel

end Sys2Proof

namespace Sys2Proof.Machine

/-! ### The decode check of a slot (R52) -/

section
variable {k : Slot} {w : Nat} {i : Instr} {sys : Bool} {allot pc size : Nat} {scope : BitVec 3}

/-- R52: outside a system segment privilege comes before every check but that of the opcode. -/
theorem slotFault_privileged (h0 : w / 2 ^ opLo k ≠ 0) (hr : readSlot k w = some i) (hp : privileged i = true) :
    slotFault false allot pc size scope k w = some ⟨slotNo k, .privileged, 0⟩ := by
  unfold slotFault
  obtain hd | hd | hd := decodeSlot_assigned h0 hr <;> rw [hd] <;> simp only [hr, hp, Bool.not_false, Bool.and_true, if_true]

/-- R52: a field outside its limits is an illegal encoding wherever privilege is no question. -/
theorem slotFault_illegal (h0 : w / 2 ^ opLo k ≠ 0) (hr : readSlot k w = some i) (hp : (privileged i && !sys) = false)
    (hf : i.fieldsOk = false) : slotFault sys allot pc size scope k w = some ⟨slotNo k, .illegalEncoding, 0⟩ := by
  unfold slotFault
  rw [decodeSlot_illegal h0 hr hf]
  simp [hr, hp]

/-- R52: a slot fails as privileged only where it holds a privileged operation outside a system segment. -/
theorem slotFault_cause_privileged {x : DecodeFault} (h : slotFault sys allot pc size scope k w = some x)
    (hx : x.cause = .privileged) : sys = false ∧ ∃ i, readSlot k w = some i ∧ privileged i = true := by
  by_contra hn
  have hp : ∀ i, readSlot k w = some i → (privileged i && !sys) = false := fun i hr => by
    cases sys
    · exact (Bool.and_true _).trans (Bool.eq_false_iff.2 fun hi => hn ⟨rfl, i, hr, hi⟩)
    · exact Bool.and_false _
  unfold slotFault at h
  cases hr : readSlot k w with
  | none =>
    simp only [hr, Bool.false_eq_true, if_false] at h
    repeat' split at h
    all_goals cases h <;> cases hx
  | some i =>
    simp only [hr, hp i hr, Bool.false_eq_true, if_false] at h
    repeat' split at h
    all_goals cases h <;> cases hx

end

/-- Settles O55: the three forms are the privileged operations, and the check of privilege comes before those of the fields. -/
theorem privilegedOpcodesNeedASystemSegment : Obligations.PrivilegedOpcodesNeedASystemSegment := by
  unfold Obligations.PrivilegedOpcodesNeedASystemSegment
  refine ⟨?_, fun sys allot pc size scope k w x => slotFault_cause_privileged⟩
  intro allot pc size scope k w i hr h0 hi
  refine slotFault_privileged h0 hr ?_
  obtain ⟨g, a, ix, rfl⟩ | ⟨g, rfl⟩ | ⟨g, d, ix, rfl, hs⟩ := hi
  · rfl
  · rfl
  · exact hs

end Sys2Proof.Machine
end

section
/-! SUPPORT. What a fetch reads of the instruction store (R36, R40 to R42, R52): the bundle of one slot word. -/

namespace Sys2Proof.Machine

/-! ### Bytes of a memory -/

@[simp] theorem Memory.length_bytes (m : Memory) (a n : Nat) : (m.bytes a n).length = n := by
  simp [Memory.bytes, upto]

theorem Memory.take_bytes (m : Memory) (a : Nat) {j n : Nat} (h : j ≤ n) : (m.bytes a n).take j = m.bytes a j := by
  simp [Memory.bytes, upto, ← List.map_take, List.take_range, Nat.min_eq_left h]

/-! ### The stored form of one slot word (R40) -/

theorem presentSlots_presentOf (k : Slot) : presentSlots (presentOf k) = [k] := by
  obtain _ | u | _ | _ | _ | _ | _ := k
  case v => cases u <;> decide
  all_goals decide

theorem storedSize_presentOf (k : Slot) : storedSize (presentOf k) = 4 + slotBytes k := by
  simp [storedSize, presentSlots_presentOf]

/-- The header of a bundle of one slot word: scope 0, no flag. -/
theorem decodeHeader_presentOf (k : Slot) :
    decodeHeader ((presentOf k).toNat * 2 ^ 16)
      = { scope := 0, safe := false, switch := false, gend := false, present := presentOf k, idle := 0 } := by
  obtain _ | u | _ | _ | _ | _ | _ := k
  case v => cases u <;> decide
  all_goals decide

theorem headerOk_presentOf (k : Slot) : headerOk ((presentOf k).toNat * 2 ^ 16) = true := by
  obtain _ | u | _ | _ | _ | _ | _ := k
  case v => cases u <;> decide
  all_goals decide

theorem slotBytes_le (k : Slot) : slotBytes k ≤ 8 := by
  unfold slotBytes
  split <;> decide

section
variable {k : Slot} {w : Nat}

theorem length_oneSlotBytes (k : Slot) (w : Nat) : (oneSlotBytes k w).length = 4 + slotBytes k := by
  simp [oneSlotBytes]

theorem take_oneSlotBytes (k : Slot) (w : Nat) : leNat ((oneSlotBytes k w).take 4) = (presentOf k).toNat * 2 ^ 16 := by
  rw [oneSlotBytes, List.take_left' (length_leBytes 4 _), leNat_leBytes, Nat.mod_eq_of_lt]
  have := (presentOf k).isLt
  omega

theorem drop_oneSlotBytes (hw : w < 2 ^ (8 * slotBytes k)) : leNat ((oneSlotBytes k w).drop 4) = w := by
  rw [oneSlotBytes, List.drop_left' (length_leBytes 4 _), leNat_leBytes, Nat.mod_eq_of_lt hw]

/-- Bytes that begin with the stored form of one slot word read as that bundle. -/
theorem readBundle_of_oneSlot {bs : List (BitVec 8)} (hw : w < 2 ^ (8 * slotBytes k))
    (hb : bs.take (4 + slotBytes k) = oneSlotBytes k w) :
    leNat (bs.take 4) = (presentOf k).toNat * 2 ^ 16 ∧ readBundle bs = some ⟨(presentOf k).toNat * 2 ^ 16, [(k, w)]⟩ := by
  have hlen : 4 + slotBytes k ≤ bs.length := by
    have h := congrArg List.length hb
    rw [List.length_take, length_oneSlotBytes] at h
    omega
  have hhead : leNat (bs.take 4) = (presentOf k).toNat * 2 ^ 16 := by
    rw [← take_oneSlotBytes k w, ← hb, List.take_take, Nat.min_eq_left (Nat.le_add_right 4 _)]
  have hword : leNat ((bs.drop 4).take (slotBytes k)) = w := by
    rw [List.take_drop, hb, drop_oneSlotBytes hw]
  have hpres : (decodeHeader ((presentOf k).toNat * 2 ^ 16)).present = presentOf k := by rw [decodeHeader_presentOf]
  refine ⟨hhead, ?_⟩
  simp only [readBundle, hhead, hpres, storedSize_presentOf, presentSlots_presentOf, slotWords, hword]
  rw [if_neg (by omega), if_neg (by omega)]

end

/-! ### The decode check of one operation -/

/-- R54: an operation conflicts with no other when the bundle holds no other. -/
theorem conflicts_singleton (f : Facet) (i : Instr) : conflicts f [i] = [] := by
  simp [conflicts]

theorem conflicts_toList (f : Facet) (o : Option Instr) : conflicts f o.toList = [] := by
  cases o
  · rfl
  · exact conflicts_singleton f _

/-- R52: a slot word that decodes to an operation within the limits of its place, its segment and its allotment fails no check. -/
theorem slotFault_none {k : Slot} {w : Nat} {i : Instr} {sys : Bool} {allot pc size : Nat} {scope : BitVec 3}
    (hd : decodeSlot k w = .ok (some i)) (hp : privileged i = true → sys = true) (hl : placeOk pc size scope i = true)
    (hv : (vnames i).all (fun v => decide (v.toNat < allot)) = true) : slotFault sys allot pc size scope k w = none := by
  have hpriv : (privileged i && !sys) = false := by
    cases h : privileged i
    · rfl
    · rw [hp h]; rfl
  unfold slotFault
  simp only [hd, (decodeSlot_ok hd).1, hpriv, hl, hv]
  rfl

theorem filterMap_singleton {α β : Type} (f : α → Option β) (a : α) : [a].filterMap f = (f a).toList := by
  cases h : f a <;> simp [h]

/-- R40, R52: a fetch of the stored form of one slot word, clean and within its bank. -/
theorem State.fetched_oneSlot {s : State} {k : Slot} {w : Nat} (hw : w < 2 ^ (8 * slotBytes k))
    (hpc : s.me.pc + (4 + slotBytes k) ≤ Config.bankBytes)
    (hb : s.here.ist.bytes (codeAddr s.me.bank s.me.pc) (4 + slotBytes k) = oneSlotBytes k w) (hp : s.here.istPoison = []) :
    s.fetched =
      { h := decodeHeader ((presentOf k).toNat * 2 ^ 16), size := 4 + slotBytes k
        ops := (slotInstr k w).toList
        fault := decodeTrap false
          (slotFault (s.here.sysAt s.me.bank s.me.pc) s.me.allot s.me.pc (4 + slotBytes k) 0 k w).toList } := by
  have hk := slotBytes_le k
  have hbytes : (s.here.ist.bytes (codeAddr s.me.bank s.me.pc) (min 64 (Config.bankBytes - s.me.pc))).take (4 + slotBytes k)
      = oneSlotBytes k w := by
    rw [Memory.take_bytes _ _ (by omega), hb]
  obtain ⟨hhead, hread⟩ := readBundle_of_oneSlot hw hbytes
  have hpres : (decodeHeader ((presentOf k).toNat * 2 ^ 16)).present = presentOf k := by rw [decodeHeader_presentOf]
  have hscope : (decodeHeader ((presentOf k).toNat * 2 ^ 16)).scope = 0 := by rw [decodeHeader_presentOf]
  unfold State.fetched
  simp only [hhead, hread, hp, List.any_nil, Bool.false_eq_true, if_false, hpres, hscope, storedSize_presentOf,
    headerOk_presentOf, Bool.not_true, filterMap_singleton, conflicts_toList, List.append_nil]

/-- Settles O41: the stored form is read back as its header and its one word, and the word decodes to the operation. -/
theorem fetchReadsTheStoredBundle : Obligations.FetchReadsTheStoredBundle := by
  unfold Obligations.FetchReadsTheStoredBundle
  intro s i k w hwf hk he hpc hb hp
  obtain ⟨w', he', hw, hd⟩ := (Laws.Coded.all i hwf).1 k hk
  obtain rfl : w' = w := Option.some.inj (he'.symm.trans he)
  rw [State.fetched_oneSlot hw hpc hb hp]
  refine ⟨by simp [slotInstr, hd], rfl, rfl, fun hpriv hplace hv => ?_⟩
  simp only [slotFault_none hd hpriv hplace hv]
  rfl

end Sys2Proof.Machine
end

section
/-! SUPPORT. Every operation of a slot runs by the frame of a slot operation (R32, R43, R51, R53). -/

namespace Sys2Proof.Machine

/-- R32, R43, R53: whatever its effect, a slot operation's row is the shared frame around that effect. -/
theorem exec_slot {i : Instr} (h : i.slot?.isSome = true) (s : State) : ∃ t, exec i s = slotOp i s t := by
  cases i <;> cases h
  all_goals exact ⟨_, rfl⟩

/-- R53, R383: an operation that awaits no value takes the trap of its first failing check. -/
theorem slotOp_trap {i : Instr} {s : State} {x : TrapInfo} (hr : s.me.resident = true) (hp : s.me.latch.passed = false)
    (hw : s.waits i = false) (hx : s.issueTrap i = some x) (t : State) : slotOp i s t = .next (s.takeTrap x) := by
  simp [slotOp, hr, hp, hw, hx]

/-- Settles O47: an idle operation's frame answers the state before it. -/
theorem falseGuardHasNoEffect : Obligations.FalseGuardHasNoEffect := by
  unfold Obligations.FalseGuardHasNoEffect
  intro i s hi h
  obtain ⟨t, ht⟩ := exec_slot hi s
  rw [ht, slotOp_idle h]

/-- Settles O48: the frame of an operation takes the trap before it looks at holds, guard or effect. -/
theorem failingCheckTraps : Obligations.FailingCheckTraps := by
  unfold Obligations.FailingCheckTraps
  intro i s x hi hr hp hw hx
  obtain ⟨t, ht⟩ := exec_slot hi s
  rw [ht, slotOp_trap hr hp hw hx]

end Sys2Proof.Machine
end

section
/-! SUPPORT. Results on their way to a register (R49, R50): what issuing a result adds to them, and what a scalar register reads then. -/

namespace Sys2Proof.Machine

/-- R50: the results that stand before a younger one are overtaken by it. -/
theorem Facet.flight_overtake (f : Facet) (r : RegId) :
    (f.overtake r).filter (fun l => l.write.id == r) = (f.flight r).map fun l => { l with stale := true } := by
  simp only [Facet.overtake, Facet.flight]
  induction f.landings with
  | nil => rfl
  | cons l ls ih =>
    rw [List.map_cons, List.filter_cons, List.filter_cons, ih]
    by_cases h : (l.write.id == r) = true <;> simp [h]

/-- R49, R50: issuing a result puts it behind those on their way to its register, which it overtakes. -/
theorem Facet.flight_issue_same (f : Facet) {w : RegWrite} (hw : w.void = false) (lat : Nat) (fl : BitVec 6) (ac : Nat) (po : Bool) :
    (f.issue w lat fl ac po).flight w.id
      = (f.flight w.id).map (fun l => { l with stale := true }) ++ [⟨w, fl, f.clock, f.clock + lat, false, ac, po⟩] := by
  rw [← Facet.flight_overtake]
  simp [Facet.flight, Facet.issue, hw]

/-- R386: outside a handler a write takes no register from the program's results. -/
theorem Facet.replayed_issue_program {f : Facet} (h : f.intrap = false) (w : RegWrite) (lat : Nat) (fl : BitVec 6) (ac : Nat) (po : Bool)
    (r : RegId) : (f.issue w lat fl ac po).replayed r = f.replayed r := by
  simp [Facet.replayed, Facet.issue, h]

section
variable {f : Facet} {ctr n c : Nat} (hn : n ≠ 0)
include hn

/-- R49: at a cycle after a result's issue and before its bound, a scalar register reads as undefined. -/
theorem Facet.readS_undef {l : Landing} (hl : l ∈ f.flight (.s n)) (hb : l.born < c) (hd : c < l.due) :
    { f with clock := c }.readS ctr n = Config.freeWord ctr n := by
  have h : (f.flight (.s n)).any (fun l => l.older c && decide (c < l.due)) = true :=
    List.any_eq_true.2 ⟨l, hl, by simp [Landing.older, hb, hd]⟩
  have hu : { f with clock := c }.undef (.s n) = true := by
    rw [Facet.undef_eq_flight]
    exact Bool.or_eq_true_iff.2 (.inl h)
  simp only [Facet.readS, hn, hu, if_false, if_true]

variable (hr : f.replayed (.s n) = false)
include hr

/-- R49: a result is nothing yet to its own bundle and those before it. -/
theorem Facet.readS_unissued (h : ∀ l ∈ f.flight (.s n), c ≤ l.born) : { f with clock := c }.readS ctr n = f.s.get n 0 := by
  have hold : ∀ l ∈ f.flight (.s n), l.older c = false := fun l hl => decide_eq_false (Nat.not_lt.2 (h l hl))
  have hu : { f with clock := c }.undef (.s n) = false := by
    rw [Facet.undef_eq_flight]
    exact Bool.or_eq_false_iff.2 ⟨List.any_eq_false.2 fun l hl => by simp [hold l hl], hr⟩
  have ha : { f with clock := c }.arrived (.s n) = none := by
    rw [Facet.arrived, Facet.landed_eq_flight]
    exact congrArg _ (List.find?_eq_none.2 fun l hl => by simp [hold l hl])
  simp only [Facet.readS, hn, hu, ha, if_false, Bool.false_eq_true]

/-- R49, R50: with every result on its way at its bound, a scalar register reads what the youngest brings. -/
theorem Facet.readS_landed {ls : List Landing} {v : BitVec 64} {fl : BitVec 6} {b d : Nat} {po : Bool}
    (hf : f.flight (.s n) = ls ++ [⟨.s n v, fl, b, d, false, 0, po⟩]) (hs : ∀ l ∈ ls, l.stale = true ∧ l.due ≤ c)
    (hb : b < c) (hd : d ≤ c) : { f with clock := c }.readS ctr n = v := by
  have hu : { f with clock := c }.undef (.s n) = false := by
    rw [Facet.undef_eq_flight]
    refine Bool.or_eq_false_iff.2 ⟨List.any_eq_false.2 fun l hl => ?_, hr⟩
    obtain hl | hl := List.mem_append.1 (hf ▸ hl)
    · simp [Nat.not_lt.2 (hs l hl).2]
    · simp [List.mem_singleton.1 hl, Nat.not_lt.2 hd]
  have ha : { f with clock := c }.arrived (.s n) = some (.s n v) := by
    have hnone : ls.find? (fun l => l.older c && !l.stale && l.access == 0) = none :=
      List.find?_eq_none.2 fun l hl => by simp [(hs l hl).1]
    have hlast : (f.flight (.s n)).find? (fun l => l.older c && !l.stale && l.access == 0) = some ⟨.s n v, fl, b, d, false, 0, po⟩ := by
      rw [hf, List.find?_append, hnone]
      simp [Landing.older, hb]
    rw [Facet.arrived, Facet.landed_eq_flight]
    exact congrArg _ hlast
  simp only [Facet.readS, hn, hu, ha, if_false, Bool.false_eq_true]

end

/-- Settles O46: the results in flight to the register are the one that was issued, or the two of which the older is overtaken. -/
theorem resultsAreReadableFromTheirBound : Obligations.ResultsAreReadableFromTheirBound := by
  unfold Obligations.ResultsAreReadableFromTheirBound
  intro f ctr n lat lat2 c2 v v2 fl hn hf hr hi hc2
  have hv : ∀ x, (RegWrite.s n x).void = false := fun x => by simpa [RegWrite.void] using hn
  have one : (f.issue (.s n v) lat fl 0).flight (.s n) = [] ++ [⟨.s n v, fl, f.clock, f.clock + lat, false, 0, false⟩] := by
    have h := f.flight_issue_same (hv v) lat fl 0 false
    rwa [show f.flight (RegWrite.s n v).id = [] from hf] at h
  have two : ({ f.issue (.s n v) lat fl 0 with clock := c2 }.issue (.s n v2) lat2 fl 0).flight (.s n)
      = [⟨.s n v, fl, f.clock, f.clock + lat, true, 0, false⟩] ++ [⟨.s n v2, fl, c2, c2 + lat2, false, 0, false⟩] := by
    have h := Facet.flight_issue_same { f.issue (.s n v) lat fl 0 with clock := c2 } (hv v2) lat2 fl 0 false
    rwa [show ({ f.issue (.s n v) lat fl 0 with clock := c2 } : Facet).flight (RegWrite.s n v2).id = _ from one] at h
  have hr1 : (f.issue (.s n v) lat fl 0).replayed (.s n) = false := (Facet.replayed_issue_program hi _ _ _ _ _ _).trans hr
  have hr2 : ({ f.issue (.s n v) lat fl 0 with clock := c2 }.issue (.s n v2) lat2 fl 0).replayed (.s n) = false :=
    (Facet.replayed_issue_program (f := { f.issue (.s n v) lat fl 0 with clock := c2 }) hi _ _ _ _ _ _).trans hr1
  refine ⟨?old, fun c hc hl => ?undef, fun c hc hl => ?bound, fun c hc hl => ?undef2, fun c hc hl => ?bound2⟩
  case old =>
    refine Facet.readS_unissued (c := f.clock) hn hr1 fun l hl => ?_
    rw [one] at hl
    rw [List.mem_singleton.1 hl]
  case undef => exact Facet.readS_undef hn (one ▸ List.mem_append_right _ (List.mem_singleton_self _)) hc hl
  case bound => exact Facet.readS_landed hn hr1 one (List.forall_mem_nil _) hc hl
  case undef2 =>
    obtain h | h := lt_max_iff.1 hl
    · exact Facet.readS_undef hn (two ▸ List.mem_append_left _ (List.mem_singleton_self _)) (hc2.trans hc) h
    · exact Facet.readS_undef hn (two ▸ List.mem_append_right _ (List.mem_singleton_self _)) hc h
  case bound2 =>
    obtain ⟨h1, h2⟩ := max_le_iff.1 hl
    exact Facet.readS_landed hn hr2 two (fun l h => List.mem_singleton.1 h ▸ ⟨rfl, h1⟩) hc h2

end Sys2Proof.Machine
end

section
/-! SUPPORT. What landing results, counting, parking and committing do to a facet (R34, R49, R131, R137, R338, R393). -/

namespace Sys2Proof.Machine

/-! ### Counters and records change no core -/

@[simp] theorem State.core_countCore (s : State) (c ev n d : Nat) : (s.countCore c ev n).core d = s.core d :=
  State.core_of_inside (State.count_inside _ _ _ _ _) d

@[simp] theorem State.core_countPkg (s : State) (ev n d : Nat) : (s.countPkg ev n).core d = s.core d :=
  State.core_of_inside (State.countPkg_inside _ _ _) d

@[simp] theorem State.facet_countCore (s : State) (c ev n d m : Nat) : (s.countCore c ev n).facet d m = s.facet d m :=
  congrArg (fun k : Core => k.facet m) (s.core_countCore c ev n d)

@[simp] theorem State.core_heqPost (s : State) (part kind slot code idx : Nat) (w : BitVec 64) (d : Nat) :
    (s.heqPost part kind slot code idx w).core d = s.core d :=
  State.core_of_inside (State.ringPost_inside _ _ _ _) d

/-- What beside memory and registers stands of the row in hand: whose core it is, and what it has released. -/
theorem State.cur_of_beside {s t : State} (h : t.beside = s.beside) : t.cur = s.cur ∧ t.due = s.due :=
  ⟨show t.beside.cur = s.beside.cur by rw [h], show t.beside.due = s.beside.due by rw [h]⟩

@[simp] theorem State.cur_countCore (s : State) (c ev n : Nat) : (s.countCore c ev n).cur = s.cur :=
  (State.cur_of_beside (s.count_beside _ _ _ _)).1

@[simp] theorem State.cur_countPkg (s : State) (ev n : Nat) : (s.countPkg ev n).cur = s.cur :=
  (State.cur_of_beside (s.count_beside _ _ _ _)).1

/-! ### Landing (R49) -/

/-- What stands of a facet whatever results land: the facet with its register files, their parity, its flags and its results in flight
blank. -/
def Facet.control (f : Facet) : Facet :=
  { f with s := [], g := 0, m := [], x := [], h := [], q := [], d := [], y := [], flags := 0, poison := [], landings := [] }

@[simp] theorem Facet.control_write (f : Facet) (w : RegWrite) : (f.write w).control = f.control := by
  cases w <;> rfl

/-- R49, R50, R94: a facet in which one result lands. -/
def Facet.take (f : Facet) (l : Landing) : Facet :=
  let f := { f with flags := f.flags ||| l.flags }
  if l.stale then f
  else
    let p := f.poison.filter (· != l.write.id)
    { f.write l.write with poison := if l.poison then p ++ [l.write.id] else p }

theorem Core.landOne_facets (k : Core) (fn : Nat) (l : Landing) :
    (k.landOne fn l).facets = (k.modFacet fn fun f => f.take l).facets := by
  obtain ⟨w, fl, born, due, stale, ac, po⟩ := l
  cases w <;> cases stale <;> rfl

@[simp] theorem Facet.control_take (f : Facet) (l : Landing) : (f.take l).control = f.control := by
  unfold Facet.take
  dsimp only
  split
  · rfl
  · exact Facet.control_write _ _

theorem Core.landOne_facet_control (k : Core) (fn : Nat) (l : Landing) : ((k.landOne fn l).facet fn).control = (k.facet fn).control := by
  rw [Core.facet, Core.landOne_facets, ← Core.facet, Core.facet_modFacet_same, Facet.control_take]

theorem Core.foldl_landOne_facet_control (fn : Nat) (ls : List Landing) (k : Core) :
    ((ls.foldl (fun k l => k.landOne fn l) k).facet fn).control = (k.facet fn).control :=
  foldl_keeps (fun k : Core => (k.facet fn).control) _ (fun k l => k.landOne_facet_control fn l) ls k

theorem Core.landDue_facet_control (k : Core) (fn : Nat) : ((k.landDue fn).facet fn).control = (k.facet fn).control := by
  unfold Core.landDue
  rw [Core.foldl_landOne_facet_control, Core.facet_modFacet_same]
  rfl

/-- What stands of a core whatever results land: the core with its facets and its vector file blank. -/
def Core.frame (k : Core) : Core := { k with facets := [], vfile := [] }

theorem Core.landOne_frame (k : Core) (fn : Nat) (l : Landing) : (k.landOne fn l).frame = k.frame := by
  unfold Core.landOne
  dsimp only
  split
  · split <;> rfl
  · rfl

theorem Core.landDue_frame (k : Core) (fn : Nat) : (k.landDue fn).frame = k.frame := by
  unfold Core.landDue
  dsimp only
  rw [foldl_keeps Core.frame _ (fun k l => k.landOne_frame fn l)]
  rfl

@[simp] theorem State.cur_settle (s : State) (c fn : Nat) : (s.settle c fn).cur = s.cur := by
  rw [State.settle, State.cur_countPkg]
  rfl

theorem State.core_settle (s : State) (c fn : Nat) : (s.settle c fn).core c = (s.core c).landDue fn := by
  rw [State.settle, State.core_countPkg, State.core_setCore_same]

@[simp] theorem State.run_settle (s : State) (c fn : Nat) : ((s.settle c fn).core c).run = (s.core c).run := by
  rw [State.core_settle]
  exact (congrArg Core.run (Core.landDue_frame (s.core c) fn) :)

@[simp] theorem State.quantum_settle (s : State) (c fn : Nat) : ((s.settle c fn).core c).quantum = (s.core c).quantum := by
  rw [State.core_settle]
  exact (congrArg Core.quantum (Core.landDue_frame (s.core c) fn) :)

theorem State.facet_settle_control (s : State) (c fn : Nat) : ((s.settle c fn).facet c fn).control = (s.facet c fn).control := by
  rw [State.facet, State.core_settle, Core.landDue_facet_control]
  rfl

/-! ### Parking (R393) -/

/-- R393, R395: a facet that parks stands as it did but for its park code, its replays and its latch. -/
theorem State.facet_park (s : State) (c fn code : Nat) :
    (s.park c fn code).facet c fn
      = { s.facet c fn with parked := true, parkCode := BitVec.ofNat 8 code, replays := 0, latch := {} } := by
  unfold State.park State.facet
  dsimp only
  rw [State.core_heqPost, State.core_modCore_same, State.core_modFacet_same]
  exact Tbl.get_set_same _ _ _ _

/-- R395: a facet that parks by request has code 0x24. -/
theorem State.facet_parkRequest (s : State) (c fn : Nat) :
    ((s.parkRequest c fn).facet c fn).parked = true ∧ ((s.parkRequest c fn).facet c fn).parkCode = 0x24 := by
  unfold State.parkRequest
  dsimp only
  split <;> rw [State.facet_park] <;> exact ⟨rfl, rfl⟩

/-- R381: a facet that parks at the replay limit has code 0x23 and counts from zero. -/
theorem State.facet_parkReplay (s : State) (c fn : Nat) :
    ((s.parkReplay c fn).facet c fn).parked = true ∧ ((s.parkReplay c fn).facet c fn).parkCode = 0x23
      ∧ ((s.parkReplay c fn).facet c fn).replays = 0 := by
  unfold State.parkReplay
  dsimp only
  split <;> rw [State.facet_park] <;> exact ⟨rfl, rfl, rfl⟩

/-! ### Commit (R34, R131, R137) -/

/-- The times of a facet, its latch and its replays: what the choice of its next place leaves alone. -/
def Facet.times (f : Facet) : Nat × BitVec 64 × Latch × Nat := (f.clock, f.group, f.latch, f.replays)

theorem Facet.endMatch_times (f : Facet) (next : Nat) : (f.endMatch next).times = f.times := by
  unfold Facet.endMatch
  split
  · rfl
  · dsimp only
    split
    · split
      · unfold Facet.rotate
        split <;> rfl
      · rfl
    · rfl

theorem Facet.continueAt_times (f : Facet) (l : Latch) : (f.continueAt l).times = f.times := by
  unfold Facet.continueAt
  repeat' split
  · rfl
  · rfl
  · rfl
  · exact Facet.endMatch_times _ _

theorem Facet.continueAt_target {f : Facet} {l : Latch} {b : Bool} {o : Nat} (h : l.target = some (b, o)) :
    (f.continueAt l).bank = b ∧ (f.continueAt l).pc = o := by
  simp [Facet.continueAt, h]

theorem Facet.continueAt_loop {f : Facet} {l : Latch} (h : l.target = none) (hl : l.isLoop = true) :
    (f.continueAt l).bank = f.bank ∧ (f.continueAt l).pc = l.pc + l.size := by
  simp [Facet.continueAt, h, hl]

/-- R34, R39: a facet whose bundle commits, before its results land and its next place is chosen. -/
def Facet.stamped (f : Facet) : Facet :=
  { f with
    latch := {}
    replays := 0
    group := if f.latch.gend then f.group + 1 else f.group
    clock := f.clock + 1 + f.latch.idle }

section
variable (s : State) (core : Nat)

@[simp] theorem State.cur_committed : (s.committed core).cur = core := by
  unfold State.committed
  simp

/-- R34, R39, R131, R137: what a commit makes of its core: the facet stamped, its results landed, its next place chosen, and one bundle
more in the quantum. -/
theorem State.core_committed :
    (s.committed core).core core
      = { (((s.core core).modFacet (s.core core).run Facet.stamped).landDue (s.core core).run).modFacet (s.core core).run
            (fun f => f.continueAt (s.facet core (s.core core).run).latch) with
          quantum := (s.core core).quantum + 1 } := by
  obtain ⟨fn, hfn⟩ : ∃ fn, fn = (s.core core).run := ⟨_, rfl⟩
  obtain ⟨t, ht⟩ : ∃ t, t = ({ s with cur := core }.modFacet core fn Facet.stamped) := ⟨_, rfl⟩
  have hrun : (t.core core).run = fn := by
    rw [ht, State.core_modFacet_same]
    exact hfn.symm
  have hcore : (t.settle core fn).core core = ((s.core core).modFacet fn Facet.stamped).landDue fn := by
    rw [State.core_settle, ht, State.core_modFacet_same]
    rfl
  have hq : ((t.settle core fn).core core).quantum = (s.core core).quantum := by
    rw [State.quantum_settle, ht, State.core_modFacet_same]
    rfl
  have hcur : (t.settle core fn).cur = core := by
    rw [State.cur_settle, ht]
    rfl
  have hme : (t.settle core fn).fn = fn := by
    rw [State.fn, State.here, hcur, State.run_settle, hrun]
  have hdef : s.committed core = ((((t.settle core fn).modMe fun f => f.continueAt (s.facet core fn).latch).modHere
      fun k => { k with quantum := k.quantum + 1 }).countCore core 0x01 1).countCore core 0x02 (1 + (s.facet core fn).latch.idle) := by
    subst hfn ht
    rfl
  rw [hdef, ← hfn, State.core_countCore, State.core_countCore, State.modHere, State.modMe, hcur, hme, State.modFacet_cur, hcur,
    State.core_modCore_same, State.core_modFacet_same, hcore, ← hq, hcore]
  rfl

theorem State.run_committed : ((s.committed core).core core).run = (s.core core).run := by
  rw [State.core_committed]
  exact (congrArg Core.run (Core.landDue_frame _ _) :)

theorem State.quantum_committed : ((s.committed core).core core).quantum = (s.core core).quantum + 1 := by
  rw [State.core_committed]

/-- R34, R131, R137: the committed facet is the stamped one, its results landed, at its next place. -/
theorem State.facet_committed :
    (s.committed core).facet core (s.core core).run
      = ((((s.core core).modFacet (s.core core).run Facet.stamped).landDue (s.core core).run).facet (s.core core).run).continueAt
          (s.facet core (s.core core).run).latch := by
  rw [State.facet, State.core_committed]
  exact Tbl.get_set_same _ _ _ _

theorem Core.landDue_stamped_control (k : Core) (fn : Nat) :
    (((k.modFacet fn Facet.stamped).landDue fn).facet fn).control = (k.facet fn).stamped.control := by
  rw [Core.landDue_facet_control, Core.facet_modFacet_same]

/-- R34, R39: the times of a committed facet. -/
theorem State.times_committed :
    ((s.committed core).facet core (s.core core).run).times = (s.facet core (s.core core).run).stamped.times := by
  rw [State.facet_committed, Facet.continueAt_times]
  exact (congrArg Facet.times (Core.landDue_stamped_control (s.core core) (s.core core).run) :)

/-- A write of the running facet after a commit is a write of the committed one. -/
theorem State.modMe_committed (f : Facet → Facet) :
    (s.committed core).modMe f = (s.committed core).modFacet core (s.core core).run f := by
  rw [State.modMe, State.fn, State.here, State.cur_committed, State.run_committed]

end

end Sys2Proof.Machine
end

section
/-! SUPPORT. The end of a bundle: what its commit answers and what its S slot has asked for (R133, R142 to R146, R379, R388, R395). -/

namespace Sys2Proof.Machine

/-! ### The commit's row -/

section
variable {core fn : Nat} {s : State} {f : Facet} {l : Latch} (hfn : fn = (s.core core).run) (hf : s.facet core fn = f) (hl : f.latch = l)
  (hr : f.resident = true) (hp : l.passed = true) (hz : (s.geode (geodeOf core)).frozen = false)
include hfn hf hl hr hp hz

/-- R379: a bundle that returns from no handler commits and what it asked for happens. -/
theorem exec_bundleCommit (hret : l.returned = false) :
    exec (.bundleCommit core) s = .next (((s.committed core).sysWrites l).1.afterCommit core fn ((s.committed core).sysWrites l).2) := by
  subst hfn hf hl
  change execBundleCommit core s = _
  simp [execBundleCommit, hr, hp, hz, hret]

/-- R392: a return waits for the handler's results and accesses. -/
theorem exec_bundleCommit_held (hret : l.returned = true) (hh : s.returnHeld core fn = true) : exec (.bundleCommit core) s = .next s := by
  subst hfn hf hl
  change execBundleCommit core s = _
  simp [execBundleCommit, hr, hp, hz, hret, hh]

/-- R392, R448: a return from a frame on another lode waits for its reads. -/
theorem exec_bundleCommit_reads (hret : l.returned = true) (hh : s.returnHeld core fn = false) (hg : (s.returnGo core fn).1 = false) :
    exec (.bundleCommit core) s = .next (s.returnGo core fn).2 := by
  subst hfn hf hl
  change execBundleCommit core s = _
  simp [execBundleCommit, hr, hp, hz, hret, hh, hg]

/-- R379, R392: a return that waits for nothing commits. -/
theorem exec_bundleCommit_returns (hret : l.returned = true) (hh : s.returnHeld core fn = false) (hg : (s.returnGo core fn).1 = true) :
    exec (.bundleCommit core) s = .next ((((s.returnGo core fn).2.committed core).sysWrites l).1.afterCommit core fn
      (((s.returnGo core fn).2.committed core).sysWrites l).2) := by
  subst hfn hf hl
  change execBundleCommit core s = _
  simp [execBundleCommit, hr, hp, hz, hret, hh, hg]

end

/-! ### What follows a commit -/

section
variable {s : State} {c fn : Nat} {l : Latch}

theorem State.afterCommit_trap {x : TrapInfo} (hh : l.halted = false) (ha : l.after = some x) : s.afterCommit c fn l = s.takeTrap x := by
  simp [State.afterCommit, hh, ha]

section
variable (hh : l.halted = false) (ha : l.after = none)
include hh ha

theorem State.afterCommit_return (hr : l.returned = true) : s.afterCommit c fn l = s.returnFrom c fn := by
  simp [State.afterCommit, hh, ha, hr]

variable (hr : l.returned = false)
include hr

theorem State.afterCommit_park (hp : l.parked = true) : s.afterCommit c fn l = s.parkRequest c fn := by
  simp [State.afterCommit, hh, ha, hr, hp]

variable (hp : l.parked = false)
include hp

theorem State.afterCommit_yield (hy : l.yielded = true) :
    (∀ n, s.nextReady c = some n → s.afterCommit c fn l = s.select c n) ∧ (s.nextReady c = none → s.afterCommit c fn l = s) := by
  refine ⟨fun n hn => ?_, fun hn => ?_⟩ <;> simp [State.afterCommit, hh, ha, hr, hp, hy, hn]

theorem State.afterCommit_none (hy : l.yielded = false) : s.afterCommit c fn l = s := by
  simp [State.afterCommit, hh, ha, hr, hp, hy]

end

end

/-! ### System registers (R142 to R144, R388) -/

theorem State.sysWrites_tctl {s : State} {l : Latch} {v : BitVec 64} (h : l.sysWrite = some (0x14, v)) :
    s.sysWrites l = (s, { l with parked := v.getLsbD 1 }) := by
  simp [State.sysWrites, h]

theorem State.sysWrites_other {s : State} {l : Latch} {ix : Nat} {v : BitVec 64} (h : l.sysWrite = some (ix, v)) (hix : ix ≠ 0x14) :
    s.sysWrites l = (s.modMe fun u => u.writeSys ix v, l) := by
  simp [State.sysWrites, h, hix]

/-- R143: a write of FSTATE. -/
theorem Facet.writeSys_fstate (u : Facet) (v : BitVec 64) :
    u.writeSys 0 v = { u with
      lsDepth := if wbits v 3 1 = 7 then u.lsDepth else wbits v 3 1
      rotBase := match u.rotRegion with | some r => wbits v 7 4 % (r.2 / 2) | none => 0 } := by
  cases h : u.rotRegion <;> simp [Facet.writeSys, Facet.setFstate, h]

/-- R144: a write of LSTKk.A keeps the count. -/
theorem Facet.writeSys_entryA (u : Facet) (v : BitVec 64) (k : Nat) :
    u.writeSys (0x40 + 2 * k) v = { u with
      lstk := u.lstk.set k
        { start := wbits v 14 0, bank := v.getLsbD 15, stop := wbits v 31 16, count := (u.lstk.get k {}).count
          rot := v.getLsbD 32, stages := v.extractLsb' 33 2 } } := by
  have hk : (0x40 + 2 * k - 0x40) / 2 = k := by omega
  have hm : (0x40 + 2 * k) % 2 = 0 := by omega
  have hst : BitVec.ofNat 2 (wbits v 34 33) = v.extractLsb' 33 2 := by
    apply BitVec.eq_of_toNat_eq
    simp [wbits, nbits, Nat.shiftRight_eq_div_pow]
  unfold Facet.writeSys
  rw [if_neg (by omega), if_neg (by omega), if_neg (by omega), if_neg (by omega)]
  simp only [hk, hm, if_true, LoopEntry.ofWords, hst]

/-- R144: a write of LSTKk.C changes the count alone. -/
theorem Facet.writeSys_entryC (u : Facet) (v : BitVec 64) (k : Nat) :
    u.writeSys (0x41 + 2 * k) v = { u with lstk := u.lstk.set k { u.lstk.get k {} with count := v } } := by
  have hk : (0x41 + 2 * k - 0x40) / 2 = k := by omega
  have hm : (0x41 + 2 * k) % 2 ≠ 0 := by omega
  unfold Facet.writeSys
  rw [if_neg (by omega), if_neg (by omega), if_neg (by omega), if_neg (by omega)]
  simp only [hk, hm, if_false]

section
variable {core fn : Nat} {s : State} {f : Facet} {l : Latch} {v : BitVec 64} (hfn : fn = (s.core core).run)
  (hf : s.facet core fn = f) (hl : f.latch = l) (hr : f.resident = true) (hz : (s.geode (geodeOf core)).frozen = false)
  (hp : l.passed = true) (hh : l.halted = false) (ha : l.after = none) (hret : l.returned = false)
include hfn hf hl hr hz hp hh ha hret

/-- R142: a committed `wrsys` of a register other than TCTL writes the facet and nothing follows. -/
theorem exec_bundleCommit_wrsys {ix : Nat} (hpk : l.parked = false) (hy : l.yielded = false) (hw : l.sysWrite = some (ix, v)) (hix : ix ≠ 0x14) :
    exec (.bundleCommit core) s = .next ((s.committed core).modFacet core fn fun u => u.writeSys ix v) := by
  rw [exec_bundleCommit hfn hf hl hr hp hz hret, State.sysWrites_other hw hix, State.afterCommit_none hh ha hret hpk hy, State.modMe_committed,
    ← hfn]

/-- R388: a committed `wrsys` of TCTL without PARK writes nothing. -/
theorem exec_bundleCommit_tctl (hy : l.yielded = false) (hw : l.sysWrite = some (0x14, v)) (hv : v.getLsbD 1 = false) :
    exec (.bundleCommit core) s = .next (s.committed core) := by
  rw [exec_bundleCommit hfn hf hl hr hp hz hret, State.sysWrites_tctl hw]
  exact congrArg _ (State.afterCommit_none (l := { l with parked := v.getLsbD 1 }) hh ha hret hv hy)

/-- R388, R395: a committed `wrsys` of TCTL with PARK parks its facet. -/
theorem exec_bundleCommit_tctl_park (hw : l.sysWrite = some (0x14, v)) (hv : v.getLsbD 1 = true) :
    exec (.bundleCommit core) s = .next ((s.committed core).parkRequest core fn) := by
  rw [exec_bundleCommit hfn hf hl hr hp hz hret, State.sysWrites_tctl hw]
  exact congrArg _ (State.afterCommit_park (l := { l with parked := v.getLsbD 1 }) hh ha hret hv)

end

/-- R388: an index that `wrsys` may not name breaks the limit of its field. -/
theorem wrsys_fieldsOk_false {g : BitVec 4} {a : BitVec 6} {ix : BitVec 12} (h0 : ix ≠ 0) (h10 : ix ≠ 0x10) (h11 : ix ≠ 0x11)
    (h14 : ix ≠ 0x14) (h40 : ¬(0x40 ≤ ix.toNat ∧ ix.toNat ≤ 0x4B)) : (Instr.wrsys g a ix).fieldsOk = false := by
  have hne : ∀ n : BitVec 12, ix ≠ n → ix.toNat ≠ n.toNat := fun n h e => h (BitVec.eq_of_toNat_eq e)
  have e0 : ix.toNat ≠ 0 := hne 0 h0
  have e10 : ix.toNat ≠ 0x10 := hne 0x10 h10
  have e11 : ix.toNat ≠ 0x11 := hne 0x11 h11
  have e14 : ix.toNat ≠ 0x14 := hne 0x14 h14
  exact decide_eq_false (by omega)

/-- Settles O53: the commit's row with nothing else asked for, one case a register; and the limits of the two index fields. -/
theorem systemRegisterWritesFollowTheBundle : Obligations.SystemRegisterWritesFollowTheBundle := by
  unfold Obligations.SystemRegisterWritesFollowTheBundle
  refine ⟨?commit, ?wrsys, ?rdsys⟩
  case commit =>
    intro core fn s f l ix v hfn hf hl hr hz hp hh ha hret hpk hy hw
    have other : ∀ g : Facet → Facet, ix ≠ 0x14 → (∀ u : Facet, u.writeSys ix v = g u) →
        exec (.bundleCommit core) s = .next ((s.committed core).modFacet core fn g) := fun g hix hg => by
      rw [exec_bundleCommit_wrsys hfn hf hl hr hz hp hh ha hret hpk hy hw hix, funext hg]
    refine ⟨?fstate, ?tbase, ?tframe, ?entryA, ?entryC, ?stay, ?park⟩
    case fstate =>
      rintro rfl
      exact other _ (by decide) fun u => u.writeSys_fstate v
    case tbase =>
      rintro rfl
      exact other _ (by decide) fun _ => rfl
    case tframe =>
      rintro rfl
      exact other _ (by decide) fun _ => rfl
    case entryA =>
      rintro k - rfl
      exact other _ (by omega) fun u => u.writeSys_entryA v k
    case entryC =>
      rintro k - rfl
      exact other _ (by omega) fun u => u.writeSys_entryC v k
    case stay =>
      rintro rfl hv
      exact exec_bundleCommit_tctl hfn hf hl hr hz hp hh ha hret hy hw hv
    case park =>
      rintro rfl hv
      exact ⟨_, exec_bundleCommit_tctl_park hfn hf hl hr hz hp hh ha hret hw hv, State.facet_parkRequest _ _ _⟩
  case wrsys =>
    intro allot pc size scope w g a ix hr h0 i0 i10 i11 i14 i40
    exact slotFault_illegal h0 hr (Bool.and_false _) (wrsys_fieldsOk_false i0 i10 i11 i14 i40)
  case rdsys =>
    intro sys allot pc size scope w g d ix hr h0 i2 i10 i40
    have hsys : systemIndex ix.toNat = false := decide_eq_false (by omega)
    refine slotFault_illegal h0 hr ?_ (decide_eq_false ?_)
    · rw [privileged, hsys, Bool.false_and]
    · omega

end Sys2Proof.Machine
end

section
/-! SUPPORT. The schedule's own fields (log entries 1 and 29): whose turn it is, which core issued last and whether a row stands bear on
no facet's offer. -/

namespace Sys2Proof.Machine

/-- A state with the schedule's fields as they may be. -/
def State.scheduled (s : State) (turn : Bool) (last : Nat) (stands : Bool) : State :=
  { s with turn := turn, lastCore := last, stands := stands }

section
variable (s : State) (x : Bool) (y : Nat) (z : Bool)

theorem State.devFld_scheduled (a hi lo : Nat) : (s.scheduled x y z).devFld a hi lo = s.devFld a hi lo := rfl

theorem State.devPut_scheduled (a hi lo v : Nat) : (s.scheduled x y z).devPut a hi lo v = (s.devPut a hi lo v).scheduled x y z := rfl

theorem State.countAt_scheduled (a ev n : Nat) : (s.scheduled x y z).countAt a ev n = (s.countAt a ev n).scheduled x y z := by
  unfold State.countAt
  generalize 2 ^ 48 = full
  rw [State.devFld_scheduled, State.devFld_scheduled, State.devFld_scheduled]
  split
  · dsimp only
    rw [State.devPut_scheduled]
    split
    · rw [State.devPut_scheduled]
    · rfl
  · rfl

theorem State.count_scheduled (base k ev n : Nat) : (s.scheduled x y z).count base k ev n = (s.count base k ev n).scheduled x y z :=
  List.foldl_hom (fun t : State => t.scheduled x y z) fun t _ => (t.countAt_scheduled x y z _ _ _)

theorem State.settle_scheduled (c fn : Nat) : (s.scheduled x y z).settle c fn = (s.settle c fn).scheduled x y z :=
  State.count_scheduled (s.setCore c ((s.core c).landDue fn)) x y z _ _ _ _

theorem State.atSwitch_scheduled : (s.scheduled x y z).atSwitch = s.atSwitch.scheduled x y z := by
  have hf : (s.scheduled x y z).launches = s.launches := rfl
  have hm : (s.scheduled x y z).me = s.me := rfl
  have hl : (s.scheduled x y z).switchLevel = s.switchLevel := rfl
  unfold State.atSwitch
  simp only [hf, hm, hl]
  cases s.launches.find s.me.launch with
  | none => rfl
  | some l =>
    dsimp only
    cases l.kernel.switch[s.switchLevel]? with
    | none => rfl
    | some e =>
      dsimp only
      cases l.kernel.pairAt s.me.variant (codeAddr s.me.bank s.me.pc) with
      | none => rfl
      | some p =>
        dsimp only
        rw [apply_ite fun t : State => t.scheduled x y z]
        rfl

theorem State.reach_scheduled : (s.scheduled x y z).reach = s.reach.scheduled x y z := by
  unfold State.reach
  dsimp only
  rw [apply_ite fun t : State => t.scheduled x y z]
  have h : (s.scheduled x y z).readScope.atSwitch = s.readScope.atSwitch.scheduled x y z := s.readScope.atSwitch_scheduled x y z
  rw [h]
  rfl

/-! What an offer reads of a state is none of the schedule's fields. -/

theorem State.facet_scheduled (c fn : Nat) : (s.scheduled x y z).facet c fn = s.facet c fn := rfl
theorem State.fetched_scheduled : (s.scheduled x y z).fetched = s.fetched := rfl
theorem State.pointHolds_scheduled (b : Fetched) : (s.scheduled x y z).pointHolds b = s.pointHolds b := rfl
theorem State.waits_scheduled : (s.scheduled x y z).waits = s.waits := rfl
theorem State.overdue_scheduled : (s.scheduled x y z).overdue = s.overdue := rfl
theorem State.issueTraps_scheduled (b : Fetched) : (s.scheduled x y z).issueTraps b = s.issueTraps b := rfl
theorem State.blocks_scheduled : (s.scheduled x y z).blocks = s.blocks := rfl
theorem State.pathFull_scheduled (is : List Instr) : (s.scheduled x y z).pathFull is = s.pathFull is := rfl

/-- R373: whether a facet is blocked does not depend on the schedule. -/
theorem State.blocked_scheduled (c fn : Nat) : (s.scheduled x y z).blocked c fn = s.blocked c fn := by
  have h : (s.scheduled x y z).asRun c fn = (s.asRun c fn).scheduled x y z := by
    unfold State.asRun
    rw [← State.reach_scheduled, ← State.settle_scheduled]
    rfl
  unfold State.blocked
  simp only [h, State.facet_scheduled, State.fetched_scheduled, State.pointHolds_scheduled, State.waits_scheduled,
    State.overdue_scheduled, State.issueTraps_scheduled, State.blocks_scheduled, State.pathFull_scheduled]

theorem State.canIssue_scheduled (c : Nat) : (s.scheduled x y z).canIssue c = s.canIssue c := by
  have h : (s.scheduled x y z).nextReady c = s.nextReady c := by
    unfold State.nextReady
    exact congrArg (fun p : Nat → Bool => List.find? (fun fn => !p fn) _) (funext fun fn => s.blocked_scheduled x y z c fn)
  unfold State.canIssue
  rw [h]
  rfl

end

/-- The core that issues next can issue. -/
theorem State.canIssue_of_nextIssuer {s : State} {c : Nat} (h : s.nextIssuer = some c) : s.canIssue c = true := by
  have key : ∀ d ∈ ((s.cores.filter fun k => s.canIssue k.1).map (·.1)), s.canIssue d = true := by
    intro d hd
    obtain ⟨k, hk, rfl⟩ := List.mem_map.1 hd
    exact (List.mem_filter.1 hk).2
  unfold State.nextIssuer at h
  dsimp only at h
  split at h
  · rename_i d hd
    cases h
    exact key _ (List.mem_of_find?_eq_some hd)
  · exact key _ (List.mem_of_mem_head? h)

/-! ### The issue of a bundle that passes (R32, R379) -/

/-- R38, R414: a bundle that makes no safe point is no switch point either. -/
theorem State.switches_of_unsafe {s : State} {b : Fetched} (h : b.h.safe = false) : s.switches b = false := by
  simp [State.switches, State.safePoint, h]

/-- R32, R38, R52, R383: a bundle that passes every check and hold goes through to its operations. -/
theorem State.issueHere_of_passes {t : State} (h : t.readScope.passes t.readScope.fetched = true) :
    t.issueHere = t.readScope.pass t.readScope.fetched := by
  simp only [State.passes, Bool.and_eq_true, Bool.not_eq_true', Option.isNone_iff_eq_none] at h
  obtain ⟨⟨⟨⟨⟨⟨⟨hfault, hsafe⟩, hwaits⟩, hover⟩, htraps⟩, hholds⟩, hpath⟩, herr⟩ := h
  have hpoint : t.readScope.safePoint t.readScope.fetched = false := by simp [State.safePoint, hsafe]
  have hreach : t.reach = t.readScope := by
    unfold State.reach
    simp [State.switches_of_unsafe hsafe]
  unfold State.issueHere
  simp [hreach, hfault, hpoint, State.checkpointHold, State.tryIssue, State.tryIssueFrom, hwaits, hover, htraps, hholds, hpath, herr]

/-- R32, R380: the row of a core that may issue offers its running facet its bundle. -/
theorem exec_bundleIssue_passes {core : Nat} {s : State} (hc : s.canIssue core = true)
    (hp : (s.offeredAt core).passes (s.offeredAt core).fetched = true) :
    exec (.bundleIssue core) s = .next ((s.offeredAt core).pass (s.offeredAt core).fetched) := by
  change execBundleIssue core s = _
  unfold execBundleIssue
  rw [if_neg (by simp [hc])]
  exact congrArg _ (State.issueHere_of_passes hp)

theorem State.cur_offeredAt (s : State) (c : Nat) : (s.offeredAt c).cur = c := by
  unfold State.offeredAt
  dsimp only
  rw [State.modMe_cur, State.cur_settle]

/-- A slot has a number below 8. -/
theorem slotOf_mem (i : Instr) : slotOf i ∈ [1, 2, 3, 4, 5, 6, 7, 0] := by
  unfold slotOf
  cases i.slot? with
  | none => decide
  | some k =>
    obtain _ | u | _ | _ | _ | _ | _ := k
    case v => cases u <;> decide
    all_goals decide

/-- A bundle of one operation releases it, whatever its slot. -/
theorem filterMap_find_singleton (i : Instr) :
    ([1, 2, 3, 4, 5, 6, 7, 0].filterMap fun k => [i].find? fun j => slotOf j == k) = [i] := by
  have h := slotOf_mem i
  simp only [List.mem_cons, List.not_mem_nil, or_false] at h
  obtain h | h | h | h | h | h | h | h := h <;> simp [h]

theorem State.due_pass (s : State) (b : Fetched) :
    (s.pass b).due = ([1, 2, 3, 4, 5, 6, 7, 0].filterMap fun k => b.ops.find? fun i => slotOf i == k) ++ [.bundleCommit s.cur] := by
  unfold State.pass
  dsimp only
  split <;> rfl

/-- A row that releases one operation and a commit is over when both are. -/
theorem finish_two {a u v : State} {i j : Instr} (ha : a.due = [i, j]) (hi : exec i { a with due := [j] } = .next u) (hu : u.due = [j])
    (hj : exec j { u with due := [] } = .next v) (hv : v.due = []) : finish (.next a) = .next v := by
  simp [finish, dueFuel, runDue, ha, hi, hu, hj, hv]

/-- Settles O39: the row is the bundle's issue, which passes; what it releases runs; and the row is whole or stands. -/
theorem stepRunsTheDecodedBundle : Obligations.StepRunsTheDecodedBundle := by
  unfold Obligations.StepRunsTheDecodedBundle
  rintro s r u v c i hturn hnext - rfl hops hpass
  have hdue : ((State.offered { s with stands := false } c).pass (State.offered { s with stands := false } c).fetched).due
      = [i, .bundleCommit c] := by
    rw [State.due_pass, hops, filterMap_find_singleton, State.offered, State.cur_offeredAt]
    rfl
  refine ⟨hdue, fun hi hu hj hv => ?_⟩
  have hcan : (s.scheduled true c false).canIssue c = true :=
    (s.canIssue_scheduled true c false c).trans (State.canIssue_of_nextIssuer hnext)
  have hrow : finish (exec (.bundleIssue c) (s.scheduled true c false)) = .next v := by
    rw [exec_bundleIssue_passes hcan hpass]
    exact finish_two hdue hi hu hj hv
  have hstep : step s = { s with turn := true, lastCore := c }.attempt fun t => finish (exec (.bundleIssue c) t) := by
    simp [step, hturn, hnext]
  rw [hstep]
  obtain ⟨hs, ha⟩ | ⟨hs, hz, ha⟩ | ⟨hs, hz, ha⟩ :=
    ({ s with turn := true, lastCore := c }.attempt_cases fun t => finish (exec (.bundleIssue c) t)).1 v hrow
  · exact ⟨fun h => absurd (h.symm.trans hs) (by decide), fun h => absurd (h.symm.trans hs) (by decide), fun _ => ha⟩
  · exact ⟨fun _ h => absurd (h.symm.trans hz) (by decide), fun _ _ => ha, fun h => absurd (h.symm.trans hs) (by decide)⟩
  · exact ⟨fun _ _ => ha, fun _ h => absurd (h.symm.trans hz) (by decide), fun h => absurd (h.symm.trans hs) (by decide)⟩

end Sys2Proof.Machine
end

section
/-! SUPPORT. The rows of a core, one lemma for each form that O30 speaks of (R133, R374, R380, R381, R392, R395, R396). -/

namespace Sys2Proof.Machine

/-! ### The end of a task (R133) -/

theorem State.core_of_cores {s t : State} (h : t.cores = s.cores) (c : Nat) : t.core c = s.core c := by
  rw [State.core, h, State.core]

@[simp] theorem State.markLost_cores (s : State) (launch : Nat) : (s.markLost launch).cores = s.cores := by
  unfold State.markLost
  split <;> rfl

@[simp] theorem State.dropMsgs_cores (s : State) (c launch ord : Nat) : (s.dropMsgs c launch ord).cores = s.cores := by
  unfold State.dropMsgs
  dsimp only
  split
  · rw [State.markLost_cores, State.modGeode_cores]
  · rfl

@[simp] theorem State.dropWindows_cores (s : State) (launch g : Nat) : (s.dropWindows launch g).cores = s.cores := by
  unfold State.dropWindows
  split
  · rfl
  · split <;> rfl

@[simp] theorem State.leaves_cores (s : State) (g launch task : Nat) : (s.leaves g launch task).cores = s.cores := rfl

@[simp] theorem State.tasksDone_cores (s : State) (launch : Nat) (ts : List Nat) (st : BitVec 16) :
    (s.tasksDone launch ts st).cores = s.cores := by
  unfold State.tasksDone
  split <;> rfl

@[simp] theorem Core.dropRoutines_facets (k : Core) (image : Nat → Nat) (im : Nat) : (k.dropRoutines image im).facets = k.facets := by
  unfold Core.dropRoutines
  split <;> rfl

/-- R96, R133: the facet of a task that has ended is gone. -/
theorem State.facet_endTask_resident (s : State) (c fn : Nat) : ((s.endTask c fn).facet c fn).resident = false := by
  have h : ((s.endTask c fn).core c).facets = (((s.withdraw c fn).core c).vacate fn).facets := by
    have hv : (s.endTask c fn).cores = ((s.withdraw c fn).modCore c fun k =>
        (k.vacate fn).dropRoutines (s.withdraw c fn).image ((s.withdraw c fn).image (s.facet c fn).launch)).cores := by
      unfold State.endTask State.vacate
      dsimp only
      rw [State.tasksDone_cores, State.leaves_cores, State.dropWindows_cores, State.dropMsgs_cores]
    rw [State.core_of_cores hv, State.core_modCore_same, Core.dropRoutines_facets]
  have hg : (((s.withdraw c fn).core c).vacate fn).facet fn = (((s.withdraw c fn).core c).facet fn).gone := Tbl.get_set_same _ _ _ _
  rw [State.facet, Core.facet, h, ← Core.facet, hg]
  rfl

/-! ### Replay (R380, R381) -/

section
variable {core : Nat} {s : State} (hc : s.canIssue core = true)
include hc

theorem exec_timingErrorReplay (hn : (s.facet core (s.core core).run).replays + 1 < 8) :
    exec (.timingErrorReplay core) s
      = .next ((s.modFacet core (s.core core).run fun f => { f with replays := f.replays + 1 }).countCore core 0x06 1) := by
  change execTimingErrorReplay core s = _
  unfold execTimingErrorReplay
  rw [if_neg (by simp [hc])]
  refine congrArg _ (if_pos ?_)
  rwa [State.facet_countCore, State.facet_modFacet_same]

/-- R381: the eighth replay in a row parks. -/
theorem exec_timingErrorReplay_limit (hn : 7 ≤ (s.facet core (s.core core).run).replays) :
    exec (.timingErrorReplay core) s = .next ((((s.modFacet core (s.core core).run fun f => { f with replays := f.replays + 1 }).countCore
      core 0x06 1).modFacet core (s.core core).run fun f => { f with replays := 0 }).parkReplay core (s.core core).run) := by
  change execTimingErrorReplay core s = _
  unfold execTimingErrorReplay
  rw [if_neg (by simp [hc])]
  refine congrArg _ (if_neg ?_)
  rw [State.facet_countCore, State.facet_modFacet_same]
  dsimp only
  omega

end

/-! ### The watchdog and the selector (R374, R396) -/

theorem exec_watchdogExpiry {core facet : Nat} {s : State} (hr : (s.facet core facet).resident = true)
    (hp : (s.facet core facet).parked = false) (hz : (s.geode (geodeOf core)).frozen = false) (hh : s.heldByFreeze core facet = false)
    (hb : s.blocked core facet = true) :
    exec (.watchdogExpiry core facet) s
      = .next (((s.settle core facet).withdraw core facet).takeTrapOf core facet { cause := .watchdog }) := by
  change execWatchdogExpiry core facet s = _
  simp [execWatchdogExpiry, hr, hp, hz, hh, hb]

theorem exec_quantumExpiry {core fn : Nat} {s : State} (hq : 4096 ≤ (s.core core).quantum)
    (hp : (s.facet core (s.core core).run).latch.passed = false) (hn : s.nextReady core = some fn) :
    exec (.quantumExpiry core) s = .next (s.select core fn) := by
  have hp' : ((s.core core).facet (s.core core).run).latch.passed = false := hp
  change execQuantumExpiry core s = _
  simp [execQuantumExpiry, Nat.not_lt.2 hq, hp', hn]

section
variable {core : Nat} {s t : State} (ht : t = s.offerHeld core)
include ht

theorem exec_facetSwitch_next {fn : Nat} (hi : (t.core core).idle = false) (hb : t.runBlocked core = true) (hn : t.nextReady core = some fn) :
    exec (.facetSwitch core) s = .next (t.select core fn) := by
  subst ht
  change execFacetSwitch core s = _
  simp [execFacetSwitch, hi, hb, hn]

theorem exec_facetSwitch_idle (hi : (t.core core).idle = false) (hb : t.runBlocked core = true) (hn : t.nextReady core = none) :
    exec (.facetSwitch core) s = .next (t.modCore core fun k => { k with idle := true }) := by
  subst ht
  change execFacetSwitch core s = _
  simp [execFacetSwitch, hi, hb, hn]

theorem exec_facetSwitch_first {fn : Nat} (hi : (t.core core).idle = true) (hn : t.firstReady core = some fn) :
    exec (.facetSwitch core) s = .next (t.select core fn) := by
  subst ht
  change execFacetSwitch core s = _
  simp [execFacetSwitch, hi, hn]

end

/-! ### The host's requests to a facet (R392, R395) -/

section
variable {core facet : Nat} {s : State} (hr : (s.facet core facet).resident = true) (hz : (s.geode (geodeOf core)).frozen = false)
include hr hz

theorem exec_parkreq (hp : (s.facet core facet).parked = false) :
    exec (.parkreq core facet) s = .next (((s.settle core facet).withdraw core facet).parkRequest core facet) := by
  change execParkreq core facet s = _
  simp [execParkreq, hr, hp, hz]

variable (hp : (s.facet core facet).parked = true) (hf : (s.facet core facet).frameOk = true)
include hp hf

theorem exec_resume_held (hh : s.returnHeld core facet = true) :
    exec (.resume core facet) s = .next (s.modFacet core facet fun f => { f with resumeAsked := true }) := by
  change execResume core facet s = _
  simp [execResume, hr, hp, hz, hf, hh]

/-- R392, R448: a return goes on or waits for the reads of its frame. -/
theorem exec_resume (hh : s.returnHeld core facet = false) {go : Bool × State} (hg : go = s.returnGo core facet) :
    (go.1 = true → exec (.resume core facet) s
        = .next ((go.2.modFacet core facet fun f => { f with resumeAsked := false }).returnFrom core facet))
      ∧ (go.1 = false → exec (.resume core facet) s = .next (go.2.modFacet core facet fun f => { f with resumeAsked := true })) := by
  subst hg
  refine ⟨fun h => ?_, fun h => ?_⟩ <;> change execResume core facet s = _ <;> simp [execResume, hr, hp, hz, hf, hh, h]

theorem exec_enter_handler (hi : (s.facet core facet).intrap = true) :
    exec (.enter core facet) s = .next (s.park core facet 0x21) := by
  change execEnter core facet s = _
  simp [execEnter, hr, hp, hz, hf, hi]

theorem exec_enter_noBase (hi : (s.facet core facet).intrap = false) (hb : tbaseOk (s.core core) (s.facet core facet) = false) :
    exec (.enter core facet) s = .next (s.park core facet 0x20) := by
  change execEnter core facet s = _
  simp [execEnter, hr, hp, hz, hf, hi, hb]

theorem exec_enter (hi : (s.facet core facet).intrap = false) (hb : tbaseOk (s.core core) (s.facet core facet) = true) :
    exec (.enter core facet) s = .next (s.modFacet core facet Facet.enterHandler) := by
  change execEnter core facet s = _
  simp [execEnter, hr, hp, hz, hf, hi, hb]

end

theorem exec_resultLanding {core facet : Nat} {s : State} (hr : (s.facet core facet).resident = true) :
    exec (.resultLanding core facet) s = .next (s.settle core facet) := by
  change execResultLanding core facet s = _
  rw [execResultLanding, if_pos hr]

/-- Settles O30: each row by its lemma above, and the committed facet field by field. -/
theorem coreEventsServeTheRunningFacet : Obligations.CoreEventsServeTheRunningFacet := by
  unfold Obligations.CoreEventsServeTheRunningFacet
  refine ⟨?issue, ?commit, ?ret, ?after, ?landing, ?replay, ?limit, ?watchdog, ?quantum, ?switch, ?resume, ?enter, ?park⟩
  case issue => exact fun core s => exec_bundleIssue_passes
  case commit =>
    rintro core s f l x hf hl hr hp hz hret rfl
    refine ⟨exec_bundleCommit rfl hf hl hr hp hz hret, _, rfl, ?_⟩
    subst hf hl
    have times := s.times_committed core
    simp only [Facet.times, Facet.stamped, Prod.mk.injEq] at times
    obtain ⟨hclock, hgroup, hlatch, hreplays⟩ := times
    refine ⟨hclock, hgroup, hlatch, hreplays, s.quantum_committed core, fun b o ht => ?_, fun ht hl => ?_⟩
    · rw [State.facet_committed]
      exact Facet.continueAt_target ht
    · rw [State.facet_committed]
      obtain ⟨hb, hpc⟩ := Facet.continueAt_loop (f := (((s.core core).modFacet (s.core core).run Facet.stamped).landDue
        (s.core core).run).facet (s.core core).run) ht hl
      exact ⟨hb.trans (congrArg Facet.bank (Core.landDue_stamped_control (s.core core) (s.core core).run) :), hpc⟩
  case ret =>
    rintro core fn s f l go hfn hf hl hr hp hz hret rfl
    refine ⟨exec_bundleCommit_held hfn hf hl hr hp hz hret, exec_bundleCommit_reads hfn hf hl hr hp hz hret,
      exec_bundleCommit_returns hfn hf hl hr hp hz hret, fun h => State.returnGo_here ?_⟩
    rwa [hf]
  case after =>
    intro c fn s l
    refine ⟨fun hh => ?_, fun x => State.afterCommit_trap, State.afterCommit_return, State.afterCommit_park, State.afterCommit_yield,
      State.afterCommit_none⟩
    rw [State.afterCommit, if_pos hh]
    exact State.facet_endTask_resident _ _ _
  case landing => exact fun core facet s => exec_resultLanding
  case replay => exact fun core s => exec_timingErrorReplay
  case limit =>
    intro core s hc hn
    exact ⟨_, exec_timingErrorReplay_limit hc hn, State.facet_parkReplay _ _ _⟩
  case watchdog => exact fun core facet s => exec_watchdogExpiry
  case quantum => exact fun core fn s => exec_quantumExpiry
  case switch =>
    intro core s t ht
    exact ⟨fun fn => exec_facetSwitch_next ht, exec_facetSwitch_idle ht, fun fn => exec_facetSwitch_first ht⟩
  case resume =>
    intro core facet s hr hp hf hz
    exact ⟨fun hh go => exec_resume hr hz hp hf hh, exec_resume_held hr hz hp hf⟩
  case enter =>
    intro core facet s hr hp hf hz
    exact ⟨exec_enter_handler hr hz hp hf, exec_enter_noBase hr hz hp hf, exec_enter hr hz hp hf⟩
  case park =>
    intro core facet s hr hp hz
    exact ⟨exec_parkreq hr hz hp, _, exec_parkreq hr hz hp, State.facet_parkRequest _ _ _⟩

end Sys2Proof.Machine
end

section
/-! SUPPORT. What the effect of a slot operation leaves standing (R49, R51, R54, R56): the registers of its facet but those it
writes, the other facets, what stands of every core, and memory. -/

namespace Sys2Proof.Machine

/-! ### The frame of a facet -/

/-- What an operation may change in its facet: the registers with new results in flight, and whether the sticky flags, the loop stack with
the rotation base, and the estimate. -/
structure Reach where
  regs : List RegId
  flags : Bool
  loops : Bool
  est : Bool

/-- What an operation of a slot may change in the facet `f`. -/
def reachOf (f : Facet) (i : Instr) : Reach where
  regs := dests f i
  flags := roundsAtIssue i || match i with | .flagsClr .. => true | _ => false
  loops := match i with | .loop .. | .loopi .. | .lexit .. => true | _ => false
  est := match i with | .setest .. => true | _ => false

/-- A facet after an operation that changes no more than `e`. -/
structure Facet.Frames (e : Reach) (f u : Facet) : Prop where
  flight : ∀ r, r ∉ e.regs → u.flight r = f.flight r
  files : f.keepsFiles u
  flags : e.flags = false → u.flags = f.flags
  loops : e.loops = false → u.lstk = f.lstk ∧ u.lsDepth = f.lsDepth ∧ u.rotBase = f.rotBase
  est : e.est = false → u.estSet = f.estSet ∧ u.estAt = f.estAt

theorem Facet.keepsFiles_trans {f u v : Facet} (h : f.keepsFiles u) (k : u.keepsFiles v) : f.keepsFiles v := by
  unfold Facet.keepsFiles at *
  simp_all

theorem Facet.Frames.trans {e : Reach} {f u v : Facet} (h : f.Frames e u) (k : u.Frames e v) : f.Frames e v where
  flight r hr := (k.flight r hr).trans (h.flight r hr)
  files := Facet.keepsFiles_trans h.files k.files
  flags he := (k.flags he).trans (h.flags he)
  loops he := by simp [k.loops he, h.loops he]
  est he := by simp [k.est he, h.est he]

/-- The parts of a facet that its frame speaks of, but for the flags, the loop stack and the estimate. -/
def Facet.files (f : Facet) :=
  (f.landings, (f.s, f.g, f.m, f.x, f.h, f.q, f.d, f.y), (f.pc, f.bank, f.clock, f.group),
    (f.tbase, f.tframe, f.tcause, f.tinfo, f.intrap), f.launch, f.task, f.pasid, f.vblocks, f.cblocks)

/-- The loop stack and the rotation base. -/
def Facet.loops (f : Facet) := (f.lstk, f.lsDepth, f.rotBase)

/-- The estimate and its time. -/
def Facet.estimate (f : Facet) := (f.estSet, f.estAt)

/-- An operation that issues no result, and changes flags, loop stack and estimate as far as it may. -/
theorem Facet.Frames.of_files {e : Reach} {f u : Facet} (h : u.files = f.files) (hf : e.flags = false → u.flags = f.flags)
    (hl : e.loops = false → u.loops = f.loops) (he : e.est = false → u.estimate = f.estimate) : f.Frames e u := by
  simp only [Facet.files, Prod.mk.injEq] at h
  obtain ⟨hland, hfiles, hplace, htrap, hid⟩ := h
  refine ⟨fun r _ => by rw [Facet.flight, hland]; rfl, ⟨hfiles, hplace, htrap, hid⟩, hf, fun h => ?_, fun h => ?_⟩
  · simpa [Facet.loops] using hl h
  · simpa [Facet.estimate] using he h

/-- An operation that changes nothing its frame speaks of. -/
theorem Facet.Frames.of_same {e : Reach} {f u : Facet} (h : u.files = f.files) (hf : u.flags = f.flags) (hl : u.loops = f.loops)
    (he : u.estimate = f.estimate) : f.Frames e u :=
  .of_files h (fun _ => hf) (fun _ => hl) (fun _ => he)

/-- R49: the issue of a result changes what is in flight to its register alone. -/
theorem Facet.Frames.issue {e : Reach} {w : RegWrite} (hw : w.id ∈ e.regs) (f : Facet) (lat : Nat) (fl : BitVec 6) (ac : Nat)
    (po : Bool) : f.Frames e (f.issue w lat fl ac po) where
  flight r hr := f.issue_other w lat fl ac po r fun h => hr (h ▸ hw)
  files := ⟨⟨rfl, rfl, rfl, rfl, rfl, rfl, rfl, rfl⟩, ⟨rfl, rfl, rfl, rfl⟩, ⟨rfl, rfl, rfl, rfl, rfl⟩, ⟨rfl, rfl, rfl, rfl, rfl⟩⟩
  flags _ := rfl
  loops _ := ⟨rfl, rfl, rfl⟩
  est _ := ⟨rfl, rfl⟩

/-! ### The frame of a state -/

/-- The core whose turn it is, and the memories outside the cores. -/
def State.outside (s : State) := (s.cur, s.mem, s.media, s.durQ)

/-- What stands of every core. -/
def Core.standing (k : Core) := (k.vfile, k.ist, k.routines, k.run)

/-- A state after an operation of the running facet that changes no more of that facet than `e`. -/
structure State.Frames (e : Reach) (s t : State) : Prop where
  outside : t.outside = s.outside
  core : ∀ c, (t.core c).standing = (s.core c).standing
  other : ∀ c n, c ≠ s.cur ∨ n ≠ s.fn → t.facet c n = s.facet c n
  me : s.me.Frames e t.me

namespace State.Frames

variable {e : Reach} {s t u : State}

theorem start (s : State) : s.Frames e s :=
  ⟨rfl, fun _ => rfl, fun _ _ _ => rfl, .of_same rfl rfl rfl rfl⟩

theorem cur (h : s.Frames e t) : t.cur = s.cur := congrArg (·.1) h.outside

theorem fn (h : s.Frames e t) : t.fn = s.fn := by
  rw [State.fn, State.here, h.cur]
  exact congrArg (·.2.2.2) (h.core s.cur)

theorem trans (h : s.Frames e t) (k : t.Frames e u) : s.Frames e u where
  outside := k.outside.trans h.outside
  core c := (k.core c).trans (h.core c)
  other c n hc := (k.other c n (by rwa [h.cur, h.fn])).trans (h.other c n hc)
  me := h.me.trans k.me

/-- A state whose cores and memories are those of a framed one is framed. -/
theorem beside (h : s.Frames e t) (hc : u.cores = t.cores) (ho : u.outside = t.outside) : s.Frames e u := by
  have hcore : u.core = t.core := by unfold State.core; rw [hc]
  have hcur : u.cur = t.cur := congrArg (·.1) ho
  have hfacet : u.facet = t.facet := by funext c n; simp only [State.facet, hcore]
  have hme : u.me = t.me := by simp only [State.me, State.fn, State.here, hcore, hcur]
  refine h.trans ⟨ho, fun c => by rw [hcore], fun c n _ => by rw [hfacet], ?_⟩
  rw [hme]
  exact (start t).me

theorem numbered (h : s.Frames e t) (n : Nat) : s.Frames e { t with nextId := n } := h.beside rfl rfl

/-- A change of a core but of its facets and of what stands of it. -/
theorem modCore (h : s.Frames e t) (c : Nat) {g : Core → Core} (hs : (g (t.core c)).standing = (t.core c).standing)
    (hf : (g (t.core c)).facets = (t.core c).facets) : s.Frames e (t.modCore c g) := by
  have hcore : ∀ d, ((t.modCore c g).core d).standing = (t.core d).standing ∧ ((t.modCore c g).core d).facets = (t.core d).facets := by
    intro d
    by_cases hd : d = c
    · subst hd; simp [hs, hf]
    · simp [State.core_modCore_other _ _ _ _ hd]
  have hfacet : ∀ d n, (t.modCore c g).facet d n = t.facet d n := fun d n => by
    simp only [State.facet, Core.facet, (hcore d).2]
  have hfn : (t.modCore c g).fn = t.fn := congrArg (·.2.2.2) (hcore t.cur).1
  refine h.trans ⟨rfl, fun d => (hcore d).1, fun d n _ => hfacet d n, ?_⟩
  have hme : (t.modCore c g).me = t.me := by
    rw [State.me, hfn]
    exact hfacet t.cur t.fn
  rw [hme]
  exact (start t).me

theorem modHere (h : s.Frames e t) {g : Core → Core} (hs : (g t.here).standing = t.here.standing)
    (hf : (g t.here).facets = t.here.facets) : s.Frames e (t.modHere g) :=
  h.modCore t.cur hs hf

/-- A change of the running facet within the reach. -/
theorem modMe (h : s.Frames e t) {g : Facet → Facet} (hg : ∀ f : Facet, f.Frames e (g f)) : s.Frames e (t.modMe g) := by
  refine h.trans ⟨rfl, fun c => ?_, fun c n hcn => ?_, ?_⟩
  · by_cases hc : c = t.cur
    · subst hc; rw [State.modMe, State.core_modFacet_same]; rfl
    · rw [State.modMe, State.core_modFacet_other _ _ _ _ _ hc]
  · exact State.facet_modFacet_other _ _ _ _ _ _ (by tauto)
  · rw [State.me_modMe]
    exact hg _

/-- A change of the running facet of which its frame says nothing. -/
theorem modMe_same (h : s.Frames e t) {g : Facet → Facet} (h1 : ∀ f, (g f).files = f.files) (h2 : ∀ f, (g f).flags = f.flags)
    (h3 : ∀ f, (g f).loops = f.loops) (h4 : ∀ f, (g f).estimate = f.estimate) : s.Frames e (t.modMe g) :=
  h.modMe fun f => .of_same (h1 f) (h2 f) (h3 f) (h4 f)

/-! ### Results -/

theorem land (h : s.Frames e t) {w : RegWrite} (hw : w.id ∈ e.regs) (lat : Nat) (fl : BitVec 6) (ac : Nat) (po : Bool) :
    s.Frames e (t.land w lat fl ac po) :=
  h.modMe fun f => .issue hw f lat fl ac po

theorem putS (h : s.Frames e t) {d : BitVec 6} (hd : .s d.toNat ∈ e.regs) (v : BitVec 64) (lat : Nat) : s.Frames e (t.putS d v lat) :=
  h.land (by exact hd) lat 0 0 false

theorem putPair (h : s.Frames e t) {d : BitVec 6} (hd : .s d.toNat ∈ e.regs) (hd' : .s (d.toNat + 1) ∈ e.regs) (v : BitVec 64 × BitVec 64)
    (lat : Nat) : s.Frames e (t.putPair d v lat) :=
  (h.land (by exact hd) lat 0 0 false).land (by exact hd') lat 0 0 false

theorem putG (h : s.Frames e t) {d : BitVec 3} (hd : .g d.toNat ∈ e.regs) (v : Bool) (lat : Nat) : s.Frames e (t.putG d v lat) :=
  h.land (by exact hd) lat 0 0 false

theorem putM (h : s.Frames e t) {d : BitVec 4} (hd : .m d.toNat ∈ e.regs) (v : BitVec 128) (lat : Nat) (fl : BitVec 6) :
    s.Frames e (t.putM d v lat fl) :=
  h.land (by exact hd) lat fl 0 false

theorem putV (h : s.Frames e t) {d : BitVec 9} (hd : .v (t.me.phys d) ∈ e.regs) (v : VReg) (lat : Nat) (fl : BitVec 6) :
    s.Frames e (t.putV d v lat fl) :=
  h.land (by exact hd) lat fl 0 false

theorem deliverN (h : s.Frames e t) {sn : BitVec 6} (hd : ∀ r ∈ nDst sn, r ∈ e.regs) : s.Frames e (t.deliverN sn) := by
  unfold State.deliverN
  split
  · exact h
  · next hn => exact h.land (hd _ (by rw [nDst, if_neg (by simpa using hn)]; exact List.mem_singleton_self _)) 2 0 0 false

/-! ### Latch, flags, loops and counters -/

theorem modLatch (h : s.Frames e t) (g : Latch → Latch) : s.Frames e (t.modLatch g) :=
  h.modMe_same (fun _ => rfl) (fun _ => rfl) (fun _ => rfl) (fun _ => rfl)

theorem take (h : s.Frames e t) (b : Bool) (o : Nat) : s.Frames e (t.take b o) := h.modLatch _

theorem raise (h : s.Frames e t) (he : e.flags = true) (fl : BitVec 6) : s.Frames e (t.raise fl) :=
  h.modMe fun f => .of_files rfl (fun hf => absurd he (by simp [hf])) (fun _ => rfl) (fun _ => rfl)

theorem resetStages (h : s.Frames e t) (he : e.loops = true) (hr : ∀ r ∈ rotDst 1, r ∈ e.regs) (c : BitVec 64) (st : BitVec 2) :
    s.Frames e (t.resetStages c st) := by
  refine ((((h.modMe fun f => ?_).land (hr _ ?_) 1 0 0 false).land (hr _ ?_) 1 0 0 false).land (hr _ ?_) 1 0 0 false).land (hr _ ?_) 1 0 0 false
  · exact .of_files rfl (fun _ => rfl) (fun hf => absurd he (by simp [hf])) (fun _ => rfl)
  all_goals simp [rotDst, RegWrite.id]

/-- R136: a loop instruction writes the stages of a rotating loop, and the loop stack or the target. -/
theorem openLoop (h : s.Frames e t) (he : e.loops = true) {ro : BitVec 1} (hr : ∀ r ∈ rotDst ro, r ∈ e.regs) (c : BitVec 64)
    (st : BitVec 2) (p : BitVec 16) : s.Frames e (t.openLoop c st (ro == 1) p) := by
  have hrot : s.Frames e (if (ro == 1) = true then t.resetStages c st else t) := by
    split
    · next hro => exact h.resetStages he (eq_of_beq hro ▸ hr) c st
    · exact h
  unfold State.openLoop
  dsimp only
  split
  · exact hrot.take _ _
  · exact hrot.modMe fun f => .of_files rfl (fun _ => rfl) (fun hf => absurd he (by simp [hf])) (fun _ => rfl)

theorem devPut (h : s.Frames e t) (a hi lo v : Nat) : s.Frames e (t.devPut a hi lo v) := h.beside rfl rfl

end State.Frames

theorem State.outside_countAt (s : State) (a ev n : Nat) : (s.countAt a ev n).outside = s.outside := by
  unfold State.countAt
  generalize 2 ^ 48 = full
  split
  · dsimp only
    split <;> rfl
  · rfl

theorem State.outside_count (s : State) (a k ev n : Nat) : (s.count a k ev n).outside = s.outside :=
  foldl_keeps State.outside _ (fun t _ => t.outside_countAt _ _ _) _ _

namespace State.Frames

variable {e : Reach} {s t : State}

theorem count (h : s.Frames e t) (a k ev n : Nat) : s.Frames e (t.count a k ev n) :=
  h.beside (congrArg (·.1) (t.count_inside a k ev n)) (t.outside_count a k ev n)

/-! ### Scratchpad and handle accesses -/

theorem foldl {α : Type} {g : State → α → State} (hg : ∀ t a, s.Frames e t → s.Frames e (g t a)) (l : List α) (h : s.Frames e t) :
    s.Frames e (l.foldl g t) := by
  induction l generalizing t with
  | nil => exact h
  | cons a l ih => exact ih (hg t a h)

theorem noteSpadErr (h : s.Frames e t) (c : Nat) (offs : List Nat) : s.Frames e (t.noteSpadErr c offs) := by
  have hbad : ∀ l : List Nat, s.Frames e (l.foldl (fun u x =>
      (u.devPut (aCore c + 0x40) 31 16 (min 0xFFFF (u.devFld (aCore c + 0x40) 31 16 + 1))).devPut (aCore c + 0x40) 51 32 (8 * x)) t) :=
    fun l => foldl (fun u _ hu => (hu.devPut _ _ _ _).devPut _ _ _ _) l h
  unfold State.noteSpadErr
  dsimp only
  split
  · exact hbad _
  · exact (((hbad _).devPut _ _ _ _).count _ _ _ _).modCore c rfl rfl

theorem sendAccess (h : s.Frames e t) (home : Home) (op : AccessOp) (after : List Nat) (mir tol tpol : Bool)
    (via : Option (BitVec 20 × Handle)) : s.Frames e (t.sendAccess home op after mir tol tpol via) :=
  h.beside rfl rfl

end State.Frames

@[simp] theorem LoadDst.id_loadWrite (dst : LoadDst) (bs : List (BitVec 8)) : (loadWrite dst bs).1.id = dst.reg.id := by
  cases dst <;> rfl

/-- R232: an atomic changes nothing of its core but the scratchpad. -/
theorem Core.spadAtomic_frame (k : Core) (o w : Nat) (op : BitVec 4) (t : BitVec 5) (mode : BitVec 3) (opd cmp : Nat) :
    (k.spadAtomic o w op t mode opd cmp).1.standing = k.standing ∧ (k.spadAtomic o w op t mode opd cmp).1.facets = k.facets := by
  unfold Core.spadAtomic
  dsimp only
  split <;> exact ⟨rfl, rfl⟩

namespace State.Frames

variable {e : Reach} {s t : State}

theorem spadLoad (h : s.Frames e t) {dst : LoadDst} (hd : dst.reg.id ∈ e.regs) (segs : List (Nat × Nat)) (bound : Nat) :
    s.Frames e (t.spadLoad segs dst bound) := by
  unfold State.spadLoad
  split
  · exact h.land (by simpa using hd) _ _ 0 false
  · dsimp only
    split
    · exact (h.land (by simpa using hd) _ _ 0 _).noteSpadErr _ _
    · exact (h.land (by exact hd) _ 0 _ false).sendAccess _ _ _ _ _ _ _

theorem loadElems (h : s.Frames e t) {d : BitVec 9} (hd : .v (t.me.phys d) ∈ e.regs) (m : BitVec 4) (ty : BitVec 5) (x : BitVec 32)
    (addr : Nat → Nat) : s.Frames e (t.loadElems d m ty x addr) :=
  h.spadLoad (by exact hd) _ _

theorem spadStore (h : s.Frames e t) (ws : List ByteWrite) : s.Frames e (t.spadStore ws) := by
  unfold State.spadStore
  split
  · exact h
  · dsimp only
    split
    · exact h.modHere rfl rfl
    · exact h.sendAccess _ _ _ _ _ _ _

theorem spadAmo (h : s.Frames e t) {d : BitVec 6} (hd : .s d.toNat ∈ e.regs) (a w : Nat) (op : BitVec 4) (ty : BitVec 5)
    (mode : BitVec 3) : s.Frames e (t.spadAmo a w op ty mode d) := by
  unfold State.spadAmo
  dsimp only
  split
  · refine ((h.noteSpadErr _ _).modHere ?_ ?_).land (by exact hd) _ _ _ _
    · exact (Core.spadAtomic_frame _ _ _ _ _ _ _ _).1
    · exact (Core.spadAtomic_frame _ _ _ _ _ _ _ _).2
  · exact (h.land (by exact hd) _ 0 _ false).sendAccess _ _ _ _ _ _ _

theorem handleLoad (h : s.Frames e t) {dst : LoadDst} (hd : dst.reg.id ∈ e.regs) (hn : Handle) (ea n : Nat) :
    s.Frames e (t.handleLoad hn ea n dst) :=
  (h.land (by exact hd) _ 0 _ false).sendAccess _ _ _ _ _ _ _

theorem handleStore (h : s.Frames e t) (hn : Handle) (ea : Nat) (ws : List ByteWrite) (after : List Nat) (mir : Bool) :
    s.Frames e (t.handleStore hn ea ws after mir) := by
  unfold State.handleStore
  split
  · exact h
  · exact h.sendAccess _ _ _ _ _ _ _

theorem handleAmo (h : s.Frames e t) {d : BitVec 6} (hd : .s d.toNat ∈ e.regs) (hn : Handle) (ea w : Nat) (op : BitVec 4)
    (ty : BitVec 5) (mode : BitVec 3) : s.Frames e (t.handleAmo hn ea w op ty mode d) :=
  (h.land (by exact hd) _ 0 _ false).sendAccess _ _ _ _ _ _ _

/-! ### Ring, event queue and matrix queue -/

theorem sendMsg (h : s.Frames e t) (a : BitVec 9) (rank : BitVec 4) (facet : BitVec 2) (lane : BitVec 3) (dir : BitVec 1) :
    s.Frames e (t.sendMsg a rank facet lane dir) :=
  h.beside rfl rfl

theorem takeMsg (h : s.Frames e t) {d : BitVec 9} (hd : .v (t.me.phys d) ∈ e.regs) (rank : BitVec 4) (facet : BitVec 2)
    (lane : BitVec 3) (dir : BitVec 1) : s.Frames e (t.takeMsg d rank facet lane dir) := by
  unfold State.takeMsg
  dsimp only
  split
  · exact (h.beside (u := t.modGeode _ _) rfl rfl).land (by exact hd) _ _ _ _
  · exact h

theorem popRecord (h : s.Frames e t) {d : BitVec 6} (hd : .s d.toNat ∈ e.regs) (hd' : .s (d.toNat + 1) ∈ e.regs) :
    s.Frames e (t.popRecord d) := by
  unfold State.popRecord
  split
  · exact (h.modHere rfl rfl).putPair hd hd' _ _
  · exact h

theorem enqueue (h : s.Frames e t) (kind : ItemKind) (n place lock : Nat) : s.Frames e (t.enqueue kind n place lock) :=
  h.modMe_same (fun _ => rfl) (fun _ => rfl) (fun _ => rfl) (fun _ => rfl)

theorem callRoutine (h : s.Frames e t) (ix : BitVec 6) {sn : BitVec 6} (hd : ∀ r ∈ nDst sn, r ∈ e.regs) (imm : BitVec 34) :
    s.Frames e (t.callRoutine ix sn imm) := by
  unfold State.callRoutine
  dsimp only
  split
  · refine deliverN (numbered ?_ _) hd
    exact (h.enqueue _ _ _ _).modMe_same (fun _ => rfl) (fun _ => rfl) (fun _ => rfl) (fun _ => rfl)
  · exact (h.enqueue _ _ _ _).deliverN hd

theorem queueDrain (h : s.Frames e t) {sn : BitVec 6} (hd : ∀ r ∈ nDst sn, r ∈ e.regs) (mode : BitVec 3) (fmt : BitVec 5)
    (col : BitVec 9) (row rows : BitVec 7) (z : Bool) : s.Frames e (t.queueDrain sn mode fmt col row rows z) := by
  refine deliverN (numbered ?_ _) hd
  exact (h.enqueue _ _ _ _).modHere rfl rfl

/-! ### Engines -/

theorem takePlace (h : s.Frames e t) (kind unit : Nat) (classes : List Nat) (cm : BitVec 20) : s.Frames e (t.takePlace kind unit classes cm) := by
  refine numbered (t := t.modMe _) ?_ _
  exact h.modMe_same (fun _ => rfl) (fun _ => rfl) (fun _ => rfl) (fun _ => rfl)

/-- An operation of an engine takes its place and enters a queue of its core. -/
theorem queued (h : s.Frames e t) (kind unit : Nat) (classes : List Nat) (cm : BitVec 20) {g : Core → Core}
    (hs : ∀ k, (g k).standing = k.standing) (hf : ∀ k, (g k).facets = k.facets) :
    s.Frames e ((t.takePlace kind unit classes cm).modHere g) :=
  (h.takePlace kind unit classes cm).modHere (hs _) (hf _)

theorem feed (h : s.Frames e t) (da db : BitVec 4) (ty : BitVec 5) (sm : BitVec 3) (kind tgt : BitVec 2) (cm : BitVec 20) :
    s.Frames e (t.feed da db ty sm kind tgt cm) :=
  h.queued _ _ _ _ (fun _ => by split <;> rfl) (fun _ => by split <;> rfl)

theorem bandFetch (h : s.Frames e t) (b : Nat) (bd : Band) (first n : Nat) (cm : BitVec 20) : s.Frames e (t.bandFetch b bd first n cm) :=
  h.queued _ _ _ _ (fun _ => rfl) (fun _ => rfl)

theorem bulkGo (h : s.Frames e t) (en : BitVec 4) (cm : BitVec 20) : s.Frames e (t.bulkGo en cm) := by
  refine beside (t := (t.takePlace _ _ _ _).bulkLock _) ?_ rfl rfl
  unfold State.bulkLock
  split
  · split
    · exact (h.takePlace _ _ _ _).beside rfl rfl
    · exact (h.takePlace _ _ _ _).modCore _ rfl rfl
  · exact h.takePlace _ _ _ _

theorem bulkCancel (h : s.Frames e t) (en : BitVec 4) (tag : BitVec 16) : s.Frames e (t.bulkCancel en tag) := by
  have hbulk : ∀ {u : State}, s.Frames e u → ∀ n g, s.Frames e (u.modBulk n g) := fun hu _ _ => hu.beside rfl rfl
  unfold State.bulkCancel
  dsimp only
  cases (t.bulk.get en.toNat {}).active <;> cases (t.bulk.get en.toNat {}).shadow <;> dsimp only
  · exact h
  · split
    · exact hbulk h _ _
    · exact h
  · split
    · exact hbulk h _ _
    · exact h
  · split <;> split
    · exact hbulk (hbulk h _ _) _ _
    · exact hbulk h _ _
    · exact hbulk h _ _
    · exact h

theorem crcRd (h : s.Frames e t) (rst : BitVec 1) (ac : BitVec 2) (tag : BitVec 16) : s.Frames e (t.crcRd rst ac tag) := by
  unfold State.crcRd
  dsimp only
  split
  · exact (h.modHere rfl rfl).modMe_same (fun _ => rfl) (fun _ => rfl) (fun _ => rfl) (fun _ => rfl)
  · exact h.modHere rfl rfl

end State.Frames

end Sys2Proof.Machine
end

section
/-! SUPPORT. Every ready operation of a slot keeps its frame, row by row (R49, R51, R54, R56). -/

namespace Sys2Proof.Machine

/-- R197: what a write of accumulator entries leaves standing of its core. -/
theorem Core.accPut_frame (k : Core) (f : Facet) (es : List (Nat × Nat × AccEntry)) :
    (k.accPut f es).standing = k.standing ∧ (k.accPut f es).facets = k.facets := ⟨rfl, rfl⟩

open State.Frames in
/-- R49, R54, R56: the effect of every ready operation of a slot stays within its reach. -/
theorem exec_frames {i : Instr} {s : State} (hi : i.slot?.isSome = true) (h : s.ready i = true) :
    ∃ t, exec i s = .next t ∧ s.Frames (reachOf s.me i) t := by
  have one {r : RegId} : r ∈ [r] := List.mem_singleton_self r
  cases i
  -- results alone
  case add | sub | mul | mulh | mulhn | div | divn | rem | remn | and | or | xor | shl | shr | sra | rot | min | max | minn | maxn
      | sel | addi | andi | ori | xori | shli | shri | srai | li | lih | muli | clz | ctz | popc | bint3 | bdint3 | bint2 | bdint2
      | brev | sext | zext | rdid | rdsys | rdtime | rdcyc | flagsRd | movGs | movXs | movVs =>
    exact ⟨_, slotOp_ready h, (start s).putS one _ _⟩
  case add128 => exact ⟨_, slotOp_ready h, (start s).putPair List.mem_cons_self (List.mem_cons_of_mem _ one) _ _⟩
  case evpop => exact ⟨_, slotOp_ready h, (start s).popRecord List.mem_cons_self (List.mem_cons_of_mem _ one)⟩
  case cmpEq | cmpNe | cmpLt | cmpLtn | cmpLe | cmpLen | cmpiEq | cmpiLt | gand | gor | gnot | movSg | movMg =>
    exact ⟨_, slotOp_ready h, (start s).putG one _ _⟩
  case fclass | fcmp | icmp | mand | mor | mxor | mnot =>
    exact ⟨_, slotOp_ready h, (start s).putM one _ _ _⟩
  case movSv | bscale | vsel | vcompress | vexpand | viota | mpopc | mfirst | iredAdd | iadd128 | vrng
      | fadd | fsub | fmul | fdiv | fma | fms | fnma | fsqrt | frcp | frsq | fexp2 | flog2 | fmin | fmax | fscale | fabs | fneg
      | fcvt | fround | icvt | fredAdd | fredMax | fredMin | vrngF | vperm | vzip | vunzip | vrev | vbcast | vslide | vmovi
      | iadd | isub | imul | imulh | iand | ior | ixor | ishl | ishr | isra | imin | imax | iadds | isubs | iabs | iclz | ipopc
      | ibint3 =>
    exact ⟨_, slotOp_ready h, (start s).putV one _ _ _⟩
  case hdrop | yadd | ysub | yand | yxor | ycmp | movSx | movSq | movSd | mparami | xadd | xaddi | xli | xsub | movVx =>
    exact ⟨_, slotOp_ready h, (start s).land one _ _ _ _⟩
  case translate => exact ⟨_, slotOp_ready h, ((start s).land one _ _ _ _).count _ _ _ _⟩
  -- holds and checks
  case wait | drain | chkY | chkV | chkS | ifence | wfe | mwait => exact ⟨_, slotOp_ready h, start s⟩
  -- transfers, and what the commit acts on
  case br | brs | ret => exact ⟨_, slotOp_ready h, (start s).take _ _⟩
  case call => exact ⟨_, slotOp_ready h, ((start s).putS one _ _).take _ _⟩
  case brb =>
    refine ⟨_, slotOp_ready h, take ?_ _ _⟩
    split
    · exact start s
    · exact (start s).putS one _ _
  case loop | loopi => exact ⟨_, slotOp_ready h, (start s).openLoop rfl (fun _ hr => hr) _ _ _⟩
  case lexit =>
    refine ⟨_, slotOp_ready h, (modMe (start s) fun f => ?_).take _ _⟩
    exact .of_files rfl (fun _ => rfl) (fun hl => absurd hl (by simp [reachOf])) (fun _ => rfl)
  case halt | yield | wrsys | sys | trapi | eret => exact ⟨_, slotOp_ready h, (start s).modLatch _⟩
  case setest =>
    refine ⟨_, slotOp_ready h, modMe (start s) fun f => ?_⟩
    exact .of_files rfl (fun _ => rfl) (fun _ => rfl) (fun he => absurd he (by simp [reachOf]))
  case flagsClr =>
    refine ⟨_, slotOp_ready h, modMe (start s) fun f => ?_⟩
    exact .of_files rfl (fun hf => absurd hf (by simp [reachOf])) (fun _ => rfl) (fun _ => rfl)
  case pbar | tsync | bulkSet =>
    exact ⟨_, slotOp_ready h, (start s).modMe_same (fun _ => rfl) (fun _ => rfl) (fun _ => rfl) (fun _ => rfl)⟩
  -- barriers and the ring
  case barArr => exact ⟨_, slotOp_ready h, (start s).sendAccess _ _ _ _ _ _ _⟩
  case barWait => exact ⟨_, slotOp_ready h, (start s).noteSpadErr _ _⟩
  case send => exact ⟨_, slotOp_ready h, (start s).sendMsg _ _ _ _ _⟩
  case recv => exact ⟨_, slotOp_ready h, (start s).takeMsg one _ _ _ _⟩
  -- engines
  case feed => exact ⟨_, slotOp_ready h, (start s).feed _ _ _ _ _ _ _⟩
  case lcopy | ifetch | winClose => exact ⟨_, slotOp_ready h, (start s).queued _ _ _ _ (fun _ => rfl) (fun _ => rfl)⟩
  case winOpen | winAdv => exact ⟨_, slotOp_ready h, (start s).bandFetch _ _ _ _ _⟩
  case bulkGo => exact ⟨_, slotOp_ready h, (start s).bulkGo _ _⟩
  case bulkCancel => exact ⟨_, slotOp_ready h, (start s).bulkCancel _ _⟩
  case crcRd => exact ⟨_, slotOp_ready h, (start s).crcRd _ _ _⟩
  -- the matrix queue
  case mcall => exact ⟨_, slotOp_ready h, (start s).callRoutine _ (fun _ hr => hr) _⟩
  case mzero => exact ⟨_, slotOp_ready h, ((start s).enqueue _ _ _ _).deliverN fun _ hr => hr⟩
  case mdrainP => exact ⟨_, slotOp_ready h, (start s).queueDrain (fun _ hr => hr) _ _ _ _ _ _⟩
  case mucodeLd | mwit | mflush | mstat => exact ⟨_, slotOp_ready h, (start s).enqueue _ _ _ _⟩
  case mdrainV =>
    refine ⟨_, slotOp_ready h, ?_⟩
    dsimp only
    split
    · exact modHere ((start s).putV one _ _ _) (Core.accPut_frame _ _ _).1 (Core.accPut_frame _ _ _).2
    · exact (start s).putV one _ _ _
  -- loads, stores and atomics
  case ldS | ldV | ldM | ldQ | vfill => exact ⟨_, slotOp_ready h, (start s).spadLoad one _ _⟩
  case ldVs | ldVg => exact ⟨_, slotOp_ready h, (start s).loadElems one _ _ _ _⟩
  case ldhS | ldhV => exact ⟨_, slotOp_ready h, (start s).handleLoad one _ _ _⟩
  case stS | stV | stVs | stVx => exact ⟨_, slotOp_ready h, ((start s).spadStore _).raise rfl _⟩
  case stM | vspill => exact ⟨_, slotOp_ready h, (start s).spadStore _⟩
  case sthS | sthV => exact ⟨_, slotOp_ready h, ((start s).handleStore _ _ _ _ _).raise rfl _⟩
  case sigw => exact ⟨_, slotOp_ready h, (start s).handleStore _ _ _ _ _⟩
  case amoP => exact ⟨_, slotOp_ready h, (start s).spadAmo one _ _ _ _ _⟩
  case amoH => exact ⟨_, slotOp_ready h, (start s).handleAmo one _ _ _ _ _ _⟩
  -- nothing else stands in a slot
  all_goals cases hi

/-- Settles O49: the frame of a state, read as the statement writes it. -/
theorem slotOperationsFrameRegisters : Obligations.SlotOperationsFrameRegisters := by
  unfold Obligations.SlotOperationsFrameRegisters
  intro i s hi h
  obtain ⟨t, ht, hf⟩ := exec_frames hi h
  obtain ⟨hflight, hfiles, hflags, hloops, hest⟩ := hf.me
  have hout := hf.outside
  simp only [State.outside, Prod.mk.injEq] at hout
  obtain ⟨hcur, hmem, hmedia, hdur⟩ := hout
  refine ⟨t, ht, hflight, hfiles, ⟨hcur, hf.fn, hmem, hmedia, hdur⟩, fun c => ?_, hf.other, fun hr hk => hflags ?_,
    fun h1 h2 h3 => hloops ?_, fun h1 => hest ?_⟩
  · have hc := hf.core c
    simp only [Core.standing, Prod.mk.injEq] at hc
    exact ⟨hc.1, hc.2.1, hc.2.2.1⟩
  · cases i
    case flagsClr => exact absurd rfl (hk _ _)
    all_goals exact hr
  · cases i
    case loop => exact absurd rfl (h1 _ _ _ _ _)
    case loopi => exact absurd rfl (h2 _ _ _ _ _)
    case lexit => exact absurd rfl (h3 _ _)
    all_goals rfl
  · cases i
    case setest => exact absurd rfl (h1 _ _ _)
    all_goals rfl

end Sys2Proof.Machine
end

section
/-! SUPPORT. The scratchpads and instruction stores of the cores and fossils of a state in canonical form (log entry 5), and what
the updates of a state leave of that. Every function `f` of the model from states to states has one lemma, named after the most that it
leaves: `holds_f` where it leaves cores and fossils as they are, `keeps_f` where it leaves the memories of the cores and the fossils,
`stays_f` where it leaves the memories of the fossils' cores too, and `canon_f` where it writes memories and keeps the canonical form. -/

namespace Sys2Proof.Machine

/-- The scratchpad and the instruction store of a core are listed in canonical form. -/
@[simp] abbrev Core.Clean (k : Core) : Prop := k.spad.wf = true ∧ k.ist.wf = true

/-- Those of every core of a table are. -/
def CleanAll (t : Tbl Core) : Prop := ∀ e ∈ t, e.2.Clean

/-- Those of every core of every fossil are. -/
def CleanFossils (fs : List Fossil) : Prop := ∀ f ∈ fs, CleanAll f.cores

/-- Those of every core of a state are, in a fossil or not. -/
@[simp] abbrev State.Canon (s : State) : Prop := CleanAll s.cores ∧ CleanFossils s.fossils

/-- A core after a change that leaves its scratchpad and its instruction store as they are. -/
@[simp] abbrev Core.Keeps (k t : Core) : Prop := t.spad = k.spad ∧ t.ist = k.ist

/-- A state after a change that leaves its cores and its fossils as they are. -/
@[simp] abbrev State.Holds (s t : State) : Prop := t.cores = s.cores ∧ t.fossils = s.fossils

/-- A state after a change that leaves the memories of its cores as they are, and its fossils. -/
@[simp] abbrev State.Keeps (s t : State) : Prop := (CleanAll t.cores ↔ CleanAll s.cores) ∧ t.fossils = s.fossils

/-- A state after a change that leaves the memories of its cores as they are, those in fossils too. -/
@[simp] abbrev State.Stays (s t : State) : Prop :=
  (CleanAll t.cores ↔ CleanAll s.cores) ∧ (CleanFossils t.fossils ↔ CleanFossils s.fossils)

theorem Core.Keeps.trans {k l m : Core} (h : k.Keeps l) (g : l.Keeps m) : k.Keeps m := ⟨g.1.trans h.1, g.2.trans h.2⟩

theorem State.Holds.trans {s t u : State} (h : s.Holds t) (k : t.Holds u) : s.Holds u := ⟨k.1.trans h.1, k.2.trans h.2⟩

theorem State.Keeps.trans {s t u : State} (h : s.Keeps t) (k : t.Keeps u) : s.Keeps u := ⟨k.1.trans h.1, k.2.trans h.2⟩

theorem State.Stays.trans {s t u : State} (h : s.Stays t) (k : t.Stays u) : s.Stays u := ⟨k.1.trans h.1, k.2.trans h.2⟩

theorem State.Holds.canon {s t : State} (k : s.Holds t) (h : s.Canon) : t.Canon := by simpa [k.1, k.2] using h

theorem State.Keeps.canon {s t : State} (k : s.Keeps t) (h : s.Canon) : t.Canon := ⟨k.1.2 h.1, k.2 ▸ h.2⟩

theorem State.Stays.canon {s t : State} (k : s.Stays t) (h : s.Canon) : t.Canon := ⟨k.1.2 h.1, k.2.2 h.2⟩

theorem State.Holds.keeps {s t : State} (k : s.Holds t) : s.Keeps t := ⟨by rw [k.1], k.2⟩

theorem State.Keeps.stays {s t : State} (k : s.Keeps t) : s.Stays t := ⟨k.1, by rw [k.2]⟩

/-- Of two states, by the condition that chooses. -/
theorem State.canon_ite {p : Prop} [Decidable p] {s t : State} (hs : s.Canon) (ht : t.Canon) : (if p then s else t).Canon := by
  split
  · exact hs
  · exact ht

/-- The statement's own form of the invariant. -/
theorem State.spadsCanonical_iff (s : State) : s.spadsCanonical = true ↔ CleanAll s.cores ∧ CleanFossils s.fossils := by
  simp [State.spadsCanonical, CleanAll, CleanFossils, List.all_eq_true]

/-- A row answers no state that is not canonical. -/
def OutCanon (o : Out) : Prop := ∀ t, o = .next t → t.Canon

@[simp] theorem outCanon_next (t : State) : OutCanon (.next t) ↔ t.Canon :=
  ⟨fun h => h t rfl, fun h u hu => by cases hu; exact h⟩

@[simp] theorem outCanon_fault (f : Fault) : OutCanon (.fault f) := fun _ h => nomatch h

@[simp] theorem outCanon_refused (r : Refusal) : OutCanon (.refused r) := fun _ h => nomatch h

/-! ### Tables of cores -/

@[simp] theorem Core.clean_default : ({} : Core).Clean := ⟨rfl, rfl⟩

theorem Core.Keeps.clean {k t : Core} (h : k.Keeps t) : t.Clean ↔ k.Clean := by
  simp only [Core.Clean, h.1, h.2]

/-- A core of a clean table is clean, listed or not. -/
theorem CleanAll.get {t : Tbl Core} (h : CleanAll t) (c : Nat) : (Tbl.get t c {}).Clean := by
  induction t with
  | nil => exact Core.clean_default
  | cons e r ih =>
    obtain ⟨j, w⟩ := e
    have hr := ih fun x hx => h x (List.mem_cons_of_mem _ hx)
    simp only [Tbl.get]
    split
    · exact h _ List.mem_cons_self
    · exact hr

theorem CleanAll.set {t : Tbl Core} (h : CleanAll t) (c : Nat) {k : Core} (hk : k.Clean) : CleanAll (Tbl.set t c k) := by
  induction t with
  | nil => simpa [CleanAll, Tbl.set] using hk
  | cons e r ih =>
    obtain ⟨j, w⟩ := e
    simp only [CleanAll, List.forall_mem_cons] at h ih ⊢
    unfold Tbl.set
    split
    · exact List.forall_mem_cons.2 ⟨hk, h.2⟩
    · split
      · exact List.forall_mem_cons.2 ⟨hk, List.forall_mem_cons.2 h⟩
      · exact List.forall_mem_cons.2 ⟨h.1, ih h.2⟩

@[simp] theorem State.clean_core {s : State} (h : CleanAll s.cores) (c : Nat) : (s.core c).Clean := h.get c

/-- A core replaced by one with the same memories leaves the table as clean as it was. -/
theorem CleanAll.set_iff (t : Tbl Core) (c : Nat) {k : Core} (hk : k.Clean ↔ (Tbl.get t c {}).Clean) :
    CleanAll (Tbl.set t c k) ↔ CleanAll t := by
  refine ⟨fun h => ?_, fun h => h.set c (hk.2 (h.get c))⟩
  have hget : k.Clean := by
    have := h.get c
    rwa [Tbl.get_set_same] at this
  have hold : (Tbl.get t c {}).Clean := hk.1 hget
  clear hk hget
  induction t with
  | nil => exact fun _ hx => absurd hx (List.not_mem_nil)
  | cons e r ih =>
    obtain ⟨j, w⟩ := e
    unfold Tbl.set at h
    simp only [CleanAll, Tbl.get] at h ih hold ⊢
    by_cases hj : j = c
    · simp only [hj, if_true, List.forall_mem_cons] at h hold ⊢
      exact ⟨hold, h.2⟩
    · simp only [hj, if_false] at h hold
      by_cases hc : c < j
      · simp only [hc, if_true, List.forall_mem_cons] at h ⊢
        exact h.2
      · simp only [hc, if_false, List.forall_mem_cons] at h ⊢
        exact ⟨h.1, ih h.2 hold⟩

/-! ### Choices and folds -/

@[simp] theorem State.cores_ite (p : Prop) [Decidable p] (s t : State) : (if p then s else t).cores = if p then s.cores else t.cores :=
  apply_ite State.cores p s t

@[simp] theorem State.fossils_ite (p : Prop) [Decidable p] (s t : State) :
    (if p then s else t).fossils = if p then s.fossils else t.fossils := apply_ite State.fossils p s t

@[simp] theorem Core.spad_ite (p : Prop) [Decidable p] (k l : Core) : (if p then k else l).spad = if p then k.spad else l.spad :=
  apply_ite Core.spad p k l

@[simp] theorem Core.ist_ite (p : Prop) [Decidable p] (k l : Core) : (if p then k else l).ist = if p then k.ist else l.ist :=
  apply_ite Core.ist p k l

@[simp] theorem cleanAll_ite (p : Prop) [Decidable p] (t u : Tbl Core) :
    CleanAll (if p then t else u) ↔ if p then CleanAll t else CleanAll u := by
  split <;> exact Iff.rfl

theorem Core.keeps_foldl {α : Type} {g : Core → α → Core} (h : ∀ (k : Core) a, k.Keeps (g k a)) (l : List α) (k : Core) :
    k.Keeps (l.foldl g k) :=
  ⟨foldl_keeps Core.spad g (fun k a => (h k a).1) l k, foldl_keeps Core.ist g (fun k a => (h k a).2) l k⟩

theorem Core.clean_foldl {α : Type} {g : Core → α → Core} (h : ∀ (k : Core) a, k.Clean → (g k a).Clean) (l : List α) {k : Core}
    (hk : k.Clean) : (l.foldl g k).Clean := by
  induction l generalizing k with
  | nil => exact hk
  | cons a l ih => exact ih (h k a hk)

theorem State.holds_foldl {α : Type} {g : State → α → State} (h : ∀ (s : State) a, s.Holds (g s a)) (l : List α) (s : State) :
    s.Holds (l.foldl g s) :=
  ⟨foldl_keeps State.cores g (fun s a => (h s a).1) l s, foldl_keeps State.fossils g (fun s a => (h s a).2) l s⟩

theorem State.keeps_foldl {α : Type} {g : State → α → State} (h : ∀ (s : State) a, s.Keeps (g s a)) (l : List α) (s : State) :
    s.Keeps (l.foldl g s) :=
  ⟨Iff.of_eq (foldl_keeps (fun s => CleanAll s.cores) g (fun s a => propext (h s a).1) l s),
    foldl_keeps State.fossils g (fun s a => (h s a).2) l s⟩

theorem State.stays_foldl {α : Type} {g : State → α → State} (h : ∀ (s : State) a, s.Stays (g s a)) (l : List α) (s : State) :
    s.Stays (l.foldl g s) :=
  ⟨Iff.of_eq (foldl_keeps (fun s => CleanAll s.cores) g (fun s a => propext (h s a).1) l s),
    Iff.of_eq (foldl_keeps (fun s => CleanFossils s.fossils) g (fun s a => propext (h s a).2) l s)⟩

theorem State.canon_foldl {α : Type} {g : State → α → State} (h : ∀ (s : State) a, s.Canon → (g s a).Canon) (l : List α)
    {s : State} (hs : s.Canon) : (l.foldl g s).Canon := by
  induction l generalizing s with
  | nil => exact hs
  | cons a l ih => exact ih (h s a hs)

theorem State.holds_of_beside {s t : State} (h : t.beside = s.beside) : s.Holds t :=
  ⟨show t.beside.cores = s.beside.cores by rw [h], show t.beside.fossils = s.beside.fossils by rw [h]⟩

/-! ### The updates of a state -/

@[simp] theorem State.clean_modCore (s : State) (c : Nat) (g : Core → Core)
    (h : (g (s.core c)).spad = (s.core c).spad ∧ (g (s.core c)).ist = (s.core c).ist) :
    CleanAll (s.modCore c g).cores ↔ CleanAll s.cores :=
  CleanAll.set_iff _ _ (Core.Keeps.clean h)

@[simp] theorem State.clean_modHere (s : State) (g : Core → Core)
    (h : (g s.here).spad = s.here.spad ∧ (g s.here).ist = s.here.ist) : CleanAll (s.modHere g).cores ↔ CleanAll s.cores :=
  s.clean_modCore s.cur g h

@[simp] theorem State.clean_modFacet (s : State) (c n : Nat) (g : Facet → Facet) :
    CleanAll (s.modFacet c n g).cores ↔ CleanAll s.cores :=
  s.clean_modCore c _ ⟨rfl, rfl⟩

theorem State.keeps_modFacet (s : State) (c n : Nat) (g : Facet → Facet) : s.Keeps (s.modFacet c n g) :=
  ⟨s.clean_modFacet c n g, rfl⟩

@[simp] theorem State.clean_modMe (s : State) (g : Facet → Facet) : CleanAll (s.modMe g).cores ↔ CleanAll s.cores :=
  s.clean_modFacet _ _ g

@[simp] theorem Core.keeps_modFacet (k : Core) (n : Nat) (g : Facet → Facet) : k.Keeps (k.modFacet n g) := ⟨rfl, rfl⟩

@[simp] theorem State.clean_setCore {s : State} (h : CleanAll s.cores) (c : Nat) {k : Core} (hk : k.Clean) :
    CleanAll (s.setCore c k).cores :=
  h.set c hk

theorem State.keeps_modCore (s : State) (c : Nat) {g : Core → Core} (h : (s.core c).Keeps (g (s.core c))) : s.Keeps (s.modCore c g) :=
  ⟨s.clean_modCore c g h, rfl⟩

theorem State.keeps_modGeode (s : State) (g : Nat) (f : Geode → Geode) : s.Keeps (s.modGeode g f) := ⟨Iff.rfl, rfl⟩

/-- A core changed so that it stays clean. -/
theorem State.canon_modCore {s : State} (h : s.Canon) (c : Nat) {g : Core → Core} (hg : ∀ k : Core, k.Clean → (g k).Clean) :
    (s.modCore c g).Canon :=
  ⟨h.1.set c (hg _ (h.1.get c)), h.2⟩

/-! ### Tables changed core by core -/

/-- Cores changed in place, their memories left as they are. -/
theorem cleanAll_map (t : Tbl Core) {g : Nat × Core → Nat × Core} (h : ∀ e : Nat × Core, e.2.Keeps (g e).2) :
    CleanAll (t.map g) ↔ CleanAll t := by
  simp only [CleanAll, List.forall_mem_map]
  exact forall₂_congr fun e _ => Core.Keeps.clean (h e)

theorem cleanFossils_map (fs : List Fossil) {g : Fossil → Fossil} (h : ∀ f, CleanAll (g f).cores ↔ CleanAll f.cores) :
    CleanFossils (fs.map g) ↔ CleanFossils fs := by
  simp only [CleanFossils, List.forall_mem_map]
  exact forall₂_congr fun f _ => h f

theorem CleanFossils.modify {fs : List Fossil} (h : CleanFossils fs) (i : Nat) {g : Fossil → Fossil}
    (hg : ∀ f : Fossil, CleanAll f.cores → CleanAll (g f).cores) : CleanFossils (fs.modify i g) := by
  induction fs generalizing i with
  | nil => simpa using h
  | cons f r ih =>
    obtain ⟨hf, hr⟩ := List.forall_mem_cons.1 h
    cases i with
    | zero => exact List.forall_mem_cons.2 ⟨hg f hf, hr⟩
    | succ i => exact List.forall_mem_cons.2 ⟨hf, ih hr i⟩

theorem CleanAll.filter {t : Tbl Core} (h : CleanAll t) (p : Nat × Core → Bool) : CleanAll (t.filter p) :=
  fun e he => h e (List.mem_filter.1 he).1

end Sys2Proof.Machine
end

section
/-! SUPPORT. What the functions of the model leave of the canonical form: the operations on the state itself (Machine/State, Bits, Ops):
results, events, records, counters, the media and errors. -/

namespace Sys2Proof.Machine

@[simp] theorem State.keeps_land (s : State) (w : RegWrite) (lat : Nat) (flags : BitVec 6) (access : Nat) (poison : Bool) :
    s.Keeps (s.land w lat flags access poison) := by
  simp [State.land]

@[simp] theorem Core.keeps_landOne (k : Core) (fn : Nat) (l : Landing) : k.Keeps (k.landOne fn l) := by
  unfold Core.landOne
  dsimp only
  split <;> simp

@[simp] theorem Core.keeps_landDue (k : Core) (fn : Nat) : k.Keeps (k.landDue fn) :=
  Core.keeps_foldl (fun k l => k.keeps_landOne fn l) _ _

@[simp] theorem Core.keeps_landAll (k : Core) (fn : Nat) : k.Keeps (k.landAll fn) :=
  Core.keeps_foldl (fun k l => k.keeps_landOne fn l) _ _

@[simp] theorem State.holds_drainOldest (s : State) : s.Holds s.drainOldest := State.holds_of_beside (by simp)

@[simp] theorem State.holds_putByte (s : State) (pa : Nat) (b : BitVec 8) : s.Holds (s.putByte pa b) := State.holds_of_beside (by simp)

@[simp] theorem State.holds_putRaw (s : State) (pa : Nat) (bs : List (BitVec 8)) : s.Holds (s.putRaw pa bs) :=
  State.holds_of_beside (by simp)

@[simp] theorem State.holds_poisonWord (s : State) (pa : Nat) : s.Holds (s.poisonWord pa) := State.holds_of_beside (by simp)

@[simp] theorem State.holds_forgetFlaw (s : State) (pa : Nat) : s.Holds (s.forgetFlaw pa) := State.holds_of_beside (by simp)

@[simp] theorem State.holds_cleanWord (s : State) (pa : Nat) : s.Holds (s.cleanWord pa) := State.holds_of_beside (by simp)

@[simp] theorem State.holds_count (s : State) (base : Nat) (counters ev n : Nat) :
    s.Holds (s.count base counters ev n) := State.holds_of_beside (by simp)

@[simp] theorem State.holds_countCore (s : State) (c ev n : Nat) : s.Holds (s.countCore c ev n) := by
  simp [State.countCore]

@[simp] theorem State.holds_countVein (s : State) (v ev n : Nat) : s.Holds (s.countVein v ev n) := State.holds_of_beside (by simp)

@[simp] theorem State.holds_countRead (s : State) (g : Nat) : s.Holds (s.countRead g) := State.holds_of_beside (by simp)

@[simp] theorem State.holds_writtenBack (s : State) (g : Nat) : s.Holds (s.writtenBack g) := State.holds_of_beside (by simp)

@[simp] theorem State.holds_countPkg (s : State) (ev n : Nat) : s.Holds (s.countPkg ev n) := State.holds_of_beside (by simp)

@[simp] theorem State.holds_tookPort (s : State) : s.Holds s.tookPort := by
  simp [State.tookPort]

@[simp] theorem State.holds_portAnswered (s : State) (r : PortReq) : s.Holds (s.portAnswered r) := by
  simp [State.portAnswered]

@[simp] theorem State.holds_fabErr (s : State) (lode cause : Nat) : s.Holds (s.fabErr lode cause) := by
  simp [State.fabErr]

@[simp] theorem State.holds_mirPort (s : State) : s.Holds s.mirPort := State.holds_of_beside (by simp)

@[simp] theorem State.holds_mirrorWord (s : State) (word : Nat) (w : Author) :
    s.Holds (s.mirrorWord word w) := State.holds_of_beside (by simp)

@[simp] theorem State.holds_notify (s : State) : s.Holds s.notify := State.holds_of_beside (by simp)

@[simp] theorem State.holds_forward (t : State) (pa n : Nat) : t.Holds (t.forward pa n) := State.holds_of_beside (by simp)

@[simp] theorem State.holds_subst (s : State) (pa : Nat) : s.Holds (s.subst pa) := State.holds_of_beside (by simp)

@[simp] theorem State.holds_repaired (s : State) (k word : Nat) (bs : List (BitVec 8)) : s.Holds (s.repaired k word bs) := by
  simp [State.repaired]

@[simp] theorem State.holds_finds (s : State) (g : Nat) (f : Found) (kind req : Nat) : s.Holds (s.finds g f kind req).1 :=
  State.holds_of_beside (by simp)

@[simp] theorem State.holds_findAt (s : State) (pa kind req : Nat) : s.Holds (s.findAt pa kind req).1 :=
  State.holds_of_beside (by simp)

@[simp] theorem State.holds_countWords (s : State) (pa n ev : Nat) : s.Holds (s.countWords pa n ev) := State.holds_of_beside (by simp)

@[simp] theorem State.holds_ringWrite (s : State) (a least : Nat) (bs : List (BitVec 8)) : s.Holds (s.ringWrite a least bs).1 :=
  State.holds_of_beside (by simp)

@[simp] theorem State.holds_meqWrite (s : State) (kind vein slot seq addr : Nat) : s.Holds (s.meqWrite kind vein slot seq addr).1 :=
  State.holds_of_beside (by simp)

@[simp] theorem State.holds_reports (s : State) (rs : List Report) : s.Holds (s.reports rs) := State.holds_of_beside (by simp)

@[simp] theorem State.holds_report (s : State) (pa kind sym req : Nat) : s.Holds (s.report pa kind sym req) := by
  simp [State.report]

@[simp] theorem State.holds_meqPost (s : State) (kind vein slot seq addr : Nat) : s.Holds (s.meqPost kind vein slot seq addr) := by
  simp [State.meqPost]

@[simp] theorem State.holds_ringPost (s : State) (a least : Nat) (ws : List Nat) : s.Holds (s.ringPost a least ws) := by
  simp [State.ringPost]

@[simp] theorem State.holds_foundBad (s : State) (g kind req : Nat) (sym : BitVec 7) : s.Holds (s.foundBad g kind req sym) := by
  simp [State.foundBad]

@[simp] theorem State.holds_meet (s : State) (g : Nat) (f : Found) (kind req : Nat) : s.Holds (s.meet g f kind req) := by
  simp [State.meet]

@[simp] theorem State.holds_meetAt (s : State) (pa kind req : Nat) : s.Holds (s.meetAt pa kind req) := by
  simp [State.meetAt]

@[simp] theorem State.holds_meetAll (s : State) (req : Nat) (l : List Nat) : s.Holds (s.meetAll req l) := by
  simp [State.meetAll, State.holds_foldl]

@[simp] theorem State.holds_meetRun (s : State) (pa n req : Nat) : s.Holds (s.meetRun pa n req) := by
  simp [State.meetRun]

@[simp] theorem State.holds_meetRange (s : State) (pa n req : Nat) : s.Holds (s.meetRange pa n req) := by
  simp [State.meetRange]

@[simp] theorem State.holds_putOwn (s : State) (pa : Nat) (bs : List (BitVec 8)) (tol tpol : Bool) :
    s.Holds (s.putOwn pa bs tol tpol) := State.holds_of_beside (by simp)

@[simp] theorem State.holds_putOwnNum (s : State) (pa n v : Nat) (tol tpol : Bool) : s.Holds (s.putOwnNum pa n v tol tpol) := by
  simp [State.putOwnNum]

@[simp] theorem State.holds_upset (s : State) (pa : Nat) (sym : Option (BitVec 7)) : s.Holds (s.upset pa sym) := by
  simp [State.upset]

@[simp] theorem State.holds_heqPost (s : State) (part kind slot code idx : Nat) (w1 : BitVec 64) :
    s.Holds (s.heqPost part kind slot code idx w1) := by
  simp [State.heqPost]

@[simp] theorem State.holds_meetWords (s : State) (req : Nat) (l : List Nat) : s.Holds (s.meetWords req l) := by
  induction l generalizing s with
  | nil => exact ⟨rfl, rfl⟩
  | cons pa r ih =>
    have hr := ih (s.meetAt pa 1 req)
    unfold State.meetWords
    split
    · simp
    · simpa using hr

@[simp] theorem State.holds_meetEntries (s : State) (pasid : BitVec 20) (va req : Nat) : s.Holds (s.meetEntries pasid va req) := by
  simp [State.meetEntries]

@[simp] theorem State.holds_countWalk (s : State) (pasid : BitVec 20) (va : Nat) : s.Holds (s.countWalk pasid va) := by
  have h := State.holds_foldl (fun (s : State) a => s.holds_countWords a 8 0x01)
    ((s.walkPas pasid va).take (((s.walkPas pasid va).takeWhile fun a => !s.poisoned a).length + 1)) (s.countPkg 0x02 1)
  simpa [State.countWalk] using h

@[simp] theorem State.holds_meetWalk (s : State) (pasid : BitVec 20) (va req : Nat) : s.Holds (s.meetWalk pasid va req) := by
  simp [State.meetWalk]

@[simp] theorem State.keeps_withdraw (s : State) (c fn : Nat) : s.Keeps (s.withdraw c fn) := by
  simp [State.withdraw]

@[simp] theorem State.holds_putFrame (s : State) (k : Core) (f : Facet) (pa : Nat) (cause info : BitVec 64) (clock : Nat) :
    s.Holds (s.putFrame k f pa cause info clock) := by
  refine .trans ?_ (State.holds_forward _ _ _)
  refine .trans ?_ (State.holds_foldl (fun s r => ?_) _ _)
  · exact .trans (by simp) (State.holds_foldl (fun s i => s.holds_cleanWord (pa + 32 * i)) _ _)
  · split <;> simp

@[simp] theorem State.holds_writeFrame (s : State) (c fn : Nat) (cause info : BitVec 64) (clock : Nat) :
    s.Holds (s.writeFrame c fn cause info clock).1 := by
  unfold State.writeFrame
  dsimp only
  split <;> simp [State.sendFrame]

@[simp] theorem State.keeps_park (s : State) (c fn : Nat) (code : Nat) : s.Keeps (s.park c fn code) := by
  simp [State.park]

@[simp] theorem State.keeps_takeTrapOf (s : State) (c fn : Nat) (t : TrapInfo) : s.Keeps (s.takeTrapOf c fn t) := by
  simp [State.takeTrapOf]

@[simp] theorem State.keeps_takeTrap (s : State) (t : TrapInfo) : s.Keeps (s.takeTrap t) := by
  simp [State.takeTrap]

@[simp] theorem State.keeps_parkRequest (s : State) (c fn : Nat) : s.Keeps (s.parkRequest c fn) := by
  simp [State.parkRequest]

@[simp] theorem State.holds_meetPlace (s : State) (req : Nat) (p : Option FramePlace) : s.Holds (s.meetPlace req p) := by
  unfold State.meetPlace
  split
  · exact State.holds_foldl (fun s i => s.holds_meetRange _ _ _) _ _
  · exact ⟨rfl, rfl⟩

@[simp] theorem State.holds_meetFrame (s : State) (c fn : Nat) : s.Holds (s.meetFrame c fn) := by
  simp [State.meetFrame]

@[simp] theorem State.keeps_returnFrom (s : State) (c fn : Nat) : s.Keeps (s.returnFrom c fn) := by
  unfold State.returnFrom
  dsimp only
  split <;> simp

end Sys2Proof.Machine
end

section
/-! SUPPORT. What the functions of the model leave of the canonical form: the operands, checks and scratchpads (Machine/Operands, Checks,
Flags, Spad), where bytes of a scratchpad are written. -/

namespace Sys2Proof.Machine

@[simp] theorem Core.keeps_startLock (k : Core) (id : Nat) : k.Keeps (k.startLock id) := by
  simp [Core.startLock]

@[simp] theorem State.keeps_offer (s : State) (i : Instr) : s.Keeps (s.offer i) := by
  unfold State.offer
  split
  · simp
  · split <;> simp

@[simp] theorem State.keeps_raise (s : State) (fl : BitVec 6) : s.Keeps (s.raise fl) := by
  simp [State.raise]

@[simp] theorem State.keeps_modLatch (s : State) (f : Latch → Latch) : s.Keeps (s.modLatch f) := by
  simp [State.modLatch]

@[simp] theorem State.keeps_putS (s : State) (d : BitVec 6) (v : BitVec 64) (lat : Nat) : s.Keeps (s.putS d v lat) := by
  simp [State.putS]

@[simp] theorem State.keeps_putPair (s : State) (d : BitVec 6) (v : BitVec 64 × BitVec 64) (lat : Nat) : s.Keeps (s.putPair d v lat) := by
  simp [State.putPair]

@[simp] theorem State.keeps_putG (s : State) (gd : BitVec 3) (v : Bool) (lat : Nat) : s.Keeps (s.putG gd v lat) := by
  simp [State.putG]

@[simp] theorem State.keeps_putM (s : State) (md : BitVec 4) (v : BitVec 128) (lat : Nat) (fl : BitVec 6) :
    s.Keeps (s.putM md v lat fl) := by
  simp [State.putM]

@[simp] theorem State.keeps_putV (s : State) (d : BitVec 9) (v : VReg) (lat : Nat) (fl : BitVec 6) : s.Keeps (s.putV d v lat fl) := by
  simp [State.putV]

@[simp] theorem Core.clean_spadWrite {k : Core} (h : k.Clean) (ws : List ByteWrite) : (k.spadWrite ws).Clean := by
  refine ⟨?_, h.2⟩
  have hw : ∀ m : Memory, m.wf = true → Memory.wf (ws.foldl (fun m w => m.set w.addr (mergeByte (m.get w.addr) w)) m) = true := by
    induction ws with
    | nil => exact fun _ hm => hm
    | cons w r ih => exact fun m hm => ih _ (Memory.wf_set _ _ hm)
  exact hw _ h.1

@[simp] theorem State.keeps_noteSpadErr (s : State) (c : Nat) (offs : List Nat) : s.Keeps (s.noteSpadErr c offs) := by
  simp [State.noteSpadErr, State.keeps_foldl]

@[simp] theorem Core.keeps_spadUpset (k : Core) (u : Nat) (bad : Bool) : k.Keeps (k.spadUpset u bad) := by
  simp [Core.spadUpset]

@[simp] theorem State.holds_sendAccess (s : State) (home : Home) (op : AccessOp) (after : List Nat) (mir : Bool) (tol tpol : Bool) (via
    : Option (BitVec 20 × Handle)) : s.Holds (s.sendAccess home op after mir tol tpol via) := by
  simp [State.sendAccess]

@[simp] theorem State.keeps_spadLoad (s : State) (segs : List (Nat × Nat)) (dst : LoadDst) (bound : Nat) :
    s.Keeps (s.spadLoad segs dst bound) := by
  unfold State.spadLoad
  split <;> simp

@[simp] theorem State.canon_spadStore {s : State} (h : s.Canon) (ws : List ByteWrite) : (s.spadStore ws).Canon := by
  unfold State.spadStore
  split
  · exact h
  · dsimp only
    split
    · exact State.canon_modCore h _ fun k hk => Core.clean_spadWrite hk _
    · exact h

@[simp] theorem Core.clean_spadAtomic {k : Core} (h : k.Clean) (o w : Nat) (op : BitVec 4) (t : BitVec 5) (mode : BitVec 3)
    (opd cmp : Nat) : (k.spadAtomic o w op t mode opd cmp).1.Clean := by
  unfold Core.spadAtomic
  dsimp only
  split
  · exact h
  · exact Core.clean_spadWrite h _

@[simp] theorem State.canon_spadAmo {s : State} (h : s.Canon) (a w : Nat) (op : BitVec 4) (t : BitVec 5) (mode : BitVec 3)
    (d : BitVec 6) : (s.spadAmo a w op t mode d).Canon := by
  unfold State.spadAmo
  dsimp only
  split
  · have hn : (s.noteSpadErr (s.spCore a) ((upto w).map (spPhys (s.window s.me.launch (s.spCore a)) (spOff a) + ·))).Canon := by
      simp [h]
    refine (State.keeps_land _ _ _ _ _ _).canon (State.canon_modCore hn _ fun _ _ => ?_)
    exact Core.clean_spadAtomic (hn.1.get _) _ _ _ _ _ _ _
  · simp [h]

@[simp] theorem State.keeps_handleLoad (s : State) (h : Handle) (ea n : Nat) (dst : LoadDst) : s.Keeps (s.handleLoad h ea n dst) := by
  simp [State.handleLoad]

@[simp] theorem State.holds_handleStore (s : State) (h : Handle) (ea : Nat) (ws : List ByteWrite) (after : List Nat) (mir : Bool) :
    s.Holds (s.handleStore h ea ws after mir) := by
  simp [State.handleStore]

@[simp] theorem State.keeps_handleAmo (s : State) (h : Handle) (ea w : Nat) (op : BitVec 4) (t : BitVec 5) (mode : BitVec 3) (d : BitVec
    6) : s.Keeps (s.handleAmo h ea w op t mode d) := by
  simp [State.handleAmo]

end Sys2Proof.Machine
end

section
/-! SUPPORT. What the functions of the model leave of the canonical form: main memory and the engines (Machine/MainMemory, Sync, Engines),
where the movers write scratchpads and instruction stores. -/

namespace Sys2Proof.Machine

@[simp] theorem State.holds_readGrain (s : State) (g : Nat) (w : Who) : s.Holds (s.readGrain g w) := by
  simp [State.readGrain]

@[simp] theorem State.holds_noteGrain (s : State) (g : Nat) (tol : Bool) (w : Who) : s.Holds (s.noteGrain g tol w) := by
  simp [State.noteGrain]

@[simp] theorem State.holds_noteWords (s : State) (pas : List Nat) (tol : Bool) (w : Who) : s.Holds (s.noteWords pas tol w) := by
  simp [State.noteWords, State.holds_foldl]

@[simp] theorem State.holds_putGrain (s : State) (g : Nat) (ws : List ByteWrite) (tol tpol : Bool) (w : Who) :
    s.Holds (s.putGrain g ws tol tpol w) := by
  simp [State.putGrain, State.holds_foldl]

@[simp] theorem State.holds_storeWords (s : State) (ws : List ByteWrite) (bad : List Nat) (tol tpol : Bool) (w : Who) (by' : Author) :
    s.Holds (s.storeWords ws bad tol tpol w by') := by
  simp [State.storeWords, State.holds_foldl]

@[simp] theorem State.holds_hotBlock (s : State) (b : Nat) (w : Who) : s.Holds (s.hotBlock b w) := by
  simp [State.hotBlock, State.holds_foldl]

@[simp] theorem State.holds_hot (s : State) (pas : List Nat) (w : Who) : s.Holds (s.hot pas w) := by
  simp [State.hot, State.holds_foldl]

@[simp] theorem State.holds_storeMain (s : State) (ws : List ByteWrite) (tol tpol : Bool) (w : Who) (by' : Author) :
    s.Holds (s.storeMain ws tol tpol w by') := by
  simp [State.storeMain]

@[simp] theorem State.holds_atomicMain (s : State) (pa n : Nat) (op : BitVec 4) (t' : BitVec 5) (mode : BitVec 3) (opd cmp : Nat)
    (tol tpol : Bool) (w : Who) (by' : Author) : s.Holds (s.atomicMain pa n op t' mode opd cmp tol tpol w by').1 := by
  have hm := State.holds_meetAt s pa 1 w.req
  unfold State.atomicMain
  dsimp only
  split
  · refine .trans ?_ (State.holds_hot _ _ _)
    split
    · exact (hm.trans (State.holds_countRead _ _)).trans (State.holds_report _ _ _ _ _)
    · exact hm.trans (State.holds_countRead _ _)
  · exact hm.trans (State.holds_storeMain _ _ _ _ _ _)

theorem canon_execWalkEnd {s : State} (h : s.Canon) (core facet hn : Nat) : OutCanon (execWalkEnd core facet hn s) := by
  unfold execWalkEnd
  split
  · dsimp only
    split <;> simp [h]
  · dsimp only
    split
    · simp [h]
    · split <;> simp [h]

@[simp] theorem State.keeps_invalGo (s : State) (v : BitVec 64) : s.Keeps (s.invalGo v) := by
  unfold State.invalGo
  dsimp only
  split
  · simp
  · split
    · simp
    · refine ⟨Iff.trans (cleanAll_map _ ?_) ?_, ?_⟩
      · exact fun _ => ⟨rfl, rfl⟩
      · simp
      · simp

theorem canon_execInvalGo {s : State} (h : s.Canon) (v : BitVec 64) : OutCanon (execInvalGo v s) := by
  simp [execInvalGo, h]

theorem canon_execInvalComplete {s : State} (h : s.Canon) : OutCanon (execInvalComplete s) := by
  unfold execInvalComplete
  split <;> simp [h]

@[simp] theorem State.holds_doRefresh (s : State) (v c : Nat) (bal : Int) (forced : Bool) : s.Holds (s.doRefresh v c bal forced) := by
  simp [State.doRefresh]

theorem canon_execRefresh {s : State} (h : s.Canon) (vein chan : Nat) (due waiting : Bool) :
    OutCanon (execRefresh vein chan due waiting s) := by
  simp [execRefresh, h]

@[simp] theorem State.holds_scrubNext (s : State) (a n : Nat) : s.Holds (s.scrubNext a n) := by
  simp [State.scrubNext]

@[simp] theorem State.holds_patrol (s : State) (pa : Nat) (f : Found) : s.Holds (s.patrol pa f) := by
  simp [State.patrol]

theorem canon_execPatrolVisit {s : State} (h : s.Canon) (vein : Nat) (f : Found) : OutCanon (execPatrolVisit vein f s) := by
  simp [execPatrolVisit, h]

theorem canon_execDurablePatrolVisit {s : State} (h : s.Canon) (f : Found) : OutCanon (execDurablePatrolVisit f s) := by
  simp [execDurablePatrolVisit, h]

theorem canon_execLogcntPop {s : State} (h : s.Canon) (unit : Nat) : OutCanon (execLogcntPop unit s) := by
  simp [execLogcntPop, h]

@[simp] theorem Core.clean_barAt {k : Core} (h : k.Clean) (o : Nat) (dPend dIn dOut : Int) : (k.barAt o dPend dIn dOut).Clean := by
  unfold Core.barAt
  split
  · exact h
  · exact Core.clean_spadWrite h _

@[simp] theorem State.canon_updateBar {s : State} (h : s.Canon) (c o : Nat) (dPend dIn dOut : Int) :
    (s.updateBar c o dPend dIn dOut).Canon := by
  have hn : (s.noteSpadErr c [o, o + 8]).Canon := by simp [h]
  exact State.canon_modCore hn c fun k hk => Core.clean_barAt hk _ _ _ _

@[simp] theorem State.keeps_takePlace (s : State) (kind unit : Nat) (classes : List Nat) (cm : BitVec 20) :
    s.Keeps (s.takePlace kind unit classes cm) := by
  simp [State.takePlace]

@[simp] theorem Core.keeps_completeOldest (k : Core) (fn : Nat) : k.Keeps (k.completeOldest fn) := by
  unfold Core.completeOldest
  split <;> simp

theorem canon_execEngineOperationComplete {s : State} (h : s.Canon) (core facet : Nat) :
    OutCanon (execEngineOperationComplete core facet s) := by
  simp [execEngineOperationComplete, h]

@[simp] theorem Core.keeps_postOldest (k : Core) (fn : Nat) : k.Keeps (k.postOldest fn) := by
  unfold Core.postOldest
  split <;> simp

theorem canon_execCompletionRecordPost {s : State} (h : s.Canon) (core facet : Nat) :
    OutCanon (execCompletionRecordPost core facet s) := by
  simp [execCompletionRecordPost, h]

@[simp] theorem State.keeps_feed (s : State) (da db : BitVec 4) (ty : BitVec 5) (sm : BitVec 3) (kind tgt : BitVec 2) (cm : BitVec 20) :
    s.Keeps (s.feed da db ty sm kind tgt cm) := by
  simp [State.feed]

@[simp] theorem State.keeps_lcopy (s : State) (da db : BitVec 4) (cm : BitVec 20) : s.Keeps (s.lcopy da db cm) := by
  simp [State.lcopy]

@[simp] theorem State.keeps_ifetch (s : State) (da : BitVec 4) (words : BitVec 14) (cm : BitVec 20) : s.Keeps (s.ifetch da words cm) := by
  simp [State.ifetch]

@[simp] theorem State.holds_linesGo (s : State) (held : List PortReq) (pas : List (Nat × Nat)) : s.Holds (s.linesGo held pas).2.2 := by
  unfold State.linesGo
  dsimp only
  split
  · simp
  · exact State.holds_foldl State.holds_portAnswered _ _

@[simp] theorem State.stays_bulkLock (s : State) (c : BulkCmd) : s.Stays (s.bulkLock c) := by
  have hlock : ∀ f : Fossil, CleanAll (s.lockIn c f).cores ↔ CleanAll f.cores := fun f => by
    unfold State.lockIn
    dsimp only
    split
    · exact cleanAll_map _ fun e => by split <;> exact ⟨rfl, rfl⟩
    · exact Iff.rfl
  unfold State.bulkLock
  split
  · split
    · exact ⟨Iff.rfl, cleanFossils_map _ hlock⟩
    · simp
  · exact ⟨Iff.rfl, Iff.rfl⟩

@[simp] theorem State.stays_bulkGo (s : State) (en : BitVec 4) (cm : BitVec 20) : s.Stays (s.bulkGo en cm) := by
  simp [State.bulkGo]

@[simp] theorem State.keeps_bandFetch (s : State) (b : Nat) (bd : Band) (first n : Nat) (cm : BitVec 20) :
    s.Keeps (s.bandFetch b bd first n cm) := by
  simp [State.bandFetch]

@[simp] theorem State.keeps_winOpen (s : State) (da db : BitVec 4) (band : BitVec 3) (rr fill : BitVec 8) (cm : BitVec 20) :
    s.Keeps (s.winOpen da db band rr fill cm) := by
  simp [State.winOpen]

@[simp] theorem State.keeps_winAdv (s : State) (band : BitVec 3) (k : BitVec 8) (cm : BitVec 20) : s.Keeps (s.winAdv band k cm) := by
  simp [State.winAdv]

@[simp] theorem State.keeps_winClose (s : State) (band : BitVec 3) (cm : BitVec 20) : s.Keeps (s.winClose band cm) := by
  simp [State.winClose]

@[simp] theorem State.keeps_crcRd (s : State) (rst : BitVec 1) (ac : BitVec 2) (tag : BitVec 16) : s.Keeps (s.crcRd rst ac tag) := by
  simp [State.crcRd]

@[simp] theorem Core.clean_spadMove {k : Core} (h : k.Clean) (ws : List (Nat × FByte)) : (k.spadMove ws).Clean :=
  Core.clean_spadWrite h _

@[simp] theorem State.holds_engineGo (s : State) (held : List PortReq) (cs : List Cell) : s.Holds (s.engineGo held cs).2.2 :=
  s.holds_linesGo held (awayPas cs)

@[simp] theorem State.holds_meetGrains (s : State) (pasid : BitVec 20) (req k va : Nat) : s.Holds (s.meetGrains pasid req k va) := by
  induction k generalizing s va with
  | zero => exact ⟨rfl, rfl⟩
  | succ k ih =>
    unfold State.meetGrains
    dsimp only
    split
    · exact ⟨(ih _ _).1.trans (by simp), (ih _ _).2.trans (by simp)⟩
    · simp

@[simp] theorem State.holds_meetPages (s : State) (pasid : BitVec 20) (va : Int) (n req : Nat) :
    s.Holds (s.meetPages pasid va n req) := by
  simp [State.meetPages]

@[simp] theorem State.holds_countSpans (s : State) (pasid : BitVec 20) (cut : Bool) (va : Nat) (first : Bool) (l : List Span) :
    s.Holds (s.countSpans pasid cut va first l) := by
  induction l generalizing s va first with
  | nil => unfold State.countSpans; split <;> simp
  | cons x r ih =>
    unfold State.countSpans
    exact ⟨(ih _ _ _).1.trans (by split <;> simp), (ih _ _ _).2.trans (by split <;> simp)⟩

@[simp] theorem State.holds_countPages (s : State) (pasid : BitVec 20) (w : Bool) (va : Int) (n : Nat) (first : Bool) :
    s.Holds (s.countPages pasid w va n first) := by
  simp [State.countPages]

@[simp] theorem State.keeps_noteCells (s : State) (cs : List Cell) (w : Who) : s.Keeps (s.noteCells cs w) := by
  simp [State.noteCells, State.keeps_foldl]

@[simp] theorem State.canon_putCells {s : State} (h : s.Canon) (cs : List (Cell × FByte)) (w : Who) : (s.putCells cs w).Canon := by
  unfold State.putCells
  dsimp only
  refine State.canon_foldl (fun t c ht => State.canon_modCore ht c fun k hk => Core.clean_spadMove hk _) _ ?_
  simp [h]

@[simp] theorem Core.keeps_setFeeder (k : Core) (tgt : FeedTarget) (q : List EngineCmd) : k.Keeps (k.setFeeder tgt q) := by
  unfold Core.setFeeder
  split <;> simp

@[simp] theorem Core.keeps_feedDone (k : Core) (tgt : FeedTarget) (x : EngineCmd) (status : BitVec 8) :
    k.Keeps (k.feedDone tgt x status) := by
  simp [Core.feedDone]

@[simp] theorem State.keeps_feedDone (s : State) (c : Nat) (tgt : FeedTarget) (x : EngineCmd) (status : BitVec 8) :
    s.Keeps (s.feedDone c tgt x status) := by
  simp [State.feedDone]

@[simp] theorem State.keeps_feedBytes (s : State) (c : Nat) (tgt : FeedTarget) (x : EngineCmd) (bs : List FByte) (left : Nat) :
    s.Keeps (s.feedBytes c tgt x bs left) := by
  simp [State.feedBytes]

@[simp] theorem State.keeps_feedRows (s : State) (c : Nat) (tgt : FeedTarget) (x : EngineCmd) (rb rows : Nat) (ready : Nat → Bool) (at'
    : Nat → Nat → Nat × Nat) : s.Keeps (s.feedRows c tgt x rb rows ready at') := by
  simp [State.feedRows]

@[simp] theorem State.keeps_feedShale (s : State) (c : Nat) (tgt : FeedTarget) (x : EngineCmd) (va blocks : Nat) (ty : BitVec 5)
    (sm : Nat) : s.Keeps (s.feedShale c tgt x va blocks ty sm) := by
  have hmod := fun (t : State) (y : EngineCmd) (g : Facet → Facet) => t.keeps_modCore c
    (g := fun k => (k.setFeeder tgt (y :: (k.feeder tgt).drop 1)).modFacet x.facet g) ⟨by simp, by simp⟩
  unfold State.feedShale
  extract_lets f r go n s1 s2 r' s3 s4 st y s5 n' bs y' s6
  have h4 : s.Keeps s4 := by unfold s4 s3 s2 s1; split <;> simp [go]
  split
  · split
    · simp [go]
    · have h5 : s.Keeps s5 := h4.trans (hmod _ _ _)
      split
      · exact h5.trans (s5.keeps_feedDone _ _ _ _)
      · exact h5
  · split
    · simp
    · have h6 : s.Keeps s6 := hmod _ _ _
      split
      · exact h6.trans (s6.keeps_feedDone _ _ _ _)
      · exact h6

theorem canon_execFifoAppend {s : State} (h : s.Canon) (core : Nat) (tgt : FeedTarget) : OutCanon (execFifoAppend core tgt s) := by
  unfold execFifoAppend
  split
  all_goals
    dsimp only
    split
    · simp [h]
    · split
      · simp [h]
      · split <;> simp [h]

@[simp] theorem Core.keeps_unlock (k : Core) (id : Nat) : k.Keeps (k.unlock id) := by
  simp [Core.unlock]

@[simp] theorem State.keeps_localDone (s : State) (c : Nat) (x : EngineCmd) (moved : List FByte) (status : BitVec 8) :
    s.Keeps (s.localDone c x moved status) := by
  simp [State.localDone]

@[simp] theorem Core.clean_spadRows {k : Core} (h : k.Clean) (rb rows : Nat) (ws : List (Nat × FByte)) : (k.spadRows rb rows ws).Clean :=
  Core.clean_foldl (fun _ _ hk => Core.clean_spadMove hk _) _ h

@[simp] theorem State.canon_runLcopy {s : State} (h : s.Canon) (c : Nat) (x : EngineCmd) (src dst rb rows : Nat) (sp dp : Int) :
    (s.runLcopy c x src dst rb rows sp dp).Canon := by
  unfold State.runLcopy
  dsimp only
  split
  · exact h
  · refine (State.keeps_localDone _ _ _ _ _).canon (State.canon_modCore ?_ _ fun k hk => Core.clean_spadRows hk _ _ _)
    exact (State.keeps_noteSpadErr _ _ _).canon h

@[simp] theorem Core.clean_istPut {k : Core} (h : k.Clean) (a : Nat) (bs : List FByte) : (k.istPut a bs).Clean :=
  ⟨h.1, Memory.wf_put a _ h.2⟩

@[simp] theorem State.canon_runIfetch {s : State} (h : s.Canon) (c : Nat) (x : EngineCmd) (src dst words : Nat) (bank : Bool) :
    (s.runIfetch c x src dst words bank).Canon := by
  unfold State.runIfetch
  dsimp only
  split
  · exact h
  · split
    · exact (State.keeps_localDone _ _ _ _ _).canon h
    · refine (State.keeps_localDone _ _ _ _ _).canon (State.canon_modCore ?_ _ fun k hk => Core.clean_istPut hk _ _)
      exact (State.keeps_noteSpadErr _ _ _).canon h

theorem canon_execLocalFeederCommandStart {s : State} (h : s.Canon) (core : Nat) : OutCanon (execLocalFeederCommandStart core s) := by
  simp only [execLocalFeederCommandStart, outCanon_next]
  split
  · exact h
  · split
    · exact h
    · split
      · exact State.canon_runLcopy h _ _ _ _ _ _ _ _
      · exact State.canon_runIfetch h _ _ _ _ _ _
      · exact h

@[simp] theorem Core.keeps_bandDone (k : Core) (b : Nat) (o : BandOp) (bd : Band) (status : BitVec 8) :
    k.Keeps (k.bandDone b o bd status) := by
  simp [Core.bandDone]

@[simp] theorem State.keeps_bandDone (s : State) (c b : Nat) (o : BandOp) (bd : Band) (status : BitVec 8) :
    s.Keeps (s.bandDone c b o bd status) := by
  simp [State.bandDone]

@[simp] theorem State.canon_bandRow {s : State} (h : s.Canon) (c b : Nat) (bd : Band) (o : BandOp) : (s.bandRow c b bd o).Canon := by
  unfold State.bandRow
  extract_lets k f i off win ps va w s1 a cs go s2 s3 bs o' bd' s4
  have h1 : s1.Canon := by simp [s1, h]
  have hgo : go.2.2.Canon := by simp [go, h1]
  split
  · exact h
  · split
    · refine (State.keeps_bandDone _ _ _ _ _ _).canon ?_
      split <;> simp [s2, h1]
    · split
      · exact (State.keeps_modCore _ _ ⟨rfl, rfl⟩).canon hgo
      · have h3 : s3.Canon := by simp [s3, hgo]
        have h4 : s4.Canon := State.canon_modCore h3 c fun k hk => by
          have := Core.clean_spadMove (k := ({ k with bands := k.bands.set b bd' } : Core).startLock o.id) (by simpa using hk) (ps.zip bs)
          simpa using this
        split
        · exact (State.keeps_bandDone _ _ _ _ _ _).canon h4
        · exact h4

theorem canon_execBandRowArrival {s : State} (h : s.Canon) (core band : Nat) : OutCanon (execBandRowArrival core band s) := by
  unfold execBandRowArrival
  dsimp only
  split
  · simp [h]
  · split
    · simp [h]
    · split <;> simp [h]

@[simp] theorem State.holds_modBulk (s : State) (e : Nat) (f : Bulk → Bulk) : s.Holds (s.modBulk e f) := by
  simp [State.modBulk]

@[simp] theorem State.holds_bulkStop (s : State) (e : Nat) (c : BulkCmd) (st : BitVec 8) : s.Holds (s.bulkStop e c st) := by
  simp [State.bulkStop]

@[simp] theorem State.holds_meetSide (s : State) (c : BulkCmd) (side r o n req : Nat) : s.Holds (s.meetSide c side r o n req) := by
  simp [State.meetSide]

@[simp] theorem State.holds_countSide (s : State) (c : BulkCmd) (side r o n : Nat) : s.Holds (s.countSide c side r o n) := by
  simp [State.countSide]

@[simp] theorem State.canon_bulkMove {s : State} (h : s.Canon) (e : Nat) (c : BulkCmd) (b : Bulk) : (s.bulkMove e c b).Canon := by
  unfold State.bulkMove
  extract_lets n w s1 src dst cs go m s2 bs s3 s4 touched s5 s6 s7 bad
  have h1 : s1.Canon := by simp [s1, h]
  have hgo : go.2.2.Canon := by simp [go, h1]
  have h2 : s2.Canon := by simp [s2, hgo]
  have h3 : s3.Canon := by
    unfold s3
    split
    · exact (State.keeps_modCore _ _ (by simp)).canon h2
    · exact h2
  have h7 : s7.Canon := by
    have h4 : s4.Canon := State.canon_putCells h3 _ _
    simp [s7, s6, s5, h4]
  split
  · exact h1
  · split
    · exact h1
    · split
      · simp [hgo]
      · split
        · refine State.Holds.canon (State.holds_bulkStop _ _ _ _) ?_
          split <;> simp [h7]
        · split
          · simp [h7]
          · exact h7

@[simp] theorem State.holds_bulkHostEnd (s : State) (e : Nat) (c : BulkCmd) (b : Bulk) : s.Holds (s.bulkHostEnd e c b) := by
  simp [State.bulkHostEnd]

@[simp] theorem State.stays_unlockAll (s : State) (id : Nat) : s.Stays (s.unlockAll id) :=
  ⟨cleanAll_map _ fun _ => ⟨rfl, rfl⟩, cleanFossils_map _ fun _ => cleanAll_map _ fun _ => ⟨rfl, rfl⟩⟩

@[simp] theorem State.stays_modOp (s : State) (core facet id : Nat) (g : OrderEntry → OrderEntry) :
    s.Stays (s.modOp core facet id g) := by
  have hmap : ∀ t : Tbl Core, CleanAll (t.map fun k => if k.1 == core then
      (k.1, if k.2.facets.any (fun f => f.1 == facet) then k.2.modFacet facet fun f => f.modOrder id g else k.2) else k) ↔ CleanAll t :=
    fun t => cleanAll_map t fun e => by split <;> [split; skip] <;> exact ⟨rfl, rfl⟩
  exact ⟨hmap _, cleanFossils_map _ fun f => hmap _⟩

@[simp] theorem State.stays_bulkEnd (s : State) (e : Nat) : s.Stays (s.bulkEnd e) := by
  unfold State.bulkEnd
  dsimp only
  split
  · split
    · split <;> simp
    · simp
  · simp

theorem canon_execBulkEngineTakeCommand {s : State} (h : s.Canon) (e : Nat) : OutCanon (execBulkEngineTakeCommand e s) := by
  unfold execBulkEngineTakeCommand
  split
  all_goals
    dsimp only
    split
    · split <;> simp [h]
    · split
      · simp [h]
      · split
        · simp [h]
        · split
          · simp [h]
          · split
            · simp [h]
            · split
              · split <;> simp [h]
              · simp [h]

@[simp] theorem State.canon_countdown {s : State} (h : s.Canon) (c : BulkCmd) (k : Nat) : (s.countdown c k).Canon := by
  unfold State.countdown
  split
  · split <;> exact State.canon_updateBar h _ _ _ _ _
  · exact h

@[simp] theorem State.canon_endCancelled {s : State} (h : s.Canon) (c : BulkCmd) : (s.endCancelled c).Canon := by
  simp [State.endCancelled, h]

@[simp] theorem State.canon_drainEnded {s : State} (h : s.Canon) (e : Nat) : (s.drainEnded e).Canon := by
  refine State.canon_foldl (fun t c ht => ?_) _ h
  split
  · exact ht
  · simp [State.canon_endCancelled ht]

theorem canon_execEngineCountdown {s : State} (h : s.Canon) (e : Nat) : OutCanon (execEngineCountdown e s) := by
  unfold execEngineCountdown
  dsimp only
  split
  · simp [h]
  · split
    · simp [h]
    · split
      · simp [h]
      · split <;> simp [h]

@[simp] theorem State.holds_bulkCancel (s : State) (en : BitVec 4) (tag : BitVec 16) : s.Holds (s.bulkCancel en tag) := by
  unfold State.bulkCancel
  dsimp only
  split
  · split <;> split <;> simp
  · split <;> simp

theorem canon_execHostBulkGo {s : State} (h : s.Canon) (e : Nat) (v : BitVec 64) : OutCanon (execHostBulkGo e v s) := by
  unfold execHostBulkGo
  split
  · simp [h]
  · split <;> simp [h]

end Sys2Proof.Machine
end

section
/-! SUPPORT. What the functions of the model leave of the canonical form: the durable memory, the ring and the scalar operations
(Machine/Durable, Ring, Scalar). -/

namespace Sys2Proof.Machine

theorem canon_execWriteQueueToMedia {s : State} (h : s.Canon) : OutCanon (execWriteQueueToMedia s) := by
  simp [execWriteQueueToMedia, h]

@[simp] theorem State.keeps_sealDone (s : State) (q : SealReq) : s.Keeps (s.sealDone q) := by
  simp [State.sealDone]

@[simp] theorem State.keeps_sealStep (s : State) (q : SealReq) : s.Keeps (s.sealStep q) := by
  simp [State.sealStep]

theorem canon_execSealConfirm {s : State} (h : s.Canon) : OutCanon (execSealConfirm s) := by
  unfold execSealConfirm
  split <;> simp [h]

theorem canon_execHpbarGo {s : State} (h : s.Canon) : OutCanon (execHpbarGo s) := by
  simp [execHpbarGo, h]

theorem canon_execHoldupTest {s : State} (h : s.Canon) (ok : Bool) : OutCanon (execHoldupTest ok s) := by
  simp [execHoldupTest, h]

@[simp] theorem State.holds_mirSend (s : State) (k : Nat) : s.Holds (s.mirSend k) := by
  simp [State.mirSend]

@[simp] theorem State.holds_mirBreak (s : State) (k : Nat) : s.Holds (s.mirBreak k) := by
  simp [State.mirBreak]

theorem canon_execMirrorEnable {s : State} (h : s.Canon) (k : Nat) : OutCanon (execMirrorEnable k s) := by
  simp [execMirrorEnable, h]

theorem canon_execMirrorDisable {s : State} (h : s.Canon) (k : Nat) : OutCanon (execMirrorDisable k s) := by
  simp [execMirrorDisable, h]

theorem canon_execMirrorSyncComplete {s : State} (h : s.Canon) (k : Nat) : OutCanon (execMirrorSyncComplete k s) := by
  simp [execMirrorSyncComplete, h]

theorem canon_execMirrorWriteAck {s : State} (h : s.Canon) (k : Nat) : OutCanon (execMirrorWriteAck k s) := by
  unfold execMirrorWriteAck
  split
  · split
    · split
      · simp [h]
      · split <;> simp [h]
    · simp [h]
  · simp [h]

theorem canon_execMirrorPartnerUnreachable {s : State} (h : s.Canon) (k : Nat) : OutCanon (execMirrorPartnerUnreachable k s) := by
  simp [execMirrorPartnerUnreachable, h]

@[simp] theorem State.holds_dropRepair (s : State) (word : Nat) : s.Holds (s.dropRepair word) := by
  simp [State.dropRepair]

@[simp] theorem State.holds_repairFails (s : State) (x : Repair) (c : Nat) : s.Holds (s.repairFails x c) := by
  simp [State.repairFails]

@[simp] theorem State.holds_repairMade (s : State) (x : Repair) (bs : List (BitVec 8)) : s.Holds (s.repairMade x bs) := by
  simp [State.repairMade]

@[simp] theorem State.holds_repairAnswer (s : State) (x : Repair) (r : PortReq) : s.Holds (s.repairAnswer x r) := by
  simp [State.repairAnswer]

@[simp] theorem State.holds_repairGo (s : State) (word : Nat) : s.Holds (s.repairGo word) := by
  unfold State.repairGo
  split
  · simp
  · split
    · simp
    · split
      · split <;> simp
      · split
        · simp
        · split <;> simp

theorem canon_execMirrorRepair {s : State} (h : s.Canon) (k word : Nat) (partner : Option (BitVec 256)) :
    OutCanon (execMirrorRepair k word partner s) := by
  unfold execMirrorRepair
  split
  · simp [h]
  · split
    all_goals
      dsimp only
      split
      · simp [h]
      · split <;> simp [h]

@[simp] theorem State.holds_markLost (s : State) (launch : Nat) : s.Holds (s.markLost launch) := by
  unfold State.markLost
  split <;> simp

@[simp] theorem State.holds_sendMsg (s : State) (a : BitVec 9) (rank : BitVec 4) (facet : BitVec 2) (lane : BitVec 3) (dir : BitVec 1) :
    s.Holds (s.sendMsg a rank facet lane dir) := by
  simp [State.sendMsg]

@[simp] theorem State.keeps_takeMsg (s : State) (d : BitVec 9) (rank : BitVec 4) (facet : BitVec 2) (lane : BitVec 3) (dir : BitVec 1) :
    s.Keeps (s.takeMsg d rank facet lane dir) := by
  unfold State.takeMsg
  dsimp only
  split <;> simp

theorem canon_execRingMessageArrival {s : State} (h : s.Canon) (geode id : Nat) : OutCanon (execRingMessageArrival geode id s) := by
  unfold execRingMessageArrival
  dsimp only
  split <;> simp [h]

theorem canon_execTsyncMeetingComplete {s : State} (h : s.Canon) (geode launch : Nat) (mask : BitVec 16) :
    OutCanon (execTsyncMeetingComplete geode launch mask s) := by
  simp only [execTsyncMeetingComplete, outCanon_next]
  split
  · exact h
  · exact (State.keeps_foldl (fun t p => t.keeps_modFacet _ _ _) _ _).canon (by simpa using h)

@[simp] theorem State.holds_dropMsgs (s : State) (c launch ord : Nat) : s.Holds (s.dropMsgs c launch ord) := by
  simp [State.dropMsgs]

@[simp] theorem State.keeps_take (s : State) (bank : Bool) (off : Nat) : s.Keeps (s.take bank off) := by
  simp [State.take]

@[simp] theorem State.keeps_resetStages (s : State) (c : BitVec 64) (st : BitVec 2) : s.Keeps (s.resetStages c st) := by
  simp [State.resetStages]

@[simp] theorem State.keeps_openLoop (s : State) (c : BitVec 64) (st : BitVec 2) (rot : Bool) (e : BitVec 16) :
    s.Keeps (s.openLoop c st rot e) := by
  simp [State.openLoop]

@[simp] theorem State.keeps_popRecord (s : State) (d : BitVec 6) : s.Keeps (s.popRecord d) := by
  unfold State.popRecord
  split <;> simp

end Sys2Proof.Machine
end

section
/-! SUPPORT. What the functions of the model leave of the canonical form: the bundle: its issue, its commit and what ends a task
(Machine/Bundle). -/

namespace Sys2Proof.Machine

@[simp] theorem State.keeps_settle (s : State) (c fn : Nat) : s.Keeps (s.settle c fn) := by
  have h : CleanAll (s.setCore c ((s.core c).landDue fn)).cores ↔ CleanAll s.cores :=
    CleanAll.set_iff _ _ (Core.Keeps.clean (Core.keeps_landDue _ _))
  simpa [State.settle] using h

theorem canon_execResultLanding {s : State} (h : s.Canon) (core facet : Nat) : OutCanon (execResultLanding core facet s) := by
  simp [execResultLanding, h]

@[simp] theorem State.keeps_atSwitch (s : State) : s.Keeps s.atSwitch := by
  unfold State.atSwitch
  dsimp only
  split
  · simp
  · split
    · simp
    · split <;> simp

@[simp] theorem State.keeps_stall (s : State) : s.Keeps s.stall := by
  simp [State.stall]

@[simp] theorem State.keeps_pass (s : State) (b : Fetched) : s.Keeps (s.pass b) := by
  simp [State.pass]

/-- R192: the trap of an error that a covering bundle meets. -/
theorem State.keeps_coveredError {s t : State} {b : Fetched} (h : s.coveredError b = some t) : s.Keeps t := by
  unfold State.coveredError at h
  split at h
  · cases h
  · split at h
    · cases h
    · cases h
      exact ((State.keeps_modFacet s _ _ _).trans (State.keeps_takeTrap _ _)).trans (State.keeps_modFacet _ _ _ _)

theorem State.keeps_tryIssueFrom {back : State → State} {s : State} (hb : s.Keeps (back s)) (b : Fetched) :
    s.Keeps (State.tryIssueFrom back s b) := by
  unfold State.tryIssueFrom
  split
  · simp
  · split
    · exact (hb.trans (State.keeps_modGeode _ _ _)).trans (State.keeps_takeTrap _ _)
    · split
      · exact hb.trans (State.keeps_takeTrap _ _)
      · split
        · exact ((State.keeps_foldl State.keeps_offer _ _).trans (State.holds_countCore _ _ _ _).keeps).trans (State.keeps_stall _)
        · split
          · next ht => exact State.keeps_coveredError ht
          · simp

@[simp] theorem State.keeps_tryIssue (s : State) (b : Fetched) : s.Keeps (s.tryIssue b) :=
  State.keeps_tryIssueFrom ⟨Iff.rfl, rfl⟩ b

@[simp] theorem State.keeps_readScope (s : State) : s.Keeps s.readScope := by
  simp [State.readScope]

@[simp] theorem State.keeps_reach (s : State) : s.Keeps s.reach := by
  simp [State.reach]

@[simp] theorem State.keeps_holdHere (s : State) : s.Keeps s.holdHere := by
  simp [State.holdHere]

@[simp] theorem State.keeps_issueHere (s : State) : s.Keeps s.issueHere := by
  unfold State.issueHere
  dsimp only
  split <;> simp

@[simp] theorem State.keeps_asRun (s : State) (c fn : Nat) : s.Keeps (s.asRun c fn) := by
  simp [State.asRun]

theorem State.keeps_aside (s : State) (c fn : Nat) {act : State → State} (ha : ∀ t : State, t.Keeps (act t)) :
    s.Keeps (s.aside c fn act) := by
  have h := ((State.keeps_asRun s c fn).trans (ha _)).trans
    (State.keeps_modCore _ c (g := fun k => { k with run := (s.core c).run }) ⟨rfl, rfl⟩)
  exact ⟨h.1, h.2⟩

@[simp] theorem State.keeps_offerHeld (s : State) (c : Nat) : s.Keeps (s.offerHeld c) := by
  refine State.keeps_foldl (fun t fn => ?_) _ _
  split
  · refine State.keeps_aside _ _ _ fun u => ?_
    split
    · simp
    · exact State.keeps_foldl State.keeps_offer _ _
  · exact ⟨Iff.rfl, rfl⟩

@[simp] theorem State.keeps_latchSwitches (s : State) (g : Nat) : s.Keeps (s.latchSwitches g) := by
  refine State.keeps_foldl (fun t k => State.keeps_foldl (fun u fn => ?_) _ _) _ _
  dsimp only
  split
  · exact State.keeps_aside _ _ _ fun _ => ⟨Iff.rfl, rfl⟩
  · exact ⟨Iff.rfl, rfl⟩

theorem canon_execBundleIssue {s : State} (h : s.Canon) (core : Nat) : OutCanon (execBundleIssue core s) := by
  simp [execBundleIssue, h]

@[simp] theorem State.keeps_select (s : State) (c fn : Nat) : s.Keeps (s.select c fn) := by
  simp [State.select]

theorem canon_execFacetSwitch {s : State} (h : s.Canon) (core : Nat) : OutCanon (execFacetSwitch core s) := by
  unfold execFacetSwitch
  dsimp only
  split
  · split <;> simp [h]
  · split
    · simp [h]
    · split <;> simp [h]

theorem canon_execQuantumExpiry {s : State} (h : s.Canon) (core : Nat) : OutCanon (execQuantumExpiry core s) := by
  unfold execQuantumExpiry
  split <;> simp [h]

@[simp] theorem Core.keeps_dropRoutines (k : Core) (image : Nat → Nat) (im : Nat) : k.Keeps (k.dropRoutines image im) := by
  simp [Core.dropRoutines]

@[simp] theorem Core.keeps_vacate (k : Core) (fn : Nat) : k.Keeps (k.vacate fn) := by
  simp [Core.vacate]

@[simp] theorem State.holds_dropWindows (s : State) (launch g : Nat) : s.Holds (s.dropWindows launch g) := by
  unfold State.dropWindows
  split
  · exact ⟨rfl, rfl⟩
  · split <;> exact ⟨rfl, rfl⟩

@[simp] theorem State.holds_leaves (s : State) (g launch task : Nat) : s.Holds (s.leaves g launch task) := by
  simp [State.leaves]

@[simp] theorem State.keeps_vacate (s : State) (c fn : Nat) : s.Keeps (s.vacate c fn) := by
  simp [State.vacate]

@[simp] theorem State.holds_tasksDone (s : State) (launch : Nat) (ts : List Nat) (st : BitVec 16) :
    s.Holds (s.tasksDone launch ts st) := by
  unfold State.tasksDone
  split <;> simp

@[simp] theorem State.keeps_endTask (s : State) (c fn : Nat) : s.Keeps (s.endTask c fn) := by
  simp [State.endTask]

@[simp] theorem State.keeps_afterCommit (s : State) (c fn : Nat) (l : Latch) : s.Keeps (s.afterCommit c fn l) := by
  unfold State.afterCommit
  split
  · exact (State.keeps_modCore _ _ (by simp)).trans (State.keeps_endTask _ _ _)
  · split
    · simp
    · split
      · simp
      · split
        · simp
        · split
          · split <;> simp
          · simp

@[simp] theorem State.keeps_sysWrites (s : State) (l : Latch) : s.Keeps (s.sysWrites l).1 := by
  unfold State.sysWrites
  split
  · simp
  · split <;> simp

@[simp] theorem State.keeps_frameFails (s : State) (c fn lode cause : Nat) : s.Keeps (s.frameFails c fn lode cause) :=
  (s.holds_fabErr lode cause).keeps.trans (State.keeps_modFacet _ c fn _)

@[simp] theorem State.keeps_returnGo (s : State) (c fn : Nat) : s.Keeps (s.returnGo c fn).2 := by
  unfold State.returnGo
  extract_lets f
  split
  · split
    · simp
    · split
      · simp
      · extract_lets ls go t t'
        split
        · simp
        · have ht : s.Keeps t := (s.holds_linesGo _ _).keeps.trans (State.keeps_modFacet _ _ _ _)
          have ht' : s.Keeps t' := ht
          split
          · exact ht
          · dsimp only
            split
            · exact ht'.trans (State.keeps_frameFails _ _ _ _ _)
            · exact ht'
  · simp

@[simp] theorem State.keeps_committed (s : State) (core : Nat) : s.Keeps (s.committed core) := by
  simp [State.committed]

theorem canon_execBundleCommit {s : State} (h : s.Canon) (core : Nat) : OutCanon (execBundleCommit core s) := by
  simp only [execBundleCommit, outCanon_next]
  split
  · exact h
  · split
    · exact h
    · split
      · exact (s.keeps_returnGo _ _).canon h
      · refine (State.keeps_afterCommit _ _ _ _).canon ((State.keeps_sysWrites _ _).canon ((State.keeps_committed _ _).canon ?_))
        split
        · exact (s.keeps_returnGo _ _).canon h
        · exact h

@[simp] theorem State.keeps_parkReplay (s : State) (c fn : Nat) : s.Keeps (s.parkReplay c fn) := by
  simp [State.parkReplay]

theorem canon_execTimingErrorReplay {s : State} (h : s.Canon) (core : Nat) : OutCanon (execTimingErrorReplay core s) := by
  simp [execTimingErrorReplay, h]

theorem canon_execResume {s : State} (h : s.Canon) (core facet : Nat) : OutCanon (execResume core facet s) := by
  have ht := fun g => (State.keeps_modFacet (s.returnGo core facet).2 core facet g).canon ((s.keeps_returnGo _ _).canon h)
  simp only [execResume, outCanon_next]
  split
  · exact h
  · split
    · exact (State.keeps_modFacet _ _ _ _).canon h
    · split
      · exact (State.keeps_returnFrom _ _ _).canon (ht _)
      · exact ht _

theorem canon_execEnter {s : State} (h : s.Canon) (core facet : Nat) : OutCanon (execEnter core facet s) := by
  simp [execEnter, h]

theorem canon_execParkreq {s : State} (h : s.Canon) (core facet : Nat) : OutCanon (execParkreq core facet s) := by
  simp [execParkreq, h]

end Sys2Proof.Machine
end

section
/-! SUPPORT. What the functions of the model leave of the canonical form: kernels and launches (Machine/Kernel, Launch), which place
scratchpads and instruction stores, and tasks killed in a fossil. -/

namespace Sys2Proof.Machine

@[simp] theorem State.holds_meetImage (counts : Bool) (s : State) (pasid : BitVec 20) (fuel va n : Nat) :
    s.Holds (State.meetImage counts s pasid fuel va n) := by
  induction fuel generalizing s va n with
  | zero => exact ⟨rfl, rfl⟩
  | succ k ih =>
    unfold State.meetImage
    dsimp only
    split
    · exact ⟨rfl, rfl⟩
    · split
      · split <;> simp
      · exact ⟨(ih _ _ _).1.trans (by simp), (ih _ _ _).2.trans (by simp)⟩

@[simp] theorem State.holds_meetBytes (s : State) (pasid : BitVec 20) (va n : Nat) : s.Holds (s.meetBytes pasid va n) := by
  simp [State.meetBytes]

@[simp] theorem State.holds_meetRanges (counts : Bool) (s : State) (pasid : BitVec 20) (va : Nat) :
    s.Holds (State.meetRanges counts s pasid va) := by
  simp [State.meetRanges, State.holds_foldl]

@[simp] theorem State.holds_meetKernel (s : State) (pasid : BitVec 20) (va : Nat) : s.Holds (s.meetKernel pasid va) := by
  simp [State.meetKernel]

@[simp] theorem State.holds_dropAccess (s : State) (id : Nat) : s.Holds (s.dropAccess id) := by
  simp [State.dropAccess]

@[simp] theorem State.stays_modTask (s : State) (c fn launch : Nat) (g : Facet → Facet) : s.Stays (s.modTask c fn launch g) := by
  unfold State.modTask
  split
  · refine ⟨Iff.rfl, cleanFossils_map _ fun f => ?_⟩
    split
    · exact cleanAll_map _ fun e => by split <;> exact ⟨rfl, rfl⟩
    · exact Iff.rfl
  · simp

@[simp] theorem State.stays_supply (s : State) (a : Access) (w : RegWrite) (flags : BitVec 6) (poison : Bool) :
    s.Stays (s.supply a w flags poison) := by
  simp [State.supply]

@[simp] theorem State.canon_atSpad {s : State} (h : s.Canon) (a : Access) (c : Nat) : (s.atSpad a c).Canon := by
  have hd : ({ s with freeCtr := s.freeCtr + 1 } : State).Canon := h
  unfold State.atSpad
  extract_lets bad s1
  split
  · exact (State.keeps_noteSpadErr _ _ _).canon ((State.stays_supply _ _ _ _ _).canon hd)
  · exact State.canon_modCore ((State.holds_dropAccess _ _).canon hd) c fun k hk => Core.clean_spadWrite hk _
  · have hn := (State.keeps_noteSpadErr s1 c a.op.addrs).canon hd
    exact (State.stays_supply _ _ _ _ _).canon (State.canon_modCore hn c fun _ _ => Core.clean_spadAtomic (hn.1.get c) _ _ _ _ _ _ _)
  · exact State.canon_updateBar ((State.holds_dropAccess _ _).canon hd) _ _ _ _ _

@[simp] theorem State.canon_performSpad {s : State} (h : s.Canon) (a : Access) (c : Nat) : (s.performSpad a c).Canon := by
  unfold State.performSpad
  split <;> simp [h]

@[simp] theorem State.holds_modSlot (s : State) (k : Nat) (f : QSlot → QSlot) : s.Holds (s.modSlot k f) := by
  simp [State.modSlot]

@[simp] theorem State.holds_readOwn (s : State) (pa n : Nat) : s.Holds (s.readOwn pa n) := by
  simp [State.readOwn]

@[simp] theorem State.holds_slotPost (s : State) (k kind code idx : Nat) : s.Holds (s.slotPost k kind code idx) := by
  simp [State.slotPost]

@[simp] theorem State.holds_slotErr (s : State) (k code idx : Nat) : s.Holds (s.slotErr k code idx) := by
  simp [State.slotErr]

theorem canon_execMap {s : State} (h : s.Canon) (slot : Nat) : OutCanon (execMap slot s) := by
  simp [execMap, h]

theorem canon_execUnmap {s : State} (h : s.Canon) (slot : Nat) : OutCanon (execUnmap slot s) := by
  simp [execUnmap, h]

theorem canon_execUnmapComplete {s : State} (h : s.Canon) (slot : Nat) : OutCanon (execUnmapComplete slot s) := by
  simp [execUnmapComplete, h]

@[simp] theorem State.holds_malformed (s : State) (k : Nat) (e : ImageErr) : s.Holds (s.malformed k e) := by
  simp [State.malformed]

@[simp] theorem State.holds_readRecord (s : State) (i : Nat) : s.Holds (s.readRecord i).1 := by
  unfold State.readRecord
  split <;> simp

@[simp] theorem State.holds_openLaunch (s : State) (k : Nat) (ws : List (BitVec 64)) (kn : Kernel) (ck : Option Nat) :
    s.Holds (s.openLaunch k ws kn ck) := by
  simp [State.openLaunch]

@[simp] theorem State.holds_startLaunch (s : State) (k : Nat) (ws : List (BitVec 64)) : s.Holds (s.startLaunch k ws) := by
  unfold State.startLaunch
  extract_lets q s1 sig
  split
  · simp
  · have h1 : s.Holds s1 := by unfold s1; split <;> simp
    clear_value sig
    split
    · exact h1.trans (State.holds_malformed _ _ _)
    · extract_lets s2
      have h2 : s.Holds s2 := h1.trans (by simp [s2])
      split
      · exact h2.trans (State.holds_malformed _ _ _)
      · extract_lets n s3 ck rd s4
        have h3 : s.Holds s3 := h2.trans (by unfold s3; split <;> simp)
        have h4 : s.Holds s4 := h3.trans (by
          unfold s4 rd
          clear_value ck
          split
          · exact State.holds_readRecord _ _
          · exact ⟨rfl, rfl⟩)
        clear_value s4 rd ck
        split
        · exact h4.trans (State.holds_malformed _ _ _)
        · split
          · exact h4.trans (State.holds_malformed _ _ _)
          · split
            · exact h4.trans (State.holds_modSlot _ _ _)
            · split
              · exact h4.trans (State.holds_modSlot _ _ _)
              · exact h4.trans (State.holds_openLaunch _ _ _ _ _)

@[simp] theorem State.holds_startWait (s : State) (k : Nat) (ws : List (BitVec 64)) : s.Holds (s.startWait k ws) := by
  simp [State.startWait, State.holds_foldl]

@[simp] theorem State.holds_startSignal (s : State) (k : Nat) (ws : List (BitVec 64)) : s.Holds (s.startSignal k ws) := by
  unfold State.startSignal
  split
  · simp
  · dsimp only
    split <;> simp

theorem canon_execPacketStart {s : State} (h : s.Canon) (slot : Nat) : OutCanon (execPacketStart slot s) := by
  unfold execPacketStart
  dsimp only
  split
  · simp [h]
  · split
    · simp [h]
    · split
      · simp [h]
      · split <;> simp [h]

@[simp] theorem State.holds_sigsPort (s : State) (k : Nat) : s.Holds (s.sigsPort k) := by
  unfold State.sigsPort
  split <;> simp

@[simp] theorem State.holds_readSignal (s : State) (x : Signal) : s.Holds (s.readSignal x) := by
  unfold State.readSignal
  split
  · simp
  · split <;> simp
  · simp

@[simp] theorem State.holds_pollWait (s : State) (k : Nat) : s.Holds (s.pollWait k) := by
  simp [State.pollWait, State.holds_foldl]

theorem canon_execWaitPacketSatisfied {s : State} (h : s.Canon) (slot : Nat) : OutCanon (execWaitPacketSatisfied slot s) := by
  unfold execWaitPacketSatisfied
  dsimp only
  split <;> simp [h]

@[simp] theorem Core.clean_clearPages {k : Core} (h : k.Clean) (ps : List Nat) : (k.clearPages ps).Clean :=
  ⟨Memory.wf_filter _ h.1, h.2⟩

@[simp] theorem Core.clean_fillWindow {k : Core} (h : k.Clean) (ps : List Nat) (off : Nat) (bs : List (BitVec 8)) :
    (k.fillWindow ps off bs).Clean := by
  have hw : ∀ (l : List (Nat × BitVec 8)) (m : Memory), m.wf = true → Memory.wf (l.foldl (fun m x => m.set x.1 x.2) m) = true := by
    intro l
    induction l with
    | nil => exact fun _ hm => hm
    | cons x r ih => exact fun m hm => ih _ (Memory.wf_set _ _ hm)
  exact ⟨hw _ _ h.1, h.2⟩

@[simp] theorem Core.keeps_clearBlocks (k : Core) (vb cb : List Nat) : k.Keeps (k.clearBlocks vb cb) := by
  simp [Core.clearBlocks]

@[simp] theorem State.canon_placeSeg {s : State} (h : s.Canon) (id : Nat) (l : Launch) (c : Nat) (e : BitVec 64 × BitVec 64) :
    (s.placeSeg id l c e).Canon := by
  have hk : (s.core c).Clean := h.1.get c
  unfold State.placeSeg
  extract_lets p k s1 a
  split
  · exact ⟨h.1.set c hk, h.2⟩
  · have h1 : s1.Canon := (State.holds_meetBytes s _ _ _).canon h
    split
    · exact h1
    · exact ⟨h1.1.set c ⟨hk.1, Memory.wf_put _ _ (Memory.wf_filter _ hk.2)⟩, h1.2⟩

@[simp] theorem State.canon_placeData {s : State} (h : s.Canon) (l : Launch) (c : Nat) (ps : List Nat) (e : BitVec 64 × BitVec 64) :
    (s.placeData l c ps e).Canon := by
  have h1 := (State.holds_meetBytes s l.pasid ((pw l.words 2).toNat + e.2.toNat) (wbits e.1 47 24)).canon h
  unfold State.placeData
  dsimp only
  split
  · exact h1
  · exact State.canon_modCore h1 c fun k hk => Core.clean_fillWindow hk _ _ _

@[simp] theorem State.keeps_resumeTask (s : State) (l : Launch) (of c fn : Nat) (t : CkTask) : s.Keeps (s.resumeTask l of c fn t) := by
  simp [State.resumeTask]

@[simp] theorem State.canon_placeCore {s : State} (h : s.Canon) (id : Nat) (l : Launch) (c γ κ : Nat) :
    (s.placeCore id l c γ κ).Canon := by
  unfold State.placeCore
  extract_lets kn k ps s1 s2 s3 s4 s5 nv nc ncores s6 rec? s7 s8
  have h1 : s1.Canon := by
    unfold s1
    split <;> exact h
  have h2 : s2.Canon := State.canon_modCore h1 c fun k hk => Core.clean_clearPages hk _
  have h3 : s3.Canon := State.canon_foldl (fun t e ht => State.canon_placeSeg ht _ _ _ _) _ h2
  have h4 : s4.Canon := State.canon_foldl (fun t e ht => State.canon_placeData ht _ _ _ _) _ h3
  have h5 : s5.Canon := (State.keeps_modCore _ c (by simp)).canon h4
  have h6 : s6.Canon := by
    unfold s6
    split
    · exact (State.holds_readRecord _ _).canon h5
    · exact h5
  have h7 : s7.Canon := by
    unfold s7
    split
    · exact State.canon_modCore h6 c fun k hk => Core.clean_fillWindow hk _ _ _
    · exact h6
  have h8 : s8.Canon := (State.keeps_modCore _ c ⟨rfl, rfl⟩).canon h7
  refine State.canon_foldl (fun t f ht => ?_) _ h8
  extract_lets vb cb task fn t1
  have ht1 : t1.Canon := (State.keeps_modCore _ c (by simp)).canon ht
  split
  · exact ht
  · split
    · exact (State.keeps_resumeTask _ _ _ _ _ _).canon ht1
    · exact ht1

@[simp] theorem State.canon_placeGeode {s : State} (h : s.Canon) (id : Nat) (l : Launch) (g : Nat) : (s.placeGeode id l g).Canon := by
  unfold State.placeGeode
  extract_lets γ ranks s1
  have h1 : s1.Canon := by
    unfold s1
    split
    · exact h
    · exact State.canon_foldl (fun t κ ht => State.canon_placeCore ht _ _ _ _ _) _ h
  exact h1

theorem canon_execLaunchDispatch {s : State} (h : s.Canon) (slot : Nat) : OutCanon (execLaunchDispatch slot s) := by
  simp only [execLaunchDispatch, outCanon_next]
  split
  · exact h
  · split
    · exact h
    · exact State.canon_foldl (fun t g ht => State.canon_placeGeode ht _ _ _) _ h

theorem canon_execTokenRefill {s : State} (h : s.Canon) (p : Nat) : OutCanon (execTokenRefill p s) := by
  simp [execTokenRefill, h]

@[simp] theorem State.holds_writeSignal (s : State) (x : Signal) : s.Holds (s.writeSignal x) := by
  unfold State.writeSignal
  split
  · simp
  · split <;> simp
  · simp

theorem canon_execPacketCompletion {s : State} (h : s.Canon) (slot : Nat) : OutCanon (execPacketCompletion slot s) := by
  unfold execPacketCompletion
  rw [outCanon_next]
  extract_lets q ws ty l st sigs told s1 ridx s2 src s3 s4
  split
  · exact h
  · have ht : s.Holds told := by simp [told]
    split
    · split
      · exact (ht.trans (State.holds_sigsPort _ _)).canon h
      · exact h
    · split
      · exact h
      · have h1 : s.Holds s1 := .trans (by split <;> simp [ht]) (State.holds_foldl State.holds_writeSignal _ _)
        have h3 : s.Holds s3 := h1.trans (by simp [s3, src, s2])
        have h4 : s.Holds s4 := h3.trans (by unfold s4; split <;> simp)
        split
        · exact (h4.trans (State.holds_slotErr _ _ _ _)).canon h
        · split
          · exact (h4.trans (State.holds_slotErr _ _ _ _)).canon h
          · exact h4.canon h

@[simp] theorem State.stays_killBulk (s : State) (c fn launch : Nat) (e : Nat) : s.Stays (s.killBulk c fn launch e) := by
  unfold State.killBulk
  dsimp only
  split
  · split
    all_goals
      split
      · split <;> simp
      · simp
  · split
    · split <;> simp
    · simp

@[simp] theorem Core.keeps_stopWork (k : Core) (fn : Nat) : k.Keeps (k.stopWork fn) := by
  simp [Core.stopWork]

@[simp] theorem State.stays_killTask (s : State) (c fn : Nat) : s.Stays (s.killTask c fn) := by
  simp [State.killTask, State.stays_foldl]

/-- R358: a task killed in a fossil leaves the memories of its core. -/
theorem Fossil.clean_killFacet (f : Fossil) (image : Nat → Nat) (own : List Nat) (c fn : Nat) :
    CleanAll (f.killFacet image own c fn).cores ↔ CleanAll f.cores := by
  unfold Fossil.killFacet
  extract_lets x gone geo g
  have hg : CleanAll g.cores ↔ CleanAll f.cores := cleanAll_map _ fun e => by split <;> simp
  split <;> exact hg

/-- R404: the cores of a fossil come back as they are but for their handles. -/
theorem State.canon_unpack {s : State} (h : s.Canon) {f : Fossil} (hf : CleanAll f.cores) {re : Core → Core} (hre : ∀ k : Core, k.Keeps
    (re k)) :
    (s.unpack f re).Canon := by
  refine ⟨?_, h.2⟩
  have hfold : ∀ l : Tbl Core, CleanAll l → ∀ t : Tbl Core, CleanAll t →
      CleanAll (l.foldl (fun t k => Tbl.set t k.1 (re k.2)) t) := by
    intro l
    induction l with
    | nil => exact fun _ _ ht => ht
    | cons e r ih =>
      intro hl t ht
      obtain ⟨he, hr⟩ := List.forall_mem_cons.1 hl
      exact ih hr _ (ht.set e.1 ((Core.Keeps.clean (hre e.2)).2 he))
  exact hfold _ hf _ h.1

theorem State.canon_performFrozen {s : State} (h : s.Canon) (i c fn launch : Nat) : (s.performFrozen i c fn launch).Canon := by
  unfold State.performFrozen
  split
  · exact h
  · next f hf =>
    extract_lets own t
    have hfc : CleanAll f.cores := h.2 f (List.mem_of_getElem? hf)
    have ht : t.Canon := by
      refine State.canon_foldl (fun u a hu => ?_) _ (State.canon_unpack h hfc fun _ => ⟨rfl, rfl⟩)
      split
      · split
        · exact State.canon_atSpad hu _ _
        · exact hu
      · exact hu
    exact ⟨h.1, h.2.modify i fun _ _ => ht.1.filter _⟩

@[simp] theorem State.canon_killFrozen {s : State} (h : s.Canon) (i c fn : Nat) (st : BitVec 16) : (s.killFrozen i c fn st).Canon := by
  unfold State.killFrozen
  split
  · exact h
  · extract_lets x own s1 s2
    have h1 : s1.Canon := (State.stays_foldl (fun t e => t.stays_killBulk _ _ _ _) _ _).canon (State.canon_performFrozen h _ _ _ _)
    clear_value s1 own
    have h2 : s2.Canon := ⟨h1.1, h1.2.modify i fun f hf => (Fossil.clean_killFacet f s1.image own c fn).2 hf⟩
    refine (State.holds_tasksDone _ _ _ _).canon ((State.holds_leaves _ _ _ _).canon ?_)
    split
    · exact h2
    · exact (State.holds_markLost _ _).canon h2

@[simp] theorem State.canon_killLaunch {s : State} (h : s.Canon) (id : Nat) : (s.killLaunch id).Canon := by
  unfold State.killLaunch
  extract_lets here s1 frozen s2
  have h1 : s1.Canon := (State.stays_foldl (fun t p => t.stays_killTask _ _) _ _).canon h
  have h2 : s2.Canon := State.canon_foldl (fun t p ht => State.canon_killFrozen ht _ _ _ _) _ h1
  split <;> exact h2

theorem canon_execWatchdogExpiry {s : State} (h : s.Canon) (core facet : Nat) : OutCanon (execWatchdogExpiry core facet s) := by
  simp [execWatchdogExpiry, h]

theorem canon_execKill {s : State} (h : s.Canon) (slot : Nat) : OutCanon (execKill slot s) := by
  unfold execKill
  dsimp only
  split
  · simp [h]
  · split
    · simp [h]
    · split <;> simp [h]

end Sys2Proof.Machine
end

section
/-! SUPPORT. What the functions of the model leave of the canonical form: the matrix unit and its routines (Machine/Matrix, Microcode). -/

namespace Sys2Proof.Machine

@[simp] theorem Core.keeps_accPut (k : Core) (f : Facet) (es : List (Nat × Nat × AccEntry)) : k.Keeps (k.accPut f es) := by
  simp [Core.accPut]

@[simp] theorem Core.keeps_accZero (k : Core) (f : Facet) (row rows col cols : Nat) : k.Keeps (k.accZero f row rows col cols) := by
  simp [Core.accZero]

@[simp] theorem State.keeps_deliverN (s : State) (sn : BitVec 6) : s.Keeps (s.deliverN sn) := by
  simp [State.deliverN]

@[simp] theorem State.keeps_enqueue (s : State) (kind : ItemKind) (n : Nat) (place : Nat) (lock : Nat) :
    s.Keeps (s.enqueue kind n place lock) := by
  simp [State.enqueue]

@[simp] theorem State.keeps_callRoutine (s : State) (ix sn : BitVec 6) (imm : BitVec 34) : s.Keeps (s.callRoutine ix sn imm) := by
  simp [State.callRoutine]

@[simp] theorem State.keeps_queueDrain (s : State) (sn : BitVec 6) (mode : BitVec 3) (fmt : BitVec 5) (col : BitVec 9) (row rows :
    BitVec 7) (z : Bool) : s.Keeps (s.queueDrain sn mode fmt col row rows z) := by
  simp [State.queueDrain]

@[simp] theorem State.keeps_finishItem (s : State) (c fn : Nat) (it : Item) (flags : BitVec 6) (err : Option TrapCause) :
    s.Keeps (s.finishItem c fn it flags err) := by
  simp [State.finishItem]

@[simp] theorem State.canon_runDrain {s : State} (h : s.Canon) (c fn : Nat) (it : Item) (mode : BitVec 3) (fmt : BitVec 5)
    (col row rows : Nat) (z : Bool) : (s.runDrain c fn it mode fmt col row rows z).Canon := by
  unfold State.runDrain
  extract_lets k f win int w ps vs addr ws fl s1 s2
  have h1 : s1.Canon := State.canon_modCore h c fun k hk => by
    refine Core.clean_spadWrite ?_ _
    split
    · exact (Core.Keeps.clean (Core.keeps_accZero _ _ _ _ _ _)).2 hk
    · exact hk
  split
  · exact (State.keeps_finishItem _ _ _ _ _ _).canon h
  · exact (State.keeps_finishItem _ _ _ _ _ _).canon ((State.keeps_modFacet _ _ _ _).canon h1)

@[simp] theorem State.keeps_runUcode (s : State) (c fn : Nat) (it : Item) (ix n off : Nat) : s.Keeps (s.runUcode c fn it ix n off) := by
  unfold State.runUcode
  dsimp only
  split <;> simp

@[simp] theorem State.canon_runStat {s : State} (h : s.Canon) (c fn : Nat) (it : Item) (clear : Bool) (off : Nat) :
    (s.runStat c fn it clear off).Canon := by
  unfold State.runStat
  extract_lets f win ws s1
  have h1 : s1.Canon := State.canon_modCore h c fun _ hk => Core.clean_spadWrite hk _
  exact (State.keeps_finishItem _ _ _ _ _ _).canon ((State.keeps_modFacet _ _ _ _).canon h1)

@[simp] theorem State.canon_startItem {s : State} (h : s.Canon) (c fn : Nat) (it : Item) : (s.startItem c fn it).Canon := by
  unfold State.startItem
  split
  · simp [h]
  · simp [h]
  · dsimp only
    split <;> simp [h]
  · simp [h]
  · simp [h]
  · simp [h]
  · simp [h]

@[simp] theorem State.keeps_setInv (s : State) (v : Invocation) : s.Keeps (s.setInv v) := by
  simp [State.setInv]

@[simp] theorem State.keeps_microFail (s : State) (v : Invocation) (c : TrapCause) : s.Keeps (s.microFail v c) := by
  simp [State.microFail]

@[simp] theorem State.keeps_spend (s : State) (g n : Nat) : s.Keeps (s.spend g n) :=
  ⟨cleanAll_map _ fun _ => by split <;> exact ⟨rfl, rfl⟩, rfl⟩

@[simp] theorem State.keeps_windowPasses (s : State) (g : Nat) : s.Keeps (s.windowPasses g) := by
  simp [State.windowPasses]

@[simp] theorem State.holds_noBallast (s : State) (g : Nat) : s.Holds (s.noBallast g) := by
  simp [State.noBallast]

@[simp] theorem State.keeps_runPass (s : State) (v : Invocation) (sparse ovr : Bool) : s.Keeps (s.runPass v sparse ovr) := by
  unfold State.runPass
  split
  · simp
  · split <;> simp

@[simp] theorem State.keeps_runPop (s : State) (v : Invocation) (isA : Bool) : s.Keeps (s.runPop v isA) := by
  simp [State.runPop]

@[simp] theorem State.keeps_runAcc (s : State) (v : Invocation) (x : Int) : s.Keeps (s.runAcc v x) := by
  simp [State.runAcc]

@[simp] theorem State.keeps_runScale (s : State) (v : Invocation) (x : Int) : s.Keeps (s.runScale v x) := by
  simp [State.runScale]

@[simp] theorem State.keeps_runSync (s : State) (v : Invocation) (x : Nat) : s.Keeps (s.runSync v x) := by
  simp [State.runSync]

/-- R206: a micro-operation of a routine that has ended has no effect. -/
theorem canon_microOp {s : State} (h : s.Canon) {e : Invocation → State} (he : ∀ v, (e v).Canon) : OutCanon (microOp s e) := by
  unfold microOp
  rw [outCanon_next]
  split
  · split
    · exact h
    · exact he _
  · exact h

theorem canon_execNop {s : State} (h : s.Canon) : OutCanon (execNop s) :=
  canon_microOp h fun _ => (State.keeps_setInv _ _).canon h

theorem canon_execPopA {s : State} (h : s.Canon) : OutCanon (execPopA s) :=
  canon_microOp h fun _ => (State.keeps_runPop _ _ _).canon h

theorem canon_execPopB {s : State} (h : s.Canon) : OutCanon (execPopB s) :=
  canon_microOp h fun _ => (State.keeps_runPop _ _ _).canon h

theorem canon_execPass {s : State} (h : s.Canon) (ovr : BitVec 1) : OutCanon (execPass ovr s) :=
  canon_microOp h fun _ => (State.keeps_runPass _ _ _ _).canon h

theorem canon_execPassSp {s : State} (h : s.Canon) (ovr : BitVec 1) : OutCanon (execPassSp ovr s) :=
  canon_microOp h fun _ => (State.keeps_runPass _ _ _ _).canon h

theorem canon_execAcc {s : State} (h : s.Canon) (val : BitVec 16) (src : BitVec 2) : OutCanon (execAcc val src s) :=
  canon_microOp h fun _ => (State.keeps_runAcc _ _ _).canon h

theorem canon_execZero {s : State} (h : s.Canon) : OutCanon (execZero s) := by
  refine canon_microOp h fun v => ?_
  split
  · exact (State.keeps_setInv _ _).canon ((State.keeps_modCore s s.cur (Core.keeps_accZero _ _ _ _ _ _)).canon h)
  · exact (State.keeps_microFail _ _ _).canon h

theorem canon_execShift {s : State} (h : s.Canon) (val : BitVec 16) (src : BitVec 2) : OutCanon (execShift val src s) :=
  canon_microOp h fun _ => (State.keeps_setInv _ _).canon h

theorem canon_execMicroLoop {s : State} (h : s.Canon) (tgt : BitVec 10) (ctr : BitVec 1) (val : BitVec 16) (src : BitVec 2) :
    OutCanon (execMicroLoop tgt ctr val src s) := by
  refine canon_microOp h fun v => ?_
  split
  · exact (State.keeps_microFail _ _ _).canon h
  · exact (State.keeps_setInv _ _).canon h

theorem canon_execJump {s : State} (h : s.Canon) (tgt : BitVec 10) : OutCanon (execJump tgt s) := by
  refine canon_microOp h fun v => ?_
  split
  · exact (State.keeps_microFail _ _ _).canon h
  · exact (State.keeps_setInv _ _).canon h

theorem canon_execMicroEnd {s : State} (h : s.Canon) : OutCanon (execMicroEnd s) :=
  canon_microOp h fun _ => (State.keeps_setInv _ _).canon h

theorem canon_execScale {s : State} (h : s.Canon) (val : BitVec 16) (src : BitVec 2) : OutCanon (execScale val src s) :=
  canon_microOp h fun _ => (State.keeps_runScale _ _ _).canon h

theorem canon_execWit {s : State} (h : s.Canon) : OutCanon (execWit s) :=
  canon_microOp h fun _ => (State.keeps_setInv _ _).canon h

theorem canon_execSync {s : State} (h : s.Canon) (val : BitVec 16) (src : BitVec 2) : OutCanon (execSync val src s) :=
  canon_microOp h fun _ => (State.keeps_runSync _ _ _).canon h

theorem canon_execMatrixItemRun {s : State} (h : s.Canon) (core : Nat) : OutCanon (execMatrixItemRun core s) := by
  unfold execMatrixItemRun
  dsimp only
  split
  · split
    · simp [h]
    · split
      · simp [h]
      · split <;> simp [h]
  · split <;> simp [h]

end Sys2Proof.Machine
end

section
/-! SUPPORT. What the functions of the model leave of the canonical form: power and preemption (Machine/Power, Preempt): geodes frozen
into fossils and restored from them. -/

namespace Sys2Proof.Machine

theorem canon_execFrequencyStep {s : State} (h : s.Canon) (geode : Nat) : OutCanon (execFrequencyStep geode s) := by
  simp [execFrequencyStep, h]

@[simp] theorem State.holds_peqPost (s : State) (p kind geo old new value : Nat) : s.Holds (s.peqPost p kind geo old new value) := by
  simp [State.peqPost]

@[simp] theorem State.holds_peqGeode (s : State) (g kind old new value : Nat) : s.Holds (s.peqGeode g kind old new value) := by
  unfold State.peqGeode
  split <;> simp

@[simp] theorem State.holds_devCount (s : State) (a n : Nat) : s.Holds (s.devCount a n) := by
  simp [State.devCount]

@[simp] theorem State.holds_account (s : State) (r : EpochReport) : s.Holds (s.account r) := by
  simp [State.account, State.holds_foldl]

@[simp] theorem State.holds_partLevel (s : State) (p : Nat) : s.Holds (s.partLevel p) := by
  unfold State.partLevel
  split <;> simp

@[simp] theorem State.holds_packageStep (s : State) (r : EpochReport) : s.Holds (s.packageStep r) := by
  unfold State.packageStep
  split <;> simp

@[simp] theorem State.holds_thermalStep (s : State) (r : EpochReport) (g : Nat) : s.Holds (s.thermalStep r g) := by
  simp [State.thermalStep]

@[simp] theorem State.holds_grant (s : State) (g : Nat) : s.Holds (s.grant g) := by
  simp [State.grant]

theorem canon_execEpochEnd {s : State} (h : s.Canon) (r : EpochReport) : OutCanon (execEpochEnd r s) := by
  unfold execEpochEnd
  rw [outCanon_next]
  refine (State.holds_foldl State.holds_grant _ _).canon ?_
  refine (State.keeps_foldl State.keeps_latchSwitches _ _).canon ?_
  refine (State.holds_foldl (fun t g => t.holds_thermalStep r g) _ _).canon ?_
  exact (State.holds_packageStep _ _).canon ((State.holds_foldl State.holds_partLevel _ _).canon ((State.holds_account _ _).canon h))

theorem canon_execTemperatureCritical {s : State} (h : s.Canon) (geode : Nat) (temp : BitVec 8) :
    OutCanon (execTemperatureCritical geode temp s) := by
  simp [execTemperatureCritical, h]

@[simp] theorem State.holds_unlimit (s : State) : s.Holds s.unlimit := by
  simp [State.unlimit, State.holds_foldl]

theorem canon_execCurrentReport {s : State} (h : s.Canon) (amps : List Nat) (other : Nat) :
    OutCanon (execCurrentReport amps other s) := by
  unfold execCurrentReport
  rw [outCanon_next]
  extract_lets ilim sum s1 held top gs s2 s3 gs' s4
  have hput : ∀ t : State, t.Canon → (t.devPut (aPower + 0x60) 12 12 0).Canon := fun _ ht => ht
  have h1 : s1.Canon := h
  split
  · exact h
  · split
    · have h2 : s2.Canon := (State.keeps_foldl (fun t g => t.keeps_modGeode g _) _ _).canon h1
      exact (State.holds_foldl (fun t p => t.holds_peqPost _ _ _ _ _ _) _ _).canon h2
    · split
      · have h4 : s4.Canon := hput _ ((State.holds_unlimit s1).canon h1)
        exact (State.holds_foldl (fun t p => t.holds_peqPost _ _ _ _ _ _) _ _).canon h4
      · exact h1

theorem canon_execActivityWindow {s : State} (h : s.Canon) (geode later : Nat) : OutCanon (execActivityWindow geode later s) := by
  simp [execActivityWindow, h]

theorem canon_execBallastPass {s : State} (h : s.Canon) (geode : Nat) (on : Bool) : OutCanon (execBallastPass geode on s) := by
  simp [execBallastPass, h]

@[simp] theorem State.holds_countFossils (s : State) (p : Nat) : s.Holds (s.countFossils p) := by
  simp [State.countFossils]

@[simp] theorem State.holds_putFossilHeader (s : State) (f : Fossil) : s.Holds (s.putFossilHeader f) := by
  simp [State.putFossilHeader]

theorem State.canon_takeFossil {s : State} (h : s.Canon) {f : Fossil} (hf : CleanAll f.cores) : (s.takeFossil f).Canon := by
  unfold State.takeFossil
  extract_lets g s1 s2
  have hfs : CleanFossils (s1.fossils ++ [f]) := fun x hx =>
    (List.mem_append.1 hx).elim (h.2 x) fun he => List.mem_singleton.1 he ▸ hf
  have h2 : s2.Canon := ⟨CleanAll.filter h.1 _, hfs⟩
  exact ((State.holds_countFossils _ _).trans (State.holds_putFossilHeader _ _)).canon h2

@[simp] theorem State.canon_freezeInto {s : State} (h : s.Canon) (g : Nat) (reason : BitVec 2) (pa : Nat) (spare : Option SpareSlot) :
    (s.freezeInto g reason pa spare).Canon := by
  have hl := (State.keeps_latchSwitches s g).canon h
  exact State.canon_takeFossil hl (CleanAll.filter hl.1 _)

theorem canon_execGeodeFreeze {s : State} (h : s.Canon) (geode : Nat) (reason : BitVec 2) :
    OutCanon (execGeodeFreeze geode reason s) := by
  unfold execGeodeFreeze
  rw [outCanon_next]
  split
  · exact h
  · split
    · exact h
    · exact State.canon_freezeInto h _ _ _ _

theorem State.canon_modFossil {s : State} (h : s.Canon) (i : Nat) {g : Fossil → Fossil}
    (hg : ∀ f : Fossil, CleanAll f.cores → CleanAll (g f).cores) : (s.modFossil i g).Canon :=
  ⟨h.1, h.2.modify i hg⟩

@[simp] theorem State.canon_killFossil {s : State} (h : s.Canon) (i : Nat) (f : Fossil) (st : BitVec 16) :
    (s.killFossil i f st).Canon := by
  unfold State.killFossil
  extract_lets s1 s2
  have h1 : s1.Canon := State.canon_foldl (fun t p ht => State.canon_killFrozen ht _ _ _ _) _ h
  have h2 : s2.Canon := (State.holds_countFossils _ _).canon (State.canon_modFossil h1 i fun _ hf => hf)
  split
  · exact (State.keeps_modGeode _ _ _).canon h2
  · exact h2

@[simp] theorem State.canon_goOffline {s : State} (h : s.Canon) (g : Nat) : (s.goOffline g).Canon :=
  State.canon_foldl (fun _ _ ht => State.canon_killFossil ht _ _ _) _ h

@[simp] theorem State.holds_takeSpare (s : State) (g slot : Nat) : s.Holds (s.takeSpare g slot) := by
  simp [State.takeSpare]

theorem canon_execSparingSequence {s : State} (h : s.Canon) (geode : Nat) (spare : Option SpareSlot) :
    OutCanon (execSparingSequence geode spare s) := by
  have hf : ∀ r pa, ((s.devPut (aGeodeMap geode) 7 6 1).freezeInto geode r pa spare).Canon := fun _ _ =>
    State.canon_freezeInto (s := s.devPut _ 7 6 1) h _ _ _ _
  unfold execSparingSequence
  rw [outCanon_next]
  split
  · exact h
  · extract_lets test reason
    clear_value test reason
    split
    · exact hf _ _
    · split
      · exact h
      · exact hf _ _
    · exact h
    · split
      · exact h
      · refine State.canon_foldl (fun t p ht => ?_) _ (State.canon_goOffline h _)
        exact (State.holds_tasksDone _ _ _ _).canon ((State.stays_killTask _ _ _).canon ht)

theorem canon_execFossilWriteComplete {s : State} (h : s.Canon) (i : Nat) : OutCanon (execFossilWriteComplete i s) := by
  unfold execFossilWriteComplete
  rw [outCanon_next]
  split
  · exact h
  · next f hf =>
    extract_lets f' s1 s2
    have hc : CleanAll f'.cores := h.2 f (List.mem_of_getElem? hf)
    have h1 : s1.Canon := (State.keeps_modGeode _ _ _).canon (State.canon_modFossil h i fun _ _ => hc)
    have h2 : s2.Canon := (State.holds_putFossilHeader _ _).canon ((State.holds_putOwn _ _ _ _ _).canon h1)
    split
    · exact h
    · split
      · exact h2
      · split
        · exact (State.holds_takeSpare _ _ _).canon h2
        · exact State.canon_goOffline h2 _

@[simp] theorem State.holds_rewalk (s : State) (g : Nat) (pasid : BitVec 20) (h : Handle) : s.Holds (s.rewalk g pasid h) := by
  unfold State.rewalk
  dsimp only
  split <;> simp

theorem State.canon_restoreFossil {s : State} (h : s.Canon) (i : Nat) {f : Fossil} (hf : CleanAll f.cores) :
    (s.restoreFossil i f).Canon := by
  unfold State.restoreFossil
  extract_lets g out src s1 xs s2 re s3 s4
  have h2 : s2.Canon := (State.holds_foldl (fun t x => State.holds_foldl (fun u h => u.holds_rewalk _ _ _) _ _) _ _).canon
    ((State.keeps_modGeode _ _ _).canon h)
  have h3 : s3.Canon := State.canon_unpack h2 hf fun _ => ⟨rfl, rfl⟩
  have h4 : s4.Canon := by unfold s4; split <;> exact h3
  exact ((State.holds_countFossils _ _).trans (State.holds_putFossilHeader _ _)).canon (State.canon_modFossil h4 i fun _ _ => hf)

@[simp] theorem State.holds_readFossil (s : State) (f : Fossil) : s.Holds (s.readFossil f) := by
  simp [State.readFossil]

theorem canon_execFossilRestore {s : State} (h : s.Canon) (i : Nat) : OutCanon (execFossilRestore i s) := by
  unfold execFossilRestore
  rw [outCanon_next]
  split
  · exact h
  · next f hf =>
    have h1 := (State.holds_readFossil s f).canon h
    split
    · exact h
    · dsimp only
      split
      · exact State.canon_restoreFossil h1 i (h.2 f (List.mem_of_getElem? hf))
      · exact State.canon_killFossil h1 _ _ _

@[simp] theorem State.stays_modFacetsOf (s : State) (id : Nat) (f : Facet → Facet) : s.Stays (s.modFacetsOf id f) :=
  ⟨cleanAll_map _ fun _ => ⟨rfl, rfl⟩, cleanFossils_map _ fun _ => cleanAll_map _ fun _ => ⟨rfl, rfl⟩⟩

@[simp] theorem State.holds_policyActed (s : State) (p last fallback : Nat) : s.Holds (s.policyActed p last fallback) := by
  simp [State.policyActed]

@[simp] theorem State.holds_putRecordHeader (s : State) (r : Ckpt) (crc : BitVec 32) : s.Holds (s.putRecordHeader r crc) := by
  simp [State.putRecordHeader]

@[simp] theorem State.holds_putRecord (s : State) (r : Ckpt) : s.Holds (s.putRecord r) := by
  simp [State.putRecord]

@[simp] theorem State.holds_markRecord (s : State) (i : Nat) (st : BitVec 2) : s.Holds (s.markRecord i st) := by
  unfold State.markRecord
  split <;> simp

@[simp] theorem State.holds_failRecord (s : State) (id : Nat) (l : Launch) : s.Holds (s.failRecord id l) := by
  unfold State.failRecord
  split <;> simp

@[simp] theorem State.canon_checkpointFails {s : State} (h : s.Canon) (id : Nat) : (s.checkpointFails id).Canon := by
  unfold State.checkpointFails
  split
  · exact h
  · next l _ =>
    extract_lets p src s1 s2 gs freezable
    have h1 : s1.Canon := (State.holds_failRecord s id l).canon h
    have h2 : s2.Canon := (State.stays_modFacetsOf _ _ _).canon h1
    split
    · refine State.canon_foldl (fun t g ht => ?_) _ ((State.holds_policyActed _ _ _ _).canon h2)
      split
      · exact State.canon_freezeInto ht _ _ _ _
      · exact ht
    · exact State.canon_killLaunch ((State.holds_policyActed _ _ _ _).canon h2) _

theorem canon_execCheckpointRequest {s : State} (h : s.Canon) (slot : Nat) : OutCanon (execCheckpointRequest slot s) := by
  unfold execCheckpointRequest
  dsimp only
  split
  · simp [h]
  · split
    · simp [h]
    · split <;> simp [h]

@[simp] theorem State.keeps_noteWindows (s : State) (l : Launch) : s.Keeps (s.noteWindows l) := by
  simp [State.noteWindows, State.keeps_foldl]

@[simp] theorem State.canon_saveRecord {s : State} (h : s.Canon) (id : Nat) (l : Launch) : (s.saveRecord id l).Canon := by
  unfold State.saveRecord
  dsimp only
  split <;> simp [h]

@[simp] theorem State.keeps_endSave (s : State) (id i : Nat) : s.Keeps (s.endSave id i) := by
  simp [State.endSave, State.keeps_foldl]

theorem canon_execCheckpointSave {s : State} (h : s.Canon) (slot : Nat) : OutCanon (execCheckpointSave slot s) := by
  unfold execCheckpointSave
  dsimp only
  split
  · simp [h]
  · split
    · simp [h]
    · split
      · simp [h]
      · split
        · simp [h]
        · split <;> simp [h]

theorem canon_execCheckpointTimeout {s : State} (h : s.Canon) (slot : Nat) : OutCanon (execCheckpointTimeout slot s) := by
  unfold execCheckpointTimeout
  dsimp only
  split
  · split <;> simp [h]
  · simp [h]

@[simp] theorem State.canon_act {s : State} (h : s.Canon) (slot g : Nat) (a : Action) : (s.act slot g a).Canon := by
  unfold State.act
  split
  · exact h
  · exact State.canon_foldl (fun t i ht => State.canon_killLaunch ht i) _ h
  · split
    · exact State.canon_freezeInto h _ _ _ _
    · exact h
  · refine State.canon_foldl (fun t i ht => ?_) _ h
    split
    · exact ht
    · split
      · exact ht
      · extract_lets t1
        have ht1 : t1.Canon := ht
        split
        · exact State.canon_checkpointFails ht1 _
        · exact (State.stays_modFacetsOf _ _ _).canon ht

theorem canon_execPreemptionPolicy {s : State} (h : s.Canon) (slot geode : Nat) : OutCanon (execPreemptionPolicy slot geode s) := by
  unfold execPreemptionPolicy
  rw [outCanon_next]
  extract_lets p tok a s1
  have h1 : s1.Canon := h
  split
  · exact h
  · exact State.canon_act ((State.holds_policyActed _ _ _ _).canon h1) _ _ _

end Sys2Proof.Machine
end

section
/-! SUPPORT. What the functions of the model leave of the canonical form: registers and firmware (Machine/Trust, Registers). -/

namespace Sys2Proof.Machine

@[simp] theorem State.holds_extendMeas (s : State) (k : Nat) (data : List (BitVec 8)) : s.Holds (s.extendMeas k data) := by
  simp [State.extendMeas, State.holds_foldl]

theorem canon_execExtctlGo {s : State} (h : s.Canon) (v : BitVec 64) (fw : Bool) : OutCanon (execExtctlGo v fw s) := by
  simp [execExtctlGo, h]

theorem canon_execAttestationReport {s : State} (h : s.Canon) (nonce : BitVec 384) (pa : Nat) :
    OutCanon (execAttestationReport nonce pa s) := by
  simp [execAttestationReport, h]

theorem canon_execEnvelopeReceive {s : State} (h : s.Canon) (e : Envelope) (mgmt : Bool) : OutCanon (execEnvelopeReceive e mgmt s) := by
  simp [execEnvelopeReceive, h]

theorem canon_execManifestReplace {s : State} (h : s.Canon) (digests : List (BitVec 384)) (svn : BitVec 16) (payload : List (BitVec 8)) :
    OutCanon (execManifestReplace digests svn payload s) := by
  unfold execManifestReplace
  split <;> simp [h]

theorem canon_execInFieldTest {s : State} (h : s.Canon) (t : ScanTest) : OutCanon (execInFieldTest t s) := by
  unfold execInFieldTest
  rw [outCanon_next]
  have hput : ∀ (t : State) (l : List Nat) (a v : Nat), t.Canon → ({ t with failedSlots := l }.devPut a 27 24 v).Canon :=
    fun _ _ _ _ ht => ht
  have hset : ∀ (t : State) (a : Nat) (v : BitVec 64), t.Canon → (t.devSet a v).Canon := fun _ _ _ ht => ht
  extract_lets die bad pass id
  split
  · exact h
  · extract_lets s1 spares out s2
    have h1 : s1.Canon := (State.holds_extendMeas _ _ _).canon h
    have h2 : s2.Canon := hset _ _ _ h1
    split
    · exact h
    · split
      · exact h2
      · split
        · exact hput _ _ _ _ h2
        · split
          · exact hput _ _ _ _ h2
          · exact h2

theorem canon_execGeodeMapWrite {s : State} (h : s.Canon) (n : Nat) (v : BitVec 32) (fw : Bool) :
    OutCanon (execGeodeMapWrite n v fw s) := by
  simp [execGeodeMapWrite, h]

theorem canon_execLodeIdWrite {s : State} (h : s.Canon) (v : BitVec 64) (fw : Bool) : OutCanon (execLodeIdWrite v fw s) := by
  simp [execLodeIdWrite, h]

theorem State.canon_after {s : State} (h : s.Canon) {o : Out} (ho : OutCanon o) : (after o s).Canon := by
  cases o with
  | next t => exact ho t rfl
  | fault f => exact h
  | refused r => exact h

@[simp] theorem State.canon_mirRegWrite {s : State} (h : s.Canon) (k off : Nat) (v : BitVec 64) : (s.mirRegWrite k off v).Canon := by
  unfold State.mirRegWrite
  extract_lets a off? s1 s2
  split
  · split <;> exact h
  · split <;> exact h
  · have h1 : s1.Canon := by unfold s1; split <;> exact h
    have h2 : s2.Canon := by unfold s2; split <;> exact h1
    split
    · exact State.canon_after h2 (canon_execMirrorEnable h2 _)
    · exact State.canon_after h2 (canon_execMirrorDisable h2 _)
  · exact h

@[simp] theorem State.canon_slotRegWrite {s : State} (h : s.Canon) (k off : Nat) (v : BitVec 64) (fw : Bool) :
    (s.slotRegWrite k off v fw).Canon := by
  unfold State.slotRegWrite
  extract_lets free one s1
  have h1 : s1.Canon := by unfold s1; split <;> exact h
  split
  · split <;> exact h
  · split
    · exact State.canon_after h1 (canon_execMap h1 _)
    · exact State.canon_after h1 (canon_execUnmap h1 _)
    · exact State.canon_after h1 (canon_execKill h1 _)
    · exact h1
  · exact h

@[simp] theorem State.canon_parkWrite {s : State} (h : s.Canon) (c fn : Nat) (v : BitVec 64) : (s.parkWrite c fn v).Canon := by
  unfold State.parkWrite
  split
  · exact State.canon_after h (canon_execResume h _ _)
  · exact State.canon_after h (canon_execEnter h _ _)
  · exact State.canon_after h (canon_execParkreq h _ _)
  · exact h

@[simp] theorem State.canon_bulkWrite {s : State} (h : s.Canon) (e off : Nat) (v : BitVec 64) : (s.bulkWrite e off v).Canon := by
  unfold State.bulkWrite
  refine State.canon_ite (State.canon_ite h h) (State.canon_ite h (State.canon_ite h (State.canon_ite (State.canon_ite ?_ h) h)))
  exact State.canon_after h (canon_execHostBulkGo h _ _)

@[simp] theorem State.holds_counterWrite (s : State) (a off : Nat) (v : BitVec 64) : s.Holds (s.counterWrite a off v) := by
  simp [State.counterWrite]

@[simp] theorem State.holds_portWrite (s : State) (k : Nat) (v : BitVec 64) : s.Holds (s.portWrite k v) := by
  simp [State.portWrite]

@[simp] theorem State.holds_levelWrite (s : State) (a : Nat) (v : BitVec 64) : s.Holds (s.levelWrite a v) := by
  simp [State.levelWrite]

@[simp] theorem State.canon_regWrite {s : State} (h : s.Canon) (a : Nat) (v : BitVec 64) (fw : Bool) : (s.regWrite a v fw).Canon := by
  have hmap : ∀ (n : Nat) (u v : BitVec 32),
      (after (execGeodeMapWrite (n + 1) v fw (after (execGeodeMapWrite n u fw s) s)) (after (execGeodeMapWrite n u fw s) s)).Canon :=
    fun n u v => have h1 := State.canon_after h (canon_execGeodeMapWrite h n u fw)
      State.canon_after h1 (canon_execGeodeMapWrite h1 _ _ _)
  unfold State.regWrite
  refine State.canon_ite (State.canon_after h (canon_execLodeIdWrite h _ _)) ?_
  refine State.canon_ite (hmap _ _ _) ?_
  refine State.canon_ite (State.canon_ite ((State.keeps_invalGo _ _).canon h) h) ?_
  refine State.canon_ite (State.canon_ite h h) ?_
  refine State.canon_ite (State.canon_ite (State.canon_after h (canon_execHpbarGo h)) h) ?_
  refine State.canon_ite (State.canon_mirRegWrite h _ _ _) ?_
  refine State.canon_ite (State.canon_slotRegWrite h _ _ _ _) ?_
  refine State.canon_ite (State.canon_ite ((State.holds_levelWrite _ _ _).canon h) h) ?_
  refine State.canon_ite (State.canon_after h (canon_execExtctlGo h _ _)) ?_
  refine State.canon_ite (State.canon_ite ((State.holds_portWrite _ _ _).canon h) h) ?_
  refine State.canon_ite (State.canon_parkWrite h _ _ _) ?_
  refine State.canon_ite (State.canon_bulkWrite h _ _ _) ?_
  split
  · exact (State.holds_counterWrite _ _ _ _).canon h
  · split
    · exact State.canon_ite (State.canon_after h (canon_execLogcntPop h _)) h
    · exact State.canon_ite h h

@[simp] theorem State.holds_hostDone (s : State) (core : Nat) (bs : List (BitVec 8)) (faulted : Bool) (mem : Option (Nat × Nat)) :
    s.Holds (s.hostDone core bs faulted mem) := by
  simp [State.hostDone]

@[simp] theorem State.holds_hostStore (s : State) (core pa : Nat) (bs : List (BitVec 8)) : s.Holds (s.hostStore core pa bs) := by
  simp [State.hostStore]

@[simp] theorem State.holds_hostLoad (s : State) (core pa n : Nat) : s.Holds (s.hostLoad core pa n) := by
  simp [State.hostLoad]

@[simp] theorem State.canon_hostAccess {s : State} (h : s.Canon) (addr : Nat) (v : HostAccess) (fw : Bool) :
    (s.hostAccess addr v fw).Canon := by
  have hd : ∀ t : State, t.Canon → ∀ bs b, (t.hostDone v.core bs b).Canon := fun t ht _ _ => (State.holds_hostDone t _ _ _ _).canon ht
  have hs : ∀ bs, (s.hostStore v.core addr bs).Canon := fun _ => (State.holds_hostStore _ _ _ _).canon h
  unfold State.hostAccess
  extract_lets core
  refine State.canon_ite h (State.canon_ite (State.canon_ite (hd s h _ _) ?_) ?_)
  · obtain ⟨c, v | bs | n⟩ := v
    · exact hd _ (State.canon_regWrite h _ _ _) _ _
    · exact hd s h _ _
    · rcases n with _ | _ | _ | _ | _ | _ | _ | _ | _ | n <;> exact hd s h _ _
  · split
    · exact hs _
    · exact hs _
    · exact (State.holds_hostLoad _ _ _ _).canon h

@[simp] theorem State.holds_holdRow (s : State) (r : HeldRow) : s.Holds (s.holdRow r) := by
  simp [State.holdRow]

theorem canon_execRegisterWrite {s : State} (h : s.Canon) (addr : Nat) (v : HostAccess) (fw : Bool) :
    OutCanon (execRegisterWrite addr v fw s) := by
  unfold execRegisterWrite
  split <;> simp [h]

end Sys2Proof.Machine
end

section
/-! SUPPORT. What the functions of the model leave of the canonical form: accesses at home, the fabric and the start of the package
(Machine/Access, Fabric, Schedule). -/

namespace Sys2Proof.Machine

@[simp] theorem State.stays_performMain (s : State) (a : Access) : s.Stays (s.performMain a) := by
  unfold State.performMain
  extract_lets w
  split
  · exact ((State.holds_noteWords _ _ _ _).keeps.stays.trans (State.stays_supply _ _ _ _ _)).trans (State.holds_hot _ _ _).keeps.stays
  · exact ((State.holds_dropAccess s _).trans (State.holds_storeMain _ _ _ _ _ _)).keeps.stays
  · exact (State.holds_atomicMain s _ _ _ _ _ _ _ _ _ _ _).keeps.stays.trans (State.stays_supply _ _ _ _ _)
  · exact (State.holds_dropAccess s _).keeps.stays

@[simp] theorem State.canon_performDevice {s : State} (h : s.Canon) (a : Access) : (s.performDevice a).Canon := by
  unfold State.performDevice
  split <;> simp [h]

@[simp] theorem State.stays_endAccess (s : State) (a : Access) : s.Stays (s.endAccess a) := by
  unfold State.endAccess
  split <;> simp

@[simp] theorem State.stays_failAccess (s : State) (a : Access) (cause : Nat) : s.Stays (s.failAccess a cause) := by
  simp [State.failAccess]

@[simp] theorem State.stays_answer (s : State) (a : Access) : s.Stays (s.answer a) := by
  unfold State.answer
  split
  all_goals
    split
    · dsimp only
      split <;> simp
    · dsimp only
      split <;> simp
    · simp

@[simp] theorem State.stays_performRemote (s : State) (a : Access) (lode : Nat) : s.Stays (s.performRemote a lode) := by
  have hl : s.Holds (s.linesGo a.ports a.reaches).2.2 := State.holds_linesGo _ _ _
  unfold State.performRemote
  extract_lets go src goes
  have hg : s.Stays goes := by
    unfold goes
    split
    · exact hl.keeps.stays.trans (State.stays_answer _ _)
    · exact hl.keeps.stays
  split
  · exact hg
  · split
    · exact State.stays_performMain _ _
    · exact State.stays_failAccess _ _ _
    · exact hg

theorem canon_execAccessPerformAtHome {s : State} (h : s.Canon) (id : Nat) : OutCanon (execAccessPerformAtHome id s) := by
  unfold execAccessPerformAtHome
  split
  · simpa using h
  · next a _ =>
    split
    · simpa using h
    · split
      · simp
      · rw [outCanon_next]
        split
        · exact State.canon_performSpad h _ _
        · exact (State.stays_performMain _ _).canon h
        · exact (State.stays_performMain _ _).canon h
        · exact State.canon_performDevice h _
        · exact (State.stays_performRemote _ _ _).canon h

@[simp] theorem State.holds_fabErrs (s : State) (rs : List PortReq) (cause : Nat) : s.Holds (s.fabErrs rs cause) := by
  simp [State.fabErrs, State.holds_foldl]

@[simp] theorem State.stays_failAccs (s : State) (hit : PortReq → Bool) (cause : Nat) : s.Stays (s.failAccs hit cause) := by
  simp [State.failAccs, State.stays_foldl]

@[simp] theorem State.stays_failBulk (s : State) (hit : PortReq → Bool) (cause : Nat) : s.Stays (s.failBulk hit cause) := by
  refine State.stays_foldl (fun t e => ?_) _ _
  extract_lets b
  split
  · split
    · exact ((State.holds_fabErrs _ _ _).trans (State.holds_bulkStop _ _ _ _)).keeps.stays.trans (State.stays_bulkEnd _ _)
    · exact ⟨Iff.rfl, Iff.rfl⟩
  · exact ⟨Iff.rfl, Iff.rfl⟩

@[simp] theorem Core.keeps_failFrames (k : Core) (hit : PortReq → Bool) : k.Keeps (k.failFrames hit) := by
  simp [Core.failFrames]

@[simp] theorem Core.keeps_failReqs (k : Core) (hit : PortReq → Bool) : k.Keeps (k.failReqs hit) := by
  unfold Core.failReqs
  extract_lets k1 k2
  have h1 : k.Keeps k1 := Core.keeps_failFrames k hit
  have h2 : k1.Keeps k2 := Core.keeps_foldl (fun k t => by
    split
    · split <;> simp
    · exact ⟨rfl, rfl⟩) _ _
  refine (h1.trans h2).trans (Core.keeps_foldl (fun k b => ?_) _ _)
  dsimp only
  split
  · split <;> simp
  · exact ⟨rfl, rfl⟩

@[simp] theorem State.stays_failCores (s : State) (hit : PortReq → Bool) (cause : Nat) : s.Stays (s.failCores hit cause) := by
  have hmap : ∀ t : Tbl Core,
      CleanAll (t.map fun (k : Nat × Core) => if k.2.portReqs.any hit then (k.1, k.2.failReqs hit) else k) ↔ CleanAll t :=
    fun t => cleanAll_map t fun e => by
      split
      · show e.2.Keeps (e.2.failReqs hit)
        exact Core.keeps_failReqs e.2 hit
      · exact ⟨rfl, rfl⟩
  refine ⟨hmap _, cleanFossils_map _ fun f => ?_⟩
  split
  · exact hmap _
  · exact Iff.rfl

@[simp] theorem State.holds_failMirror (s : State) (hit : PortReq → Bool) (cause : Nat) : s.Holds (s.failMirror hit cause) := by
  simp [State.failMirror, State.holds_foldl]

@[simp] theorem State.holds_failRepairs (s : State) (hit : PortReq → Bool) (cause : Nat) : s.Holds (s.failRepairs hit cause) := by
  simp [State.failRepairs, State.holds_foldl]

@[simp] theorem State.holds_failSignals (s : State) (hit : PortReq → Bool) (cause : Nat) : s.Holds (s.failSignals hit cause) := by
  simp [State.failSignals]

@[simp] theorem State.holds_failPcie (s : State) (hit : PortReq → Bool) (cause : Nat) : s.Holds (s.failPcie hit cause) := by
  simp [State.failPcie]

@[simp] theorem State.stays_failReqs (s : State) (hit : PortReq → Bool) (cause : Nat) : s.Stays (s.failReqs hit cause) := by
  simp [State.failReqs]

theorem canon_execFabricTimeout {s : State} (h : s.Canon) (id : Nat) : OutCanon (execFabricTimeout id s) := by
  simp [execFabricTimeout, h]

theorem canon_execFabricError {s : State} (h : s.Canon) (lode : BitVec 16) (cause : BitVec 4) :
    OutCanon (execFabricError lode cause s) := by
  unfold execFabricError
  rw [outCanon_next]
  split
  · split
    · exact (State.stays_failReqs _ _ _).canon h
    · exact h
  · exact h

@[simp] theorem State.stays_failPort (s : State) (k : Nat) : s.Stays (s.failPort k) := by
  simp [State.failPort]

theorem canon_execFlitCrcError {s : State} (h : s.Canon) (k : Nat) : OutCanon (execFlitCrcError k s) := by
  unfold execFlitCrcError
  split
  · simp [h]
  · dsimp only
    split <;> simp [h]

theorem canon_execPortTrain {s : State} (h : s.Canon) (k lanes gbps : Nat) : OutCanon (execPortTrain k lanes gbps s) := by
  simp [execPortTrain, h]

@[simp] theorem State.holds_answered (s : State) (ok : Bool) (bs : List (BitVec 8)) : s.Holds (s.answered ok bs) := by
  simp [State.answered]

@[simp] theorem State.holds_inbound (s : State) (r : FabricRequest) : s.Holds (s.inbound r) := by
  have ha : ∀ (t : State) b l, t.Holds (t.answered b l) := fun t b l => State.holds_answered _ _ _
  unfold State.inbound
  extract_lets lode
  split
  · split
    · exact ha _ _ _
    · exact ((State.holds_noteWords _ _ _ _).trans (State.holds_hot _ _ _)).trans (ha _ _ _)
  · split
    · exact ha _ _ _
    · exact (State.holds_storeMain _ _ _ _ _ _).trans (ha _ _ _)
  · extract_lets n
    split
    · exact ha _ _ _
    · exact (State.holds_atomicMain _ _ _ _ _ _ _ _ _ _ _ _).trans (ha _ _ _)
  · split
    · exact ha _ _ _
    · exact ((State.holds_storeWords _ _ _ _ _ _ _).trans (State.holds_hot _ _ _)).trans (ha _ _ _)

theorem canon_execFabricRequestArrival {s : State} (h : s.Canon) (r : FabricRequest) : OutCanon (execFabricRequestArrival r s) := by
  simp [execFabricRequestArrival, h]

theorem canon_execPcieLinkTrain {s : State} (h : s.Canon) (lanes gts : Nat) : OutCanon (execPcieLinkTrain lanes gts s) := by
  simp [execPcieLinkTrain, h]

@[simp] theorem State.canon_pcieMove {s : State} (h : s.Canon) (r : PcieRequest) (cs : List Cell) : (s.pcieMove r cs).Canon := by
  unfold State.pcieMove
  split <;> simp [h]

@[simp] theorem State.canon_pcieGo {s : State} (h : s.Canon) (x : PcieOut) (new : Bool) : (s.pcieGo x new).2.2.Canon := by
  have ha : ∀ (t : State), t.Canon → (t.answered false []).Canon := fun t ht => (State.holds_answered _ _ _).canon ht
  unfold State.pcieGo
  extract_lets r n
  split
  · exact ha _ h
  · extract_lets s1 s2 sp y go
    have h1 : s1.Canon := (State.holds_meetPages _ _ _ _ _).canon h
    have h2 : s2.Canon := by
      unfold s2
      split
      · exact (State.holds_countPages _ _ _ _ _ _).canon h1
      · exact h1
    have hg : go.2.2.Canon := (State.holds_engineGo _ _ _).canon h2
    split
    · exact ha _ h2
    · split
      · exact ha _ ((State.holds_fabErr _ _ _).canon h2)
      · split
        · exact State.canon_pcieMove hg _ _
        · exact hg

theorem canon_execPcieInboundRequest {s : State} (h : s.Canon) (r : PcieRequest) : OutCanon (execPcieInboundRequest r s) := by
  unfold execPcieInboundRequest
  rw [outCanon_next]
  extract_lets go
  have hg : go.2.2.Canon := State.canon_pcieGo h _ _
  split <;> exact hg

@[simp] theorem State.canon_pcieAway {s : State} (h : s.Canon) : s.pcieAway.Canon := by
  unfold State.pcieAway
  split
  · exact h
  · exact State.canon_pcieGo h _ _

@[simp] theorem State.holds_telemetryRead (s : State) (a : Nat) : s.Holds (s.telemetryRead a) := by
  simp [State.telemetryRead]

theorem canon_execManagementFrame {s : State} (h : s.Canon) (f : MgmtFrame) : OutCanon (execManagementFrame f s) := by
  cases f
  case envelope e => exact canon_execEnvelopeReceive h _ _
  case attest nonce => exact (outCanon_next _).2 ((State.holds_answered _ _ _).canon h)
  case telemetry a =>
    refine (outCanon_next _).2 ?_
    split
    · exact (State.holds_holdRow _ _).canon h
    · exact (State.holds_telemetryRead _ _).canon h

@[simp] theorem State.canon_heldRow {s : State} (h : s.Canon) : s.heldRow.Canon := by
  unfold State.heldRow
  split
  · simp [h]
  · split <;> simp [h]

/-- R456: a package that loses power keeps no core and no fossil. -/
theorem canon_execPowerGoodDeassert {s : State} (h : s.Canon) (drained : Bool) : OutCanon (execPowerGoodDeassert drained s) := by
  unfold execPowerGoodDeassert
  rw [outCanon_next]
  split
  · exact h
  · exact ⟨fun _ he => absurd he List.not_mem_nil, fun _ he => absurd he List.not_mem_nil⟩

@[simp] theorem State.holds_measureSlot (s : State) (slot : Bool) : s.Holds (s.measureSlot slot) := by
  simp [State.measureSlot]

theorem State.canon_bootRom {s t : State} (h : s.Canon) (ht : s.bootRom = some t) : t.Canon := by
  unfold State.bootRom at ht
  obtain ⟨b, -, rfl⟩ := Option.map_eq_some_iff.1 ht
  exact (State.holds_measureSlot _ _).canon h

@[simp] theorem State.canon_bootWrites {s : State} (h : s.Canon) (step : Nat) : (s.bootWrites step).Canon := by
  refine State.canon_foldl (fun t x ht => ?_) _ (s := { s with freeCtr := s.freeCtr + 1 }) h
  split
  · exact State.canon_regWrite ht _ _ _
  · exact ht

@[simp] theorem State.holds_bootManifest (s : State) : s.Holds s.bootManifest := by
  unfold State.bootManifest
  split <;> simp

@[simp] theorem State.holds_trainPorts (s : State) : s.Holds s.trainPorts := by
  simp [State.trainPorts, State.holds_foldl]

@[simp] theorem State.holds_raiseFused (s : State) : s.Holds s.raiseFused := by
  simp [State.raiseFused]

theorem State.canon_bringUpStep {s t : State} (h : s.Canon) {holdup : Bool} {k : Nat} (ht : s.bringUpStep holdup k = some t) :
    t.Canon := by
  have hfree : ∀ (t : State) (n : Nat), t.Canon → ({ t with freeCtr := n } : State).Canon := fun _ _ ht => ht
  unfold State.bringUpStep at ht
  split at ht
  · exact State.canon_bootRom h ht
  all_goals
    obtain rfl := Option.some.inj ht
  · exact h
  · exact h
  · exact State.canon_bootWrites ((State.holds_trainPorts _).canon h) _
  · exact hfree _ _ (((State.holds_bootManifest _).trans (State.holds_extendMeas _ _ _)).canon (State.canon_bootWrites h _))
  · exact (State.holds_raiseFused _).canon h
  · exact h

theorem State.canon_bringUp {s : State} (h : s.Canon) (fails : Option Nat) (holdup : Bool) (n k : Nat) :
    (s.bringUp fails holdup n k).Canon := by
  induction n generalizing s k with
  | zero => exact h
  | succ n ih =>
    unfold State.bringUp
    split
    · next t ht =>
      split at ht
      · cases ht
      · have h1 := State.canon_bringUpStep h ht
        exact ih (s := { t with bootStep := k }) h1 _
    · exact h

@[simp] theorem State.canon_powerUp {s : State} (h : s.Canon) (fails : Option Nat) (holdup : Bool) : (s.powerUp fails holdup).Canon :=
  State.canon_bringUp (s := { s with powered := true, recovery := false, bootStep := 0, pgood := none }) h _ _ _ _

theorem canon_execPowerGoodAssert {s : State} (h : s.Canon) (fails : Option Nat) (holdup : Bool) :
    OutCanon (execPowerGoodAssert fails holdup s) := by
  unfold execPowerGoodAssert
  rw [outCanon_next]
  split
  · exact h
  · split
    · exact State.canon_powerUp h _ _
    · exact h

theorem canon_execWakePin {s : State} (h : s.Canon) (level : Bool) : OutCanon (execWakePin level s) := by
  unfold execWakePin
  rw [outCanon_next]
  extract_lets s1
  have h1 : s1.Canon := h
  split
  · split
    · exact h1
    · exact State.canon_powerUp h1 _ _
  · exact h1

@[simp] theorem State.canon_loadElems {s : State} (h : s.Canon) (d : BitVec 9) (m : BitVec 4) (t : BitVec 5) (x : BitVec 32) (addr : Nat
    → Nat) : (s.loadElems d m t x addr).Canon := by
  simp [State.loadElems, h]

@[simp] theorem State.keeps_nature (s : State) : s.Keeps s.nature := by
  unfold State.nature
  split <;> split <;> simp

end Sys2Proof.Machine
end

section
/-! SUPPORT. Every instruction of the table answers a canonical state (log entry 5): the operations of the slots by their effects, every
other row by its lemma. -/

namespace Sys2Proof.Machine

/-- R51, R53: a slot operation changes no memory but by its effect. -/
theorem canon_slotOp {i : Instr} {s t : State} (h : s.Canon) (ht : t.Canon) : OutCanon (slotOp i s t) := by
  obtain he | ⟨x, -, he⟩ | ⟨-, he⟩ | ⟨-, he⟩ := slotOp_cases i s t <;> rw [he, outCanon_next]
  · exact h
  · exact (s.keeps_takeTrap x).canon h
  · exact (s.keeps_offer i).canon h
  · exact ht

/-- The effect of every operation of a slot. -/
theorem canon_exec_slot {i : Instr} {s : State} (hi : i.slot?.isSome = true) (h : s.Canon) : OutCanon (exec i s) := by
  cases i
  -- results alone
  case add | sub | mul | mulh | mulhn | div | divn | rem | remn | and | or | xor | shl | shr | sra | rot | min | max | minn | maxn
      | sel | addi | andi | ori | xori | shli | shri | srai | li | lih | muli | clz | ctz | popc | bint3 | bdint3 | bint2 | bdint2
      | brev | sext | zext | rdid | rdsys | rdtime | rdcyc | flagsRd | movGs | movXs | movVs =>
    exact canon_slotOp h ((s.keeps_putS _ _ _).canon h)
  case add128 => exact canon_slotOp h ((s.keeps_putPair _ _ _).canon h)
  case evpop => exact canon_slotOp h ((s.keeps_popRecord _).canon h)
  case cmpEq | cmpNe | cmpLt | cmpLtn | cmpLe | cmpLen | cmpiEq | cmpiLt | gand | gor | gnot | movSg | movMg =>
    exact canon_slotOp h ((s.keeps_putG _ _ _).canon h)
  case fclass | fcmp | icmp | mand | mor | mxor | mnot =>
    exact canon_slotOp h ((s.keeps_putM _ _ _ _).canon h)
  case movSv | bscale | vsel | vcompress | vexpand | viota | mpopc | mfirst | iredAdd | iadd128 | vrng
      | fadd | fsub | fmul | fdiv | fma | fms | fnma | fsqrt | frcp | frsq | fexp2 | flog2 | fmin | fmax | fscale | fabs | fneg
      | fcvt | fround | icvt | fredAdd | fredMax | fredMin | vrngF | vperm | vzip | vunzip | vrev | vbcast | vslide | vmovi
      | iadd | isub | imul | imulh | iand | ior | ixor | ishl | ishr | isra | imin | imax | iadds | isubs | iabs | iclz | ipopc
      | ibint3 =>
    exact canon_slotOp h ((s.keeps_putV _ _ _ _).canon h)
  case hdrop | yadd | ysub | yand | yxor | ycmp | movSx | movSq | movSd | mparami | xadd | xaddi | xli | xsub | movVx =>
    exact canon_slotOp h ((s.keeps_land _ _ _ _ _).canon h)
  case translate => exact canon_slotOp h ((State.holds_count _ _ _ _ _).canon ((s.keeps_land _ _ _ _ _).canon h))
  -- holds and checks
  case wait | drain | chkY | chkV | chkS | ifence | wfe | mwait => exact canon_slotOp h h
  -- transfers, and what the commit acts on
  case br | brs | ret => exact canon_slotOp h ((s.keeps_take _ _).canon h)
  case call => exact canon_slotOp h ((State.keeps_take _ _ _).canon ((s.keeps_putS _ _ _).canon h))
  case brb =>
    refine canon_slotOp h ((State.keeps_take _ _ _).canon ?_)
    split
    · exact h
    · exact (s.keeps_putS _ _ _).canon h
  case loop | loopi => exact canon_slotOp h ((s.keeps_openLoop _ _ _ _).canon h)
  case lexit => exact canon_slotOp h ((State.keeps_take _ _ _).canon ((s.keeps_modFacet _ _ _).canon h))
  case halt | yield | wrsys | sys | trapi | eret => exact canon_slotOp h ((s.keeps_modLatch _).canon h)
  case setest | flagsClr | pbar | tsync | bulkSet => exact canon_slotOp h ((s.keeps_modFacet _ _ _).canon h)
  -- barriers and the ring
  case barArr => exact canon_slotOp h ((s.holds_sendAccess _ _ _ _ _ _ _).canon h)
  case barWait => exact canon_slotOp h ((s.keeps_noteSpadErr _ _).canon h)
  case send => exact canon_slotOp h ((s.holds_sendMsg _ _ _ _ _).canon h)
  case recv => exact canon_slotOp h ((s.keeps_takeMsg _ _ _ _ _).canon h)
  -- engines
  case feed => exact canon_slotOp h ((s.keeps_feed _ _ _ _ _ _ _).canon h)
  case lcopy => exact canon_slotOp h ((s.keeps_lcopy _ _ _).canon h)
  case ifetch => exact canon_slotOp h ((s.keeps_ifetch _ _ _).canon h)
  case winOpen => exact canon_slotOp h ((s.keeps_winOpen _ _ _ _ _ _).canon h)
  case winAdv => exact canon_slotOp h ((s.keeps_winAdv _ _ _).canon h)
  case winClose => exact canon_slotOp h ((s.keeps_winClose _ _).canon h)
  case bulkGo => exact canon_slotOp h ((s.stays_bulkGo _ _).canon h)
  case bulkCancel => exact canon_slotOp h ((s.holds_bulkCancel _ _).canon h)
  case crcRd => exact canon_slotOp h ((s.keeps_crcRd _ _ _).canon h)
  -- the matrix queue
  case mcall => exact canon_slotOp h ((s.keeps_callRoutine _ _ _).canon h)
  case mzero => exact canon_slotOp h ((State.keeps_deliverN _ _).canon ((s.keeps_enqueue _ _ _ _).canon h))
  case mdrainP => exact canon_slotOp h ((s.keeps_queueDrain _ _ _ _ _ _ _).canon h)
  case mucodeLd | mwit | mflush | mstat => exact canon_slotOp h ((s.keeps_enqueue _ _ _ _).canon h)
  case mdrainV =>
    refine canon_slotOp h ?_
    have hv := fun d v l f => (s.keeps_putV d v l f).canon h
    extract_lets s1
    have h1 : s1.Canon := hv _ _ _ _
    split
    · exact ⟨(s1.clean_modHere _ (Core.keeps_accZero _ _ _ _ _ _)).2 h1.1, h1.2⟩
    · exact h1
  -- loads, stores and atomics
  case ldS | ldV | ldM | ldQ | vfill => exact canon_slotOp h ((s.keeps_spadLoad _ _ _).canon h)
  case ldVs | ldVg => exact canon_slotOp h (State.canon_loadElems h _ _ _ _ _)
  case ldhS | ldhV => exact canon_slotOp h ((s.keeps_handleLoad _ _ _ _).canon h)
  case stS | stV | stVs | stVx => exact canon_slotOp h ((State.keeps_raise _ _).canon (State.canon_spadStore h _))
  case stM | vspill => exact canon_slotOp h (State.canon_spadStore h _)
  case sthS | sthV => exact canon_slotOp h ((State.keeps_raise _ _).canon ((s.holds_handleStore _ _ _ _ _).canon h))
  case sigw => exact canon_slotOp h ((s.holds_handleStore _ _ _ _ _).canon h)
  case amoP => exact canon_slotOp h (State.canon_spadAmo h _ _ _ _ _ _)
  case amoH => exact canon_slotOp h ((s.keeps_handleAmo _ _ _ _ _ _ _).canon h)
  -- nothing else stands in a slot
  all_goals cases hi
end Sys2Proof.Machine
end

section
/-! SUPPORT. Every instruction of the table and every work of the hardware answers a canonical state, and so does every step (log
entries 1, 5 and 9). -/

namespace Sys2Proof.Machine

/-- Every row of the table. -/
theorem canon_exec {s : State} (h : s.Canon) (i : Instr) : OutCanon (exec i s) := by
  by_cases hi : i.slot?.isSome = true
  · exact canon_exec_slot hi h
  cases i
  -- micro-operations
  case nop => exact canon_execNop h
  case popA => exact canon_execPopA h
  case popB => exact canon_execPopB h
  case pass ovr => exact canon_execPass h ovr
  case passSp ovr => exact canon_execPassSp h ovr
  case acc val src => exact canon_execAcc h val src
  case zero => exact canon_execZero h
  case shift val src => exact canon_execShift h val src
  case microLoop tgt ctr val src => exact canon_execMicroLoop h tgt ctr val src
  case jump tgt => exact canon_execJump h tgt
  case microEnd => exact canon_execMicroEnd h
  case scale val src => exact canon_execScale h val src
  case wit => exact canon_execWit h
  case sync val src => exact canon_execSync h val src
  -- events
  case bundleIssue core => exact canon_execBundleIssue h core
  case bundleCommit core => exact canon_execBundleCommit h core
  case resultLanding core facet => exact canon_execResultLanding h core facet
  case timingErrorReplay core => exact canon_execTimingErrorReplay h core
  case watchdogExpiry core facet => exact canon_execWatchdogExpiry h core facet
  case quantumExpiry core => exact canon_execQuantumExpiry h core
  case facetSwitch core => exact canon_execFacetSwitch h core
  case matrixItemRun core => exact canon_execMatrixItemRun h core
  case ballastPass geode on => exact canon_execBallastPass h geode on
  case tsyncMeetingComplete geode launch mask => exact canon_execTsyncMeetingComplete h geode launch mask
  case engineOperationComplete core facet => exact canon_execEngineOperationComplete h core facet
  case completionRecordPost core facet => exact canon_execCompletionRecordPost h core facet
  case fifoAppend core tgt => exact canon_execFifoAppend h core tgt
  case bandRowArrival core band => exact canon_execBandRowArrival h core band
  case bulkEngineTakeCommand e => exact canon_execBulkEngineTakeCommand h e
  case hostBulkGo e v => exact canon_execHostBulkGo h e v
  case engineCountdown e => exact canon_execEngineCountdown h e
  case ringMessageArrival geode id => exact canon_execRingMessageArrival h geode id
  case accessPerformAtHome id => exact canon_execAccessPerformAtHome h id
  case walkEnd core facet hn => exact canon_execWalkEnd h core facet hn
  case invalGo v => exact canon_execInvalGo h v
  case invalComplete => exact canon_execInvalComplete h
  case refresh vein chan due waiting => exact canon_execRefresh h vein chan due waiting
  case patrolVisit vein f => exact canon_execPatrolVisit h vein f
  case durablePatrolVisit f => exact canon_execDurablePatrolVisit h f
  case logcntPop unit => exact canon_execLogcntPop h unit
  case writeQueueToMedia => exact canon_execWriteQueueToMedia h
  case sealConfirm => exact canon_execSealConfirm h
  case hpbarGo => exact canon_execHpbarGo h
  case holdupTest ok => exact canon_execHoldupTest h ok
  case powerGoodDeassert drained => exact canon_execPowerGoodDeassert h drained
  case powerGoodAssert fails holdup => exact canon_execPowerGoodAssert h fails holdup
  case mirrorEnable k => exact canon_execMirrorEnable h k
  case mirrorDisable k => exact canon_execMirrorDisable h k
  case mirrorSyncComplete k => exact canon_execMirrorSyncComplete h k
  case mirrorWriteAck k => exact canon_execMirrorWriteAck h k
  case mirrorPartnerUnreachable k => exact canon_execMirrorPartnerUnreachable h k
  case mirrorRepair k word partner => exact canon_execMirrorRepair h k word partner
  case map slot => exact canon_execMap h slot
  case unmap slot => exact canon_execUnmap h slot
  case unmapComplete slot => exact canon_execUnmapComplete h slot
  case kill slot => exact canon_execKill h slot
  case packetStart slot => exact canon_execPacketStart h slot
  case launchDispatch slot => exact canon_execLaunchDispatch h slot
  case waitPacketSatisfied slot => exact canon_execWaitPacketSatisfied h slot
  case packetCompletion slot => exact canon_execPacketCompletion h slot
  case tokenRefill p => exact canon_execTokenRefill h p
  case preemptionPolicy slot geode => exact canon_execPreemptionPolicy h slot geode
  case geodeFreeze geode reason => exact canon_execGeodeFreeze h geode reason
  case fossilWriteComplete k => exact canon_execFossilWriteComplete h k
  case fossilRestore k => exact canon_execFossilRestore h k
  case checkpointRequest slot => exact canon_execCheckpointRequest h slot
  case checkpointSave slot => exact canon_execCheckpointSave h slot
  case checkpointTimeout slot => exact canon_execCheckpointTimeout h slot
  case resume core facet => exact canon_execResume h core facet
  case enter core facet => exact canon_execEnter h core facet
  case parkreq core facet => exact canon_execParkreq h core facet
  case geodeMapWrite n v fw => exact canon_execGeodeMapWrite h n v fw
  case lodeIdWrite v fw => exact canon_execLodeIdWrite h v fw
  case sparingSequence geode spare => exact canon_execSparingSequence h geode spare
  case epochEnd r => exact canon_execEpochEnd h r
  case frequencyStep geode => exact canon_execFrequencyStep h geode
  case temperatureCritical geode temp => exact canon_execTemperatureCritical h geode temp
  case currentReport amps other => exact canon_execCurrentReport h amps other
  case activityWindow geode busy => exact canon_execActivityWindow h geode busy
  case extctlGo v fw => exact canon_execExtctlGo h v fw
  case attestationReport nonce pa => exact canon_execAttestationReport h nonce pa
  case envelopeReceive e mgmt => exact canon_execEnvelopeReceive h e mgmt
  case manifestReplace digests svn payload => exact canon_execManifestReplace h digests svn payload
  case inFieldTest t => exact canon_execInFieldTest h t
  case portTrain k lanes gbps => exact canon_execPortTrain h k lanes gbps
  case flitCrcError k => exact canon_execFlitCrcError h k
  case fabricRequestArrival r => exact canon_execFabricRequestArrival h r
  case fabricTimeout id => exact canon_execFabricTimeout h id
  case pcieInboundRequest r => exact canon_execPcieInboundRequest h r
  case managementFrame f => exact canon_execManagementFrame h f
  case registerWrite addr v fw => exact canon_execRegisterWrite h addr v fw
  case localFeederCommandStart core => exact canon_execLocalFeederCommandStart h core
  case fabricError lode cause => exact canon_execFabricError h lode cause
  case wakePin level => exact canon_execWakePin h level
  case pcieLinkTrain lanes gts => exact canon_execPcieLinkTrain h lanes gts
  -- every other row stands in a slot
  all_goals exact absurd rfl hi

/-- Every work of the hardware's own. -/
theorem canon_work {s : State} (h : s.Canon) (w : Work) : OutCanon (w.run s) := by
  cases w with
  | switch c => exact canon_execFacetSwitch h c
  | quantum c => exact canon_execQuantumExpiry h c
  | item c => exact canon_execMatrixItemRun h c
  | meeting g l m => exact canon_execTsyncMeetingComplete h g l m
  | opDone c f => exact canon_execEngineOperationComplete h c f
  | record c f => exact canon_execCompletionRecordPost h c f
  | fifo c t => exact canon_execFifoAppend h c t
  | feeder c => exact canon_execLocalFeederCommandStart h c
  | bandRow c b => exact canon_execBandRowArrival h c b
  | bulkTake e => exact canon_execBulkEngineTakeCommand h e
  | countdown e => exact canon_execEngineCountdown h e
  | commit c => exact canon_execBundleCommit h c
  | arrival g i => exact canon_execRingMessageArrival h g i
  | access i => exact canon_execAccessPerformAtHome h i
  | walk c f n => exact canon_execWalkEnd h c f n
  | invalDone => exact canon_execInvalComplete h
  | toMedia => exact canon_execWriteQueueToMedia h
  | sealed => exact canon_execSealConfirm h
  | mirAck k => exact canon_execMirrorWriteAck h k
  | mirCopied k => exact canon_execMirrorSyncComplete h k
  | repair w => exact (outCanon_next _).2 ((State.holds_repairGo _ _).canon h)
  | pcieAway => exact (outCanon_next _).2 (State.canon_pcieAway h)
  | heldRow => exact (outCanon_next _).2 (State.canon_heldRow h)
  | resume c f => exact canon_execResume h c f
  | start k => exact canon_execPacketStart h k
  | dispatch k => exact canon_execLaunchDispatch h k
  | waitDone k => exact canon_execWaitPacketSatisfied h k
  | finish k => exact canon_execPacketCompletion h k
  | unmapped k => exact canon_execUnmapComplete h k
  | fossilDone i => exact canon_execFossilWriteComplete h i
  | restore i => exact canon_execFossilRestore h i
  | save k => exact canon_execCheckpointSave h k
  | frequency g => exact canon_execFrequencyStep h g
  | policy k g => exact canon_execPreemptionPolicy h k g

/-- R353: a row that stands leaves the state before it. -/
theorem State.canon_attempt {s : State} (h : s.Canon) {row : State → Out} (hr : ∀ t : State, t.Canon → OutCanon (row t)) :
    OutCanon (s.attempt row) := by
  have hrow := hr { s with stands := false } h
  unfold State.attempt
  split
  · next t ht =>
    rw [ht, outCanon_next] at hrow
    rw [outCanon_next]
    split
    · exact h
    · split <;> exact hrow
  · exact hrow

/-- Log entry 9: the operations that a row releases. -/
theorem canon_runDue (n : Nat) {s : State} (h : s.Canon) : OutCanon (runDue n s) := by
  induction n generalizing s with
  | zero => exact (outCanon_next s).2 h
  | succ n ih =>
    unfold runDue
    split
    · exact (outCanon_next s).2 h
    · next i r _ =>
      have hi := canon_exec (s := { s with due := r }) h i
      split
      · next t ht => exact ih (hi t ht)
      · exact hi

theorem canon_finish {o : Out} (h : OutCanon o) : OutCanon (finish o) := by
  cases o with
  | next s => exact canon_runDue _ (h s rfl)
  | fault f => exact outCanon_fault f
  | refused r => exact outCanon_refused r

theorem canon_background {s : State} (h : s.Canon) : OutCanon (background s) := by
  have hn := s.keeps_nature.canon h
  unfold background
  extract_lets s1
  have h1 : s1.Canon := hn
  clear_value s1
  split
  · next i r _ =>
    split
    · exact State.canon_attempt h1 fun t ht => canon_finish (canon_exec (s := { t with inputs := r }) ht i)
    · exact (outCanon_next _).2 h1
  · split
    · next w r _ => exact State.canon_attempt (s := { s1 with agenda := r }) h1 fun t ht => canon_finish (canon_work ht w)
    · exact (outCanon_next _).2 h1

theorem canon_step {s : State} (h : s.Canon) : OutCanon (step s) := by
  unfold step
  split
  · exact canon_background (s := { s with turn := false }) h
  · split
    · next c _ =>
      exact State.canon_attempt (s := { s with turn := true, lastCore := c }) h fun t ht => canon_finish (canon_exec ht (.bundleIssue c))
    · exact (outCanon_next _).2 h

/-- Settles O20: every function that a step runs leaves the memories of the cores as they are or writes them through operations that keep
the canonical form. -/
theorem stepKeepsScratchpadsCanonical : Obligations.StepKeepsScratchpadsCanonical := by
  unfold Obligations.StepKeepsScratchpadsCanonical
  intro s t hs ht
  exact t.spadsCanonical_iff.2 (canon_step (s.spadsCanonical_iff.1 hs) t ht)

end Sys2Proof.Machine
end

section
/-! SUPPORT. The copies between register files (R105): a ready copy has its effect. -/

namespace Sys2Proof.Machine

/-- Settles O13: each copy's row is the shared frame around the issue of its value. -/
theorem crossFileCopiesMoveTheirValue : Obligations.CrossFileCopiesMoveTheirValue :=
  ⟨fun _ _ _ _ => slotOp_ready, fun _ _ _ _ => slotOp_ready, fun _ _ _ _ _ => slotOp_ready, fun _ _ _ _ => slotOp_ready,
    fun _ _ _ _ => slotOp_ready, fun _ _ _ _ => slotOp_ready, fun _ _ _ _ _ _ => slotOp_ready, fun _ _ _ _ _ _ => slotOp_ready,
    fun _ _ _ _ _ _ => slotOp_ready, fun _ _ _ _ => slotOp_ready⟩

end Sys2Proof.Machine
end

section
/-! SUPPORT. What the operations of the slots leave of the scratchpads (R103, R218, R230 to R232): every update of a state that writes no
scratchpad leaves all their bytes, a store writes at the places of its writes, and an atomic its word. -/

namespace Sys2Proof.Machine

/-- The scratchpad of each core. -/
def State.spads (s : State) (c : Nat) : Memory := (s.core c).spad

/-! ### Updates that leave the scratchpads -/

theorem State.spads_of_cores {s t : State} (h : t.cores = s.cores) : t.spads = s.spads := by
  unfold State.spads State.core
  rw [h]

/-- A change of a core but of its scratchpad. -/
theorem State.spads_modCore (s : State) (c : Nat) {g : Core → Core} (h : (g (s.core c)).spad = (s.core c).spad) :
    (s.modCore c g).spads = s.spads := by
  funext d
  by_cases hd : d = c
  · subst hd; simpa [State.spads] using h
  · simp [State.spads, State.core_modCore_other _ _ _ _ hd]

theorem State.spads_modHere_same (s : State) (g : Core → Core) : (s.modHere g).spads s.cur = (g s.here).spad :=
  congrArg Core.spad (s.core_modCore_same s.cur g)

theorem State.spads_modHere_other (s : State) (g : Core → Core) {c : Nat} (hc : c ≠ s.cur) : (s.modHere g).spads c = s.spads c :=
  congrArg Core.spad (s.core_modCore_other s.cur c g hc)

theorem State.spads_modHere (s : State) {g : Core → Core} (h : (g s.here).spad = s.here.spad) : (s.modHere g).spads = s.spads :=
  s.spads_modCore s.cur h

@[simp] theorem State.spads_modMe (s : State) (g : Facet → Facet) : (s.modMe g).spads = s.spads := s.spads_modCore s.cur rfl

theorem State.spads_numbered (s : State) (n : Nat) : { s with nextId := n }.spads = s.spads := rfl

@[simp] theorem State.spads_devPut (s : State) (a hi lo v : Nat) : (s.devPut a hi lo v).spads = s.spads := rfl

@[simp] theorem State.spads_count (s : State) (base counters ev n : Nat) : (s.count base counters ev n).spads = s.spads :=
  spads_of_cores (s.holds_count base counters ev n).1

/-! ### Results, holds and loops -/

@[simp] theorem State.spads_land (s : State) (w : RegWrite) (lat : Nat) (fl : BitVec 6) (ac : Nat) (po : Bool) :
    (s.land w lat fl ac po).spads = s.spads := s.spads_modMe _

@[simp] theorem State.spads_putPair (s : State) (d : BitVec 6) (v : BitVec 64 × BitVec 64) (lat : Nat) :
    (s.putPair d v lat).spads = s.spads := by simp [State.putPair]

@[simp] theorem State.spads_modLatch (s : State) (g : Latch → Latch) : (s.modLatch g).spads = s.spads := s.spads_modMe _

@[simp] theorem State.spads_take (s : State) (b : Bool) (o : Nat) : (s.take b o).spads = s.spads := s.spads_modLatch _

@[simp] theorem State.spads_raise (s : State) (fl : BitVec 6) : (s.raise fl).spads = s.spads := s.spads_modMe _

@[simp] theorem State.spads_openLoop (s : State) (c : BitVec 64) (st : BitVec 2) (rot : Bool) (p : BitVec 16) :
    (s.openLoop c st rot p).spads = s.spads := by
  have hrot : (if rot = true then s.resetStages c st else s).spads = s.spads := by split <;> simp [State.resetStages]
  unfold State.openLoop
  dsimp only
  split <;> simp [hrot]

/-! ### Accesses -/

/-- R235: the errors that reads meet count, and change no byte. -/
@[simp] theorem State.spads_noteSpadErr (s : State) (c : Nat) (offs : List Nat) : (s.noteSpadErr c offs).spads = s.spads := by
  have hbad : ∀ l : List Nat, (l.foldl (fun u x =>
      (u.devPut (aCore c + 0x40) 31 16 (min 0xFFFF (u.devFld (aCore c + 0x40) 31 16 + 1))).devPut (aCore c + 0x40) 51 32 (8 * x)) s).spads
        = s.spads := fun l => by
    refine foldl_keeps State.spads _ (fun _ _ => ?_) l s
    rfl
  unfold State.noteSpadErr
  dsimp only
  split
  · exact hbad _
  · rw [State.spads_modCore _ _ rfl, State.countCore, State.spads_count, State.spads_devPut, hbad]

theorem State.cur_noteSpadErr (s : State) (c : Nat) (offs : List Nat) : (s.noteSpadErr c offs).cur = s.cur :=
  ((State.Frames.start (e := ⟨[], false, false, false⟩) s).noteSpadErr c offs).cur

@[simp] theorem State.spads_sendAccess (s : State) (home : Home) (op : AccessOp) (after : List Nat) (mir tol tpol : Bool)
    (via : Option (BitVec 20 × Handle)) : (s.sendAccess home op after mir tol tpol via).spads = s.spads := rfl

@[simp] theorem State.spads_spadLoad (s : State) (segs : List (Nat × Nat)) (dst : LoadDst) (bound : Nat) :
    (s.spadLoad segs dst bound).spads = s.spads := by
  unfold State.spadLoad
  split
  · exact s.spads_land _ _ _ _ _
  · dsimp only
    split <;> simp

@[simp] theorem State.spads_handleStore (s : State) (h : Handle) (ea : Nat) (ws : List ByteWrite) (after : List Nat) (mir : Bool) :
    (s.handleStore h ea ws after mir).spads = s.spads := spads_of_cores (s.holds_handleStore h ea ws after mir).1

/-! ### Queues of the core -/

@[simp] theorem State.spads_popRecord (s : State) (d : BitVec 6) : (s.popRecord d).spads = s.spads := by
  unfold State.popRecord
  split
  · rw [State.spads_putPair, State.spads_modHere _ rfl]
  · rfl

@[simp] theorem State.spads_takeMsg (s : State) (d : BitVec 9) (rank : BitVec 4) (facet : BitVec 2) (lane : BitVec 3) (dir : BitVec 1) :
    (s.takeMsg d rank facet lane dir).spads = s.spads := by
  unfold State.takeMsg
  dsimp only
  split
  · exact State.spads_land _ _ _ _ _ _
  · rfl

@[simp] theorem State.spads_enqueue (s : State) (kind : ItemKind) (n place lock : Nat) : (s.enqueue kind n place lock).spads = s.spads :=
  s.spads_modMe _

@[simp] theorem State.spads_deliverN (s : State) (sn : BitVec 6) : (s.deliverN sn).spads = s.spads := by
  unfold State.deliverN
  split
  · rfl
  · exact s.spads_land _ _ _ _ _

@[simp] theorem State.spads_callRoutine (s : State) (ix sn : BitVec 6) (imm : BitVec 34) : (s.callRoutine ix sn imm).spads = s.spads := by
  unfold State.callRoutine
  dsimp only
  split
  · rw [State.spads_deliverN, State.spads_numbered, State.spads_modMe, State.spads_enqueue]
  · rw [State.spads_deliverN, State.spads_enqueue]

@[simp] theorem State.spads_queueDrain (s : State) (sn : BitVec 6) (mode : BitVec 3) (fmt : BitVec 5) (col : BitVec 9)
    (row rows : BitVec 7) (z : Bool) : (s.queueDrain sn mode fmt col row rows z).spads = s.spads := by
  rw [State.queueDrain, State.spads_deliverN, State.spads_numbered, State.spads_modHere _ rfl, State.spads_enqueue]

theorem Core.spad_accZero (k : Core) (f : Facet) (row rows col cols : Nat) : (k.accZero f row rows col cols).spad = k.spad := rfl

/-- An operation of an engine takes its place and enters a queue of its core. -/
theorem State.spads_queued (s : State) (kind unit : Nat) (classes : List Nat) (cm : BitVec 20) {g : Core → Core}
    (h : ∀ k, (g k).spad = k.spad) : ((s.takePlace kind unit classes cm).modHere g).spads = s.spads :=
  (State.spads_modHere _ (h _)).trans (s.spads_modMe _)

@[simp] theorem State.spads_bulkGo (s : State) (en : BitVec 4) (cm : BitVec 20) : (s.bulkGo en cm).spads = s.spads := by
  have hlock : ∀ (t : State) c, (t.bulkLock c).spads = t.spads := fun t c => by
    unfold State.bulkLock
    split
    · split
      · rfl
      · exact t.spads_modCore _ rfl
    · rfl
  exact (hlock _ _).trans (s.spads_modMe _)

@[simp] theorem State.spads_bulkCancel (s : State) (en : BitVec 4) (tag : BitVec 16) : (s.bulkCancel en tag).spads = s.spads :=
  spads_of_cores (s.holds_bulkCancel en tag).1

@[simp] theorem State.spads_crcRd (s : State) (rst : BitVec 1) (ac : BitVec 2) (tag : BitVec 16) :
    (s.crcRd rst ac tag).spads = s.spads := by
  unfold State.crcRd
  dsimp only
  split
  · rw [State.spads_modMe, State.spads_modHere _ rfl]
  · exact s.spads_modHere rfl

/-! ### Bytes written -/

/-- R230: writes of a scratchpad leave every byte outside their places. -/
theorem Core.get_spadWrite_other (k : Core) {ws : List ByteWrite} {o : Nat} (h : o ∉ ws.map (·.addr)) :
    (k.spadWrite ws).spad.get o = k.spad.get o := by
  show (ws.foldl (fun m w => m.set w.addr (mergeByte (m.get w.addr) w)) k.spad).get o = k.spad.get o
  generalize k.spad = m
  induction ws generalizing m with
  | nil => rfl
  | cons w r ih =>
    simp only [List.map_cons, List.mem_cons, not_or] at h
    obtain ⟨hw, hr⟩ := h
    rw [List.foldl_cons, ih hr, Memory.get_set_other _ _ _ _ hw]

/-- Consecutive bytes are written between their base and their end. -/
theorem mem_places_bytesAtBase {a o : Nat} {bs : List (BitVec 8)} (h : o ∈ (bytesAtBase a bs).map (·.addr)) :
    a ≤ o ∧ o < a + bs.length := by
  simp only [bytesAtBase, List.mem_map, List.mem_mapIdx] at h
  obtain ⟨_, ⟨k, hk, rfl⟩, rfl⟩ := h
  simpa using hk

/-- R232: an atomic leaves every byte outside its word. -/
theorem Core.get_spadAtomic_other (k : Core) {p w o : Nat} (op : BitVec 4) (t : BitVec 5) (mode : BitVec 3) (opd cmp : Nat)
    (h : ¬(p ≤ o ∧ o < p + w)) : (k.spadAtomic p w op t mode opd cmp).1.spad.get o = k.spad.get o := by
  unfold Core.spadAtomic
  dsimp only
  split
  · rfl
  · exact k.get_spadWrite_other fun hm => h (by simpa using mem_places_bytesAtBase hm)

/-! ### Stores and atomics -/

/-- A store writes no scratchpad but the own one. -/
theorem State.spads_spadStore_other (s : State) (ws : List ByteWrite) {c : Nat} (hc : c ≠ s.cur) :
    (s.spadStore ws).spads c = s.spads c := by
  unfold State.spadStore
  split
  · rfl
  · dsimp only
    split
    · exact s.spads_modHere_other _ hc
    · rfl

/-- R218, R219, R230: a store whose writes name one core leaves every byte outside the places of those that name the own one. -/
theorem State.get_spadStore_other (s : State) {ws : List ByteWrite} {o : Nat}
    (hone : ∀ w ∈ ws, ∀ w' ∈ ws, s.spCore w.addr = s.spCore w'.addr)
    (ho : o ∉ (ws.filter fun w => s.spCore w.addr == s.cur).map fun w => s.spadPlace w.addr) :
    ((s.spadStore ws).spads s.cur).get o = (s.spads s.cur).get o := by
  cases ws with
  | nil => rfl
  | cons w r =>
    by_cases hc : s.spCore w.addr = s.cur
    · simp only [State.spadStore, hc, if_true, State.spads_modHere_same]
      refine s.here.get_spadWrite_other fun hplace => ho ?_
      simp only [List.map_map, List.mem_map, List.mem_filter, beq_iff_eq] at hplace ⊢
      obtain ⟨v, hv, rfl⟩ := hplace
      have hown : s.spCore v.addr = s.cur := (hone v hv w List.mem_cons_self).trans hc
      exact ⟨v, ⟨hv, hown⟩, by simp [State.spadPlace, hown]⟩
    · simp [State.spadStore, hc]

/-- R232: at a peer an atomic leaves every scratchpad. -/
theorem State.spads_spadAmo_peer (s : State) {a : Nat} (w : Nat) (op : BitVec 4) (t : BitVec 5) (mode : BitVec 3) (d : BitVec 6)
    (ha : s.spCore a ≠ s.cur) : (s.spadAmo a w op t mode d).spads = s.spads := by
  simp [State.spadAmo, ha]

/-- R232, R235: on the own core an atomic changes the core that the errors of its read leave. -/
theorem State.spads_spadAmo_own (s : State) {a : Nat} (w : Nat) (op : BitVec 4) (t : BitVec 5) (mode : BitVec 3) (d : BitVec 6)
    (ha : s.spCore a = s.cur) : ∃ (u : State) (opd cmp : Nat), u.cur = s.cur ∧ u.spads = s.spads
      ∧ (s.spadAmo a w op t mode d).spads = (u.modHere fun k => (k.spadAtomic (s.spadPlace a) w op t mode opd cmp).1).spads := by
  refine ⟨s.noteSpadErr (s.spCore a) ((upto w).map (s.spadPlace a + ·)), (s.readS d).toNat % 2 ^ (8 * w),
    (s.readS (d + 1)).toNat % 2 ^ (8 * w), s.cur_noteSpadErr _ _, s.spads_noteSpadErr _ _, ?_⟩
  unfold State.spadAmo
  dsimp only
  rw [if_pos ha, State.spads_land]
  rfl

/-- R232: an atomic writes no scratchpad but the own one. -/
theorem State.spads_spadAmo_other (s : State) (a w : Nat) (op : BitVec 4) (t : BitVec 5) (mode : BitVec 3) (d : BitVec 6) {c : Nat}
    (hc : c ≠ s.cur) : (s.spadAmo a w op t mode d).spads c = s.spads c := by
  by_cases ha : s.spCore a = s.cur
  · obtain ⟨u, opd, cmp, hcur, hu, he⟩ := s.spads_spadAmo_own w op t mode d ha
    rw [he, u.spads_modHere_other _ (hcur ▸ hc), hu]
  · rw [s.spads_spadAmo_peer w op t mode d ha]

/-- R232: an atomic leaves every byte of the own scratchpad outside its word. -/
theorem State.get_spadAmo_other (s : State) {a w o : Nat} (op : BitVec 4) (t : BitVec 5) (mode : BitVec 3) (d : BitVec 6)
    (ho : ¬(s.spadPlace a ≤ o ∧ o < s.spadPlace a + w)) : ((s.spadAmo a w op t mode d).spads s.cur).get o = (s.spads s.cur).get o := by
  by_cases ha : s.spCore a = s.cur
  · obtain ⟨u, opd, cmp, hcur, hu, he⟩ := s.spads_spadAmo_own w op t mode d ha
    rw [he, ← hu, ← hcur, State.spads_modHere_same]
    exact u.here.get_spadAtomic_other op t mode opd cmp ho
  · rw [s.spads_spadAmo_peer w op t mode d ha]

/-! ### The operations of the slots -/

/-- What an operation of a slot does to scratchpads: its store, its atomic, or nothing. -/
def State.spadEffect (s : State) (i : Instr) : State :=
  match s.spadWrites i, i with
  | some ws, _ => s.spadStore ws
  | none, .amoP _ d xb off ty mode op => s.spadAmo (spAddr (s.readX xb) off.toInt / tyBytes ty * tyBytes ty) (tyBytes ty) op ty mode d
  | none, _ => s

theorem State.spadEffect_store {s : State} {i : Instr} {ws : List ByteWrite} (h : s.spadWrites i = some ws) :
    s.spadEffect i = s.spadStore ws := by
  simp [State.spadEffect, h]

theorem State.spadEffect_none {s : State} {i : Instr} (h : s.spadWrites i = none)
    (ha : ∀ g d xb off ty mode op, i ≠ .amoP g d xb off ty mode op) : s.spadEffect i = s := by
  unfold State.spadEffect
  rw [h]
  split
  case h_1 hn => cases hn
  case h_2 => exact absurd rfl (ha _ _ _ _ _ _ _)
  case h_3 => rfl

/-- No operation of a slot writes the scratchpad of another core at its issue. -/
theorem State.spads_spadEffect_other (s : State) (i : Instr) {c : Nat} (hc : c ≠ s.cur) : (s.spadEffect i).spads c = s.spads c := by
  unfold State.spadEffect
  split
  · exact s.spads_spadStore_other _ hc
  · exact s.spads_spadAmo_other _ _ _ _ _ _ hc
  · rfl

/-- R103, R230 to R232: a ready operation writes to scratchpads what its store or atomic writes. -/
theorem exec_spads {i : Instr} {s : State} (hi : i.slot?.isSome = true) (h : s.ready i = true) :
    ∃ t, exec i s = .next t ∧ t.spads = (s.spadEffect i).spads := by
  cases i
  -- results alone
  case add | sub | mul | mulh | mulhn | div | divn | rem | remn | and | or | xor | shl | shr | sra | rot | min | max | minn | maxn
      | sel | addi | andi | ori | xori | shli | shri | srai | li | lih | muli | clz | ctz | popc | bint3 | bdint3 | bint2 | bdint2
      | brev | sext | zext | rdid | rdsys | rdtime | rdcyc | flagsRd | movGs | movXs | movVs
      | cmpEq | cmpNe | cmpLt | cmpLtn | cmpLe | cmpLen | cmpiEq | cmpiLt | gand | gor | gnot | movSg | movMg
      | fclass | fcmp | icmp | mand | mor | mxor | mnot
      | movSv | bscale | vsel | vcompress | vexpand | viota | mpopc | mfirst | iredAdd | iadd128 | vrng
      | fadd | fsub | fmul | fdiv | fma | fms | fnma | fsqrt | frcp | frsq | fexp2 | flog2 | fmin | fmax | fscale | fabs | fneg
      | fcvt | fround | icvt | fredAdd | fredMax | fredMin | vrngF | vperm | vzip | vunzip | vrev | vbcast | vslide | vmovi
      | iadd | isub | imul | imulh | iand | ior | ixor | ishl | ishr | isra | imin | imax | iadds | isubs | iabs | iclz | ipopc
      | ibint3
      | hdrop | yadd | ysub | yand | yxor | ycmp | movSx | movSq | movSd | mparami | xadd | xaddi | xli | xsub | movVx =>
    exact ⟨_, slotOp_ready h, s.spads_land _ _ _ _ _⟩
  case add128 => exact ⟨_, slotOp_ready h, s.spads_putPair _ _ _⟩
  case translate => exact ⟨_, slotOp_ready h, (State.spads_count _ _ _ _ _).trans (s.spads_land _ _ _ _ _)⟩
  -- holds and checks
  case wait | drain | chkY | chkV | chkS | ifence | wfe | mwait => exact ⟨_, slotOp_ready h, rfl⟩
  case barWait => exact ⟨_, slotOp_ready h, s.spads_noteSpadErr _ _⟩
  -- the facet's latch, flags, loops, estimate, ring time and staging
  case br | brs | ret | halt | yield | wrsys | sys | trapi | eret | setest | flagsClr | pbar | tsync | bulkSet =>
    exact ⟨_, slotOp_ready h, s.spads_modMe _⟩
  case call | lexit => exact ⟨_, slotOp_ready h, (State.spads_take _ _ _).trans (s.spads_modMe _)⟩
  case brb =>
    refine ⟨_, slotOp_ready h, (State.spads_take _ _ _).trans ?_⟩
    split
    · rfl
    · exact s.spads_land _ _ _ _ _
  case loop | loopi => exact ⟨_, slotOp_ready h, s.spads_openLoop _ _ _ _⟩
  -- queues of the core, the ring and the engines
  case evpop => exact ⟨_, slotOp_ready h, s.spads_popRecord _⟩
  case barArr | send => exact ⟨_, slotOp_ready h, rfl⟩
  case recv => exact ⟨_, slotOp_ready h, s.spads_takeMsg _ _ _ _ _⟩
  case feed => exact ⟨_, slotOp_ready h, s.spads_queued _ _ _ _ fun _ => by split <;> rfl⟩
  case lcopy | ifetch | winClose | winOpen | winAdv => exact ⟨_, slotOp_ready h, s.spads_queued _ _ _ _ fun _ => rfl⟩
  case bulkGo => exact ⟨_, slotOp_ready h, s.spads_bulkGo _ _⟩
  case bulkCancel => exact ⟨_, slotOp_ready h, s.spads_bulkCancel _ _⟩
  case crcRd => exact ⟨_, slotOp_ready h, s.spads_crcRd _ _ _⟩
  case mcall => exact ⟨_, slotOp_ready h, s.spads_callRoutine _ _ _⟩
  case mzero => exact ⟨_, slotOp_ready h, (State.spads_deliverN _ _).trans (s.spads_enqueue _ _ _ _)⟩
  case mdrainP => exact ⟨_, slotOp_ready h, s.spads_queueDrain _ _ _ _ _ _ _⟩
  case mucodeLd | mwit | mflush | mstat => exact ⟨_, slotOp_ready h, s.spads_enqueue _ _ _ _⟩
  case mdrainV =>
    refine ⟨_, slotOp_ready h, ?_⟩
    dsimp only
    split
    · exact (State.spads_modHere _ (Core.spad_accZero _ _ _ _ _ _)).trans (s.spads_land _ _ _ _ _)
    · exact s.spads_land _ _ _ _ _
  -- loads, stores and atomics
  case ldS | ldV | ldM | ldQ | vfill | ldVs | ldVg => exact ⟨_, slotOp_ready h, s.spads_spadLoad _ _ _⟩
  case ldhS | ldhV | amoH => exact ⟨_, slotOp_ready h, (State.spads_sendAccess _ _ _ _ _ _ _ _).trans (s.spads_land _ _ _ _ _)⟩
  case sthS | sthV => exact ⟨_, slotOp_ready h, (State.spads_raise _ _).trans (s.spads_handleStore _ _ _ _ _)⟩
  case sigw => exact ⟨_, slotOp_ready h, s.spads_handleStore _ _ _ _ _⟩
  case stS | stV | stVs | stVx => exact ⟨_, slotOp_ready h, State.spads_raise _ _⟩
  case stM | vspill | amoP => exact ⟨_, slotOp_ready h, rfl⟩
  -- nothing else stands in a slot
  all_goals cases hi

/-- Settles O50: what the operation's store or atomic writes to scratchpads, read as the statement writes it. -/
theorem slotOperationsFrameScratchpad : Obligations.SlotOperationsFrameScratchpad := by
  unfold Obligations.SlotOperationsFrameScratchpad
  intro i s hi h
  obtain ⟨t, ht, hspads⟩ := exec_spads hi h
  have hcore : ∀ c, (t.core c).spad = (s.spadEffect i).spads c := congrFun hspads
  have hcur : t.cur = s.cur := by
    obtain ⟨u, hu, hf⟩ := exec_frames hi h
    obtain rfl : t = u := by simpa [ht] using hu
    exact hf.cur
  have hhere : t.here.spad = (s.spadEffect i).spads s.cur := hcur ▸ hcore t.cur
  have hstore : ∀ ws, s.spadWrites i = some ws → (∀ w ∈ ws, ∀ w' ∈ ws, s.spCore w.addr = s.spCore w'.addr) →
      ∀ o, o ∉ (ws.filter fun w => s.spCore w.addr == s.cur).map (fun w => s.spadPlace w.addr) →
        t.here.spad.get o = s.here.spad.get o := fun ws hws hone o ho => by
    rw [hhere, State.spadEffect_store hws]
    exact s.get_spadStore_other hone ho
  refine ⟨t, ht, fun c hc => ?_, fun hn ha => ?_, fun ws hws hown o ho => ?_, hstore, ?_, ?_⟩
  · rw [hcore, s.spads_spadEffect_other i hc]
    rfl
  · rw [hhere, State.spadEffect_none hn ha]
    rfl
  · refine hstore ws hws (fun w hw w' hw' => (hown w hw).trans (hown w' hw').symm) o ?_
    rwa [List.filter_eq_self.2 fun w hw => beq_iff_eq.2 (hown w hw)]
  · rintro g d xb off ty mode op rfl o ho
    rw [hhere]
    exact s.get_spadAmo_other op ty mode d ho
  · rintro g d xb off ty mode op rfl hpeer
    rw [hhere]
    exact congrFun (s.spads_spadAmo_peer _ op ty mode d hpeer) s.cur

end Sys2Proof.Machine
end

section
/-! SUPPORT. Quotients, remainders and the sum of pairs (R122, R123): what the functions of the S slot give as integers. -/

namespace Sys2Proof.Machine

section
variable (a b : BitVec 64)

@[simp] theorem divSigned_zero : divSigned a 0 = BitVec.allOnes 64 := rfl
@[simp] theorem divUnsigned_zero : divUnsigned a 0 = BitVec.allOnes 64 := rfl
@[simp] theorem remSigned_zero : remSigned a 0 = a := rfl
@[simp] theorem remUnsigned_zero : remUnsigned a 0 = a := rfl

theorem divSigned_intMin : divSigned (BitVec.intMin 64) (BitVec.allOnes 64) = BitVec.intMin 64 := by decide
theorem remSigned_intMin : remSigned (BitVec.intMin 64) (BitVec.allOnes 64) = 0 := by decide

variable {a b}

/-- Outside the corner column the quotient is in range, so that no bit of it is lost. -/
theorem toInt_divSigned (hb : b ≠ 0) (h : ¬(a = BitVec.intMin 64 ∧ b = BitVec.allOnes 64)) :
    (divSigned a b).toInt = a.toInt.tdiv b.toInt := by
  have hne : a ≠ BitVec.intMin 64 ∨ b ≠ -1#64 := by
    rw [← not_and_or, BitVec.neg_one_eq_allOnes]
    exact h
  rw [divSigned, if_neg hb, BitVec.toInt_ofInt, ← BitVec.toInt_sdiv, BitVec.toInt_sdiv_of_ne_or_ne _ _ hne]

theorem toNat_divUnsigned (hb : b ≠ 0) : (divUnsigned a b).toNat = a.toNat / b.toNat := by
  rw [divUnsigned, if_neg hb, ← BitVec.toNat_udiv, BitVec.ofNat_toNat, BitVec.setWidth_eq]

theorem toInt_remSigned (hb : b ≠ 0) : (remSigned a b).toInt = a.toInt - b.toInt * a.toInt.tdiv b.toInt := by
  rw [remSigned, if_neg hb, ← BitVec.toInt_srem, BitVec.ofInt_toInt, BitVec.toInt_srem, Int.tmod_def]

theorem toNat_remUnsigned (hb : b ≠ 0) : (remUnsigned a b).toNat = a.toNat % b.toNat := by
  rw [remUnsigned, if_neg hb, ← BitVec.toNat_umod, BitVec.ofNat_toNat, BitVec.setWidth_eq]

/-- The halves of the sum carry from the low one into the high one. -/
theorem add128Of_toNat (al ah bl bh : BitVec 64) :
    (add128Of al ah bl bh).1.toNat + 2 ^ 64 * (add128Of al ah bl bh).2.toNat
      = (al.toNat + 2 ^ 64 * ah.toNat + (bl.toNat + 2 ^ 64 * bh.toNat)) % 2 ^ 128 := by
  simp only [add128Of, BitVec.toNat_add, BitVec.toNat_ofNat]
  omega
end

/-- Settles O2: each row issues what its function gives, column by column of the table. -/
theorem divisionFollowsItsTable : Obligations.DivisionFollowsItsTable := by
  unfold Obligations.DivisionFollowsItsTable
  refine ⟨fun g d a b s h => ?div, fun g d a b s h => ?divn, fun g d a b s h => ?rem, fun g d a b s h => ?remn⟩
  case div =>
    refine ⟨_, slotOp_ready h, fun hb => ?_, fun ⟨ha, hb⟩ => ?_, toInt_divSigned⟩
    · rw [hb, divSigned_zero]
    · rw [ha, hb, divSigned_intMin]
  case divn =>
    refine ⟨_, slotOp_ready h, fun hb => ?_, toNat_divUnsigned⟩
    rw [hb, divUnsigned_zero]
  case rem =>
    refine ⟨_, slotOp_ready h, fun hb => ?_, fun ⟨ha, hb⟩ => ?_, toInt_remSigned⟩
    · rw [hb, remSigned_zero]
    · rw [ha, hb, remSigned_intMin]
  case remn =>
    refine ⟨_, slotOp_ready h, fun hb => ?_, toNat_remUnsigned⟩
    rw [hb, remUnsigned_zero]

/-- Settles O3: the row issues the halves of the sum, of which the one of s0 is void. -/
theorem wideSumSpansItsPairs : Obligations.WideSumSpansItsPairs := by
  unfold Obligations.WideSumSpansItsPairs
  intro g d a b s h
  refine ⟨_, _, slotOp_ready h, add128Of_toNat _ _ _ _, fun ha => ?zero, ?void⟩
  case zero =>
    rw [ha]
    exact Facet.readS_zero _ _
  case void => simp [RegWrite.void, Bool.beq_eq_decide_eq, BitVec.toNat_eq]

end Sys2Proof.Machine
end

section
/-! SUPPORT. Which bits the counting, extending, reversing, spreading and gathering functions of the S slot read and give (R126). -/

namespace Sys2Proof.Machine

/-! ### Counting -/

theorem popNat_eq_length (x n : Nat) : popNat x n = ((List.range n).filter fun k => x.testBit k).length := by
  induction n with
  | zero => rfl
  | succ n ih =>
    rw [popNat, ih, List.range_succ, List.filter_append, List.length_append]
    cases h : x.testBit n <;> simp [h]

theorem clzNat_le (x w : Nat) : clzNat x w ≤ w := by
  unfold clzNat
  split <;> omega

section
variable {x w : Nat} (hx : x < 2 ^ w)
include hx

/-- The bits of a `w`-bit number from its leading zeros up are clear. -/
theorem testBit_of_clzNat_le {k : Nat} (hk : w - clzNat x w ≤ k) : x.testBit k = false := by
  by_cases h0 : x = 0
  · simp [h0]
  · have hlog : x.log2 < w := (Nat.log2_lt h0).2 hx
    rw [clzNat, if_neg h0] at hk
    exact Nat.testBit_lt_two_pow (Nat.lt_log2_self.trans_le (Nat.pow_le_pow_right (by decide) (by omega)))

/-- Below the leading zeros of a `w`-bit number stands a set bit. -/
theorem testBit_clzNat (h : clzNat x w < w) : x.testBit (w - 1 - clzNat x w) = true := by
  by_cases h0 : x = 0
  · exact absurd h (by simp [clzNat, h0])
  · have hlog : x.log2 < w := (Nat.log2_lt h0).2 hx
    have hplace : w - 1 - clzNat x w = x.log2 := by
      rw [clzNat, if_neg h0]
      omega
    rw [hplace, Nat.testBit_log2 h0]

end

/-- The count of trailing zeros stops at the first set bit from `i` on, or after `n` bits. -/
theorem ctzFrom_spec (x n i : Nat) :
    ctzFrom x n i ≤ i + n ∧ (∀ k, i ≤ k → k < ctzFrom x n i → x.testBit k = false)
      ∧ (ctzFrom x n i < i + n → x.testBit (ctzFrom x n i) = true) := by
  induction n generalizing i with
  | zero => exact ⟨le_rfl, fun k hi hk => absurd (hi.trans_lt hk) (lt_irrefl i), fun h => absurd h (lt_irrefl i)⟩
  | succ n ih =>
    obtain ⟨hle, hclear, hset⟩ := ih (i + 1)
    unfold ctzFrom
    split
    case isTrue h => exact ⟨by omega, fun k hi hk => by omega, fun _ => h⟩
    case isFalse h =>
      refine ⟨by omega, fun k hi hk => ?_, fun h => hset (by omega)⟩
      obtain rfl | hi := hi.eq_or_lt
      · exact Bool.eq_false_iff.2 h
      · exact hclear k hi hk

/-! ### Spreading and gathering -/

section
variable (x : Nat) (f : Nat → Nat) {g : Nat → Nat} (hg : StrictMono g)
include hg

theorem spread_lt (n : Nat) : spread x f g n < 2 ^ g n := by
  induction n with
  | zero => exact Nat.two_pow_pos _
  | succ n ih =>
    have hdouble : 2 ^ g n + 2 ^ g n ≤ 2 ^ g (n + 1) := by
      rw [← Nat.two_mul, ← Nat.pow_succ']
      exact Nat.pow_le_pow_right (by decide) (hg n.lt_succ_self)
    unfold spread
    split <;> omega

/-- The number holds bit `f k` of `x` at each place `g k`, and no other. -/
theorem testBit_spread (n j : Nat) : (spread x f g n).testBit j = true ↔ ∃ k < n, g k = j ∧ x.testBit (f k) = true := by
  induction n with
  | zero => simp [spread]
  | succ n ih =>
    have hbit : ∀ b : Bool, b.toNat.testBit (j - g n) = (b && decide (j ≤ g n)) := fun b => by
      cases b
      · simp
      · rw [Bool.toNat_true, Bool.true_and, Bool.eq_iff_iff, Nat.testBit_one_eq_true_iff_self_eq_zero, decide_eq_true_eq,
          Nat.sub_eq_zero_iff_le]
    have hstep : spread x f g (n + 1) = 2 ^ g n * (x.testBit (f n)).toNat + spread x f g n := by
      rw [spread, Nat.add_comm]
      cases x.testBit (f n) <;> simp
    rw [hstep, Nat.testBit_two_pow_mul_add _ (spread_lt x f hg n)]
    split
    case isTrue hj =>
      rw [ih]
      refine ⟨fun ⟨k, hk, h⟩ => ⟨k, by omega, h⟩, fun ⟨k, hk, hkj, h⟩ => ⟨k, hg.lt_iff_lt.1 (hkj ▸ hj), hkj, h⟩⟩
    case isFalse hj =>
      rw [hbit, Bool.and_eq_true, decide_eq_true_eq]
      refine ⟨fun ⟨h, hle⟩ => ⟨n, n.lt_succ_self, by omega, h⟩, fun ⟨k, hk, hkj, h⟩ => ?_⟩
      obtain rfl : k = n := by
        by_contra hne
        have := hg (show k < n by omega)
        omega
      exact ⟨h, hkj.ge⟩

/-- The bit at the place `g k` is bit `f k` of `x`. -/
theorem testBit_spread_same {n k : Nat} (hk : k < n) : (spread x f g n).testBit (g k) = x.testBit (f k) := by
  rw [Bool.eq_iff_iff, testBit_spread x f hg]
  exact ⟨fun ⟨i, _, hi, h⟩ => hg.injective hi ▸ h, fun h => ⟨k, hk, rfl, h⟩⟩

/-- A bit at none of the places is clear. -/
theorem testBit_spread_other {n j : Nat} (hj : ∀ k < n, g k ≠ j) : (spread x f g n).testBit j = false := by
  rw [Bool.eq_false_iff, Ne, testBit_spread x f hg]
  exact fun ⟨k, hk, h, _⟩ => hj k hk h

theorem getLsbD_spread_same {n k : Nat} (hk : k < n) (hw : g k < 64) :
    (BitVec.ofNat 64 (spread x f g n)).getLsbD (g k) = x.testBit (f k) := by
  rw [BitVec.getLsbD_ofNat, decide_eq_true hw, Bool.true_and, testBit_spread_same x f hg hk]

theorem getLsbD_spread_other {n j : Nat} (hj : ∀ k < n, g k ≠ j) : (BitVec.ofNat 64 (spread x f g n)).getLsbD j = false := by
  rw [BitVec.getLsbD_ofNat, testBit_spread_other x f hg hj, Bool.and_false]

end

/-! ### Extending -/

/-- The low `w` bits in two's complement are the word of `w` bits read as an integer. -/
theorem sextNat_eq_toInt (x w : Nat) : sextNat x w = (BitVec.ofNat w x).toInt := by
  simp only [sextNat, BitVec.toInt, BitVec.toNat_ofNat]
  push_cast
  rfl

/-- R126: a sign extension copies the low `w` bits and fills with the last of them. -/
theorem getLsbD_sext (x : BitVec 64) {w k : Nat} (hw : 1 ≤ w) (hk : k < 64) :
    (BitVec.ofInt 64 (sextNat x.toNat w)).getLsbD k = x.getLsbD (if k < w then k else w - 1) := by
  have hval : BitVec.ofInt 64 (sextNat x.toNat w) = (x.setWidth w).signExtend 64 := by
    rw [sextNat_eq_toInt, BitVec.ofNat_toNat]
    rfl
  rw [hval, BitVec.getLsbD_signExtend]
  split
  case isTrue h => simp [hk, h]
  case isFalse h => simp [hk, BitVec.msb_eq_getLsbD_last, show 0 < w from hw]

/-- A count of bits fits its result. -/
theorem toNat_ofNat64 {n : Nat} (h : n ≤ 64) : (BitVec.ofNat 64 n).toNat = n := by
  rw [BitVec.toNat_ofNat, Nat.mod_eq_of_lt (by omega)]

/-- Settles O4: each row issues what its function gives, whose bits are those above. -/
theorem bitInstructionsMoveEveryBit : Obligations.BitInstructionsMoveEveryBit := by
  unfold Obligations.BitInstructionsMoveEveryBit
  have three : StrictMono (3 * · : Nat → Nat) := fun a b h => by dsimp only; omega
  have two : StrictMono (2 * · : Nat → Nat) := fun a b h => by dsimp only; omega
  refine ⟨fun g d a s h => ?clz, fun g d a s h => ?ctz, fun g d a s h => ?popc, fun g d a s h => ?bint3, fun g d a s h => ?bdint3,
    fun g d a s h => ?bint2, fun g d a s h => ?bdint2, fun g d a s h => ?brev, fun g d a w s hw h => ?sext, fun g d a w s hw h => ?zext⟩
  all_goals refine ⟨_, slotOp_ready h, ?_⟩
  case clz =>
    rw [toNat_ofNat64 (clzNat_le _ _)]
    exact ⟨clzNat_le _ _, fun k _ hk => testBit_of_clzNat_le (s.readS a).isLt hk, testBit_clzNat (s.readS a).isLt⟩
  case ctz =>
    obtain ⟨hle, hclear, hset⟩ := ctzFrom_spec (s.readS a).toNat 64 0
    rw [Nat.zero_add] at hle hset
    rw [toNat_ofNat64 hle]
    exact ⟨hle, fun k => hclear k (Nat.zero_le k), hset⟩
  case popc =>
    rw [popNat_eq_length, toNat_ofNat64 ((List.length_filter_le _ _).trans_eq List.length_range)]
    rfl
  case bint3 =>
    exact ⟨fun k hk => getLsbD_spread_same _ _ three hk (by omega), fun k hk hno => getLsbD_spread_other _ _ three fun i hi => by omega⟩
  case bdint3 =>
    exact ⟨fun k hk => getLsbD_spread_same _ _ strictMono_id hk (hk.trans (by decide)),
      fun k hk => getLsbD_spread_other _ _ strictMono_id fun i hi => (hi.trans_le hk).ne⟩
  case bint2 =>
    exact ⟨fun k hk => getLsbD_spread_same _ _ two hk (by omega), fun k hk hno => getLsbD_spread_other _ _ two fun i hi => by omega⟩
  case bdint2 =>
    exact ⟨fun k hk => getLsbD_spread_same _ _ strictMono_id hk (hk.trans (by decide)),
      fun k hk => getLsbD_spread_other _ _ strictMono_id fun i hi => (hi.trans_le hk).ne⟩
  case brev => exact fun k hk => getLsbD_spread_same _ _ strictMono_id hk hk
  case sext => exact fun k => getLsbD_sext _ hw
  case zext =>
    intro k hk
    rw [BitVec.getLsbD_ofNat, decide_eq_true hk, Bool.true_and, Nat.testBit_mod_two_pow]
    rfl

end Sys2Proof.Machine
end

section
/-! SUPPORT. The S slot's results, compares, transfers and requests (R121 to R134, R142 to R146): the row of each operation is the shared
frame around its effect, so that it has that effect whenever it is ready. -/

namespace Sys2Proof.Machine

/-- Settles O1: the row of each operation is the shared frame around the issue of its value. -/
theorem scalarArithmeticResults : Obligations.ScalarArithmeticResults := by
  unfold Obligations.ScalarArithmeticResults
  and_intros
  all_goals
    intros
    exact slotOp_ready ‹_›

/-- Settles O5: each row issues a Boolean of the model that is the truth of its relation. -/
theorem comparesWriteTheirGuard : Obligations.ComparesWriteTheirGuard := by
  have ne : ∀ a b : BitVec 64, (a != b) = decide (a ≠ b) := fun a b => by rw [Bool.eq_iff_iff, bne_iff_ne, decide_eq_true_eq]
  unfold Obligations.ComparesWriteTheirGuard
  refine ⟨fun _ _ _ _ _ => slotOp_ready, fun g gd a b s h => ?ne, fun _ _ _ _ _ => slotOp_ready, fun _ _ _ _ _ => slotOp_ready,
    fun _ _ _ _ _ => slotOp_ready, fun _ _ _ _ _ => slotOp_ready, fun _ _ _ _ _ => slotOp_ready, fun _ _ _ _ _ => slotOp_ready,
    fun _ _ _ _ _ => slotOp_ready, fun _ _ _ _ _ => slotOp_ready, fun _ _ _ _ => slotOp_ready⟩
  case ne =>
    rw [← ne]
    exact slotOp_ready h

/-- Settles O6: each row latches its target, and a latched target is where the commit goes on. -/
theorem transfersLatchTheirTarget : Obligations.TransfersLatchTheirTarget := by
  unfold Obligations.TransfersLatchTheirTarget
  refine ⟨fun _ _ _ => slotOp_ready, fun _ _ _ _ => slotOp_ready, fun _ _ _ _ => slotOp_ready, fun _ _ _ => slotOp_ready,
    fun _ _ _ => slotOp_ready, fun _ _ _ _ => slotOp_ready, fun f l b o h => ?_⟩
  simp only [Facet.continueAt, h]

/-- Settles O11: the row of each operation is the shared frame around the request that it leaves in the latch. -/
theorem commitRequestsAreLatched : Obligations.CommitRequestsAreLatched := by
  unfold Obligations.CommitRequestsAreLatched
  and_intros
  all_goals
    intros
    exact slotOp_ready ‹_›

end Sys2Proof.Machine
end

section
/-! SUPPORT. What a loop instruction makes of its facet (R135, R136). -/

namespace Sys2Proof.Machine

section
variable (s : State) (c : BitVec 64) (st : BitVec 2)

/-- R136: a rotating loop sets the rotation base and issues the four stage guards. -/
theorem State.me_resetStages :
    (s.resetStages c st).me
      = (((({ s.me with rotBase := 0 }.issue (.g 4 (decide (st.toNat < c.toNat))) 1 0 0).issue (.g 5 false) 1 0 0).issue
          (.g 6 false) 1 0 0).issue (.g 7 false) 1 0 0) := by
  simp only [State.resetStages, State.me_land, State.me_modMe]

/-- R136: what a loop instruction makes its entry and its target of. -/
def Facet.loopPlace (f : Facet) := (f.lstk, f.lsDepth, f.pc, f.bank, f.latch)

theorem Facet.loopPlace_issue (f : Facet) (w : RegWrite) (lat : Nat) (fl : BitVec 6) (ac : Nat) (po : Bool) :
    (f.issue w lat fl ac po).loopPlace = f.loopPlace := rfl

theorem Facet.rotBase_issue (f : Facet) (w : RegWrite) (lat : Nat) (fl : BitVec 6) (ac : Nat) (po : Bool) :
    (f.issue w lat fl ac po).rotBase = f.rotBase := rfl

theorem State.rotBase_resetStages : (s.resetStages c st).me.rotBase = 0 := by
  simp only [State.me_resetStages, Facet.rotBase_issue]

/-- The state in which a loop instruction pushes its entry or takes its target. -/
def State.staged (rot : Bool) : State := if rot then s.resetStages c st else s

theorem State.loopPlace_staged (rot : Bool) : (s.staged c st rot).me.loopPlace = s.me.loopPlace := by
  cases rot
  · rfl
  · change (s.resetStages c st).me.loopPlace = s.me.loopPlace
    simp only [State.me_resetStages, Facet.loopPlace_issue]
    rfl

/-- What a loop instruction makes its entry and its target of stands while the stages are reset. -/
theorem State.loopFields_staged (rot : Bool) :
    (s.staged c st rot).me.lstk = s.me.lstk ∧ (s.staged c st rot).me.lsDepth = s.me.lsDepth
      ∧ (s.staged c st rot).me.pc = s.me.pc ∧ (s.staged c st rot).me.bank = s.me.bank ∧ (s.staged c st rot).me.latch = s.me.latch := by
  simpa only [Facet.loopPlace, Prod.mk.injEq] using s.loopPlace_staged c st rot

/-- R136: a count that is not 0 pushes an entry. -/
theorem State.me_openLoop_push (rot : Bool) (e : BitVec 16) (hc : c ≠ 0) :
    (s.openLoop c st rot e).me = (s.staged c st rot).me.pushLoop
      { start := s.me.pc + s.me.latch.size, bank := s.me.bank, stop := s.me.pc + 4 * e.toNat, count := c, rot := rot, stages := st } := by
  obtain ⟨-, -, hpc, hbank, hlatch⟩ := s.loopFields_staged c st rot
  unfold State.openLoop
  dsimp only
  rw [if_neg hc, State.me_modMe, ← State.staged, hpc, hbank, hlatch]

/-- R136: a count of 0 takes the transfer to the end. -/
theorem State.me_openLoop_skip (rot : Bool) (e : BitVec 16) (hc : c = 0) :
    (s.openLoop c st rot e).me = { (s.staged c st rot).me with
      latch := { s.me.latch with target := some (s.me.bank, s.me.pc + 4 * e.toNat) } } := by
  obtain ⟨-, -, -, hbank, hlatch⟩ := s.loopFields_staged c st rot
  unfold State.openLoop
  dsimp only
  rw [if_pos hc, State.take, State.modLatch, State.me_modMe, ← State.staged, hbank, hlatch]

/-- The rotation base and the results in flight are those of the reset stages, whatever the count. -/
theorem State.rot_openLoop (rot : Bool) (e : BitVec 16) :
    (s.openLoop c st rot e).me.rotBase = (s.staged c st rot).me.rotBase
      ∧ (s.openLoop c st rot e).me.landings = (s.staged c st rot).me.landings := by
  by_cases hc : c = 0
  · rw [s.me_openLoop_skip c st rot e hc]
    exact ⟨rfl, rfl⟩
  · rw [s.me_openLoop_push c st rot e hc]
    exact ⟨rfl, rfl⟩

end

/-- Settles O7: the facet after a loop instruction is the staged one with its entry pushed or its target latched. -/
theorem loopInstructionsOpenTheirEntry : Obligations.LoopInstructionsOpenTheirEntry := by
  unfold Obligations.LoopInstructionsOpenTheirEntry
  refine ⟨fun _ _ _ _ _ _ => slotOp_ready, fun _ _ _ _ _ _ => slotOp_ready, fun s c st rot e hc => ?push, fun s c st rot e hc => ?skip,
    fun s c st e => ?rot, fun s c st => ?stages⟩
  case push =>
    obtain ⟨hstk, hdep, -, -, hlatch⟩ := s.loopFields_staged c st rot
    rw [s.me_openLoop_push c st rot e hc]
    simp only [Facet.pushLoop, hstk, hdep, hlatch, Tbl.get_set_same, true_and, and_true]
    exact fun k hk => Tbl.get_set_other _ _ _ _ _ hk
  case skip =>
    obtain ⟨hstk, hdep, -, -, -⟩ := s.loopFields_staged c st rot
    rw [s.me_openLoop_skip c st rot e hc]
    exact ⟨rfl, hdep, hstk⟩
  case rot =>
    obtain ⟨hbase, hland⟩ := s.rot_openLoop c st true e
    exact ⟨s.rot_openLoop c st false e, hbase.trans (s.rotBase_resetStages c st), hland⟩
  case stages =>
    refine ⟨(s.rotBase_resetStages c st), ?_⟩
    rw [State.me_resetStages]
    simp [Facet.issue, Facet.overtake, RegWrite.void, RegWrite.id]

end Sys2Proof.Machine
end

section
/-! SUPPORT. System reads, records, estimates, waits and checks (R141 to R150, R235, R271). -/

namespace Sys2Proof.Machine

/-- R148: the product of an entry and a register stays below the estimate that stands for none. -/
theorem State.toNat_estimate {s : State} {a : BitVec 6} {ix : Nat} {base : BitVec 40} (hb : s.me.estTable.find ix = some base)
    (ha : a ≠ 0) : (s.estimate a ix).toNat = min (base.toNat * (s.readS a).toNat) (2 ^ 64 - 2) := by
  simp only [State.estimate, hb, if_neg ha, BitVec.toNat_ofNat]
  exact Nat.mod_eq_of_lt (by omega)

/-- Settles O9: the row of each operation is the shared frame around its effect; the estimate and the record case by case. -/
theorem systemReadsIssueTheirValue : Obligations.SystemReadsIssueTheirValue := by
  unfold Obligations.SystemReadsIssueTheirValue
  refine ⟨fun _ _ _ _ => slotOp_ready, fun _ _ _ _ => slotOp_ready, fun _ _ _ => slotOp_ready, fun _ _ _ => slotOp_ready,
    fun _ _ _ => slotOp_ready, fun _ _ _ => slotOp_ready, fun _ _ _ => slotOp_ready, fun _ _ _ _ => slotOp_ready, fun g a ix s h => ?setest,
    fun s d r rs h => ?evpop⟩
  case setest =>
    have hme : (s.setEstimate a ix.toNat).me
        = { s.me with estSet := s.estimate a ix.toNat, estAt := BitVec.ofNat 64 s.me.logical } := State.me_modMe _ _
    refine ⟨_, slotOp_ready h, ?_⟩
    rw [hme]
    refine ⟨rfl, fun hnone => ?_, fun base hbase => ⟨fun ha => ?_, State.toNat_estimate hbase⟩⟩
    · simp only [State.estimate, hnone]
    · simp only [State.estimate, hbase, if_pos ha]
  case evpop => simp only [State.popRecord, h]

/-- A read of a unit of a scratchpad without an error leaves the state as it is. -/
theorem State.noteSpadErr_clean {s : State} {c p : Nat} (hp : (s.core c).spadPoison.contains (p / 8) = false)
    (hf : (s.core c).spadFlaws.contains (p / 8) = false) : s.noteSpadErr c [p] = s := by
  have hunit : ([p].map (· / 8)).eraseDups = [p / 8] := rfl
  unfold State.noteSpadErr
  simp only [hunit, List.filter_cons, List.filter_nil, hp, hf, Bool.false_eq_true, if_false, List.foldl_nil, List.isEmpty_nil, if_true]

/-- Settles O10: each row is the shared frame around a state that is the one before it but for what the rule names. -/
theorem waitsEndWithoutOtherEffect : Obligations.WaitsEndWithoutOtherEffect := by
  unfold Obligations.WaitsEndWithoutOtherEffect
  refine ⟨fun _ _ => slotOp_ready, fun _ _ _ => slotOp_ready, fun _ _ _ _ => slotOp_ready, fun _ _ _ _ => slotOp_ready,
    fun _ _ => slotOp_ready, fun _ _ _ => slotOp_ready, fun _ _ _ _ => slotOp_ready, fun _ _ _ _ _ => slotOp_ready,
    fun _ _ _ _ => slotOp_ready, fun _ _ => slotOp_ready, fun _ _ _ => slotOp_ready, ?clean⟩
  case clean =>
    rintro xb s c p rfl rfl hp hf
    exact State.noteSpadErr_clean hp hf

end Sys2Proof.Machine
end

section
/-! SUPPORT. The end of a loop body (R130, R137, R140): which entry a committed bundle matches, and what the match makes of the facet. -/

namespace Sys2Proof.Machine

/-! ### The match (R137) -/

/-- A search downwards finds the greatest number below `n` that satisfies it. -/
theorem find?_reverse_range {p : Nat → Bool} {n k : Nat} (hk : k < n) (hp : p k = true) (htop : ∀ j, k < j → j < n → p j = false) :
    (List.range n).reverse.find? p = some k := by
  induction n with
  | zero => exact absurd hk (Nat.not_lt_zero k)
  | succ n ih =>
    rw [List.range_succ, List.reverse_append, List.reverse_singleton, List.singleton_append]
    obtain hlt | rfl := Nat.lt_succ_iff_lt_or_eq.1 hk
    · rw [List.find?_cons_of_neg (by simp [htop n hlt n.lt_succ_self])]
      exact ih hlt fun j hj hn => htop j hj (hn.trans n.lt_succ_self)
    · exact List.find?_cons_of_pos hp

/-- An entry of the stack that a bundle ending at `next` ends. -/
def Facet.endsAt (f : Facet) (next k : Nat) : Prop := (f.lstk.get k {}).stop = next ∧ (f.lstk.get k {}).bank = f.bank

theorem Facet.endsAt_iff (f : Facet) (next k : Nat) :
    ((f.lstk.get k {}).stop == next && (f.lstk.get k {}).bank == f.bank) = true ↔ f.endsAt next k := by
  rw [Bool.and_eq_true, beq_iff_eq, beq_iff_eq, Facet.endsAt]

section
variable {f : Facet} {next k : Nat}

/-- R137: the match is the topmost entry that ends there. -/
theorem Facet.loopMatch_eq_some (hk : k < f.lsDepth) (he : f.endsAt next k) (htop : ∀ j, k < j → j < f.lsDepth → ¬f.endsAt next j) :
    f.loopMatch next = some k :=
  find?_reverse_range hk ((f.endsAt_iff next k).2 he) fun j hj hn =>
    Bool.eq_false_iff.2 fun h => htop j hj hn ((f.endsAt_iff next j).1 h)

/-- R137: with no entry that ends there nothing matches. -/
theorem Facet.loopMatch_eq_none (h : ∀ k, k < f.lsDepth → ¬f.endsAt next k) : f.loopMatch next = none :=
  List.find?_eq_none.2 fun k hk he => h k (List.mem_range.1 (List.mem_reverse.1 hk)) ((f.endsAt_iff next k).1 he)

end

/-- R137: the facet looped back on its entry `k`, counted down and topmost, before a rotating entry's shift. -/
def Facet.loopBack (f : Facet) (k : Nat) : Facet :=
  { f with
    lstk := f.lstk.set k { f.lstk.get k {} with count := (f.lstk.get k {}).count - 1 }
    lsDepth := k + 1
    pc := (f.lstk.get k {}).start }

section
variable {f : Facet} {next k : Nat} (hm : f.loopMatch next = some k)
include hm

/-- R137: an entry on its last count is popped. -/
theorem Facet.endMatch_pop (hc : (f.lstk.get k {}).count.toNat ≤ 1) : f.endMatch next = { f with lsDepth := k, pc := next } := by
  simp only [Facet.endMatch, hm, if_neg (Nat.not_lt.2 hc)]

variable (hc : 1 < (f.lstk.get k {}).count.toNat)
include hc

/-- R137: an entry that does not rotate loops back. -/
theorem Facet.endMatch_back (hr : (f.lstk.get k {}).rot = false) : f.endMatch next = f.loopBack k := by
  simp only [Facet.endMatch, hm, if_pos hc, hr, Bool.false_eq_true, if_false, Facet.loopBack]

/-- R137, R140: a rotating one loops back, rotates and shifts the stage guards. -/
theorem Facet.endMatch_rotate (hr : (f.lstk.get k {}).rot = true) :
    f.endMatch next = (f.loopBack k).rotate.shiftStages ((f.lstk.get k {}).count - 1) (f.lstk.get k {}).stages := by
  simp only [Facet.endMatch, hm, if_pos hc, hr, if_true, Facet.loopBack]

end

/-! ### The rotation and the shift (R108, R140) -/

theorem Facet.rotate_of_none {f : Facet} (h : f.rotRegion = none) : f.rotate = f := by
  simp only [Facet.rotate, h]

theorem Facet.rotate_of_some {f : Facet} {b n : Nat} (h : f.rotRegion = some (b, n)) :
    f.rotate = { f with rotBase := (f.rotBase + n / 2 - 1) % max (n / 2) 1 } := by
  unfold Facet.rotate
  rw [h]

/-- R108: the rotation changes the rotation base alone, by what the base and the region are. -/
theorem Facet.rotate_loopBack (f : Facet) (k : Nat) : (f.loopBack k).rotate = { f.loopBack k with rotBase := f.rotate.rotBase } := by
  cases h : f.rotRegion with
  | none =>
    rw [Facet.rotate_of_none h, Facet.rotate_of_none (f := f.loopBack k) h]
    rfl
  | some r =>
    rw [Facet.rotate_of_some h, Facet.rotate_of_some (f := f.loopBack k) h]
    rfl

/-- R140: g0 to g3 stand, g4 is written anew, and each guard above takes the one below it. -/
theorem Facet.getLsbD_shiftStages (f : Facet) (count : BitVec 64) (stages : BitVec 2) {j : Nat} (hj : j < 8) :
    (f.shiftStages count stages).g.getLsbD j
      = if j < 4 then f.g.getLsbD j else if j = 4 then decide (stages.toNat < count.toNat) else f.g.getLsbD (j - 1) := by
  by_cases h : stages.toNat < count.toNat <;> interval_cases j <;> simp [Facet.shiftStages, h]

/-- R137: the count of a loop that goes on. -/
theorem toNat_count_sub_one {c : BitVec 64} (h : 1 < c.toNat) : (c - 1).toNat = c.toNat - 1 :=
  BitVec.toNat_sub_of_le (BitVec.le_def.2 h.le)

/-- Settles O8: the bundle's end is matched against the topmost entry, which loops back, rotating or not, or is popped. -/
theorem loopEndMatchesTopmostEntry : Obligations.LoopEndMatchesTopmostEntry := by
  unfold Obligations.LoopEndMatchesTopmostEntry
  intro f l ht hl hret
  have hend : l.yielded = false → f.continueAt l = f.endMatch (l.pc + l.size) := fun hy => by
    simp only [Facet.continueAt, ht, hl, hy, hret, Bool.or_self, Bool.false_eq_true, if_false]
  refine ⟨fun hy => ?yields, fun hy => ⟨fun k hk hstop hbank htop => ?_, fun hnone => ?_⟩⟩
  case yields => simp only [Facet.continueAt, ht, hy, Bool.or_true, if_true]
  all_goals rw [hend hy]
  · have hm := Facet.loopMatch_eq_some hk ⟨hstop, hbank⟩ htop
    refine ⟨fun hc => ?again, Facet.endMatch_pop hm⟩
    cases hr : (f.lstk.get k {}).rot with
    | false =>
      rw [Facet.endMatch_back hm hc hr]
      exact ⟨rfl, rfl, Tbl.get_set_same _ _ _ _, fun j hj => Tbl.get_set_other _ _ _ _ _ hj, fun _ => ⟨rfl, rfl⟩,
        fun h => absurd h Bool.false_ne_true⟩
    | true =>
      rw [Facet.endMatch_rotate hm hc hr, Facet.rotate_loopBack]
      refine ⟨rfl, rfl, Tbl.get_set_same _ _ _ _, fun j hj => Tbl.get_set_other _ _ _ _ _ hj,
        fun h => absurd h.symm Bool.false_ne_true, fun _ => ⟨rfl, fun j hj => ?low, fun j hj => ?shift, ?g4⟩⟩
      case low =>
        rw [Facet.getLsbD_shiftStages _ _ _ (by omega), if_pos hj]
        rfl
      case shift =>
        rw [Facet.getLsbD_shiftStages _ _ _ (by omega), if_neg (by omega), if_neg (by omega)]
        rfl
      case g4 =>
        rw [Facet.getLsbD_shiftStages _ _ _ (by decide), if_neg (by decide), if_pos rfl, toNat_count_sub_one hc]
  · rw [Facet.endMatch, Facet.loopMatch_eq_none hnone]

end Sys2Proof.Machine
end

section
/-! SUPPORT. The package at reset (R142, R143, R308, R326, R350, R357, R377, R389, R423, R465). -/

namespace Sys2Proof.Machine

/-- Settles O44: every field has the value of its declaration, and each register named the reset value of its address. -/
theorem resetStateIsTheSpecs : Obligations.ResetStateIsTheSpecs := by
  unfold Obligations.ResetStateIsTheSpecs
  refine ⟨rfl, rfl, rfl, rfl, rfl, rfl, rfl, rfl, ?lode, fun _ _ => ⟨rfl, rfl, rfl, rfl, rfl, rfl, rfl, rfl, fun _ => ⟨rfl, rfl⟩⟩,
    fun _ => rfl, ?mirrors, fun _ => rfl, ?memory, ?partitions⟩
  case lode => decide
  case mirrors => decide
  case memory => decide
  case partitions => decide

end Sys2Proof.Machine
end

section
/-! SUPPORT. What a translation reads (R313 to R316, R384): the memories with their errors, and two registers; a commit, a count and a
walk that meets no error change none of it. -/

namespace Sys2Proof.Machine

/-- The memories of a state with their errors, and nothing else of it. -/
def State.stored (s : State) : State :=
  { mem := s.mem, memPoison := s.memPoison, media := s.media, mediaLost := s.mediaLost, mediaKnown := s.mediaKnown, durQ := s.durQ
    durPoison := s.durPoison, flaws := s.flaws }

theorem State.numAt_stored (s : State) : s.stored.numAt = s.numAt := rfl
theorem State.poisoned_stored (s : State) : s.stored.poisoned = s.poisoned := rfl
theorem State.flaws_stored (s : State) : s.stored.flaws = s.flaws := rfl

/-- The second state translates every address as the first does. -/
structure State.SameTables (s t : State) : Prop where
  stored : t.stored = s.stored
  root : t.devGet aMmr = s.devGet aMmr
  lode : t.devGet aLodeId = s.devGet aLodeId

namespace State.SameTables

variable {s t u : State}

/-- A change of neither the memories nor the registers. -/
theorem of_dev (h : t.stored = s.stored) (hd : t.dev = s.dev) : s.SameTables t := by
  refine ⟨h, ?_, ?_⟩ <;> rw [State.devGet, hd, State.devGet]

theorem start (s : State) : s.SameTables s := ⟨rfl, rfl, rfl⟩

theorem trans (h : s.SameTables t) (k : t.SameTables u) : s.SameTables u :=
  ⟨k.stored.trans h.stored, k.root.trans h.root, k.lode.trans h.lode⟩

theorem setCore (h : s.SameTables t) (c : Nat) (k : Core) : s.SameTables (t.setCore c k) := h.trans (of_dev rfl rfl)
theorem modHere (h : s.SameTables t) (g : Core → Core) : s.SameTables (t.modHere g) := h.trans (of_dev rfl rfl)
theorem modFacet (h : s.SameTables t) (c n : Nat) (g : Facet → Facet) : s.SameTables (t.modFacet c n g) := h.trans (of_dev rfl rfl)
theorem modMe (h : s.SameTables t) (g : Facet → Facet) : s.SameTables (t.modMe g) := h.modFacet _ _ g

theorem flaws (h : s.SameTables t) : t.flaws = s.flaws := by
  rw [← State.flaws_stored, h.stored, State.flaws_stored]

theorem numAt (h : s.SameTables t) : t.numAt = s.numAt := by
  rw [← State.numAt_stored, h.stored, State.numAt_stored]

theorem poisoned (h : s.SameTables t) : t.poisoned = s.poisoned := by
  rw [← State.poisoned_stored, h.stored, State.poisoned_stored]

theorem walkFrom (h : s.SameTables t) (va lvl table : Nat) : t.walkFrom va lvl table = s.walkFrom va lvl table := by
  induction lvl generalizing table with
  | zero => rfl
  | succ lvl ih => simp only [State.walkFrom, h.numAt, h.poisoned, ih]

theorem walk (h : s.SameTables t) (pasid : BitVec 20) (va : Nat) : t.walk pasid va = s.walk pasid va := by
  have hroot : t.rootPa pasid = s.rootPa pasid := by rw [State.rootPa, State.devFld, h.root, State.rootPa, State.devFld]
  unfold State.walk
  rw [hroot, h.poisoned, h.numAt, funext fun table => h.walkFrom va 5 table]

/-- R384: a frame stands where it stood. -/
theorem framePlace (h : s.SameTables t) {f g : Facet} (hp : g.pasid = f.pasid) (ht : g.tframe = f.tframe) :
    t.framePlace g = s.framePlace f := by
  have hlode : t.ownLode = s.ownLode := by rw [State.ownLode, State.devFld, h.lode, State.ownLode, State.devFld]
  unfold State.framePlace
  rw [hp, ht, h.walk]
  simp only [State.leafPa, hlode]

/-! ### Counting (R338) -/

/-- A write of a register beyond those of translation. -/
theorem devPut (h : s.SameTables t) {a : Nat} (ha : aMmr < a) (hi lo v : Nat) : s.SameTables (t.devPut a hi lo v) :=
  h.trans ⟨rfl, State.devGet_devPut_other _ _ _ _ _ _ ha.ne,
    State.devGet_devPut_other _ _ _ _ _ _ (Nat.lt_trans (by decide : aLodeId < aMmr) ha).ne⟩

theorem countAt (h : s.SameTables t) {a : Nat} (ha : aMmr < a) (ev n : Nat) : s.SameTables (t.countAt a ev n) := by
  have ha8 : aMmr < a + 8 := ha.trans_le (Nat.le_add_right _ _)
  unfold State.countAt
  generalize 2 ^ 48 = full
  split
  · dsimp only
    split
    · exact (h.devPut ha8 _ _ _).devPut ha8 _ _ _
    · exact h.devPut ha8 _ _ _
  · exact h

theorem foldl {α : Type} {g : State → α → State} (hg : ∀ t a, s.SameTables t → s.SameTables (g t a)) (l : List α)
    (h : s.SameTables t) : s.SameTables (l.foldl g t) := by
  induction l generalizing t with
  | nil => exact h
  | cons a l ih => exact ih (hg t a h)

theorem count (h : s.SameTables t) {base : Nat} (hb : aMmr < base) (counters ev n : Nat) : s.SameTables (t.count base counters ev n) :=
  foldl (fun _ _ ht => ht.countAt (hb.trans_le (Nat.le_add_right _ _)) _ _) _ h

theorem countCore (h : s.SameTables t) (c ev n : Nat) : s.SameTables (t.countCore c ev n) :=
  h.count (by unfold aMmr aCore; omega) _ _ _
theorem countPkg (h : s.SameTables t) (ev n : Nat) : s.SameTables (t.countPkg ev n) := h.count (by decide) _ _ _
theorem countVein (h : s.SameTables t) (v ev n : Nat) : s.SameTables (t.countVein v ev n) :=
  h.count (by unfold aMmr aVein; omega) _ _ _

theorem countWords (h : s.SameTables t) (pa n ev : Nat) : s.SameTables (t.countWords pa n ev) := by
  have run : ∀ {u : State} (v a m : Nat), s.SameTables u →
      s.SameTables (if m = 0 ∨ 8 ≤ v then u else u.countVein v ev ((a + m - 1) / 32 - a / 32 + 1)) := fun v a m hu => by
    split
    · exact hu
    · exact hu.countVein _ _ _
  unfold State.countWords
  dsimp only
  split
  · exact run _ _ _ (run _ _ _ h)
  · exact h

theorem countWalk (h : s.SameTables t) (pasid : BitVec 20) (va : Nat) : s.SameTables (t.countWalk pasid va) :=
  foldl (fun _ _ ht => ht.countWords _ _ _) _ (h.countPkg _ _)

/-! ### Landing, committing and withdrawing -/

theorem settle (h : s.SameTables t) (c fn : Nat) : s.SameTables (t.settle c fn) := (h.setCore _ _).countPkg _ _

/-- R34, R49: a commit changes cores and counters. -/
theorem committed (h : s.SameTables t) (core : Nat) : s.SameTables (t.committed core) := by
  have hcur : s.SameTables { t with cur := core } := h.trans (of_dev rfl rfl)
  exact (((((hcur.modMe _).settle _ _).modMe _).modHere _).countCore _ _ _).countCore _ _ _

theorem withdraw (h : s.SameTables t) (c fn : Nat) : s.SameTables (t.withdraw c fn) := h.trans (of_dev rfl rfl)

end State.SameTables

/-! ### A walk that meets no error (R330) -/

section
variable {s : State} (hs : s.flaws = [])
include hs

theorem State.meetAt_noFlaw (pa kind req : Nat) : s.meetAt pa kind req = s := by
  simp [State.meetAt, State.findAt, hs, State.reports]

theorem State.meetWords_noFlaw (req : Nat) (l : List Nat) : s.meetWords req l = s := by
  induction l with
  | nil => rfl
  | cons pa l ih => simp only [State.meetWords, State.meetAt_noFlaw hs, ih, ite_self]

theorem State.sameTables_meetWalk (pasid : BitVec 20) (va req : Nat) : s.SameTables (s.meetWalk pasid va req) := by
  rw [State.meetWalk, State.meetEntries, State.meetWords_noFlaw hs]
  exact (State.SameTables.start s).countWalk _ _

end

end Sys2Proof.Machine
end

section
/-! SUPPORT. Entering a handler (R384 to R386), and the commit that traps (R145). -/

namespace Sys2Proof.Machine

theorem State.facet_of_core {s t : State} {c : Nat} (h : t.core c = s.core c) (n : Nat) : t.facet c n = s.facet c n :=
  congrArg (fun k : Core => k.facet n) h

theorem State.core_writeFrame (s : State) (c fn : Nat) (cause info : BitVec 64) (clock d : Nat) :
    (s.writeFrame c fn cause info clock).1.core d = s.core d :=
  State.core_of_cores (s.holds_writeFrame c fn cause info clock).1 d

/-- R384: a frame is written where it has a place. -/
theorem State.writeFrame_written (s : State) (c fn : Nat) (cause info : BitVec 64) (clock : Nat) :
    (s.writeFrame c fn cause info clock).2 = (s.framePlace (s.facet c fn)).isSome := by
  have hf : (s.core c).facet fn = s.facet c fn := rfl
  unfold State.writeFrame
  dsimp only
  rw [hf]
  cases s.framePlace (s.facet c fn) with
  | none => rfl
  | some p => cases p <;> rfl

/-- R385, R389: a facet that traps, its frame not yet written. -/
def Facet.trapped (f : Facet) (x : TrapInfo) : Facet := { f.toReplay with tcause := x.word, tinfo := x.info, frameOk := false }

/-- R384: the state in which a facet that traps is to write its frame: TFRAME has been walked. -/
def State.trapped (s : State) (c n : Nat) (x : TrapInfo) : State :=
  (s.meetWalk (s.facet c n).pasid (s.facet c n).tframe.toNat (geodeOf c)).modFacet c n fun f => f.trapped x

/-- R384, R390: what the frame step of a trap leaves, and whether the frame was written. -/
def State.trapWrite (s : State) (c n : Nat) (x : TrapInfo) : State × Bool :=
  (s.trapped c n x).writeFrame c n x.word x.info ((s.trapped c n x).facet c n).progClock

/-- R322, R384: the state after the frame step, the frame and its page noted. -/
def State.framed (s : State) (c n : Nat) (x : TrapInfo) : State :=
  (s.trapWrite c n x).1.modFacet c n fun f =>
    { f with
      frameOk := (s.trapWrite c n x).2
      framePage := if (s.trapWrite c n x).2 then (s.trapWrite c n x).1.framePage ((s.trapped c n x).facet c n) else none }

/-- R384, R385: a trap outside a handler parks on its first condition that fails, or enters the handler. -/
theorem State.takeTrapOf_program {s : State} {c n : Nat} (x : TrapInfo) (hi : (s.facet c n).intrap = false) :
    s.takeTrapOf c n x
      = if x.parks then (s.framed c n x).park c n x.cause.code
        else if !tbaseOk ((s.trapped c n x).core c) ((s.trapped c n x).facet c n) then (s.framed c n x).park c n 0x20
        else if !(s.trapWrite c n x).2 then (s.framed c n x).park c n 0x22
        else (s.framed c n x).modFacet c n Facet.enterHandler := by
  unfold State.takeTrapOf
  dsimp only
  rw [hi]
  rfl

section
variable (s : State) (c n : Nat) (x : TrapInfo)

theorem State.facet_trapped : (s.trapped c n x).facet c n = (s.facet c n).trapped x := by
  rw [State.trapped, State.facet_modFacet_same, State.facet_of_core (State.core_meetWalk _ _ _ _ _)]

/-- R384: a trap's own fields say nothing of where its handler begins. -/
theorem State.tbaseOk_trapped : tbaseOk ((s.trapped c n x).core c) ((s.trapped c n x).facet c n) = tbaseOk (s.core c) (s.facet c n) := by
  rw [State.facet_trapped, State.trapped, State.core_modFacet_same, State.core_meetWalk]
  rfl

/-- R384: a trap writes its frame where TFRAME translates once it has been walked. -/
theorem State.trapWrite_written :
    (s.trapWrite c n x).2
      = ((s.meetWalk (s.facet c n).pasid (s.facet c n).tframe.toNat (geodeOf c)).framePlace (s.facet c n)).isSome := by
  rw [State.trapWrite, State.writeFrame_written, State.facet_trapped]
  exact congrArg _ (((State.SameTables.start _).modFacet _ _ _).framePlace rfl rfl)

theorem State.facet_framed :
    (s.framed c n x).facet c n = { (s.facet c n).trapped x with
      frameOk := (s.trapWrite c n x).2
      framePage := if (s.trapWrite c n x).2 then (s.trapWrite c n x).1.framePage ((s.trapped c n x).facet c n) else none } := by
  rw [State.framed, State.facet_modFacet_same, State.facet_of_core (t := (s.trapWrite c n x).1) (State.core_writeFrame _ _ _ _ _ _ _),
    State.facet_trapped]

/-- R385: a trap that no condition parks enters the handler from the facet that the frame step leaves. -/
theorem State.facet_takeTrapOf_enters (hi : (s.facet c n).intrap = false) (hp : x.parks = false)
    (hb : tbaseOk (s.core c) (s.facet c n) = true)
    (hw : ((s.meetWalk (s.facet c n).pasid (s.facet c n).tframe.toNat (geodeOf c)).framePlace (s.facet c n)).isSome = true) :
    (s.takeTrapOf c n x).facet c n = ((s.framed c n x).facet c n).enterHandler := by
  rw [State.takeTrapOf_program x hi, hp, State.tbaseOk_trapped, hb, State.trapWrite_written, hw]
  exact State.facet_modFacet_same _ _ _ _

end

end Sys2Proof.Machine
end

section
/-! SUPPORT. The commit of a bundle that traps after it (R145, R385, R386, R389). -/

namespace Sys2Proof.Machine

/-! ### TCAUSE (R389) -/

section
variable (x : TrapInfo)

theorem TrapCause.code_lt (c : TrapCause) : c.code < 32 := by
  cases c <;> decide

theorem TrapInfo.wbits_word_cause : wbits x.word 4 0 = x.cause.code := by
  have hc := x.cause.code_lt
  simp only [wbits, nbits, TrapInfo.word, BitVec.toNat_ofNat]
  split <;> omega

/-- R389: NEXT is set for the causes that trap after their bundle. -/
theorem TrapInfo.getLsbD_word_next : x.word.getLsbD 30 = decide (x.cause = .sys ∨ x.cause = .trapi) := by
  have hc := x.cause.code_lt
  have hd := x.detail.isLt
  have hm := x.fmask.isLt
  have hs := x.fslot.isLt
  have hn := x.hnum.isLt
  have hf := x.fcode.isLt
  rw [TrapInfo.word, BitVec.getLsbD_ofNat, Nat.testBit_eq_decide_div_mod_eq]
  have hlow : x.cause.code + x.detail.toNat * 2 ^ 5 + x.fmask.toNat * 2 ^ 10 + x.fslot.toNat * 2 ^ 18 + x.hnum.toNat * 2 ^ 21
      + x.fcode.toNat * 2 ^ 26 < 2 ^ 30 := by omega
  generalize x.cause.code + x.detail.toNat * 2 ^ 5 + x.fmask.toNat * 2 ^ 10 + x.fslot.toNat * 2 ^ 18 + x.hnum.toNat * 2 ^ 21
      + x.fcode.toNat * 2 ^ 26 = low at hlow
  by_cases h : x.cause = .sys ∨ x.cause = .trapi
  · have hbit : (low + 2 ^ 30) / 2 ^ 30 = 1 := by omega
    rw [if_pos h, decide_eq_true h, hbit]
    rfl
  · have hbit : (low + 0) / 2 ^ 30 = 0 := by omega
    rw [if_neg h, decide_eq_false h, hbit]
    rfl

end

/-! ### The committed facet -/

/-- What the choice of the next place leaves of a facet: the facet with its place, its loops and its guards blank. -/
def Facet.placeless (f : Facet) : Facet := { f with pc := 0, bank := false, lstk := [], lsDepth := 0, rotBase := 0, g := 0, poison := [] }

theorem Facet.placeless_rotate (f : Facet) : f.rotate.placeless = f.placeless := by
  cases h : f.rotRegion with
  | none => rw [Facet.rotate_of_none h]
  | some r => rw [Facet.rotate_of_some h]; rfl

theorem Facet.placeless_endMatch (f : Facet) (next : Nat) : (f.endMatch next).placeless = f.placeless := by
  unfold Facet.endMatch
  split
  · rfl
  · dsimp only
    split
    · split
      · exact (Facet.placeless_rotate _ :)
      · rfl
    · rfl

theorem Facet.placeless_continueAt (f : Facet) (l : Latch) : (f.continueAt l).placeless = f.placeless := by
  unfold Facet.continueAt
  split
  · rfl
  · split
    · rfl
    · split
      · rfl
      · exact f.placeless_endMatch _

/-- What a trap reads of its facet beside its registers. -/
def Facet.entry (f : Facet) := (f.intrap, f.tbase, f.tframe, f.pasid, f.clock)

theorem Facet.entry_of_placeless {f g : Facet} (h : f.placeless = g.placeless) : f.entry = g.entry :=
  (congrArg Facet.entry h :)

/-- R34: a commit moves the logical clock of its facet; what else a trap reads of it stands. -/
theorem State.entry_committed (s : State) (core : Nat) :
    ((s.committed core).facet core (s.core core).run).entry = (s.facet core (s.core core).run).stamped.entry := by
  rw [State.facet_committed, Facet.entry_of_placeless (Facet.placeless_continueAt _ _)]
  exact (congrArg Facet.entry (Core.landDue_stamped_control (s.core core) (s.core core).run) :)

theorem State.segs_committed (s : State) (core : Nat) : ((s.committed core).core core).segs = (s.core core).segs := by
  rw [State.core_committed]
  exact (congrArg Core.segs (Core.landDue_frame _ _) :)

/-- R384: where a handler begins rests on TBASE and the segments of the store. -/
theorem tbaseOk_congr {k t : Core} {f g : Facet} (hs : t.segs = k.segs) (hb : g.tbase = f.tbase) : tbaseOk t g = tbaseOk k f := by
  rw [tbaseOk, Core.sysAt, hs, hb, tbaseOk, Core.sysAt]

/-! ### Withdrawing (R240, R343) -/

theorem State.facet_withdraw (s : State) (c n : Nat) : (s.withdraw c n).facet c n = { s.facet c n with pbar := 0, tsyncMet := false } :=
  State.facet_modFacet_same _ _ _ _

theorem State.segs_withdraw (s : State) (c n : Nat) : ((s.withdraw c n).core c).segs = (s.core c).segs := by
  have hcore : (s.withdraw c n).core c = (s.core c).modFacet n fun f => { f with pbar := 0, tsyncMet := false } :=
    State.core_modFacet_same _ _ _ _
  rw [hcore]
  rfl

/-! ### The trap after the commit (R145) -/

/-- R145, R385: the facet of a bundle whose commit traps outside a handler, with a handler and a place for its frame, is in its
handler. -/
theorem State.facet_committed_takeTrap {s : State} {core n : Nat} {f : Facet} {x : TrapInfo} (hn : n = (s.core core).run)
    (hf : s.facet core n = f) (hi : f.intrap = false) (hp : x.parks = false) (hs : s.flaws = [])
    (hb : tbaseOk (s.core core) f = true) (hw : (s.framePlace f).isSome = true) :
    ∃ v : State, (v.facet core n).entry = f.stamped.entry
      ∧ ((s.committed core).takeTrap x).facet core n = ((v.framed core n x).facet core n).enterHandler := by
  subst hn hf
  obtain ⟨v, hv⟩ : ∃ v, v = (s.committed core).withdraw core (s.core core).run := ⟨_, rfl⟩
  have hdef : ((s.committed core).takeTrap x).facet core (s.core core).run
      = (v.takeTrapOf core (s.core core).run x).facet core (s.core core).run := by
    rw [State.takeTrap, State.fn, State.here, State.cur_committed, State.run_committed, hv]
    rfl
  have hentry : (v.facet core (s.core core).run).entry = (s.facet core (s.core core).run).stamped.entry := by
    rw [← s.entry_committed core, hv, State.facet_withdraw]
    rfl
  have hsame : s.SameTables v := hv ▸ ((State.SameTables.start s).committed core).withdraw _ _
  obtain ⟨hvi, hvb, hvf, hvp, -⟩ : _ ∧ _ ∧ _ ∧ _ ∧ _ := by simpa only [Facet.entry, Prod.mk.injEq] using hentry
  refine ⟨v, hentry, ?_⟩
  rw [hdef, State.facet_takeTrapOf_enters _ _ _ _ (hvi.trans hi) hp]
  · rw [← hb]
    exact tbaseOk_congr (by rw [hv, State.segs_withdraw, State.segs_committed]) hvb
  · rw [← hw]
    refine congrArg _ (State.SameTables.framePlace ?_ hvp hvf)
    exact hsame.trans (State.sameTables_meetWalk (hsame.flaws.trans hs) _ _ _)

/-- R145, R379: the commit of a bundle that has asked for a trap takes it. -/
theorem exec_bundleCommit_trap {s : State} {core n : Nat} {f : Facet} {l : Latch} {x : TrapInfo} (hn : n = (s.core core).run)
    (hf : s.facet core n = f) (hl : f.latch = l) (hr : f.resident = true) (hp : l.passed = true)
    (hz : (s.geode (geodeOf core)).frozen = false) (hret : l.returned = false) (hh : l.halted = false) (ha : l.after = some x)
    (hw : l.sysWrite = none) : exec (.bundleCommit core) s = .next ((s.committed core).takeTrap x) := by
  have hsys : (s.committed core).sysWrites l = (s.committed core, l) := by simp only [State.sysWrites, hw]
  rw [exec_bundleCommit hn hf hl hr hp hz hret, hsys, State.afterCommit_trap hh ha]

/-- Settles O12: the row leaves its trap in the latch, the commit takes it, and no condition of R384 parks it. -/
theorem softwareTrapFollowsItsCommit : Obligations.SoftwareTrapFollowsItsCommit := by
  unfold Obligations.SoftwareTrapFollowsItsCommit
  intro g imm s n i hni hready hpass hhalt hsys hret hi hz hflaws hb hw
  obtain ⟨x, hexec, hparks, hcode, hnext, hinfo⟩ : ∃ x : TrapInfo, exec i s = .next (s.modLatch fun l => { l with after := some x })
      ∧ x.parks = false ∧ x.cause.code = n ∧ (x.cause = .sys ∨ x.cause = .trapi) ∧ x.info = imm.zeroExtend 64 := by
    obtain ⟨rfl, rfl⟩ | ⟨rfl, rfl⟩ := hni
    · exact ⟨_, slotOp_ready hready, rfl, rfl, .inl rfl, BitVec.ofNat_toNat _ _⟩
    · exact ⟨_, slotOp_ready hready, rfl, rfl, .inr rfl, BitVec.ofNat_toNat _ _⟩
  obtain ⟨t, ht⟩ : ∃ t, t = s.modLatch fun l => { l with after := some x } := ⟨_, rfl⟩
  have hrun : s.fn = (t.core s.cur).run := by
    rw [ht]
    exact (s.fn_modMe _).symm
  have hme : t.facet s.cur s.fn = { s.me with latch := { s.me.latch with after := some x } } := by
    rw [ht]
    exact State.facet_modFacet_same _ _ _ _
  have hres : s.me.resident = true := by
    simp only [State.ready, Bool.and_eq_true] at hready
    exact hready.1.1
  have hsame : s.SameTables t := ht ▸ (State.SameTables.start s).modMe _
  have hbase : tbaseOk (t.core s.cur) { s.me with latch := { s.me.latch with after := some x } } = true := by
    rw [← hb, ht]
    exact tbaseOk_congr (congrArg Core.segs (s.here_modMe _) :) rfl
  have hplace : (t.framePlace { s.me with latch := { s.me.latch with after := some x } }).isSome = true := by
    rw [← hw]
    exact congrArg _ (hsame.framePlace rfl rfl)
  obtain ⟨v, hentry, hu⟩ := State.facet_committed_takeTrap (x := x) hrun hme hi hparks (hsame.flaws.trans hflaws) hbase hplace
  have hcommit : exec (.bundleCommit s.cur) t = .next ((t.committed s.cur).takeTrap x) := by
    have hz' : (t.geode (geodeOf s.cur)).frozen = false := ht ▸ hz
    exact exec_bundleCommit_trap hrun hme rfl hres hpass hz' hret hhalt rfl hsys
  obtain ⟨-, hvb, hvf, -, hvc⟩ : _ ∧ _ ∧ _ ∧ _ ∧ _ := by simpa only [Facet.entry, Prod.mk.injEq] using hentry
  refine ⟨t, _, ht ▸ hexec, hcommit, ?_⟩
  rw [hu, State.facet_framed]
  simp only [Facet.enterHandler, Facet.trapped, Facet.toReplay, hvb, hvf, hvc]
  refine ⟨trivial, trivial, rfl, rfl, ?_, ?_, ?_, ?_, hinfo, rfl⟩
  · rw [Tbl.get_set_other _ _ _ _ _ (by decide), Tbl.get_set_same]
    rfl
  · exact Tbl.get_set_same _ _ _ _
  · rw [TrapInfo.wbits_word_cause, hcode]
  · rw [TrapInfo.getLsbD_word_next, decide_eq_true hnext]

end Sys2Proof.Machine
end

section
/-! SUPPORT. The end of a handler (R392): the results that land with it, and what its frame restores. -/

namespace Sys2Proof.Machine

/-! ### All results land -/

/-- What every step of a fold over a list leaves alone, the fold leaves alone. -/
theorem foldl_keeps_of_mem {α β γ : Type} (p : β → γ) (g : β → α → β) (l : List α) (h : ∀ a ∈ l, ∀ s, p (g s a) = p s) (s : β) :
    p (l.foldl g s) = p s := by
  induction l generalizing s with
  | nil => rfl
  | cons a l ih =>
    rw [List.foldl_cons, ih (fun b hb => h b (List.mem_cons_of_mem _ hb)), h a List.mem_cons_self]

theorem Core.landAll_facet_control (k : Core) (fn : Nat) : ((k.landAll fn).facet fn).control = (k.facet fn).control := by
  unfold Core.landAll
  rw [Core.foldl_landOne_facet_control, Core.facet_modFacet_same]
  rfl

theorem Core.landAll_frame (k : Core) (fn : Nat) : (k.landAll fn).frame = k.frame := by
  unfold Core.landAll
  dsimp only
  rw [foldl_keeps Core.frame _ (fun k l => k.landOne_frame fn l)]
  rfl

/-- A result for another register leaves a handle as it is. -/
theorem Core.handle_landOne_other (k : Core) (fn : Nat) {l : Landing} {n : Nat} (h : l.write.id ≠ .h n) :
    ((k.landOne fn l).facet fn).h.get n {} = (k.facet fn).h.get n {} := by
  rw [Core.facet, Core.landOne_facets, ← Core.facet, Core.facet_modFacet_same]
  unfold Facet.take
  dsimp only
  split
  · rfl
  · cases hw : l.write with
    | h m v => exact Tbl.get_set_other _ _ _ _ _ fun hn => h (by rw [hw, hn]; rfl)
    | _ => rfl

/-- A result for another register leaves a vector register as it is. -/
theorem Core.vreg_landOne_other (k : Core) (fn : Nat) {l : Landing} {n : Nat} (h : l.write.id ≠ .v n) :
    (k.landOne fn l).vfile.get n {} = k.vfile.get n {} := by
  unfold Core.landOne
  cases hw : l.write with
  | v m v =>
    dsimp only
    split
    · rfl
    · exact Tbl.get_set_other _ _ _ _ _ fun hn => h (by rw [hw, hn]; rfl)
  | _ => rfl

/-- A register with no result in flight is written by none of the landings. -/
theorem Facet.id_ne_of_flight {f : Facet} {r : RegId} (h : f.flight r = []) {l : Landing} (hl : l ∈ f.landings) : l.write.id ≠ r :=
  fun hr => List.filter_eq_nil_iff.1 h l hl (beq_iff_eq.2 hr)

theorem Core.handle_landAll (k : Core) (fn : Nat) {n : Nat} (h : (k.facet fn).flight (.h n) = []) :
    ((k.landAll fn).facet fn).h.get n {} = (k.facet fn).h.get n {} := by
  unfold Core.landAll
  dsimp only
  rw [foldl_keeps_of_mem (fun k : Core => (k.facet fn).h.get n {}) _ _ fun l hl k =>
    k.handle_landOne_other fn (Facet.id_ne_of_flight h (List.mem_filter.1 hl).1)]
  rw [Core.facet_modFacet_same]

theorem Core.vreg_landAll (k : Core) (fn : Nat) {n : Nat} (h : (k.facet fn).flight (.v n) = []) :
    (k.landAll fn).vfile.get n {} = k.vfile.get n {} := by
  unfold Core.landAll
  dsimp only
  rw [foldl_keeps_of_mem (fun k : Core => k.vfile.get n {}) _ _ fun l hl k =>
    k.vreg_landOne_other fn (Facet.id_ne_of_flight h (List.mem_filter.1 hl).1)]
  rfl

/-! ### What a frame restores -/

/-- A table that takes values at consecutive keys holds each at its key. -/
theorem Tbl.get_foldl_set {α : Type} (o : Nat) (v : Nat → α) (t : Tbl α) (d : α) {n k : Nat} (hk : k < n) :
    Tbl.get ((List.range n).foldl (fun t k => Tbl.set t (k + o) (v k)) t) (k + o) d = v k := by
  induction n with
  | zero => exact absurd hk (Nat.not_lt_zero k)
  | succ n ih =>
    rw [List.range_succ, List.foldl_append, List.foldl_cons, List.foldl_nil]
    obtain hlt | rfl := Nat.lt_succ_iff_lt_or_eq.1 hk
    · rw [Tbl.get_set_other _ _ _ _ _ (by omega), ih hlt]
    · exact Tbl.get_set_same _ _ _ _

section
variable (v : State) (pa : FramePlace) (f : Facet)

/-- R392: the guards but g0 are those of the frame. -/
theorem State.guard_restoreFacet {k : Nat} (h1 : 1 ≤ k) (h8 : k < 8) :
    (v.restoreFacet pa f).g.getLsbD k = (v.frameNum pa 0x48).getLsbD k := by
  have hg : (v.restoreFacet pa f).g = BitVec.ofNat 8 ((v.frameNum pa 0x48).toNat % 256 / 2 * 2 + f.g.toNat % 2) := rfl
  obtain ⟨j, rfl⟩ : ∃ j, k = j + 1 := ⟨k - 1, by omega⟩
  have hhalf : ((v.frameNum pa 0x48).toNat % 256 / 2 * 2 + f.g.toNat % 2) / 2 = (v.frameNum pa 0x48).toNat % 256 / 2 := by omega
  rw [hg, BitVec.getLsbD_ofNat, decide_eq_true h8, Bool.true_and, Nat.testBit_succ, hhalf, ← Nat.testBit_succ,
    show 256 = 2 ^ 8 from rfl, Nat.testBit_mod_two_pow, decide_eq_true h8, Bool.true_and, BitVec.testBit_toNat]

/-! The tables of the restored facet, each filled from its place in the frame on. -/

theorem State.lstk_restoreFacet {k : Nat} (hk : k < 6) :
    (v.restoreFacet pa f).lstk.get k {} = LoopEntry.ofWords (v.frameNum pa (0x80 + 16 * k)) (v.frameNum pa (0x88 + 16 * k)) := by
  unfold State.restoreFacet
  dsimp only
  exact Tbl.get_foldl_set 0 (fun k => LoopEntry.ofWords (v.frameNum pa (0x80 + 16 * k)) (v.frameNum pa (0x88 + 16 * k))) f.lstk {} hk

theorem State.s_restoreFacet {k : Nat} (h1 : 1 ≤ k) (hk : k < 64) : (v.restoreFacet pa f).s.get k 0 = v.frameNum pa (0x400 + 8 * k) := by
  obtain ⟨j, rfl⟩ : ∃ j, k = j + 1 := ⟨k - 1, by omega⟩
  unfold State.restoreFacet
  dsimp only
  exact (Tbl.get_foldl_set 1 (fun k => v.frameNum pa (0x408 + 8 * k)) f.s 0 (by omega : j < 63)).trans
    (congrArg (v.frameNum pa) (by omega : 0x408 + 8 * j = 0x400 + 8 * (j + 1)))

theorem State.m_restoreFacet {k : Nat} (h1 : 1 ≤ k) (hk : k < 16) :
    (v.restoreFacet pa f).m.get k 0
      = BitVec.ofNat 128 ((v.frameNum pa (0x2C0 + 16 * k)).toNat + (v.frameNum pa (0x2C8 + 16 * k)).toNat * 2 ^ 64) := by
  obtain ⟨j, rfl⟩ : ∃ j, k = j + 1 := ⟨k - 1, by omega⟩
  have hlow : 0x2D0 + 16 * j = 0x2C0 + 16 * (j + 1) := by omega
  have hhigh : 0x2D8 + 16 * j = 0x2C8 + 16 * (j + 1) := by omega
  unfold State.restoreFacet
  dsimp only
  refine (Tbl.get_foldl_set 1 (fun k => BitVec.ofNat 128 ((v.frameNum pa (0x2D0 + 16 * k)).toNat
    + (v.frameNum pa (0x2D8 + 16 * k)).toNat * 2 ^ 64)) f.m 0 (by omega : j < 15)).trans ?_
  simp only [hlow, hhigh]

theorem State.x_restoreFacet {k : Nat} (hk : k < 32) :
    (v.restoreFacet pa f).x.get k 0 = BitVec.ofNat 32 (v.frameNumAt pa (0x240 + 4 * k) 4) := by
  unfold State.restoreFacet
  dsimp only
  exact Tbl.get_foldl_set 0 (fun k => BitVec.ofNat 32 (v.frameNumAt pa (0x240 + 4 * k) 4)) f.x 0 hk

theorem State.q_restoreFacet {k : Nat} (hk : k < 8) : (v.restoreFacet pa f).q.get k 0 = v.frameNum pa (0x180 + 8 * k) := by
  unfold State.restoreFacet
  dsimp only
  exact Tbl.get_foldl_set 0 (fun k => v.frameNum pa (0x180 + 8 * k)) f.q 0 hk

theorem State.d_restoreFacet {k : Nat} (hk : k < 16) : (v.restoreFacet pa f).d.get k 0 = v.frameNum pa (0x1C0 + 8 * k) := by
  unfold State.restoreFacet
  dsimp only
  exact Tbl.get_foldl_set 0 (fun k => v.frameNum pa (0x1C0 + 8 * k)) f.d 0 hk

theorem State.y_restoreFacet {k : Nat} (hk : k < 4) : (v.restoreFacet pa f).y.get k 0 = v.frameNum pa (0x160 + 8 * k) := by
  unfold State.restoreFacet
  dsimp only
  exact Tbl.get_foldl_set 0 (fun k => v.frameNum pa (0x160 + 8 * k)) f.y 0 hk

end

/-- R144: the number of stages is a field of its word. -/
theorem LoopEntry.stages_ofWords (a c : BitVec 64) : (LoopEntry.ofWords a c).stages.toNat = wbits a 34 33 :=
  Nat.mod_mod _ _

/-! ### The return -/

/-- R392: a return parks without its frame, or with one that holds no resume point. -/
def State.frameBad (v : State) (f : Facet) (p : FramePlace) : Bool :=
  v.framePoisoned f p || wbits (v.frameNum p 0x10) 63 16 != 0 || wbits (v.frameNum p 0x10) 1 0 != 0

section
variable {s v : State} {c n : Nat} {f : Facet} (hf : s.facet c n = f) (hv : v = s.meetFrame c n)
include hf hv

theorem State.facet_of_meetFrame : v.facet c n = f := by
  rw [hv, State.facet_meetFrame, hf]

theorem State.returnFrom_noFrame (h : v.framePlace f = none) : s.returnFrom c n = v.park c n 0x22 := by
  unfold State.returnFrom
  dsimp only
  rw [← hv, State.facet_of_meetFrame hf hv, h]

variable {pa : FramePlace} (hp : v.framePlace f = some pa)
include hp

theorem State.returnFrom_bad (h : v.frameBad f pa = true) :
    s.returnFrom c n = (v.modFacet c n fun f => { f with framePorts := [], frameFailed := false }).park c n 0x22 := by
  unfold State.returnFrom
  dsimp only
  rw [← hv, State.facet_of_meetFrame hf hv, hp]
  exact if_pos h

theorem State.returnFrom_good (h : v.frameBad f pa = false) :
    s.returnFrom c n = (v.modCore c fun k => k.landAll n).modFacet c n fun f => v.restoreFacet pa f := by
  unfold State.returnFrom
  dsimp only
  rw [← hv, State.facet_of_meetFrame hf hv, hp]
  exact if_neg (Bool.eq_false_iff.1 h)

end

theorem State.vfile_park (s : State) (c n code : Nat) : ((s.park c n code).core c).vfile = (s.core c).vfile := by
  unfold State.park
  dsimp only
  rw [State.core_heqPost, State.core_modCore_same, State.core_modFacet_same]
  rfl

/-- What a return takes over from the facet that it finds. -/
def Facet.kept (f : Facet) := (f.progClock, f.replay, (f.lsDepth, f.rotRegion), f.tbase, f.tframe, f.tcause, f.tinfo)

/-- Settles O52: a good frame is restored over the facet in which every result of the handler has landed; without one the facet parks as
it is. -/
theorem returnRestoresTheFrame : Obligations.ReturnRestoresTheFrame := by
  unfold Obligations.ReturnRestoresTheFrame
  intro s v t c n f u hf hv ht hu
  have hcore : v.core c = s.core c := hv ▸ State.core_of_inside (State.meetFrame_inside _ _ _) c
  refine ⟨fun pa hp hpois hhigh hlow => ?restored, ?parked⟩
  case restored =>
    have hgood : v.frameBad f pa = false := by simp [State.frameBad, hpois, hhigh, hlow]
    rw [State.returnFrom_good hf hv hp hgood] at ht
    obtain ⟨w, hw⟩ : ∃ w, w = ((s.core c).landAll n).facet n := ⟨_, rfl⟩
    have htc : t.core c = ((s.core c).landAll n).modFacet n fun f => v.restoreFacet pa f := by
      rw [ht, State.core_modFacet_same, State.core_modCore_same, hcore]
    have hur : u = v.restoreFacet pa w := by
      rw [← hu, State.facet, htc, Core.facet_modFacet_same, hw]
    have hmem : t.mem = v.mem := by rw [ht, State.modFacet_mem, State.modCore_mem]
    have hkept : w.kept = f.kept := by
      rw [hw, ← hf]
      exact (congrArg Facet.kept (Core.landAll_facet_control (s.core c) n) :)
    obtain ⟨hclock, hreplay, ⟨hdepth, hregion⟩, hbase, hframe, hcause, hinfo⟩ : _ ∧ _ ∧ (_ ∧ _) ∧ _ ∧ _ ∧ _ ∧ _ := by
      simpa only [Facet.kept, Prod.mk.injEq] using hkept
    refine ⟨⟨congrArg Facet.intrap hur, congrArg Facet.parked hur, congrArg Facet.pc hur, congrArg Facet.bank hur⟩,
      ⟨(congrArg Facet.clock hur).trans hclock, (congrArg Facet.landings hur).trans hreplay, congrArg Facet.replay hur, hmem⟩,
      fun k h1 hk => hur ▸ State.s_restoreFacet _ _ _ h1 hk, fun k h1 hk => hur ▸ State.guard_restoreFacet _ _ _ h1 hk,
      fun k h1 hk => hur ▸ State.m_restoreFacet _ _ _ h1 hk, fun k hk => hur ▸ State.x_restoreFacet _ _ _ hk,
      fun k hk => hur ▸ State.q_restoreFacet _ _ _ hk, fun k hk => hur ▸ State.d_restoreFacet _ _ _ hk,
      fun k hk => hur ▸ State.y_restoreFacet _ _ _ hk, ?entries, ⟨?depth, ?rot, ?norot⟩, ⟨?flags, congrArg Facet.estSet hur,
      congrArg Facet.estAt hur, congrArg Facet.rbase hur⟩, ⟨(congrArg Facet.tbase hur).trans hbase,
      (congrArg Facet.tframe hur).trans hframe,
      (congrArg Facet.tcause hur).trans hcause, (congrArg Facet.tinfo hur).trans hinfo⟩,
     fun k hk => ?handle, fun k hk => ?vector, ?acc⟩
    case entries =>
      intro k hk e he
      rw [← he, hur, State.lstk_restoreFacet _ _ _ hk]
      exact ⟨rfl, rfl, rfl, rfl, LoopEntry.stages_ofWords _ _, rfl⟩
    case depth =>
      rw [hur, ← hdepth]
      rfl
    case rot =>
      intro b m hr
      have hrw : w.rotRegion = some (b, m) := hregion.trans hr
      simp only [hur, State.restoreFacet, Facet.setFstate, hrw]
    case norot =>
      intro hr
      have hrw : w.rotRegion = none := hregion.trans hr
      simp only [hur, State.restoreFacet, Facet.setFstate, hrw]
    case flags => exact (congrArg Facet.flags hur).trans (BitVec.ofNat_toNat _ _)
    case handle =>
      rw [← hf] at hk ⊢
      rw [hur, hw]
      exact Core.handle_landAll (s.core c) n hk
    case vector =>
      rw [← hf] at hk
      rw [htc]
      exact Core.vreg_landAll (s.core c) n hk
    case acc =>
      rw [htc]
      exact (congrArg Core.acc (Core.landAll_frame (s.core c) n) :)
  case parked =>
    have hvf := State.facet_of_meetFrame hf hv
    rintro (hnone | ⟨pa, hp, hbad⟩)
    · rw [State.returnFrom_noFrame hf hv hnone] at ht
      rw [← hu, ht, State.facet_park, State.vfile_park, hvf, hcore]
      exact ⟨rfl, rfl, rfl, rfl, rfl, rfl, rfl, rfl⟩
    · have hb : v.frameBad f pa = true := by
        obtain h | h | h := hbad <;> simp [State.frameBad, h]
      rw [State.returnFrom_bad hf hv hp hb] at ht
      rw [← hu, ht, State.facet_park, State.vfile_park, State.facet_modFacet_same, State.core_modFacet_same, hvf, hcore]
      exact ⟨rfl, rfl, rfl, rfl, rfl, rfl, rfl, rfl⟩

end Sys2Proof.Machine
end

section
/-! SUPPORT. Registers by their elements (R152, R153): which elements and tails the register of a list of elements holds, and which a
governed result keeps or replaces. -/

namespace Sys2Proof.Machine

/-- A word of `n` bits holds each field of its number that lies below bit `n`. -/
theorem field_ofNat {a b n : Nat} (x : Nat) (h : a + b ≤ n) : (BitVec.ofNat n x).toNat / 2 ^ a % 2 ^ b = x / 2 ^ a % 2 ^ b := by
  rw [BitVec.toNat_ofNat, ← Nat.add_sub_of_le (show a ≤ n by omega), pow_add, Nat.mod_mul_right_div_self]
  exact Nat.mod_mod_of_dvd _ (pow_dvd_pow 2 (by omega))

/-- The number of a list of digits has at place `i` the digit `i` of the list. -/
theorem foldr_digit {α : Type} (digit : α → Nat) {b : Nat} (hb : 0 < b) {l : List α} {i : Nat} (hi : i < l.length) :
    l.foldr (fun e acc => digit e % b + b * acc) 0 / b ^ i % b = digit l[i] % b := by
  induction l generalizing i with
  | nil => exact absurd hi (Nat.not_lt_zero i)
  | cons e l ih =>
    rw [List.foldr_cons]
    cases i with
    | zero => rw [pow_zero, Nat.div_one, Nat.add_mul_mod_self_left, Nat.mod_mod, List.getElem_cons_zero]
    | succ i =>
      rw [pow_succ', ← Nat.div_div_eq_div_mul, Nat.add_mul_div_left _ _ hb, Nat.div_eq_of_lt (Nat.mod_lt _ hb), Nat.zero_add,
        List.getElem_cons_succ]
      exact ih (Nat.lt_of_succ_lt_succ hi)

section
variable {w i : Nat} {l : List (Nat × Nat)} (hi : i < l.length) (hw : w * (i + 1) ≤ 128)
include hw

theorem VReg.elem_ofElems : (VReg.ofElems w l).elem w i = l[i].1 % 2 ^ (8 * w) := by
  have hle : 8 * w * i + 8 * w ≤ 1024 := by linarith
  rw [VReg.elem, VReg.ofElems, field_ofNat _ hle, pow_mul 2 (8 * w) i]
  exact foldr_digit Prod.fst (Nat.two_pow_pos _) hi

theorem VReg.tails_ofElems : (VReg.ofElems w l).tails w i = l[i].2 % 2 ^ (2 * w) := by
  have hle : 2 * w * i + 2 * w ≤ 256 := by linarith
  rw [VReg.tails, VReg.ofElems, field_ofNat _ hle, pow_mul 2 (2 * w) i]
  exact foldr_digit Prod.snd (Nat.two_pow_pos _) hi

end

theorem VReg.elem_lt (r : VReg) (w i : Nat) : r.elem w i < 2 ^ (8 * w) := Nat.mod_lt _ (Nat.two_pow_pos _)

theorem VReg.tails_lt (r : VReg) (w i : Nat) : r.tails w i < 2 ^ (2 * w) := Nat.mod_lt _ (Nat.two_pow_pos _)

section
variable {w i : Nat} {m : BitVec 128} {old : VReg} {f : Nat → Nat × Nat × BitVec 6} (hi : i < 128 / w)
include hi

/-- R153: an active element of a governed result is given by the operation, and any other is kept. -/
theorem elem_govern : (govern w m old f).1.elem w i = if active m w i then (f i).1 % 2 ^ (8 * w) else old.elem w i := by
  rw [govern, VReg.elem_ofElems (by simpa using hi) ((Nat.mul_le_mul_left w hi).trans (Nat.mul_div_le 128 w))]
  simp only [List.getElem_map, List.getElem_range]
  split
  · rfl
  · exact Nat.mod_eq_of_lt (old.elem_lt w i)

/-- R153: so are its tails. -/
theorem tails_govern : (govern w m old f).1.tails w i = if active m w i then (f i).2.1 % 2 ^ (2 * w) else old.tails w i := by
  rw [govern, VReg.tails_ofElems (by simpa using hi) ((Nat.mul_le_mul_left w hi).trans (Nat.mul_div_le 128 w))]
  simp only [List.getElem_map, List.getElem_range]
  split
  · rfl
  · exact Nat.mod_eq_of_lt (old.tails_lt w i)

end

/-- A governed result raises no flag that none of its elements raises. -/
theorem flags_govern {w : Nat} {m : BitVec 128} {old : VReg} {f : Nat → Nat × Nat × BitVec 6} (hf : ∀ i, (f i).2.2 = 0) :
    (govern w m old f).2 = 0 := by
  rw [govern, List.foldl_map]
  refine List.foldl_fixed' (fun i => ?_) _
  split <;> simp [hf]

end Sys2Proof.Machine
end

section
/-! SUPPORT. Integer elements (R72, R168 to R170): what an integer of two's complement and its wrapping are modulo 2^W, and the
register of a governed integer result. -/

namespace Sys2Proof.Machine

theorem natCast_wrapInt (x : Int) (w : Nat) : (wrapInt x w : Int) = x % 2 ^ w :=
  Int.toNat_of_nonneg (Int.emod_nonneg x (by positivity))

theorem wrapInt_lt (x : Int) (w : Nat) : wrapInt x w < 2 ^ w := by
  have h := Int.emod_lt_of_pos x (show (0 : Int) < 2 ^ w by positivity)
  rw [← natCast_wrapInt] at h
  exact_mod_cast h

/-- The wrapped value of an integer is that of any number congruent to it. -/
theorem wrapInt_of_modEq {x : Int} {n w : Nat} (h : x ≡ n [ZMOD 2 ^ w]) : wrapInt x w = n % 2 ^ w := by
  rw [← Int.natCast_inj, natCast_wrapInt]
  exact_mod_cast h

theorem wrapInt_natCast (n w : Nat) : wrapInt n w = n % 2 ^ w := wrapInt_of_modEq rfl

theorem wrapInt_natCast_of_lt {n w : Nat} (h : n < 2 ^ w) : wrapInt n w = n := by
  rw [wrapInt_natCast, Nat.mod_eq_of_lt h]

theorem sextNat_modEq (x w : Nat) : sextNat x w ≡ x [ZMOD 2 ^ w] := by
  rw [sextNat_eq_toInt, BitVec.toInt_ofNat']
  exact_mod_cast Int.bmod_emod

/-- The absolute value of an integer in two's complement, its minimum being its own. -/
theorem natAbs_sextNat {x w : Nat} (hw : 0 < w) (h : x < 2 ^ w) :
    (sextNat x w).natAbs = if 2 ^ (w - 1) ≤ x then 2 ^ w - x else x := by
  have hhalf : 2 ^ w = 2 * 2 ^ (w - 1) := by rw [← Nat.pow_succ', Nat.succ_eq_add_one, Nat.sub_add_cancel hw]
  have hcast : (2 : Int) ^ w = (2 ^ w : Nat) := by push_cast; rfl
  simp only [sextNat, Nat.mod_eq_of_lt h, hcast]
  split <;> split <;> omega

theorem tyBytes_pos (t : BitVec 5) : 0 < tyBytes t := by
  unfold tyBytes
  split <;> decide

section
variable {t : BitVec 5} (ht : tyI t = true)
include ht

/-- R72: an element of a type of R168 is read in two's complement of its own width, or as it stands. -/
theorem intOf_of_tyI (x : Nat) : intOf t x = if signedTy t then sextNat x (8 * tyBytes t) else x := by
  have hne : (t == 16) = false := beq_false_of_ne fun h => by simp [h, tyI] at ht
  rw [intOf, hne]
  rfl

theorem intOf_modEq (x : Nat) : intOf t x ≡ x [ZMOD 2 ^ (8 * tyBytes t)] := by
  rw [intOf_of_tyI ht]
  split
  · exact sextNat_modEq x _
  · rfl

theorem wrapInt_intOf {x : Nat} (hx : x < 2 ^ (8 * tyBytes t)) : wrapInt (intOf t x) (8 * tyBytes t) = x := by
  rw [wrapInt_of_modEq (intOf_modEq ht x), Nat.mod_eq_of_lt hx]

theorem natAbs_intOf {x : Nat} (hx : x < 2 ^ (8 * tyBytes t)) :
    (intOf t x).natAbs
      = if signedTy t = true ∧ 2 ^ (8 * tyBytes t - 1) ≤ x then 2 ^ (8 * tyBytes t) - x else x := by
  rw [intOf_of_tyI ht, ite_and]
  split
  · exact natAbs_sextNat (Nat.mul_pos (by decide) (tyBytes_pos t)) hx
  · exact Int.natAbs_natCast x

end

/-- R168: the register of a governed integer result, modulo 2^W with tails zero. -/
def State.intReg (s : State) (d : BitVec 9) (m : BitVec 4) (t : BitVec 5) (f : Nat → Int) : VReg :=
  (govern (tyBytes t) (s.readM m) (s.readV d) fun i => intElem t (f i, false)).1

section
variable {s : State} {d : BitVec 9} {m : BitVec 4} {t : BitVec 5} {f : Nat → Int}

/-- R168: a governed integer result that clamps nothing issues its register, with no flag. -/
theorem State.governed_intElem : (s.governed d m t 4 fun i => intElem t (f i, false)) = s.putV d (s.intReg d m t f) 4 := by
  rw [State.governed, flags_govern fun _ => rfl]
  rfl

variable {i : Nat} (hi : i < elems t)
include hi

theorem State.intReg_inactive (ha : active (s.readM m) (tyBytes t) i = false) :
    (s.intReg d m t f).elem (tyBytes t) i = (s.readV d).elem (tyBytes t) i
      ∧ (s.intReg d m t f).tails (tyBytes t) i = (s.readV d).tails (tyBytes t) i := by
  rw [State.intReg, elem_govern hi, tails_govern hi, ha]
  exact ⟨rfl, rfl⟩

theorem State.tails_intReg_active (ha : active (s.readM m) (tyBytes t) i = true) :
    (s.intReg d m t f).tails (tyBytes t) i = 0 := by
  rw [State.intReg, tails_govern hi, ha]
  exact Nat.zero_mod _

theorem State.elem_intReg_active (ha : active (s.readM m) (tyBytes t) i = true) :
    (s.intReg d m t f).elem (tyBytes t) i = wrapInt (f i) (8 * tyBytes t) := by
  rw [State.intReg, elem_govern hi, ha]
  exact Nat.mod_eq_of_lt (wrapInt_lt _ _)

end

/-- Settles O16: the issued register holds the integer of each rule modulo 2^W, which is the element that the rule names. -/
theorem integerElementsFollowTheirRule : Obligations.IntegerElementsFollowTheirRule := by
  unfold Obligations.IntegerElementsFollowTheirRule
  refine ⟨fun u g d a b m t s ht h => ?iadd, fun u g d a b m t s ht h => ?isub, fun u g d a b m t s ht h => ?imul,
    fun u g d a b m t s ht h => ?imulh, fun u g d a b m t s ht h => ?iand, fun u g d a b m t s ht h => ?ior,
    fun u g d a b m t s ht h => ?ixor, fun u g d a b m t s ht h => ?ishl, fun u g d a b m t s ht h => ?ishr,
    fun u g d a b m t s ht h => ?isra, fun u g d a b m t s ht h => ?imin, fun u g d a b m t s ht h => ?imax,
    fun u g d a m t s ht h => ?iabs, fun u g d a m t s ht h => ?iclz, fun u g d a m t s ht h => ?ipopc⟩
  all_goals
    refine ⟨_, (slotOp_ready h).trans (congrArg _ State.governed_intElem), fun i hi => ⟨State.intReg_inactive hi, fun ha =>
      ⟨State.tails_intReg_active hi ha, ?_⟩⟩⟩
    rw [State.elem_intReg_active hi ha]
  case iadd =>
    exact wrapInt_of_modEq (by push_cast; exact (intOf_modEq ht _).add (intOf_modEq ht _))
  case isub =>
    have hy := (s.readV b).elem_lt (tyBytes t) i
    refine wrapInt_of_modEq ?_
    rw [Nat.cast_sub (by omega)]
    push_cast
    exact (Int.modEq_add_modulus_iff.2 (intOf_modEq ht _)).sub (intOf_modEq ht _)
  case imul =>
    exact wrapInt_of_modEq (by push_cast; exact (intOf_modEq ht _).mul (intOf_modEq ht _))
  case imulh => exact natCast_wrapInt _ _
  case iand => exact wrapInt_natCast_of_lt (Nat.and_lt_two_pow _ ((s.readV b).elem_lt _ i))
  case ior => exact wrapInt_natCast_of_lt (Nat.or_lt_two_pow ((s.readV a).elem_lt _ i) ((s.readV b).elem_lt _ i))
  case ixor => exact wrapInt_natCast_of_lt (Nat.xor_lt_two_pow ((s.readV a).elem_lt _ i) ((s.readV b).elem_lt _ i))
  case ishl => rw [wrapInt_natCast, Nat.shiftLeft_eq]
  case ishr =>
    rw [Nat.shiftRight_eq_div_pow]
    exact wrapInt_natCast_of_lt ((Nat.div_le_self _ _).trans_lt ((s.readV a).elem_lt _ i))
  case isra => exact natCast_wrapInt _ _
  case imin =>
    rw [min_def, apply_ite (wrapInt · _), wrapInt_intOf ht ((s.readV a).elem_lt _ i), wrapInt_intOf ht ((s.readV b).elem_lt _ i)]
  case imax =>
    rw [max_def, apply_ite (wrapInt · _), wrapInt_intOf ht ((s.readV a).elem_lt _ i), wrapInt_intOf ht ((s.readV b).elem_lt _ i)]
  case iabs =>
    have hx := (s.readV a).elem_lt (tyBytes t) i
    beta_reduce
    rw [natAbs_intOf ht hx]
    refine wrapInt_natCast_of_lt ?_
    have hpos := Nat.two_pow_pos (8 * tyBytes t - 1)
    split <;> omega
  case iclz =>
    have hx := (s.readV a).elem_lt (tyBytes t) i
    have hle := clzNat_le ((s.readV a).elem (tyBytes t) i) (8 * tyBytes t)
    rw [wrapInt_natCast_of_lt (hle.trans_lt Nat.lt_two_pow_self)]
    exact ⟨hle, fun k _ hk => testBit_of_clzNat_le hx hk, testBit_clzNat hx⟩
  case ipopc =>
    beta_reduce
    rw [popNat_eq_length]
    exact wrapInt_natCast_of_lt (((List.length_filter_le _ _).trans_eq List.length_range).trans_lt Nat.lt_two_pow_self)

end Sys2Proof.Machine
end

section
/-! SUPPORT. The vector slots' results, tests, reductions, conversions, moves and mask operations (R156 to R176): the row of each
operation is the shared frame around the issue of its result, so that a ready one issues it. -/

namespace Sys2Proof.Machine

/-- Settles O14: each row is the shared frame around the result rounded element by element. -/
theorem floatArithmeticResults : Obligations.FloatArithmeticResults := by
  unfold Obligations.FloatArithmeticResults
  and_intros
  all_goals
    intros
    exact slotOp_ready ‹_›

/-- Settles O15: each row is the shared frame around its converted, tested or reduced elements. -/
theorem floatUnaryTestAndReductionResults : Obligations.FloatUnaryTestAndReductionResults := by
  unfold Obligations.FloatUnaryTestAndReductionResults
  and_intros
  all_goals
    intros
    exact slotOp_ready ‹_›

/-- Settles O17: each row is the shared frame around its clamped, counted, reduced, converted or drawn elements. -/
theorem integerSaturationAndReductionResults : Obligations.IntegerSaturationAndReductionResults := by
  unfold Obligations.IntegerSaturationAndReductionResults
  and_intros
  all_goals
    intros
    exact slotOp_ready ‹_›

/-- Settles O18: each row is the shared frame around the placed elements or the combined masks. -/
theorem vectorMovesPlaceElements : Obligations.VectorMovesPlaceElements := by
  unfold Obligations.VectorMovesPlaceElements
  and_intros
  all_goals
    intros
    exact slotOp_ready ‹_›

end Sys2Proof.Machine
end

section
/-! SUPPORT. The matrix slot (R185 to R202): what the operations that enqueue an item leave in their facet and their core. -/

namespace Sys2Proof.Machine

/-! ### The running core -/

@[simp] theorem State.here_modHere (s : State) (g : Core → Core) : (s.modHere g).here = g s.here := State.core_modCore_same _ _ _

/-- A lock of the running core changes nothing of the running facet. -/
theorem State.me_locked (s : State) (l : Lock) : (s.modHere fun k => { k with locks := k.locks ++ [l] }).me = s.me := by
  simp only [State.me, State.fn, State.here_modHere, Core.facet]

theorem State.locks_modMe (s : State) (f : Facet → Facet) : (s.modMe f).here.locks = s.here.locks := by
  rw [State.here_modMe, Core.modFacet]

/-! ### Items -/

/-- R190: the item that enters is the youngest of its facet. -/
theorem State.me_enqueue (s : State) (kind : ItemKind) (n place lock : Nat) :
    (s.enqueue kind n place lock).me = { s.me with
      items := s.me.items
        ++ [{ kind := kind, q := s.qSnapshot, n := n, handler := s.me.intrap, place := place, lock := lock }] } :=
  State.me_modMe _ _

/-- R185: the delivery of N leaves the items, the completion order and the locks. -/
theorem State.deliverN_keeps (s : State) (sn : BitVec 6) :
    (s.deliverN sn).me.items = s.me.items ∧ (s.deliverN sn).me.order = s.me.order ∧ (s.deliverN sn).here.locks = s.here.locks := by
  unfold State.deliverN
  split
  · exact ⟨rfl, rfl, rfl⟩
  · rw [State.me_land]
    exact ⟨rfl, rfl, State.locks_modMe _ _⟩

/-- R195: a call whose routine reports nothing is the youngest item. -/
theorem State.callRoutine_unreported {s : State} {ix : BitVec 6} (sn : BitVec 6) (imm : BitVec 34) (h : s.takesPlace ix.toNat = false) :
    (s.callRoutine ix sn imm).me.items = s.me.items
        ++ [{ kind := .call ix.toNat imm, q := s.qSnapshot, n := (s.nWord sn).toNat, handler := s.me.intrap }]
      ∧ (s.callRoutine ix sn imm).me.order = s.me.order := by
  unfold State.callRoutine
  rw [h, if_neg Bool.false_ne_true]
  obtain ⟨hitems, horder, -⟩ := (s.enqueue (.call ix.toNat imm) (s.nWord sn).toNat).deliverN_keeps sn
  rw [State.me_enqueue] at hitems horder
  exact ⟨hitems, horder⟩

/-- R195, R250: a call whose routine reports is the youngest item and takes the youngest place of the completion order. -/
theorem State.callRoutine_reported {s : State} {ix : BitVec 6} (sn : BitVec 6) (imm : BitVec 34) (h : s.takesPlace ix.toNat = true) :
    (s.callRoutine ix sn imm).me.items = s.me.items
        ++ [{ kind := .call ix.toNat imm, q := s.qSnapshot, n := (s.nWord sn).toNat, handler := s.me.intrap, place := s.nextId }]
      ∧ (s.callRoutine ix sn imm).me.order = s.me.order ++ [{ id := s.nextId, kind := 8, norec := true }] := by
  unfold State.callRoutine
  rw [h, if_pos rfl]
  have hme := ((s.enqueue (.call ix.toNat imm) (s.nWord sn).toNat s.nextId).me_modMe fun f =>
    { f with order := f.order ++ [{ id := s.nextId, kind := 8, norec := true }] })
  rw [State.me_enqueue] at hme
  obtain ⟨hitems, horder, -⟩ := State.deliverN_keeps _ sn
  exact ⟨hitems.trans (congrArg Facet.items hme), horder.trans (congrArg Facet.order hme)⟩

/-- R199, R267: a drain is the youngest item, and its lock the youngest of the core. -/
theorem State.queueDrain_queues (s : State) (sn : BitVec 6) (mode : BitVec 3) (fmt : BitVec 5) (col : BitVec 9) (row rows : BitVec 7)
    (z : Bool) :
    ∃ l : Lock, l.id = s.nextId ∧ (s.queueDrain sn mode fmt col row rows z).here.locks = s.here.locks ++ [l]
      ∧ (s.queueDrain sn mode fmt col row rows z).me.items = s.me.items
        ++ [{ kind := .drain mode fmt col.toNat row.toNat (rows.toNat + 1) z, q := s.qSnapshot, n := (s.nWord sn).toNat,
              handler := s.me.intrap, lock := s.nextId }] := by
  have hme := s.me_enqueue (.drain mode fmt col.toNat row.toNat (rows.toNat + 1) z) (s.nWord sn).toNat 0 s.nextId
  have hheld : (s.enqueue (.drain mode fmt col.toNat row.toNat (rows.toNat + 1) z) (s.nWord sn).toNat 0 s.nextId).here.locks
    = s.here.locks := s.locks_modMe _
  unfold State.queueDrain
  dsimp only
  generalize s.enqueue _ _ 0 s.nextId = t at hme hheld ⊢
  generalize hl : ({ id := s.nextId, banks := _ } : Lock) = l
  obtain ⟨hitems, -, hlocks⟩ := State.deliverN_keeps _ sn
  have hhere := t.here_modHere fun k => { k with locks := k.locks ++ [l] }
  exact ⟨l, hl ▸ rfl, hlocks.trans ((congrArg Core.locks hhere).trans (congrArg (· ++ [l]) hheld)),
    hitems.trans (congrArg Facet.items ((t.me_locked l).trans hme))⟩

/-- Settles O19: each row is the shared frame around its effect, whose item, place and lock are the youngest. -/
theorem matrixInstructionsQueueTheirItem : Obligations.MatrixInstructionsQueueTheirItem := by
  unfold Obligations.MatrixInstructionsQueueTheirItem
  refine ⟨fun _ _ _ _ => slotOp_ready, fun _ _ _ _ _ => slotOp_ready, fun _ _ _ _ => slotOp_ready,
    fun _ _ _ _ _ _ _ _ _ => slotOp_ready, fun _ _ _ _ _ _ => slotOp_ready, fun _ _ _ _ _ => slotOp_ready,
    fun _ _ _ => slotOp_ready, fun _ _ => slotOp_ready, fun _ _ _ _ => slotOp_ready, fun _ _ _ _ => rfl, ?call, ?drain⟩
  case call =>
    intro g ix sn imm s h
    refine ⟨_, slotOp_ready h, ?_⟩
    cases hp : s.takesPlace ix.toNat with
    | false => exact State.callRoutine_unreported sn imm hp
    | true => exact State.callRoutine_reported sn imm hp
  case drain =>
    intro g sn mode fmt col row rows z s h
    obtain ⟨l, hid, hlocks, hitems⟩ := s.queueDrain_queues sn mode fmt col row rows (z == 1)
    exact ⟨_, l, slotOp_ready h, hlocks, hid, hitems⟩

end Sys2Proof.Machine
end

section
/-! SUPPORT. The control words of a routine (R203 to R207): where a running invocation goes. -/

namespace Sys2Proof.Machine

/-- A micro-operation of a running invocation leaves what its effect gives. -/
theorem microOp_gives {s t : State} {v : Invocation} {e : Invocation → State} (h : s.invokes v) (he : e v = t) :
    microOp s e = .next t := he ▸ microOp_invokes e h

/-! ### Loops and targets -/

/-- R205: a counter that is not 0 counts down, and the body runs again. -/
theorem loopStep_again {c : Option Nat} {x : Nat} (h : c.getD (max x 1 - 1) ≠ 0) :
    loopStep c x = (some (c.getD (max x 1 - 1) - 1), true) := if_neg h

/-- R205: a counter at 0 is unloaded, and the loop is past. -/
theorem loopStep_past {c : Option Nat} {x : Nat} (h : c.getD (max x 1 - 1) = 0) : loopStep c x = (none, false) := if_pos h

section
variable {s : State} {v : Invocation} {tgt : BitVec 10} (h : s.invokes v) (hin : tgt.toNat < v.words.length)
include h hin

/-- R205: a loop whose target is in the routine steps its first counter. -/
theorem exec_microLoop_zero (val : BitVec 16) (src : BitVec 2) :
    exec (.microLoop tgt 0 val src) s = .next (s.setInv (
      if (loopStep v.ctr0 (v.operand src val 2)).2 then { v with ctr0 := (loopStep v.ctr0 (v.operand src val 2)).1, pc := tgt.toNat }
      else { v with ctr0 := (loopStep v.ctr0 (v.operand src val 2)).1, pc := v.pc + 1 })) :=
  microOp_gives h (if_neg (Nat.not_le.2 hin))

/-- R205: a loop whose target is in the routine steps its second counter. -/
theorem exec_microLoop_one (val : BitVec 16) (src : BitVec 2) :
    exec (.microLoop tgt 1 val src) s = .next (s.setInv (
      if (loopStep v.ctr1 (v.operand src val 3)).2 then { v with ctr1 := (loopStep v.ctr1 (v.operand src val 3)).1, pc := tgt.toNat }
      else { v with ctr1 := (loopStep v.ctr1 (v.operand src val 3)).1, pc := v.pc + 1 })) :=
  microOp_gives h (if_neg (Nat.not_le.2 hin))

theorem exec_jump_inside : exec (.jump tgt) s = .next (s.setInv { v with pc := tgt.toNat }) :=
  microOp_gives h (if_neg (Nat.not_le.2 hin))

end

section
variable {s : State} {v : Invocation} {tgt : BitVec 10} (h : s.invokes v)
include h

/-- R205, R206: a loop or a jump beyond the routine is a microcode error. -/
theorem exec_microLoop_beyond (hout : v.words.length ≤ tgt.toNat) (ctr : BitVec 1) (val : BitVec 16) (src : BitVec 2) :
    exec (.microLoop tgt ctr val src) s = .next (s.microFail v .illegalEncoding) :=
  microOp_gives h (if_pos hout)

theorem exec_jump_beyond (hout : v.words.length ≤ tgt.toNat) : exec (.jump tgt) s = .next (s.microFail v .illegalEncoding) :=
  microOp_gives h (if_pos hout)

/-! ### The columns of `zero` (R206) -/

theorem exec_zero_inWindow (hw : v.inWindow v.cb = true) :
    exec .zero s = .next ((s.modHere fun k => k.accZero (k.facet v.facet) 0 128 v.cb.toNat v.item.n).setInv v.next) :=
  microOp_gives h (if_pos hw)

theorem exec_zero_outside (hw : v.inWindow v.cb = false) : exec .zero s = .next (s.microFail v .illegalEncoding) :=
  microOp_gives h (if_neg (Bool.eq_false_iff.1 hw))

end

/-! ### `sync` (R250) -/

theorem State.runSync_unplaced (s : State) {v : Invocation} (x : Nat) (h : v.item.place = 0) : s.runSync v x = s.setInv v.next :=
  if_pos h

/-- R250: the place is the oldest and the event queue has room: the record is posted. -/
theorem State.runSync_posts {s : State} {v : Invocation} (x : Nat) (h : v.item.place ≠ 0)
    (ho : (s.here.facet v.facet).order.head?.map (·.id) = some v.item.place) (hq : s.here.evq.length < 64) :
    s.runSync v x = (s.modHere fun k =>
      { k with evq := k.evq ++ [⟨v.facet, BitVec.ofNat 64 (8 + x % 2 ^ 16 * 2 ^ 16), 0⟩] }).setInv v.next := by
  unfold State.runSync
  simp only [if_neg h, ho, hq, beq_self_eq_true, decide_true, Bool.and_self, if_true]

/-- R250: an older operation, or a full event queue, holds the word. -/
theorem State.runSync_waits {s : State} {v : Invocation} (x : Nat) (h : v.item.place ≠ 0)
    (hw : (s.here.facet v.facet).order.head?.map (·.id) ≠ some v.item.place ∨ 64 ≤ s.here.evq.length) : s.runSync v x = s := by
  unfold State.runSync
  rw [if_neg h, if_neg]
  rw [Bool.and_eq_true, beq_iff_eq, decide_eq_true_eq]
  rintro ⟨ho, hq⟩
  exact hw.elim (fun hne => hne ho) (Nat.not_le.2 hq)

/-- Settles O28: each control word is the frame of a micro-operation around the invocation's next place. -/
theorem microControlAdvancesTheRoutine : Obligations.MicroControlAdvancesTheRoutine := by
  unfold Obligations.MicroControlAdvancesTheRoutine
  refine ⟨fun _ _ => microOp_invokes _, fun _ _ _ _ => microOp_invokes _, fun _ _ => microOp_invokes _, fun _ _ => microOp_invokes _,
    fun _ _ => exec_zero_inWindow, ?loop, fun _ _ _ => exec_jump_inside, ?error, ?sync, ?wait⟩
  case loop =>
    intro tgt val src s v h hin
    rw [exec_microLoop_zero h hin, exec_microLoop_one h hin]
    refine ⟨fun hc => ?_, fun hc => ?_, fun hc => ?_, fun hc => ?_⟩
    · rw [loopStep_again hc]; rfl
    · rw [loopStep_past hc]; rfl
    · rw [loopStep_again hc]; rfl
    · rw [loopStep_past hc]; rfl
  case error =>
    rintro tgt ctr val src i s v h (⟨rfl | rfl, hout⟩ | ⟨rfl, hw⟩)
    · exact exec_jump_beyond h hout
    · exact exec_microLoop_beyond h hout ctr val src
    · exact exec_zero_outside h hw
  case sync =>
    refine fun val src s v h => ⟨fun hp => ?_, fun e r hp ho he hq => ?_⟩
    · exact microOp_gives h (s.runSync_unplaced _ hp)
    · exact microOp_gives h (State.runSync_posts _ hp (by rw [ho, ← he]; rfl) hq)
  case wait =>
    exact fun val src s v h hp hw => microOp_gives h (State.runSync_waits _ hp hw)

end Sys2Proof.Machine
end

section
/-! SUPPORT. Tiles, passes and the arithmetic of accumulators (R182, R188, R189, R204 to R210). -/

namespace Sys2Proof.Machine

/-! ### The running core -/

@[simp] theorem State.here_setInv (s : State) (v : Invocation) : (s.setInv v).here = { s.here with inv := some v } :=
  State.here_modHere _ _

@[simp] theorem State.here_countCore (s : State) (c ev n : Nat) : (s.countCore c ev n).here = s.here := by
  simp only [State.here, State.cur_countCore, State.core_countCore]

/-- A facet of the running core changes. -/
theorem State.here_modFacet {s : State} {c : Nat} (h : c = s.cur) (fn : Nat) (f : Facet → Facet) :
    (s.modFacet c fn f).here = s.here.modFacet fn f := by
  subst h
  exact State.core_modCore_same _ _ _

/-- What a facet changes to is all that counts of a change. -/
theorem State.modFacet_congr {s : State} {c fn : Nat} {f g : Facet → Facet} (h : f (s.facet c fn) = g (s.facet c fn)) :
    s.modFacet c fn f = s.modFacet c fn g :=
  congrArg (fun x => s.setCore c { s.core c with facets := (s.core c).facets.set fn x }) h

/-! ### Tiles from a share (R182, R204) -/

/-- A share that holds what the tile lacks completes it. -/
theorem State.runPop_completes {s : State} {v : Invocation} {isA : Bool} {size : Nat} {share : List FByte}
    (hsize : size = if isA then aTileBytes v.aty v.spn else bTileBytes v.bty v.spn v.item.n)
    (hshare : share = if isA then (s.here.facet v.facet).fifoA else (s.here.facet v.facet).fifoB)
    (hpart : v.part.length ≤ size) (hlack : size - v.part.length ≤ share.length) :
    s.runPop v isA = (s.modFacet s.cur v.facet fun f =>
        if isA then { f with fifoA := f.fifoA.drop (size - v.part.length) } else { f with fifoB := f.fifoB.drop (size - v.part.length) }).setInv
      { v.next with
        part := []
        tileA := if isA then some (v.part ++ share.take (size - v.part.length)) else v.tileA
        tileB := if isA then v.tileB else some (v.part ++ share.take (size - v.part.length)) } := by
  have hlen : ¬(v.part ++ share.take (size - v.part.length)).length < size := by
    rw [List.length_append, List.length_take, Nat.min_eq_left hlack]
    omega
  unfold State.runPop
  dsimp only
  rw [← hsize, ← hshare, Nat.min_eq_left hlack, if_neg hlen]

/-- A share that holds less is emptied into the tile's part. -/
theorem State.runPop_waits {s : State} {v : Invocation} {isA : Bool} {size : Nat} {share : List FByte}
    (hsize : size = if isA then aTileBytes v.aty v.spn else bTileBytes v.bty v.spn v.item.n)
    (hshare : share = if isA then (s.here.facet v.facet).fifoA else (s.here.facet v.facet).fifoB)
    (hlack : share.length < size - v.part.length) :
    s.runPop v isA = (s.modFacet s.cur v.facet fun f => if isA then { f with fifoA := [] } else { f with fifoB := [] }).setInv
      { v with part := v.part ++ share } := by
  have hlen : (v.part ++ share).length < size := by
    rw [List.length_append]
    omega
  unfold State.runPop
  dsimp only
  rw [← hsize, ← hshare, Nat.min_eq_right hlack.le, List.take_length, if_pos hlen]
  congr 1
  refine State.modFacet_congr ?_
  subst hshare
  cases isA with
  | true => exact congrArg (fun l => ({ s.facet s.cur v.facet with fifoA := l } : Facet)) List.drop_length
  | false => exact congrArg (fun l => ({ s.facet s.cur v.facet with fifoB := l } : Facet)) List.drop_length

/-! ### Passes (R189, R209) -/

/-- R189, R209: a facet after a pass that writes `es`: whether the pass is witnessed (`wit`) and found to differ (`bad`), and the logical
and physical row that its witness compares. -/
def Facet.passed (f : Facet) (es : List (Nat × Nat × AccEntry × BitVec 6 × Bool)) (wit bad : Bool) (rows : Nat × Nat) : Facet :=
  { f with
    passes := f.passes + 1
    sat := f.sat || es.any fun e => e.2.2.2.2
    wcount := if wit then f.wcount + 1 else f.wcount
    wmis := f.wmis || bad
    wrow := if bad then BitVec.ofNat 7 rows.1 else f.wrow
    wphy := if bad then BitVec.ofNat 7 rows.2 else f.wphy }

/-- R189, R207: the invocation after that pass. -/
def Invocation.passed (v : Invocation) (es : List (Nat × Nat × AccEntry × BitVec 6 × Bool)) (bad : Bool) : Invocation :=
  { v.next with
    tileA := none
    tileB := none
    wit := false
    flags := es.foldl (fun a e => a ||| e.2.2.2.1) v.flags
    err := if bad then some (v.err.getD .witnessMismatch) else v.err }

/-- What a pass with clean and well-formed tiles in the window leaves: its entries, its facet, its invocation and its witness count. -/
theorem State.runPass_leaves {s : State} {v : Invocation} {sparse ovr wit bad : Bool} {ta tb : List FByte}
    {es : List (Nat × Nat × AccEntry × BitVec 6 × Bool)} (hsp : sparse = !(v.spn == 0)) (hw : v.inWindow v.cb = true)
    (hform : sparse = true → (upto 128).all (fun k => rowFormed v.spn (aRow v (plain ta) k).1) = true)
    (hta : v.tileA = some ta) (htb : v.tileB = some tb) (hclean : (ta ++ tb).any (·.poison) = false)
    (hacc : ovr = true ∨ (rect 0 128 v.cb.toNat v.item.n).any (fun p => s.here.accBad (s.here.facet v.facet) p.1 p.2) = false)
    (hes : es = passEntries s.here (s.here.facet v.facet) v (plain ta) (plain tb) ovr)
    (hwit : wit = ((s.here.facet v.facet).witOn || v.wit))
    (hbad : bad = (wit && Config.witnessDiffers s.cur s.here.witCount (s.here.witCount % 128))) :
    (s.runPass v sparse ovr).here.acc = (s.here.accPut (s.here.facet v.facet) (es.map fun e => (e.1, e.2.1, e.2.2.1))).acc
      ∧ (s.runPass v sparse ovr).here.facet v.facet = (s.here.facet v.facet).passed es wit bad (witnessRows s.here.witCount)
      ∧ (s.runPass v sparse ovr).here.inv = some (v.passed es bad)
      ∧ (s.runPass v sparse ovr).here.witCount = if wit then s.here.witCount + 1 else s.here.witCount := by
  have hmode : (sparse == (v.spn == 0) || !v.inWindow v.cb) = false := by
    rw [hsp, hw]; cases v.spn == 0 <;> rfl
  have hrows : (sparse && !(upto 128).all (fun i => rowFormed v.spn (aRow v (plain ta) i).1)) = false := by
    cases hsparse : sparse with
    | false => rfl
    | true => rw [hform hsparse]; rfl
  have hok : ((ta ++ tb).any (·.poison)
      || !ovr && (rect 0 128 v.cb.toNat v.item.n).any (fun p => s.here.accBad (s.here.facet v.facet) p.1 p.2)) = false := by
    rw [hclean]
    obtain rfl | hb := hacc
    · rfl
    · rw [hb, Bool.and_false]; rfl
  subst hbad hwit hes
  unfold State.runPass
  simp only [hmode, hta, htb, hrows, hok, Bool.false_eq_true, if_false]
  rw [State.here_setInv, State.here_countCore, State.here_modFacet rfl, State.here_modHere]
  exact ⟨rfl, Tbl.get_set_same _ _ _ _, rfl, rfl⟩

/-! ### `acc` and `scale` (R204) -/

/-- R204: the sum of two entries in the types of the invocation, with its flags and whether it was clamped. -/
def Invocation.sumOf (v : Invocation) (a b : AccEntry) : AccEntry × BitVec 6 × Bool :=
  if pairInt v.aty then
    (⟨BitVec.ofInt 32 (clampInt (a.int + b.int) (intMin 19) (intMax 19)).1, 0⟩, 0, (clampInt (a.int + b.int) (intMin 19) (intMax 19)).2)
  else
    (⟨BitVec.ofNat 32 (ro (a.num.add b.num).1 (fmtOf 1)).1, BitVec.ofNat 2 (ro (a.num.add b.num).1 (fmtOf 1)).2.1⟩,
      (ro (a.num.add b.num).1 (fmtOf 1)).2.2 ||| (a.num.add b.num).2, false)

/-- What an `acc` whose ranges lie in the window and are clean leaves: the sums, whether one was clamped, and the flags. -/
theorem State.runAcc_leaves {s : State} {v : Invocation} {x : Int} {ps : List (Nat × Nat)} {sum : Nat × Nat → AccEntry × BitVec 6 × Bool}
    (hw : v.inWindow v.cb = true) (hx : v.inWindow (v.cb + 16 * x) = true)
    (hacc : (rect 0 128 v.cb.toNat v.item.n ++ rect 0 128 (v.cb + 16 * x).toNat v.item.n).any
      (fun p => s.here.accBad (s.here.facet v.facet) p.1 p.2) = false)
    (hps : ps = rect 0 128 0 v.item.n)
    (hsum : ∀ p, sum p = v.sumOf (s.here.accGet (s.here.facet v.facet) p.1 (v.cb.toNat + p.2))
      (s.here.accGet (s.here.facet v.facet) p.1 ((v.cb + 16 * x).toNat + p.2))) :
    (s.runAcc v x).here.acc = (s.here.accPut (s.here.facet v.facet) (ps.map fun p => (p.1, v.cb.toNat + p.2, (sum p).1))).acc
      ∧ ((s.runAcc v x).here.facet v.facet).sat = ((s.here.facet v.facet).sat || ps.any fun p => (sum p).2.2)
      ∧ (s.runAcc v x).here.inv = some { v.next with flags := ps.foldl (fun a p => a ||| (sum p).2.1) v.flags } := by
  have hwin : (!(v.inWindow v.cb && v.inWindow (v.cb + 16 * x))) = false := by rw [hw, hx]; rfl
  obtain rfl : sum = fun p => v.sumOf (s.here.accGet (s.here.facet v.facet) p.1 (v.cb.toNat + p.2))
      (s.here.accGet (s.here.facet v.facet) p.1 ((v.cb + 16 * x).toNat + p.2)) := funext hsum
  subst hps
  unfold State.runAcc Invocation.sumOf
  simp only [hwin, hacc, Bool.false_eq_true, if_false]
  rw [State.here_setInv, State.here_modFacet rfl, State.here_modHere, List.map_map, List.foldl_map]
  rw [List.any_map]
  have hfacet := fun (t : Tbl Facet) f => congrArg Facet.sat (t.get_set_same v.facet f {})
  cases pairInt v.aty with
  | true => exact ⟨rfl, hfacet _ _, rfl⟩
  | false => exact ⟨rfl, hfacet _ _, rfl⟩

/-- What a `scale` of floating-point entries whose range lies in the window and is clean leaves. -/
theorem State.runScale_leaves {s : State} {v : Invocation} {x : Int} {ps : List (Nat × Nat)} {prod : Nat × Nat → Nat × Nat × BitVec 6}
    (ht : pairInt v.aty = false) (hw : v.inWindow v.cb = true) (hps : ps = rect 0 128 v.cb.toNat v.item.n)
    (hacc : ps.any (fun p => s.here.accBad (s.here.facet v.facet) p.1 p.2) = false)
    (hprod : ∀ p, prod p = ro ((s.here.accGet (s.here.facet v.facet) p.1 p.2).num.scale x) (fmtOf 1)) :
    (s.runScale v x).here.acc = (s.here.accPut (s.here.facet v.facet)
        (ps.map fun p => (p.1, p.2, ⟨BitVec.ofNat 32 (prod p).1, BitVec.ofNat 2 (prod p).2.1⟩))).acc
      ∧ (s.runScale v x).here.inv = some { v.next with flags := ps.foldl (fun a p => a ||| (prod p).2.2) v.flags } := by
  obtain rfl : prod = fun p => ro ((s.here.accGet (s.here.facet v.facet) p.1 p.2).num.scale x) (fmtOf 1) := funext hprod
  subst hps
  unfold State.runScale
  simp only [ht, hw, hacc, Bool.not_true, Bool.or_self, Bool.false_eq_true, if_false]
  rw [State.here_setInv, State.here_modHere, List.map_map, List.foldl_map]
  exact ⟨rfl, rfl⟩

/-! ### The words -/

/-- R210: which pass runs by its word: a dense one where SPN is 0, a sparse one elsewhere. -/
theorem exec_passes {i : Instr} {ovr : BitVec 1} {s : State} {v : Invocation} {p : Prop} (h : s.invokes v)
    (hi : i = .pass ovr ∧ v.spn = 0 ∨ i = .passSp ovr ∧ v.spn ≠ 0 ∧ p) :
    ∃ sparse, sparse = (!(v.spn == 0)) ∧ (sparse = true → p) ∧ exec i s = .next (s.runPass v sparse (ovr == 1)) := by
  obtain ⟨rfl, hd⟩ | ⟨rfl, hs, hp⟩ := hi
  · exact ⟨false, by rw [hd]; rfl, fun hf => absurd hf Bool.false_ne_true, microOp_invokes _ h⟩
  · exact ⟨true, by rw [beq_false_of_ne hs]; rfl, fun _ => hp, microOp_invokes _ h⟩

/-- Settles O29: a pop moves what its share holds, and each word over the window leaves the core that the lemmas above give. -/
theorem microTilesFeedTheArray : Obligations.MicroTilesFeedTheArray := by
  unfold Obligations.MicroTilesFeedTheArray
  refine ⟨?popA, ?short, ?popB, ?pass, ?acc, ?scale⟩
  case popA => exact fun s v h hpart hlack => microOp_gives h (State.runPop_completes (isA := true) rfl rfl hpart hlack)
  case popB => exact fun s v h hpart hlack => microOp_gives h (State.runPop_completes (isA := false) rfl rfl hpart hlack)
  case short =>
    exact fun s v h => ⟨fun hlack => microOp_gives h (State.runPop_waits (isA := true) rfl rfl hlack),
      fun hlack => microOp_gives h (State.runPop_waits (isA := false) rfl rfl hlack)⟩
  case pass =>
    intro ovr i s v ta tb es h hi hw hta htb hclean hacc hes
    obtain ⟨sparse, hsp, hform, hexec⟩ := exec_passes h hi
    obtain ⟨wit, hwit⟩ : ∃ wit, wit = ((s.here.facet v.facet).witOn || v.wit) := ⟨_, rfl⟩
    obtain ⟨bad, hbad⟩ : ∃ bad, bad = (wit && Config.witnessDiffers s.cur s.here.witCount (s.here.witCount % 128)) := ⟨_, rfl⟩
    obtain ⟨hput, hfacet, hinv, hcount⟩ :=
      State.runPass_leaves hsp hw hform hta htb hclean (hacc.imp_left fun ho => by rw [ho]; rfl) hes hwit hbad
    refine ⟨_, v.passed es bad, hexec, hput, ?_⟩
    rw [hfacet, hcount, ← hwit]
    refine ⟨rfl, rfl, hinv, rfl, rfl, rfl, h.2, rfl, rfl, ?unwitnessed, ?witnessed⟩
    case unwitnessed =>
      rintro rfl
      subst hbad
      exact ⟨rfl, rfl, rfl⟩
    case witnessed =>
      rintro rfl
      rw [Bool.true_and] at hbad
      refine ⟨rfl, rfl, fun hd => ?_, fun hd => ?_⟩
      · rw [hbad, hd]; rfl
      · rw [hbad, hd]; exact ⟨rfl, Bool.or_true _, rfl, rfl⟩
  case acc =>
    intro val src s v x sum h hx hw hwx hacc hint hfloat
    have hsum : ∀ p : Nat × Nat, sum p.1 p.2 = v.sumOf (s.here.accGet (s.here.facet v.facet) p.1 (v.cb.toNat + p.2))
        (s.here.accGet (s.here.facet v.facet) p.1 ((v.cb + 16 * x).toNat + p.2)) := fun p => by
      cases ht : pairInt v.aty with
      | true => simp only [Invocation.sumOf, ht, if_true, hint _ _ ht]
      | false => simp only [Invocation.sumOf, ht, Bool.false_eq_true, if_false, hfloat _ _ _ _ ht rfl rfl]
    obtain ⟨hput, hsat, hinv⟩ := State.runAcc_leaves hw hwx hacc rfl hsum
    subst hx
    exact ⟨_, _, microOp_invokes _ h, hput, hsat, hinv, rfl, h.2, rfl, rfl⟩
  case scale =>
    intro val src s v h ht hw hacc
    obtain ⟨hput, hinv⟩ := State.runScale_leaves ht hw rfl hacc fun p => rfl
    exact ⟨_, _, microOp_invokes _ h, hput, hinv, rfl, h.2, rfl, rfl⟩

end Sys2Proof.Machine
end

section
/-! SUPPORT. The rows of the matrix unit, of the ring and of the completion order, one lemma for each form that O31 speaks of (R191, R206,
R238 to R245, R250, R253, R417, R418). -/

namespace Sys2Proof.Machine

/-! ### Items and micro-words (R191, R206, R417, R418) -/

section
variable {s : State} {core : Nat} {v : Invocation}

theorem exec_matrixItemRun_starts {fn : Nat} {it : Item} (hi : (s.core core).inv = none) (hn : (s.core core).nextItem = some (fn, it)) :
    exec (.matrixItemRun core) s = .next (s.startItem core fn it) := by
  show execMatrixItemRun core s = _
  unfold execMatrixItemRun
  simp only [hi, hn]

variable (hi : (s.core core).inv = some v)
include hi

theorem exec_matrixItemRun_finishes (he : v.ended = true) :
    exec (.matrixItemRun core) s = .next (s.finishItem core v.facet v.item v.flags v.err) := by
  show execMatrixItemRun core s = _
  unfold execMatrixItemRun
  simp only [hi, he, if_true]

/-- R206: past its last word a routine ends. -/
theorem exec_matrixItemRun_past (he : v.ended = false) (hw : v.words[v.pc]? = none) :
    exec (.matrixItemRun core) s = .next (s.modCore core fun k => { k with inv := some { v with ended := true } }) := by
  show execMatrixItemRun core s = _
  unfold execMatrixItemRun
  simp only [hi, he, hw, Bool.false_eq_true, if_false]

/-- R206: a malformed word ends its routine. -/
theorem exec_matrixItemRun_malformed {w : BitVec 128} (he : v.ended = false) (hw : v.words[v.pc]? = some w)
    (hd : decodeMicro w.toNat = none) :
    exec (.matrixItemRun core) s = .next (s.modCore core fun k =>
      { k with inv := some { v with ended := true, err := some (v.err.getD .illegalEncoding) } }) := by
  show execMatrixItemRun core s = _
  unfold execMatrixItemRun
  simp only [hi, he, hw, hd, Bool.false_eq_true, if_false]

/-- R204, R417, R418: a word that is a micro-operation runs, a pass once neither the current limiter nor the ramp holds it. -/
theorem exec_matrixItemRun_word {w : BitVec 128} {i : Instr} (he : v.ended = false) (hw : v.words[v.pc]? = some w)
    (hd : decodeMicro w.toNat = some i) :
    exec (.matrixItemRun core) s = .next (
      if !startsPass i then { s with cur := core, due := [i] }
      else
        if ((s.noBallast (geodeOf core)).geode (geodeOf core)).limited then s.noBallast (geodeOf core)
        else
          if (s.noBallast (geodeOf core)).rampHeld (geodeOf core) then (s.noBallast (geodeOf core)).windowPasses (geodeOf core)
          else { s.noBallast (geodeOf core) with cur := core, due := [i] }) := by
  show execMatrixItemRun core s = _
  unfold execMatrixItemRun
  simp only [hi, he, hw, hd, Bool.false_eq_true, if_false]

end

/-! ### Meetings and ring messages (R238 to R245) -/

theorem exec_tsyncMeetingComplete_releases {s : State} {geode launch : Nat} {mask : BitVec 16} (hm : mask ≠ 0)
    (hr : s.meetingReady launch mask geode = true) :
    exec (.tsyncMeetingComplete geode launch mask) s
      = .next (((s.geode geode).participants launch mask).foldl (fun t p => t.modFacet p.core p.facet fun f =>
          { f with tsyncMet := true, metLevel := BitVec.ofNat 3 (t.granted geode) })
        (s.modGeode geode fun g => { g with tsync := g.tsync.filter fun p => !((s.geode geode).participants launch mask).contains p })) := by
  show execTsyncMeetingComplete geode launch mask s = _
  unfold execTsyncMeetingComplete
  simp only [hm, hr, decide_false, Bool.not_true, Bool.or_self, Bool.false_eq_true, if_false]

section
variable {s : State} {geode id : Nat} {m : Msg} (hm : (s.geode geode).msgs.find? (fun m => m.id == id && !m.buffered) = some m)
include hm

/-- R243, R337: a message that reaches its stop enters the buffer; whether its parity fails is free (log entry 44). -/
theorem exec_ringMessageArrival_buffers (ht : ((s.core (coreAt geode m.dst)).slotOfOrdinal m.launch m.dstFacet).isSome = true)
    (hr : m.reaches (s.geode geode).msgs = true) :
    exec (.ringMessageArrival geode id) s
      = .next { s.modGeode geode fun g => g.arrive id (Config.ringUpset s.freeCtr) with freeCtr := s.freeCtr + 1 } := by
  have hn : ((s.core (coreAt geode m.dst)).slotOfOrdinal m.launch m.dstFacet).isNone = false := by
    rw [← Option.not_isSome, ht]; rfl
  show execRingMessageArrival geode id s = _
  unfold execRingMessageArrival
  simp only [hm, hn, hr, Bool.not_true, Bool.false_eq_true, if_false]

/-- R245: a message to no task of its launch is discarded. -/
theorem exec_ringMessageArrival_discards (ht : (s.core (coreAt geode m.dst)).slotOfOrdinal m.launch m.dstFacet = none) :
    exec (.ringMessageArrival geode id) s
      = .next ((s.modGeode geode fun g => { g with msgs := g.msgs.filter fun e => e.id != id }).markLost m.launch) := by
  show execRingMessageArrival geode id s = _
  unfold execRingMessageArrival
  simp only [hm, ht, Option.isNone_none, if_true]

end

/-! ### The completion order (R250, R253) -/

/-- R250, R255: the oldest operation of a facet completes, or leaves the order where it posts no record. -/
theorem Facet.completeOldest_cons {f : Facet} {e : OrderEntry} {r : List OrderEntry} (ho : f.order = e :: r) (hd : e.done = true)
    (hc : e.complete = false) :
    f.completeOldest.order = (if e.norec then r else { e with complete := true } :: r)
      ∧ f.completeOldest.crc = (if e.crcen then f.crc.upd e.acc {} fun a => ⟨crcFold a.val e.data, a.count + e.data.length⟩ else f.crc) := by
  unfold Facet.completeOldest
  simp only [ho, hd, hc, Bool.not_true, Bool.or_self, Bool.false_eq_true, if_false]
  cases e.crcen <;> cases e.norec <;> exact ⟨rfl, rfl⟩

/-- R250, R258: the facet's oldest operation completes, whatever it is, and a `win.close` alone frees a band. -/
theorem Core.completeOldest_eq {k : Core} {fn : Nat} {e : OrderEntry} {r : List OrderEntry} (ho : (k.facet fn).order = e :: r)
    (hd : e.done = true) (hc : e.complete = false) :
    k.completeOldest fn = if e.kind = 7 then
        { k.modFacet fn Facet.completeOldest with bands := k.bands.upd e.unit.toNat {} fun x => { x with isOpen := false } }
      else k.modFacet fn Facet.completeOldest := by
  have hcl : (k.facet fn).closes = if e.kind = 7 then some e.unit.toNat else none := by
    unfold Facet.closes
    simp only [ho, hd, hc, Bool.not_false, Bool.and_self, Bool.true_and, beq_iff_eq]
  unfold Core.completeOldest
  rw [hcl]
  by_cases hk : e.kind = 7
  · simp only [if_pos hk]; rfl
  · simp only [if_neg hk]

section
variable {s : State} {core facet : Nat} {e : OrderEntry} {r : List OrderEntry}
  (hf : (s.core core).facets.any (fun f => f.1 == facet && !f.2.order.isEmpty) = true) (ho : (s.facet core facet).order = e :: r)
include hf ho

/-- R250, R258: what completion leaves of the facet's order and accumulators, and of the bands. -/
theorem exec_engineOperationComplete_leaves (hd : e.done = true) (hc : e.complete = false) :
    ∃ t, exec (.engineOperationComplete core facet) s = .next t
      ∧ (t.facet core facet).order = (if e.norec then r else { e with complete := true } :: r)
      ∧ (t.facet core facet).crc = (if e.crcen then (s.facet core facet).crc.upd e.acc {} fun a =>
          ⟨crcFold a.val e.data, a.count + e.data.length⟩ else (s.facet core facet).crc)
      ∧ (e.kind = 7 → ((t.core core).bands.get e.unit.toNat {}).isOpen = false)
      ∧ (e.kind ≠ 7 → (t.core core).bands = (s.core core).bands) := by
  refine ⟨s.modCore core fun k => k.completeOldest facet, congrArg Host.Outcome.next (if_pos hf), ?_⟩
  have hfacet : (((s.core core).completeOldest facet).facet facet) = (s.facet core facet).completeOldest := by
    rw [Core.completeOldest_eq ho hd hc]
    split <;> exact Tbl.get_set_same _ _ _ _
  obtain ⟨horder, hcrc⟩ := Facet.completeOldest_cons ho hd hc
  rw [State.facet, State.core_modCore_same, hfacet]
  refine ⟨horder, hcrc, fun hk => ?_, fun hk => ?_⟩
  · rw [Core.completeOldest_eq ho hd hc, if_pos hk]
    exact congrArg Band.isOpen (Tbl.get_set_same _ _ _ _)
  · rw [Core.completeOldest_eq ho hd hc, if_neg hk]
    rfl

/-- R253: a complete operation's record enters an event queue that has room. -/
theorem exec_completionRecordPost_posts (hc : e.complete = true) (hq : (s.core core).evq.length < 64) :
    exec (.completionRecordPost core facet) s = .next (s.modCore core fun k =>
      { k.modFacet facet fun f => { f with order := r } with evq := k.evq ++ [e.record facet] }) := by
  have hpost : (s.core core).postOldest facet
      = { (s.core core).modFacet facet fun f => { f with order := r } with evq := (s.core core).evq ++ [e.record facet] } := by
    unfold Core.postOldest
    simp only [show ((s.core core).facet facet).order = e :: r from ho, hc, hq, decide_true, Bool.and_self, if_true]
  exact congrArg Host.Outcome.next ((if_pos hf).trans (congrArg (s.setCore core) hpost))

end

end Sys2Proof.Machine
end

section
/-! SUPPORT. The rows of the feeders, bands and bulk engines, one lemma for each form that O31 speaks of (R247, R251, R256 to R266). -/

namespace Sys2Proof.Machine

/-! ### Feeders and bands (R247, R256 to R261) -/

/-- R251: the KIND of the records of a share's feeder. -/
def feederKind : FeedTarget → Nat
  | .a => 1
  | .b => 2

section
variable {s : State} {core : Nat} {tgt : FeedTarget} {x : EngineCmd} {q : List EngineCmd}

section
variable (hq : (s.core core).feeder tgt = x :: q) (hc : s.clear x.after x.mir = true)
  (hp : (s.core core).postHeld [feederKind tgt] 0 = false)
include hq hc hp

theorem exec_fifoAppend_sp {addr : Nat} {pitch : Int} {rb rows : Nat} (ho : x.op = .sp addr pitch rb rows) :
    exec (.fifoAppend core tgt) s = .next (s.feedRows core tgt x rb rows (fun _ => true) fun r o =>
      (coreAt (geodeOf core) (spRank (wrapInt ((addr : Int) + Int.ofNat r * pitch) 24)),
        spPhys (s.window ((s.core core).facet x.facet).launch (coreAt (geodeOf core) (spRank (wrapInt ((addr : Int) + Int.ofNat r * pitch) 24))))
          (spOff (wrapInt ((addr : Int) + Int.ofNat r * pitch) 24) + o))) := by
  show execFifoAppend core tgt s = _
  unfold execFifoAppend
  cases tgt <;> simp only [feederKind] at hp <;>
    simp only [hq, hc, hp, ho, Bool.not_true, Bool.and_false, Bool.or_self, Bool.false_eq_true, if_false]

theorem exec_fifoAppend_band {b h rel off rb rows : Nat} {bd : Band} (ho : x.op = .band b h rel off rb rows)
    (hb : bd = (s.core core).bands.get b {}) :
    exec (.fifoAppend core tgt) s = .next (s.feedRows core tgt x rb rows (fun r => bd.has (h + rel + r)) fun r o =>
      (core, spPhys (s.window ((s.core core).facet x.facet).launch core)
        (bd.ringOff + ((h + rel + r) % bd.rrows) * bd.rowBytes + off + o))) := by
  subst hb
  show execFifoAppend core tgt s = _
  unfold execFifoAppend
  cases tgt <;> simp only [feederKind] at hp <;>
    simp only [hq, hc, hp, ho, Bool.not_true, Bool.and_false, Bool.or_self, Bool.false_eq_true, if_false]

theorem exec_fifoAppend_shale {va blocks : Nat} {ty : BitVec 5} {sm : Nat} (ho : x.op = .shale va blocks ty sm) :
    exec (.fifoAppend core tgt) s = .next (s.feedShale core tgt x va blocks ty sm) := by
  show execFifoAppend core tgt s = _
  unfold execFifoAppend
  cases tgt <;> simp only [feederKind] at hp <;>
    simp only [hq, hc, hp, ho, Bool.not_true, Bool.and_false, Bool.or_self, Bool.false_eq_true, if_false]

end

/-- R256, log entry 27: a feed whose row has arrived and whose banks are free appends the lesser of the room and the rest of the row. -/
theorem State.feedRows_appends {c rb rows n : Nat} {ready : Nat → Bool} {at' : Nat → Nat → Nat × Nat}
    (hn : n = min ((s.facet c x.facet).room tgt) (rb - x.pos % rb)) (h0 : n ≠ 0) (hr : ready (x.pos / rb) = true)
    (hl : (s.core (at' (x.pos / rb) (x.pos % rb)).1).lockedBefore x.id
      (banksOf (((upto n).map fun j => at' (x.pos / rb) (x.pos % rb + j)).map (·.2))) = false) :
    s.feedRows c tgt x rb rows ready at'
      = (s.noteSpadErr (at' (x.pos / rb) (x.pos % rb)).1 (((upto n).map fun j => at' (x.pos / rb) (x.pos % rb + j)).map (·.2))).feedBytes
          c tgt x (((upto n).map fun j => at' (x.pos / rb) (x.pos % rb + j)).map fun p => (s.core p.1).spadByte p.2)
          (rb * rows - x.pos - n) := by
  unfold State.feedRows
  simp only [← hn, h0, hr, hl, Bool.not_true, decide_false, Bool.or_self, Bool.false_eq_true, if_false]

section
variable (hq : (s.core core).feedL = x :: q) (hc : s.clear x.after x.mir = true) (hp : (s.core core).postHeld [3, 4] 0 = false)
include hq hc hp

theorem exec_localFeederCommandStart_lcopy {src dst rb rows : Nat} {sp dp : Int} (ho : x.op = .lcopy src dst rb rows sp dp) :
    exec (.localFeederCommandStart core) s = .next (s.runLcopy core x src dst rb rows sp dp) := by
  show execLocalFeederCommandStart core s = _
  unfold execLocalFeederCommandStart
  simp only [hq, hc, hp, ho, Bool.not_true, Bool.or_self, Bool.false_eq_true, if_false]

theorem exec_localFeederCommandStart_ifetch {src dst words : Nat} {bank : Bool} (ho : x.op = .ifetch src dst words bank) :
    exec (.localFeederCommandStart core) s = .next (s.runIfetch core x src dst words bank) := by
  show execLocalFeederCommandStart core s = _
  unfold execLocalFeederCommandStart
  simp only [hq, hc, hp, ho, Bool.not_true, Bool.or_self, Bool.false_eq_true, if_false]

end

end

section
variable {s : State} {core band : Nat} {o : BandOp} {q : List BandOp} (hq : ((s.core core).bands.get band {}).ops = o :: q)
  (hc : s.clear o.after o.mir = true) (hp : (s.core core).postHeld [6, 7] band = false)
include hq hc hp

theorem exec_bandRowArrival_close (ho : o.close = true) (hf : (s.core core).bandFed band o.id = false) :
    exec (.bandRowArrival core band) s = .next (s.bandDone core band o ((s.core core).bands.get band {}) 0) := by
  show execBandRowArrival core band s = _
  unfold execBandRowArrival
  simp only [hq, hc, hp, ho, hf, Bool.not_true, Bool.and_false, Bool.or_self, Bool.false_eq_true, if_false, if_true]

theorem exec_bandRowArrival_row (ho : o.close = false) :
    exec (.bandRowArrival core band) s = .next (s.bandRow core band ((s.core core).bands.get band {}) o) := by
  show execBandRowArrival core band s = _
  unfold execBandRowArrival
  simp only [hq, hc, hp, ho, Bool.not_true, Bool.and_false, Bool.or_self, Bool.false_eq_true, if_false]

end

/-! ### Bulk engines (R263 to R266) -/

section
variable {s : State} {e : Nat} {c : BulkCmd}

theorem exec_bulkEngineTakeCommand_takes (ha : (s.bulk.get e {}).active = none) (hs : (s.bulk.get e {}).shadow = some c)
    (hp : s.cores.any (fun k => k.2.postHeld [5] e) = false) :
    exec (.bulkEngineTakeCommand e) s = .next (s.modBulk e fun b => { active := some c, ended := b.ended }) := by
  show execBulkEngineTakeCommand e s = _
  unfold execBulkEngineTakeCommand
  simp only [ha, hs, hp, Bool.false_eq_true, if_false]

section
variable {stop : Bool} (ha : (s.bulk.get e {}).active = some c) (hh : s.bulkHeld c = false) (hf : (s.bulk.get e {}).finished = false)
  (hs : stop = ((s.bulk.get e {}).cancelled && ((s.bulk.get e {}).place c % 64 == 0
    || (s.bulk.get e {}).col == 0 && (s.bulk.get e {}).row != 0 || !s.bulkStands c)))
include ha hh hf hs

/-- R265: a cancelled command stops. -/
theorem exec_bulkEngineTakeCommand_stops (hstop : stop = true) :
    exec (.bulkEngineTakeCommand e) s = .next ((s.bulkStop e c 5).bulkEnd e) := by
  show execBulkEngineTakeCommand e s = _
  unfold execBulkEngineTakeCommand
  simp only [ha, hh, hf, ← hs, hstop, Bool.false_eq_true, if_false, if_true]

variable (hstop : stop = false) (hc : s.clear c.after c.mir = true)
include hstop hc

theorem exec_bulkEngineTakeCommand_checks (hk : (s.bulk.get e {}).checked = false) :
    exec (.bulkEngineTakeCommand e) s = .next (
      if s.bulkCheck c = 0 then s.modBulk e fun b => { b with checked := true } else (s.bulkStop e c (s.bulkCheck c)).bulkEnd e) := by
  show execBulkEngineTakeCommand e s = _
  unfold execBulkEngineTakeCommand
  simp only [ha, hh, hf, ← hs, hstop, hc, hk, Bool.not_true, Bool.not_false, Bool.false_eq_true, if_false, if_true, beq_iff_eq]

theorem exec_bulkEngineTakeCommand_moves (hk : (s.bulk.get e {}).checked = true) :
    exec (.bulkEngineTakeCommand e) s = .next ((s.bulkMove e c (s.bulk.get e {})).bulkEnd e) := by
  show execBulkEngineTakeCommand e s = _
  unfold execBulkEngineTakeCommand
  simp only [ha, hh, hf, ← hs, hstop, hc, hk, Bool.not_true, Bool.false_eq_true, if_false]

end

theorem exec_engineCountdown_active {t : State} (ht : t = s.drainEnded e) (ha : (t.bulk.get e {}).active = some c)
    (hh : t.bulkHeld c = false) (hf : (t.bulk.get e {}).finished = true) :
    exec (.engineCountdown e) s = .next (
      if (t.bulk.get e {}).outDue then ((t.countdown c 4).modBulk e fun b => { b with outDue := false }).bulkEnd e
      else if (t.bulk.get e {}).inDue then ((t.countdown c 5).modBulk e fun b => { b with inDue := false }).bulkEnd e
      else t) := by
  subst ht
  show execEngineCountdown e s = _
  unfold execEngineCountdown
  simp only [ha, hh, hf, Bool.true_and, Bool.false_eq_true, if_false]

end

/-- R267: the lock of a command changes no bulk engine. -/
@[simp] theorem State.bulk_bulkLock (s : State) (c : BulkCmd) : (s.bulkLock c).bulk = s.bulk := by
  unfold State.bulkLock
  split
  · split <;> rfl
  · rfl

theorem State.bulk_modBulk_same (s : State) (e : Nat) (f : Bulk → Bulk) : (s.modBulk e f).bulk.get e {} = f (s.bulk.get e {}) :=
  Tbl.get_set_same _ _ _ _

/-- R266: a host's command enters a free shadow set with the registers' words as they stand. -/
theorem exec_hostBulkGo_queues {s : State} {e : Nat} (v : BitVec 64) (he : e < 16) (hs : (s.bulk.get e {}).shadow = none) :
    ∃ t c, exec (.hostBulkGo e v) s = .next t ∧ (t.bulk.get e {}).shadow = some c ∧ c.host = true ∧ c.id = s.nextId
      ∧ c.notify = v.getLsbD 17 ∧ c.pasid.toNat = wbits v 37 18 ∧ c.words = (upto 6).map (fun k => s.devGet (aBulk e + 8 * k)) := by
  have hgo : exec (.hostBulkGo e v) s = execHostBulkGo e v s := rfl
  unfold execHostBulkGo at hgo
  simp only [if_neg (Nat.not_le.2 he), hs, Option.isSome_none, Bool.false_eq_true, if_false] at hgo
  refine ⟨_, _, hgo, congrArg Bulk.shadow (State.bulk_modBulk_same _ _ _), rfl, rfl, rfl, ?pasid, ?words⟩
  case pasid => exact nbits_mod _ 37 18
  case words =>
    refine List.map_congr_left fun k hk => State.devGet_devPut_other _ _ _ _ _ _ ?_
    have hlt : k < 6 := List.mem_range.1 hk
    omega

/-- R266: while the shadow set is occupied, the write reports the overrun. -/
theorem exec_hostBulkGo_overruns {s : State} {e : Nat} (v : BitVec 64) (he : e < 16) (hs : (s.bulk.get e {}).shadow.isSome = true) :
    exec (.hostBulkGo e v) s = .next (s.devPut (aBulk e + 0x38) 10 10 1) := by
  show execHostBulkGo e v s = _
  unfold execHostBulkGo
  rw [if_neg (Nat.not_le.2 he), if_pos hs]

/-! ### The statement -/

/-- Settles O31: each event runs its own branch of its row once nothing holds it. -/
theorem engineEventsMoveTheirQueues : Obligations.EngineEventsMoveTheirQueues := by
  unfold Obligations.EngineEventsMoveTheirQueues
  refine ⟨fun _ _ _ _ => exec_matrixItemRun_starts, ?word, ?ends, fun _ _ _ _ => exec_tsyncMeetingComplete_releases,
    fun _ _ _ _ _ => exec_engineOperationComplete_leaves, fun _ _ _ _ _ => exec_completionRecordPost_posts, ?fifo,
    fun _ _ _ _ _ _ _ _ _ => State.feedRows_appends, ?band, ?localFeeder, fun _ _ _ => exec_bulkEngineTakeCommand_takes, ?bulk,
    fun e v s he => ⟨exec_hostBulkGo_queues v he, exec_hostBulkGo_overruns v he⟩, ?countdown, ?message⟩
  case word =>
    rintro core v w i s t hi he hw hd rfl
    rw [exec_matrixItemRun_word hi he hw hd]
    refine ⟨fun hp => ?_, fun hp hl => ?_, fun hp hl hr => ?_, fun hp hl hr => ?_⟩
    · rw [hp]; rfl
    · rw [hp, hl]; rfl
    · rw [hp, hl, hr]; rfl
    · rw [hp, hl, hr]; rfl
  case ends =>
    exact fun core v s hi => ⟨exec_matrixItemRun_finishes hi, exec_matrixItemRun_past hi, fun _ => exec_matrixItemRun_malformed hi⟩
  case fifo =>
    intro core tgt s x q hq hc hp
    have hpost : (s.core core).postHeld [feederKind tgt] 0 = false := by cases tgt <;> exact hp
    exact ⟨fun _ _ _ _ => exec_fifoAppend_sp hq hc hpost, fun _ _ _ _ _ _ _ => exec_fifoAppend_band hq hc hpost,
      fun _ _ _ _ => exec_fifoAppend_shale hq hc hpost⟩
  case band =>
    exact fun core band s o q hq hc hp => ⟨exec_bandRowArrival_close hq hc hp, exec_bandRowArrival_row hq hc hp⟩
  case localFeeder =>
    exact fun core s x q hq hc hp => ⟨fun _ _ _ _ _ _ => exec_localFeederCommandStart_lcopy hq hc hp,
      fun _ _ _ _ => exec_localFeederCommandStart_ifetch hq hc hp⟩
  case bulk =>
    refine fun e s c stop ha hh hf hs => ⟨exec_bulkEngineTakeCommand_stops ha hh hf hs, fun hstop hc => ⟨fun hk h0 => ?_, fun hk h0 => ?_,
      exec_bulkEngineTakeCommand_moves ha hh hf hs hstop hc⟩⟩
    · rw [exec_bulkEngineTakeCommand_checks ha hh hf hs hstop hc hk, if_pos h0]
    · rw [exec_bulkEngineTakeCommand_checks ha hh hf hs hstop hc hk, if_neg h0]
  case countdown =>
    refine fun e s t c ht ha hh hf => ⟨fun ho => ?_, fun ho hi => ?_⟩
    · rw [exec_engineCountdown_active ht ha hh hf, if_pos ho]
    · rw [exec_engineCountdown_active ht ha hh hf, ho, hi]; rfl
  case message =>
    exact fun geode id s m hm => ⟨fun ht hr => ⟨_, exec_ringMessageArrival_buffers hm ht hr⟩, exec_ringMessageArrival_discards hm⟩

end Sys2Proof.Machine
end

section
/-! SUPPORT. Bytes of the own scratchpad (R215 to R219, R224, R231, R235): where an aligned unit lies, what a store of its bytes leaves in
it, and what a load reads of bytes without an error. -/

namespace Sys2Proof.Machine

/-! ### Consecutive bytes -/

/-- Reading consecutive bytes that were written gives them. -/
theorem Memory.bytes_put {m : Memory} (h : m.wf = true) (a : Nat) (bs : List (BitVec 8)) : (m.put a bs).bytes a bs.length = bs := by
  induction bs generalizing m a with
  | nil => rfl
  | cons b r ih =>
    have hfirst : ((m.set a b).put (a + 1) r).get a = b := by
      rw [Memory.get_put_other _ _ _ _ (by omega), Memory.get_set_same a b h]
    have hrest := ih (Memory.wf_set a b h) (a + 1)
    simp only [Memory.bytes, upto, Memory.put, List.length_cons, List.range_succ_eq_map, List.map_cons, List.map_map, Nat.add_zero,
      List.cons.injEq] at hrest ⊢
    exact ⟨hfirst, by simpa only [Function.comp_def, Nat.succ_eq_add_one, Nat.add_assoc, Nat.add_comm 1] using hrest⟩

theorem bytesAtBase_cons (a : Nat) (b : BitVec 8) (bs : List (BitVec 8)) :
    bytesAtBase a (b :: bs) = { addr := a, b := b } :: bytesAtBase (a + 1) bs := by
  simp [bytesAtBase, List.mapIdx_cons, Nat.add_assoc, Nat.add_comm 1]

/-- R230: a write of all bits of a byte replaces it. -/
theorem mergeByte_whole (old b : BitVec 8) (a : Nat) : mergeByte old { addr := a, b := b } = b := by
  show (old &&& ~~~(BitVec.allOnes 8)) ||| (b &&& BitVec.allOnes 8) = b
  rw [BitVec.not_allOnes, BitVec.and_zero, BitVec.and_allOnes, BitVec.zero_or]

/-- R230: writes of consecutive whole bytes put them. -/
theorem Core.spad_spadWrite_bytesAtBase (k : Core) (a : Nat) (bs : List (BitVec 8)) :
    (k.spadWrite (bytesAtBase a bs)).spad = k.spad.put a bs := by
  show (bytesAtBase a bs).foldl (fun m w => m.set w.addr (mergeByte (m.get w.addr) w)) k.spad = k.spad.put a bs
  generalize k.spad = m
  induction bs generalizing a m with
  | nil => rfl
  | cons b r ih => rw [bytesAtBase_cons, List.foldl_cons, mergeByte_whole, ih, Memory.put]

/-- A write of consecutive bytes replaces each of them whole. -/
theorem mem_wholeBytes_bytesAtBase {a o : Nat} {bs : List (BitVec 8)} (ha : a ≤ o) (ho : o < a + bs.length) :
    o ∈ wholeBytes (bytesAtBase a bs) := by
  have hk : o - a < bs.length := by omega
  simp only [wholeBytes, bytesAtBase, List.mem_map, List.mem_filter, List.mem_mapIdx]
  exact ⟨{ addr := o, b := bs[o - a] }, ⟨⟨o - a, hk, by rw [Nat.add_sub_of_le ha]⟩, rfl⟩, rfl⟩

/-- R235: a unit written whole has no single-bit error. -/
theorem Core.spadFlaws_spadWrite_unit (k : Core) {u : Nat} {bs : List (BitVec 8)} (hlen : bs.length = 8) :
    u ∉ (k.spadWrite (bytesAtBase (8 * u) bs)).spadFlaws := by
  intro hu
  have hwhole : (upto 8).all (fun j => (wholeBytes (bytesAtBase (8 * u) bs)).contains (8 * u + j)) = true := by
    simp only [List.all_eq_true, List.mem_range, List.contains_iff_mem]
    exact fun j hj => mem_wholeBytes_bytesAtBase (by omega) (by omega)
  have hkeep := (List.mem_filter.mp hu).2
  simp only [hwhole] at hkeep
  contradiction

/-- R235: a write brings no uncorrectable error. -/
theorem Core.spadPoison_spadWrite_nil {k : Core} (h : k.spadPoison = []) (ws : List ByteWrite) : (k.spadWrite ws).spadPoison = [] := by
  show k.spadPoison.filter _ = []
  rw [h, List.filter_nil]

/-! ### Places -/

/-- R216: the bytes of an aligned unit lie side by side in one unit of the scratchpad. -/
theorem spPhys_add {pages : List Nat} {o k : Nat} (ho : o % 8 = 0) (hk : k < 8) : spPhys pages (o + k) = spPhys pages o + k := by
  have hpage : (o + k) / 4096 = o / 4096 := by omega
  unfold spPhys
  rw [hpage]
  omega

theorem spPhys_mod {pages : List Nat} {o : Nat} (ho : o % 8 = 0) : spPhys pages o % 8 = 0 := by
  unfold spPhys
  omega

/-- R218: an aligned unit does not cross the end of a scratchpad. -/
theorem spOff_add {a k : Nat} (ha : spOff a % 8 = 0) (hk : k < 8) : spOff (a + k) = spOff a + k := by
  unfold spOff at *
  omega

section
variable {s : State} {a : Nat}

/-- The places of the bytes of an aligned unit. -/
theorem State.spBytes_unit (ha : spOff a % 8 = 0) : s.spBytes a 8 = (upto 8).map (s.spadPlace a + ·) :=
  List.map_congr_left fun _ hk => spPhys_add ha (List.mem_range.mp hk)

/-- R222: an address of the own core has the bound of the local scratchpad. -/
theorem State.spBound_own (ha : s.spCore a = s.cur) : s.spBound a = 6 := by
  have hrank : spRank a = rankOf s.cur := by
    unfold State.spCore coreAt geodeOf spRank at ha
    unfold spRank rankOf
    omega
  rw [State.spBound, if_pos hrank]

/-! ### Local accesses -/

/-- R231: a store of an aligned unit of the own core puts its bytes in their place. -/
theorem State.spadStore_own_unit {bs : List (BitVec 8)} (hlen : bs.length = 8) (hown : s.spCore a = s.cur) (ha : spOff a % 8 = 0) :
    s.spadStore (bytesAtBase a bs) = s.modHere fun k => k.spadWrite (bytesAtBase (s.spadPlace a) bs) := by
  have hplaces : (bytesAtBase a bs).map (fun w => { w with addr := spPhys (s.window s.me.launch (s.spCore a)) (spOff w.addr) })
      = bytesAtBase (s.spadPlace a) bs := by
    refine List.ext_getElem (by simp [bytesAtBase]) fun k hk _ => ?_
    have hk8 : k < 8 := by simpa [bytesAtBase, hlen] using hk
    simp only [bytesAtBase, List.getElem_map, List.getElem_mapIdx, spOff_add ha hk8, spPhys_add ha hk8, State.spadPlace]
  obtain ⟨b, r, rfl⟩ := List.exists_cons_of_length_eq_add_one hlen
  rw [← hplaces, bytesAtBase_cons]
  simp only [State.spadStore, hown, if_true]

/-- R235: a read of bytes without an error leaves the state as it is. -/
theorem State.noteSpadErr_of_clean {c : Nat} {offs : List Nat} (hbad : (s.core c).spadPoison = [])
    (hflaw : ∀ o ∈ offs, o / 8 ∉ (s.core c).spadFlaws) : s.noteSpadErr c offs = s := by
  have hfixed : (offs.map (· / 8)).eraseDups.filter (fun u => (s.core c).spadFlaws.contains u) = [] := by
    simp only [List.filter_eq_nil_iff, List.mem_eraseDups, List.mem_map, List.contains_iff_mem]
    rintro _ ⟨o, ho, rfl⟩
    exact hflaw o ho
  unfold State.noteSpadErr
  simp only [hbad, hfixed, List.contains_nil, List.filter_false, List.foldl_nil, List.isEmpty_nil, if_true]

/-- R224: a load from the own core issues what its bytes give, where none of them has an error. -/
theorem State.spadLoad_own_clean {n : Nat} (dst : LoadDst) (bound : Nat) (hown : s.spCore a = s.cur) (hbad : s.here.spadPoison = [])
    (hflaw : ∀ o ∈ s.spBytes a n, o / 8 ∉ s.here.spadFlaws) :
    s.spadLoad [(a, n)] dst bound
      = s.land (loadWrite dst ((s.spBytes a n).map s.here.spad.get)).1 bound (loadWrite dst ((s.spBytes a n).map s.here.spad.get)).2 := by
  have hread : ∀ (w : RegWrite) (fl : BitVec 6), (s.land w bound fl).noteSpadErr s.cur (s.spBytes a n) = s.land w bound fl := fun w fl =>
    have hcore : (s.land w bound fl).core s.cur = s.here.modFacet s.fn fun f => f.issue w bound fl 0 := s.core_modFacet_same _ _ _
    State.noteSpadErr_of_clean (by rw [hcore]; exact hbad) (by rw [hcore]; exact hflaw)
  have hparity : ∀ offs, s.here.spadBad offs = false := fun offs => by simp [Core.spadBad, hbad]
  simp only [State.spadLoad, List.flatMap_cons, List.flatMap_nil, List.append_nil, hown, if_true, hparity, hread]

end

/-! ### Eight bytes there and back -/

/-- R224: a scalar load of eight bytes issues their number, extended or not. -/
theorem loadWrite_scalar_leBytes (d : Nat) (sx : Bool) (v : BitVec 64) :
    loadWrite (.scalar d 8 sx) (leBytes 8 v.toNat) = (.s d v, 0) := by
  have hnum : leNat (leBytes 8 v.toNat) = v.toNat := (leNat_leBytes 8 _).trans (Nat.mod_eq_of_lt v.isLt)
  have hsigned : BitVec.ofInt 64 (sextNat v.toNat 64) = v := by
    rw [sextNat_eq_toInt, BitVec.ofNat_toNat, BitVec.setWidth_eq, BitVec.ofInt_toInt]
  cases sx <;> simp [loadWrite, hnum, hsigned]

/-- The state after the running facet has stored a double word in an aligned unit of the own core. -/
def State.wordStored (s : State) (a : Nat) (v : BitVec 64) : State :=
  (s.modHere fun k => k.spadWrite (bytesAtBase (s.spadPlace a) (leBytes 8 v.toNat))).raise 0

/-- R231: a store of a double word leaves it in its unit, and raises no flag. -/
theorem State.raise_spadStore_word {s : State} {a : Nat} (v : BitVec 64) (hown : s.spCore a = s.cur) (ha : spOff a % 8 = 0) :
    (s.spadStore (bytesAtBase a (leBytes 8 v.toNat))).raise 0 = s.wordStored a v := by
  rw [State.spadStore_own_unit (length_leBytes 8 _) hown ha, State.wordStored]

section
variable (s : State) (a : Nat) (v : BitVec 64)

theorem State.here_wordStored : (s.wordStored a v).here
    = (s.here.spadWrite (bytesAtBase (s.spadPlace a) (leBytes 8 v.toNat))).modFacet s.fn fun f => { f with flags := f.flags ||| 0 } := by
  rw [State.wordStored, State.raise, State.here_modMe, State.here_modHere, State.fn, State.here_modHere]
  rfl

theorem State.me_wordStored : (s.wordStored a v).me = { s.me with flags := s.me.flags ||| 0 } := by
  have hme : (s.modHere fun k => k.spadWrite (bytesAtBase (s.spadPlace a) (leBytes 8 v.toNat))).me = s.me := by
    simp only [State.me, State.fn, State.here_modHere]
    rfl
  rw [State.wordStored, State.raise, State.me_modMe, hme]

theorem State.readX_wordStored (xb : BitVec 5) : (s.wordStored a v).readX xb = s.readX xb := by
  rw [State.readX, State.me_wordStored]
  rfl

theorem State.spadPlace_wordStored : (s.wordStored a v).spadPlace a = s.spadPlace a := by
  unfold State.spadPlace
  rw [State.me_wordStored]
  rfl

end

section
variable {s : State} {a : Nat} (v : BitVec 64) (ha : spOff a % 8 = 0)
include ha

theorem State.spBytes_wordStored : (s.wordStored a v).spBytes a 8 = (upto 8).map (s.spadPlace a + ·) := by
  rw [State.spBytes_unit ha, State.spadPlace_wordStored]

/-- R235: no byte of the stored word lies in a unit with a single-bit error. -/
theorem State.spadFlaws_wordStored :
    ∀ o ∈ (s.wordStored a v).spBytes a 8, o / 8 ∉ (s.wordStored a v).here.spadFlaws := by
  have hunit : 8 * (s.spadPlace a / 8) = s.spadPlace a := Nat.mul_div_cancel' (Nat.dvd_of_mod_eq_zero (spPhys_mod ha))
  have hnone := s.here.spadFlaws_spadWrite_unit (u := s.spadPlace a / 8) (length_leBytes 8 v.toNat)
  rw [hunit] at hnone
  rw [State.spBytes_wordStored v ha, State.here_wordStored]
  intro o ho
  obtain ⟨k, hk, rfl⟩ := List.mem_map.mp ho
  have hk8 := List.mem_range.mp hk
  rwa [show (s.spadPlace a + k) / 8 = s.spadPlace a / 8 by omega]

/-- R224: the bytes at the word's place are its own. -/
theorem State.bytes_wordStored (hwf : s.here.spad.wf = true) :
    ((s.wordStored a v).spBytes a 8).map (s.wordStored a v).here.spad.get = leBytes 8 v.toNat := by
  have hput : (s.wordStored a v).here.spad = s.here.spad.put (s.spadPlace a) (leBytes 8 v.toNat) := by
    rw [State.here_wordStored]
    exact s.here.spad_spadWrite_bytesAtBase _ _
  have hback := Memory.bytes_put hwf (s.spadPlace a) (leBytes 8 v.toNat)
  rw [length_leBytes] at hback
  rw [State.spBytes_wordStored v ha, hput, List.map_map]
  exact hback

/-- R224, R231: a load of the word that was stored in an aligned unit of the own core issues it. -/
theorem State.spadLoad_wordStored (d : Nat) (sx : Bool) (hown : s.spCore a = s.cur) (hbad : s.here.spadPoison = [])
    (hwf : s.here.spad.wf = true) :
    (s.wordStored a v).spadLoad [(a, 8)] (.scalar d 8 sx) 6 = (s.wordStored a v).land (.s d v) 6 := by
  have hpoison : (s.wordStored a v).here.spadPoison = [] := by
    rw [State.here_wordStored]
    exact Core.spadPoison_spadWrite_nil hbad _
  rw [State.spadLoad_own_clean (s := s.wordStored a v) _ _ hown hpoison (State.spadFlaws_wordStored v ha),
    State.bytes_wordStored v ha hwf, loadWrite_scalar_leBytes]

end

/-- Settles O59: the store leaves the word in its unit and the unit without an error, and the load reads the unit. -/
theorem scratchpadStoreThenLoadReturnsTheValue : Obligations.ScratchpadStoreThenLoadReturnsTheValue := by
  unfold Obligations.ScratchpadStoreThenLoadReturnsTheValue
  intro g g' a d xb off mode sx s hst hown ha hbad hwf
  have hstore : exec (.stS g a xb off 0 mode 3) s = .next (s.wordStored (spAddr (s.readX xb) off.toInt) (s.readS a)) := by
    rw [← State.raise_spadStore_word _ hown ha]
    exact slotOp_ready hst
  refine ⟨_, hstore, fun hld => (slotOp_ready hld).trans (congrArg _ ?_)⟩
  rw [State.readX_wordStored, State.spBound_own (s := s.wordStored _ _) hown]
  exact State.spadLoad_wordStored (s.readS a) ha d.toNat (sx == 1) hown hbad hwf

end Sys2Proof.Machine
end

section
/-! SUPPORT. The loads, stores and atomics of the scratchpad (R103, R222 to R232): the row of each is the shared frame around its effect,
so that a ready one has it. -/

namespace Sys2Proof.Machine

/-- Settles O21: the row of each load is the shared frame around its load of segments or elements. -/
theorem scratchpadLoadsIssueTheirBytes : Obligations.ScratchpadLoadsIssueTheirBytes := by
  unfold Obligations.ScratchpadLoadsIssueTheirBytes
  and_intros
  all_goals
    intros
    exact slotOp_ready ‹_›

/-- Settles O22: the row of each store is the shared frame around its byte writes and the flags of their rounding, that of the atomic
around its word. -/
theorem scratchpadStoresWriteTheirBytes : Obligations.ScratchpadStoresWriteTheirBytes := by
  unfold Obligations.ScratchpadStoresWriteTheirBytes
  and_intros
  all_goals
    intros
    exact slotOp_ready ‹_›

end Sys2Proof.Machine
end

section
/-! SUPPORT. Address registers (R54, R220): results in either slot, and two slots that name one register. -/

namespace Sys2Proof.Machine

/-- R54: two operations of different slots that write one register conflict, each in its slot. -/
theorem conflicts_pair {f : Facet} {i j : Instr} {r : RegId} (hslot : slotOf i ≠ slotOf j) (hi : r ∈ conflictDests f i)
    (hj : r ∈ conflictDests f j) : conflicts f [i, j] = [⟨slotOf i, .illegalEncoding, 0⟩, ⟨slotOf j, .illegalEncoding, 0⟩] := by
  have hclash : ∀ k l, slotOf k ≠ slotOf l → r ∈ conflictDests f k → r ∈ conflictDests f l →
      (slotOf l != slotOf k && (conflictDests f k).any fun x => (conflictDests f l).contains x) = true := fun k l hkl hk hl =>
    Bool.and_eq_true_iff.mpr ⟨bne_iff_ne.mpr hkl.symm, List.any_eq_true.mpr ⟨r, hk, List.contains_iff_mem.mpr hl⟩⟩
  have hboth : ∀ k ∈ [i, j], ([i, j].any fun l =>
      slotOf l != slotOf k && (conflictDests f k).any fun x => (conflictDests f l).contains x) = true := by
    intro k hk
    obtain hk | hk := List.mem_pair.mp hk <;> rw [hk]
    · exact List.any_eq_true.mpr ⟨j, by simp, hclash i j hslot hi hj⟩
    · exact List.any_eq_true.mpr ⟨i, by simp, hclash j i hslot.symm hj hi⟩
  rw [conflicts, List.filter_eq_self.mpr hboth]
  rfl

/-- Settles O24: each row is the shared frame around the issue of its value, and every one of the four names its register and its slot. -/
theorem addressRegistersWrap : Obligations.AddressRegistersWrap := by
  unfold Obligations.AddressRegistersWrap
  refine ⟨fun _ _ _ _ _ _ => slotOp_ready, fun _ _ _ _ _ _ => slotOp_ready, fun _ _ _ _ _ => slotOp_ready,
    fun _ _ _ _ _ _ => slotOp_ready, fun f g g' d a b a' b' imm imm' i j hi hj => ?conflict⟩
  case conflict =>
    have hld : slotOf i = 4 ∧ conflictDests f i = [.x d.toNat] := by
      simp only [List.mem_cons, List.not_mem_nil, or_false] at hi
      obtain rfl | rfl | rfl | rfl := hi <;> exact ⟨rfl, rfl⟩
    have hst : slotOf j = 5 ∧ conflictDests f j = [.x d.toNat] := by
      simp only [List.mem_cons, List.not_mem_nil, or_false] at hj
      obtain rfl | rfl | rfl | rfl := hj <;> exact ⟨rfl, rfl⟩
    obtain ⟨hislot, hidest⟩ := hld
    obtain ⟨hjslot, hjdest⟩ := hst
    rw [conflicts_pair (r := .x d.toNat) (by rw [hislot, hjslot]; decide) (by simp [hidest]) (by simp [hjdest]), hislot, hjslot]

end Sys2Proof.Machine
end

section
/-! SUPPORT. Messages of the geode ring at their facets (R238, R242, R243): what `send` adds to the ring and `recv` takes from it. -/

namespace Sys2Proof.Machine

/-- R238, R243: a `send` adds its message behind those of the geode's ring. -/
theorem State.msgs_sendMsg (s : State) (a : BitVec 9) (rank : BitVec 4) (facet : BitVec 2) (lane : BitVec 3) (dir : BitVec 1) :
    ((s.sendMsg a rank facet lane dir).geode (geodeOf s.cur)).msgs = (s.geode (geodeOf s.cur)).msgs
      ++ [{ id := s.nextId, launch := s.me.launch, src := rankOf s.cur, srcFacet := s.me.ordinal, dst := rank.toNat,
            dstFacet := facet.toNat, lane := lane, dir := dir == 1, stamp := BitVec.ofNat 32 s.me.ringTime, val := s.readV a }] := by
  rw [State.sendMsg]
  exact congrArg Geode.msgs (Tbl.get_set_same _ _ _ _)

/-- Settles O25: each row is the shared frame around its message, which is the youngest of the ring or the one of the expected stamp. -/
theorem ringInstructionsMoveMessages : Obligations.RingInstructionsMoveMessages := by
  unfold Obligations.RingInstructionsMoveMessages
  refine ⟨fun _ _ _ _ _ _ _ => slotOp_ready, fun _ _ _ _ _ _ _ => slotOp_ready,
    fun _ _ _ _ _ _ _ h => ⟨_, slotOp_ready h, State.msgs_sendMsg _ _ _ _ _ _⟩, fun s d rank facet lane dir m hm => ?taken⟩
  case taken => simp only [State.takeMsg, hm]

end Sys2Proof.Machine
end

section
/-! SUPPORT. The checker's operations and the barrier's arrival (R271, R274, R275, R289). -/

namespace Sys2Proof.Machine

/-- Settles O27: each row is the shared frame around the issue of its value or the arrival that leaves the core. -/
theorem checkerOperationsResults : Obligations.CheckerOperationsResults := by
  unfold Obligations.CheckerOperationsResults
  refine ⟨fun _ _ _ _ _ _ _ => slotOp_ready, fun _ _ _ _ _ _ _ => slotOp_ready, fun _ _ _ _ _ _ _ => slotOp_ready,
    fun _ _ _ _ _ _ _ => slotOp_ready, fun _ _ _ _ _ _ _ _ => slotOp_ready, fun _ _ _ _ _ => slotOp_ready,
    fun g xb inn out s c h hc => ?arrival⟩
  case arrival =>
    subst hc
    exact ⟨s.arrive xb inn out, _, slotOp_ready h, rfl, ⟨rfl, rfl, rfl, rfl, rfl⟩, rfl, rfl, rfl⟩

end Sys2Proof.Machine
end

section
/-! SUPPORT. Commands of the copy engines (R246 to R265): what their issue leaves in the completion order, the queues and the engines. -/

namespace Sys2Proof.Machine

/-! ### The completion order -/

/-- R250: the entry under which the next operation of an engine takes its place. -/
def State.placeEntry (s : State) (kind unit : Nat) (classes : List Nat) (cm : BitVec 20) : OrderEntry :=
  { id := s.nextId, kind := BitVec.ofNat 8 kind, tag := cm.extractLsb' 0 16, unit := BitVec.ofNat 4 unit, classes := classes
    norec := cm.getLsbD 16, crcen := cm.getLsbD 17, acc := (cm.extractLsb' 18 2).toNat }

theorem State.order_takePlace (s : State) (kind unit : Nat) (classes : List Nat) (cm : BitVec 20) :
    (s.takePlace kind unit classes cm).me.order = s.me.order ++ [s.placeEntry kind unit classes cm] :=
  congrArg Facet.order (s.me_modMe _)

/-- R250: a place in the order changes the running core in its facets alone. -/
theorem State.here_takePlace (s : State) (kind unit : Nat) (classes : List Nat) (cm : BitVec 20) :
    (s.takePlace kind unit classes cm).here
      = s.here.modFacet s.fn fun f => { f with order := f.order ++ [s.placeEntry kind unit classes cm] } :=
  s.here_modMe _

/-- The running facet stands while its core keeps which facet runs, and its facets. -/
theorem State.me_modHere (s : State) {g : Core → Core} (hrun : ∀ k, (g k).run = k.run) (hfacets : ∀ k, (g k).facets = k.facets) :
    (s.modHere g).me = s.me := by
  simp only [State.me, State.fn, State.here_modHere, Core.facet, hrun, hfacets]

section
variable (s : State) (kind unit : Nat) (classes : List Nat) (cm : BitVec 20) {g : Core → Core}

/-- R250: what enters a queue of the core beside its place leaves the place last. -/
theorem State.order_queued (hrun : ∀ k, (g k).run = k.run) (hfacets : ∀ k, (g k).facets = k.facets) :
    ((s.takePlace kind unit classes cm).modHere g).me.order = s.me.order ++ [s.placeEntry kind unit classes cm] := by
  rw [State.me_modHere _ hrun hfacets, State.order_takePlace]

theorem State.here_queued :
    ((s.takePlace kind unit classes cm).modHere g).here
      = g (s.here.modFacet s.fn fun f => { f with order := f.order ++ [s.placeEntry kind unit classes cm] }) := by
  rw [State.here_modHere, State.here_takePlace]

end

/-! ### Feeders -/

/-- R256: a `feed` that reads main memory has its two descriptors whole. -/
theorem State.feedOp_shale {kind : BitVec 2} (h : 2 ≤ kind.toNat) (s : State) (da db : BitVec 4) (ty : BitVec 5) (sm : BitVec 3) :
    s.feedOp da db ty sm kind = .shale (s.readD da).toNat (s.readD db).toNat ty sm.toNat := by
  obtain ⟨n, hn⟩ := Nat.exists_eq_add_of_le' h
  simp only [State.feedOp, hn]

/-- R256, R293: the command of a `feed`. -/
def State.feedCmd (s : State) (da db : BitVec 4) (ty : BitVec 5) (sm : BitVec 3) (kind : BitVec 2) : EngineCmd :=
  { facet := s.fn, id := s.nextId, op := s.feedOp da db ty sm kind, after := s.covered, mir := s.coversMirror }

section
variable (s : State) (da db : BitVec 4) (ty : BitVec 5) (sm : BitVec 3) (kind tgt : BitVec 2) (cm : BitVec 20)

/-- R256: a `feed` is the youngest of its feeder's queue, and the other feeder's stands. -/
theorem State.queues_feed :
    (s.feed da db ty sm kind tgt cm).here.feedA = (if tgt = 0 then s.here.feedA ++ [s.feedCmd da db ty sm kind] else s.here.feedA)
      ∧ (s.feed da db ty sm kind tgt cm).here.feedB
        = (if tgt = 0 then s.here.feedB else s.here.feedB ++ [s.feedCmd da db ty sm kind]) := by
  rw [State.feed, State.here_queued]
  by_cases h : tgt = 0
  · rw [if_pos h, if_pos h, if_pos (beq_iff_eq.mpr h)]
    exact ⟨rfl, rfl⟩
  · rw [if_neg h, if_neg h, if_neg (mt beq_iff_eq.mp h)]
    exact ⟨rfl, rfl⟩

theorem State.order_feed : (s.feed da db ty sm kind tgt cm).me.order
    = s.me.order ++ [s.placeEntry (1 + tgt.toNat) 0 [0, 1 + tgt.toNat] cm] :=
  s.order_queued _ _ _ _ (fun _ => by split <;> rfl) fun _ => by split <;> rfl

end

/-! ### Bands -/

/-- R259: an operation that fetches rows leaves its band with itself as the youngest of the band's operations. -/
theorem State.bands_bandFetch (s : State) (b : Nat) (bd : Band) (first n : Nat) (cm : BitVec 20) :
    (s.bandFetch b bd first n cm).here.bands.get b {} = { bd with ops := bd.ops
      ++ [{ id := s.nextId, first := first, rows := n, after := s.covered, mir := s.coversMirror }] } := by
  rw [State.bandFetch, State.here_queued]
  exact Tbl.get_set_same _ _ _ _

theorem State.order_bandFetch (s : State) (b : Nat) (bd : Band) (first n : Nat) (cm : BitVec 20) :
    (s.bandFetch b bd first n cm).me.order = s.me.order ++ [s.placeEntry 6 b [0, 5 + b] cm] :=
  s.order_queued _ _ _ _ (fun _ => rfl) fun _ => rfl

/-- R259: a `win.close` is the youngest operation of its band, which it leaves as it was otherwise. -/
theorem State.bands_winClose (s : State) (band : BitVec 3) (cm : BitVec 20) :
    (s.winClose band cm).here.bands.get band.toNat {} = { s.here.bands.get band.toNat {} with
      ops := (s.here.bands.get band.toNat {}).ops ++ [{ id := s.nextId, close := true, after := [] }] } := by
  rw [State.winClose, State.here_queued]
  exact Tbl.get_set_same _ _ _ _

/-! ### Bulk engines -/

/-- R262: `bulk.set` replaces two words of the staging and no other. -/
theorem State.staging_bulkSet (s : State) (da db : BitVec 4) (pos : BitVec 2) :
    (s.bulkSet da db pos).me.staging
      = (s.me.staging.set (2 * pos.toNat) (s.readD da)).set (2 * pos.toNat + 1) (s.readD db) :=
  congrArg Facet.staging (s.me_modMe _)

/-- R267: the lock of a command changes nothing of the running facet. -/
theorem State.me_bulkLock (s : State) (c : BulkCmd) : (s.bulkLock c).me = s.me := by
  have hlocked : ∀ core, (s.modCore core fun k => { k with locks := k.locks ++ [c.lock] }).me = s.me := fun core => by
    by_cases hcur : core = s.cur
    · rw [hcur]
      exact s.me_locked _
    · have hhere := s.core_modCore_other core s.cur (fun k => { k with locks := k.locks ++ [c.lock] }) (Ne.symm hcur)
      exact congrArg (fun k : Core => k.facet k.run) hhere
  unfold State.bulkLock
  split
  · split
    · rfl
    · exact hlocked _
  · rfl

theorem State.bulk_modBulk_other (s : State) {e d : Nat} (f : Bulk → Bulk) (h : d ≠ e) :
    (s.modBulk e f).bulk.get d {} = s.bulk.get d {} := Tbl.get_set_other _ _ _ _ _ h

/-- R262: the command of a `bulk.go`: the staging words, and whose it is. -/
def State.goCmd (s : State) (cm : BitVec 20) : BulkCmd :=
  { words := s.me.stagingWords, cm := cm, pasid := s.me.pasid, core := s.cur, facet := s.fn, launch := s.me.launch
    id := s.nextId, after := s.covered, mir := s.coversMirror }

section
variable (s : State) (en : BitVec 4) (cm : BitVec 20)

theorem State.bulkGo_eq : s.bulkGo en cm
    = ((s.takePlace 5 en.toNat [0, 4] cm).bulkLock (s.goCmd cm)).modBulk en.toNat fun b => { b with shadow := some (s.goCmd cm) } := rfl

/-- R262: `bulk.go` puts its command into the shadow set of its engine and into that alone. -/
theorem State.bulk_bulkGo :
    (s.bulkGo en cm).bulk.get en.toNat {} = { s.bulk.get en.toNat {} with shadow := some (s.goCmd cm) }
      ∧ ∀ e, e ≠ en.toNat → (s.bulkGo en cm).bulk.get e {} = s.bulk.get e {} := by
  have hbulk : ((s.takePlace 5 en.toNat [0, 4] cm).bulkLock (s.goCmd cm)).bulk = s.bulk := State.bulk_bulkLock _ _
  rw [State.bulkGo_eq, State.bulk_modBulk_same, hbulk]
  exact ⟨rfl, fun e he => by rw [State.bulk_modBulk_other _ _ he, hbulk]⟩

theorem State.order_bulkGo : (s.bulkGo en cm).me.order = s.me.order ++ [s.placeEntry 5 en.toNat [0, 4] cm] :=
  (congrArg Facet.order (State.me_bulkLock _ (s.goCmd cm))).trans (s.order_takePlace _ _ _ _)

end

/-- R265: the commands that a `bulk.cancel` of a tag is about: those of the running facet under the tag. -/
def State.ownTag (s : State) (tag : BitVec 16) (c : BulkCmd) : Bool :=
  !c.host && c.core == s.cur && c.facet == s.fn && c.launch == s.me.launch && c.cm.extractLsb' 0 16 == tag

theorem State.ownTag_iff (s : State) (tag : BitVec 16) (c : BulkCmd) : s.ownTag tag c = true ↔
    c.host = false ∧ c.core = s.cur ∧ c.facet = s.fn ∧ c.launch = s.me.launch ∧ c.cm.extractLsb' 0 16 = tag := by
  simp only [State.ownTag, Bool.and_eq_true, Bool.not_eq_true', beq_iff_eq, and_assoc]

/-- R265: a cancel marks the active command of an engine. -/
def State.cancelActive (s : State) (e : Nat) (own : BulkCmd → Bool) : Option BulkCmd → State
  | some c => if own c && !(s.bulk.get e {}).finished then s.modBulk e fun b => { b with cancelled := true } else s
  | none => s

/-- R265: a cancel ends the queued command of an engine. -/
def State.cancelQueued (s : State) (e : Nat) (own : BulkCmd → Bool) : Option BulkCmd → State
  | some c => if own c then s.modBulk e fun b => { b with shadow := none, ended := b.ended ++ [c] } else s
  | none => s

theorem State.bulkCancel_eq (s : State) (en : BitVec 4) (tag : BitVec 16) :
    s.bulkCancel en tag = (s.cancelActive en.toNat (s.ownTag tag) (s.bulk.get en.toNat {}).active).cancelQueued en.toNat (s.ownTag tag)
      (s.bulk.get en.toNat {}).shadow := rfl

section
variable (s : State) (e : Nat) (own : BulkCmd → Bool) (q : Option BulkCmd)

theorem State.bulk_cancelActive :
    (s.cancelActive e own q).bulk.get e {} = { s.bulk.get e {} with
        cancelled := (s.bulk.get e {}).cancelled || q.any own && !(s.bulk.get e {}).finished }
      ∧ ∀ d, d ≠ e → (s.cancelActive e own q).bulk.get d {} = s.bulk.get d {} := by
  cases q with
  | none =>
    rw [Option.any_none, Bool.false_and, Bool.or_false]
    exact ⟨rfl, fun _ _ => rfl⟩
  | some c =>
    rw [State.cancelActive, Option.any_some]
    cases own c && !(s.bulk.get e {}).finished with
    | false =>
      rw [Bool.or_false]
      exact ⟨rfl, fun _ _ => rfl⟩
    | true =>
      rw [Bool.or_true]
      exact ⟨s.bulk_modBulk_same _ _, fun _ => s.bulk_modBulk_other _⟩

theorem State.bulk_cancelQueued :
    (s.cancelQueued e own q).bulk.get e {} = { s.bulk.get e {} with
        shadow := if q.any own then none else (s.bulk.get e {}).shadow
        ended := (s.bulk.get e {}).ended ++ (q.filter own).toList }
      ∧ ∀ d, d ≠ e → (s.cancelQueued e own q).bulk.get d {} = s.bulk.get d {} := by
  cases q with
  | none =>
    rw [Option.filter_none, Option.toList_none, List.append_nil]
    exact ⟨rfl, fun _ _ => rfl⟩
  | some c =>
    rw [State.cancelQueued, Option.any_some, Option.filter_some]
    cases own c with
    | false => exact ⟨by simp only [Bool.false_eq_true, if_false, Option.toList_none, List.append_nil], fun _ _ => rfl⟩
    | true => exact ⟨s.bulk_modBulk_same _ _, fun _ => s.bulk_modBulk_other _⟩

end

/-- R265: a cancel marks and ends on the engine that it names, and leaves every other. -/
theorem State.bulk_bulkCancel (s : State) (en : BitVec 4) (tag : BitVec 16) {b : Bulk} (hb : b = s.bulk.get en.toNat {}) :
    (s.bulkCancel en tag).bulk.get en.toNat {} = { b with
        cancelled := b.cancelled || b.active.any (s.ownTag tag) && !b.finished
        shadow := if b.shadow.any (s.ownTag tag) then none else b.shadow
        ended := b.ended ++ (b.shadow.filter (s.ownTag tag)).toList }
      ∧ ∀ e, e ≠ en.toNat → (s.bulkCancel en tag).bulk.get e {} = s.bulk.get e {} := by
  subst hb
  obtain ⟨hactive, hother⟩ := s.bulk_cancelActive en.toNat (s.ownTag tag) (s.bulk.get en.toNat {}).active
  obtain ⟨hqueued, hother'⟩ := State.bulk_cancelQueued
    (s.cancelActive en.toNat (s.ownTag tag) (s.bulk.get en.toNat {}).active) en.toNat (s.ownTag tag) (s.bulk.get en.toNat {}).shadow
  rw [hactive] at hqueued
  exact ⟨hqueued, fun e he => (hother' e he).trans (hother e he)⟩

/-! ### Accumulators -/

/-- R255: `crc.rd` posts the record of the accumulator as the youngest of the event queue. -/
theorem State.evq_crcRd (s : State) (rst : BitVec 1) (ac : BitVec 2) (tag : BitVec 16) :
    (s.crcRd rst ac tag).here.evq = s.here.evq ++ [⟨s.fn, BitVec.ofNat 64 (9 + tag.toNat * 2 ^ 16),
      BitVec.ofNat 64 ((s.me.crc.get ac.toNat {}).val.toNat + (s.me.crc.get ac.toNat {}).count % 2 ^ 32 * 2 ^ 32)⟩] := by
  unfold State.crcRd
  dsimp only
  split
  · rw [State.here_modMe, State.here_modHere]
    rfl
  · rw [State.here_modHere]

/-- R255: `crc.rd` takes no place in the order, and changes the accumulator that it resets alone. -/
theorem State.me_crcRd (s : State) (rst : BitVec 1) (ac : BitVec 2) (tag : BitVec 16) :
    (s.crcRd rst ac tag).me = { s.me with crc := if rst = 1 then s.me.crc.set ac.toNat {} else s.me.crc } := by
  have hme : ∀ r, (s.modHere fun k => { k with evq := k.evq ++ [r] }).me = s.me := fun r =>
    s.me_modHere (fun _ => rfl) fun _ => rfl
  unfold State.crcRd
  dsimp only
  split
  · rw [State.me_modMe, hme]
  · exact hme _

/-! ### The statement -/

/-- Settles O26: the row of each operation is the shared frame around its effect, which the queue, the band, the engine or the
accumulator and the order show. -/
theorem engineCommandsJoinTheirQueues : Obligations.EngineCommandsJoinTheirQueues := by
  unfold Obligations.EngineCommandsJoinTheirQueues
  refine ⟨fun g da db ty sm kind tgt cm s h => ?feed, fun g da db cm s h => ?lcopy, fun g da words cm s h => ?ifetch,
    fun g da db pos s h => ?bulkSet, fun g en cm s h => ?bulkGo, fun g en tag s mine h hmine => ?bulkCancel,
    fun g da db band rr fill cm s h => ?winOpen, fun g band k cm s b h hb => ?winAdv, fun g band cm s b h hb => ?winClose,
    fun g rst ac tag s a h ha => ?crcRd⟩
  case feed =>
    obtain ⟨hA, hB⟩ := s.queues_feed da db ty sm kind tgt cm
    refine ⟨_, s.feedCmd da db ty sm kind, slotOp_ready h, hA, hB, ⟨rfl, rfl, rfl, rfl, rfl, rfl⟩, ?sp, ?band,
      fun hk => s.feedOp_shale hk da db ty sm, s.order_feed da db ty sm kind tgt cm⟩
    case sp | band =>
      rintro rfl
      rfl
  case lcopy =>
    exact ⟨s.lcopy da db cm, _, slotOp_ready h, congrArg Core.feedL (s.here_queued _ _ _ _), ⟨rfl, rfl, rfl⟩, rfl,
      s.order_queued _ _ _ _ (fun _ => rfl) fun _ => rfl⟩
  case ifetch =>
    exact ⟨s.ifetch da words cm, _, slotOp_ready h, congrArg Core.feedL (s.here_queued _ _ _ _), ⟨rfl, rfl, rfl⟩, rfl,
      s.order_queued _ _ _ _ (fun _ => rfl) fun _ => rfl⟩
  case bulkSet =>
    refine ⟨_, slotOp_ready h, ?_⟩
    rw [State.staging_bulkSet]
    refine ⟨?low, Tbl.get_set_same _ _ _ _, fun k hlow hhigh => ?rest⟩
    case low => rw [Tbl.get_set_other _ _ _ _ _ (by omega), Tbl.get_set_same]
    case rest => rw [Tbl.get_set_other _ _ _ _ _ hhigh, Tbl.get_set_other _ _ _ _ _ hlow]
  case bulkGo =>
    obtain ⟨hengine, hother⟩ := s.bulk_bulkGo en cm
    exact ⟨_, s.goCmd cm, slotOp_ready h, congrArg Bulk.shadow hengine, (congrArg Bulk.active hengine :), hother,
      ⟨rfl, rfl, rfl, rfl⟩, ⟨rfl, rfl, rfl, rfl, rfl⟩, s.order_bulkGo en cm⟩
  case bulkCancel =>
    have hown : ∀ c, mine c ↔ s.ownTag tag c = true := fun c => (hmine c).trans (s.ownTag_iff tag c).symm
    obtain ⟨hengine, hother⟩ := s.bulk_bulkCancel en tag rfl
    refine ⟨_, slotOp_ready h, hother, (congrArg Bulk.active hengine :), fun c hc => ?active, fun c hc => ?queued⟩
    case active =>
      simp only [hengine, hown, hc, Option.any_some, Bool.not_eq_true]
      exact ⟨fun hm hf => by rw [hm, hf, Bool.not_false, Bool.and_self, Bool.or_true],
        fun hm => by rw [hm, Bool.false_and, Bool.or_false]⟩
    case queued =>
      simp only [hengine, hown, hc, Option.any_some, Option.filter_some]
      exact ⟨fun hm => ⟨if_pos hm, by rw [if_pos hm, Option.toList_some]⟩,
        fun hm => ⟨if_neg hm, by rw [if_neg hm, Option.toList_none, List.append_nil]⟩⟩
  case winOpen =>
    exact ⟨_, _, slotOp_ready h, s.bands_bandFetch _ _ _ _ _, ⟨rfl, rfl, rfl, rfl, rfl, rfl⟩, s.order_bandFetch _ _ _ _ _⟩
  case winAdv =>
    subst hb
    exact ⟨_, _, slotOp_ready h, s.bands_bandFetch _ _ _ _ _, ⟨rfl, rfl, rfl, rfl, rfl, rfl⟩, s.order_bandFetch _ _ _ _ _⟩
  case winClose =>
    subst hb
    exact ⟨_, _, slotOp_ready h, s.bands_winClose band cm, rfl, rfl, s.order_queued _ _ _ _ (fun _ => rfl) fun _ => rfl⟩
  case crcRd =>
    subst ha
    have hme := s.me_crcRd rst ac tag
    have hcrc := congrArg Facet.crc hme
    refine ⟨_, slotOp_ready h, (congrArg Facet.order hme :), s.evq_crcRd rst ac tag, ?acc, fun k hk => ?others⟩
    case acc =>
      rw [hcrc]
      split
      · exact Tbl.get_set_same _ _ _ _
      · rfl
    case others =>
      rw [hcrc]
      split
      · exact Tbl.get_set_other _ _ _ _ _ hk
      · rfl

end Sys2Proof.Machine
end

section
/-! SUPPORT. Bytes of local memory read after write (R281, R342): main memory, the write queue ahead of the media, and an entry on its way
to the media. -/

namespace Sys2Proof.Machine

/-! ### The newest entry of a line -/

/-- The youngest entry of a queue is found before the others. -/
theorem findRev?_concat {α : Type} (p : α → Bool) (l : List α) (a : α) :
    (l ++ [a]).findRev? p = if p a then some a else l.findRev? p := by
  simp only [List.findRev?_eq_find?_reverse, List.reverse_append, List.reverse_singleton, List.singleton_append, List.find?_cons]
  cases p a <;> rfl

theorem findRev?_some {α : Type} {p : α → Bool} {l : List α} {a : α} (h : l.findRev? p = some a) : a ∈ l ∧ p a = true := by
  rw [List.findRev?_eq_find?_reverse] at h
  exact ⟨List.mem_reverse.1 (List.mem_of_find?_eq_some h), List.find?_some h⟩

theorem isSome_findRev? {α : Type} {p : α → Bool} {l : List α} {a : α} (h : a ∈ l) (hp : p a = true) : (l.findRev? p).isSome := by
  rw [List.findRev?_eq_find?_reverse, List.find?_isSome]
  exact ⟨a, List.mem_reverse.2 h, hp⟩

/-- A change that keeps what is looked for is found changed. -/
theorem findRev?_map {α : Type} {p : α → Bool} {f : α → α} (h : ∀ a, p (f a) = p a) (l : List α) :
    (l.map f).findRev? p = (l.findRev? p).map f := by
  simp only [List.findRev?_eq_find?_reverse, ← List.map_reverse, List.find?_map, Function.comp_def, h]

/-- R343: the queue is sealed up to an entry and open behind it, so that the newest entry of a line is open where any of the line is. -/
theorem open_of_newest {p : DurEntry → Bool} {q : List DurEntry} {e x : DurEntry}
    (hq : ((q.dropWhile (·.sealed)).all fun e => !e.sealed) = true) (he : e ∈ q) (hp : p e = true) (ho : e.sealed = false)
    (hx : q.findRev? p = some x) : x.sealed = false := by
  induction q with
  | nil => exact absurd he List.not_mem_nil
  | cons d r ih =>
    cases hd : d.sealed with
    | false =>
      rw [List.dropWhile_cons_of_neg (by simp [hd])] at hq
      simpa using List.all_eq_true.1 hq x (findRev?_some hx).1
    | true =>
      have her : e ∈ r := (List.mem_cons.1 he).resolve_left fun h => by simp [h, hd] at ho
      rw [List.dropWhile_cons_of_pos hd] at hq
      obtain ⟨y, hy⟩ := Option.isSome_iff_exists.1 (isSome_findRev? her hp)
      rw [List.findRev?, hy] at hx
      exact ih hq her (hy.trans hx)

/-! ### The media -/

/-- Of consecutive bytes that were written each reads back. -/
theorem Memory.get_put_at {m : Memory} (h : m.wf = true) (a : Nat) {bs : List (BitVec 8)} {k : Nat} (hk : k < bs.length) :
    (m.put a bs).get (a + k) = bs[k] := by
  have hbytes := List.getElem_of_eq (Memory.bytes_put h a bs).symm hk
  rw [hbytes]
  simp [Memory.bytes]

section
variable (s : State) (e : DurEntry)

@[simp] theorem State.toMedia_mem : (s.toMedia e).mem = s.mem := by simp only [State.toMedia]
@[simp] theorem State.toMedia_mediaLost : (s.toMedia e).mediaLost = s.mediaLost := by simp only [State.toMedia]

theorem State.toMedia_media : (s.toMedia e).media = s.media.put (64 * e.line) ((upto 64).map fun k => e.data.getD k 0) := by
  simp only [State.toMedia]

theorem State.toMedia_mediaKnown : (s.toMedia e).mediaKnown
    = if s.mediaLost.isSome && !s.mediaKnown.contains e.line then e.line :: s.mediaKnown else s.mediaKnown := by
  simp only [State.toMedia]

end

/-- R342: a line on the media reads as its entry. -/
theorem State.mediaByte_toMedia_same {s : State} (h : s.media.wf = true) {e : DurEntry} {q : Nat} (hq : q / 64 = e.line) :
    (s.toMedia e).mediaByte q = e.data.getD (q % 64) 0 := by
  have hbyte : (s.toMedia e).media.get q = e.data.getD (q % 64) 0 := by
    have hput := Memory.get_put_at h (64 * e.line) (bs := (upto 64).map fun k => e.data.getD k 0) (k := q % 64)
      (by simpa using Nat.mod_lt q (by decide))
    rw [show 64 * e.line + q % 64 = q by omega] at hput
    rw [State.toMedia_media, hput]
    simp
  simp only [State.mediaByte, State.toMedia_mediaLost, State.toMedia_mediaKnown, hbyte]
  cases s.mediaLost with
  | none => rfl
  | some c =>
    have hknown : (if (some c).isSome && !s.mediaKnown.contains e.line then e.line :: s.mediaKnown else s.mediaKnown).contains (q / 64)
        = true := by
      rw [hq]
      split <;> simp_all
    simp only [hknown, if_true]

/-- Every other line of the media stands. -/
theorem State.mediaByte_toMedia_other (s : State) {e : DurEntry} {q : Nat} (hq : q / 64 ≠ e.line) :
    (s.toMedia e).mediaByte q = s.mediaByte q := by
  have hbyte : (s.toMedia e).media.get q = s.media.get q := by
    rw [State.toMedia_media]
    exact Memory.get_put_other _ _ _ _ (by simp only [List.length_map, List.length_range]; omega)
  have hknown : (s.toMedia e).mediaKnown.contains (q / 64) = s.mediaKnown.contains (q / 64) := by
    rw [State.toMedia_mediaKnown]
    split <;> simp [hq]
  simp only [State.mediaByte, State.toMedia_mediaLost, hbyte, hknown]

/-! ### The oldest entry leaves the queue -/

theorem State.durByte_drainOldest {s : State} (h : s.media.wf = true) (q : Nat) : s.drainOldest.durByte q = s.durByte q := by
  unfold State.drainOldest
  split
  · rfl
  · next e r hr =>
    have hmedia : ∀ (t : State), ({ t with durQ := r } : State).mediaByte q = t.mediaByte q := fun _ => rfl
    simp only [State.durByte, State.durEntry, hr, List.findRev?, hmedia]
    cases r.findRev? (fun x => x.line == q / 64) with
    | some x => rfl
    | none =>
      by_cases hline : e.line = q / 64
      · simp [hline, s.mediaByte_toMedia_same h hline.symm]
      · simp [hline, s.mediaByte_toMedia_other (Ne.symm hline)]

@[simp] theorem State.mem_drainOldest (s : State) : s.drainOldest.mem = s.mem := by
  have hmem : ∀ (t : State) (r : List DurEntry), ({ t with durQ := r } : State).mem = t.mem := fun _ _ => rfl
  unfold State.drainOldest
  split
  · rfl
  · rw [hmem, State.toMedia_mem]

theorem State.durByte_durMakeRoom {s : State} (h : s.media.wf = true) (q : Nat) : s.durMakeRoom.durByte q = s.durByte q := by
  unfold State.durMakeRoom
  split
  · rfl
  · exact s.durByte_drainOldest h q

@[simp] theorem State.mem_durMakeRoom (s : State) : s.durMakeRoom.mem = s.mem := by
  unfold State.durMakeRoom
  split
  · rfl
  · exact s.mem_drainOldest

/-- A byte of local memory is what main memory and the durable tier give for it. -/
theorem State.byteAt_congr {s t : State} {q : Nat} (hmem : t.mem.get q = s.mem.get q) (hdur : t.durByte q = s.durByte q) :
    t.byteAt q = s.byteAt q := by
  unfold State.byteAt
  split
  · exact hmem
  · exact hdur
  · rfl

/-! ### A byte of the durable tier is written -/

/-- A line with one byte of its data replaced. -/
theorem getD_set {l : List (BitVec 8)} {i : Nat} (b : BitVec 8) (hi : i < l.length) (j : Nat) :
    (l.set i b).getD j 0 = if j = i then b else l.getD j 0 := by
  by_cases h : j = i
  · subst h; simp [hi]
  · simp [h, Ne.symm h]

section
variable {s : State} (h : s.canonical = true) {pa : Nat} (b : BitVec 8)
include h

/-- R342: the newest entry of the line is open and takes the byte. -/
theorem State.durByte_durPut_open (hany : (s.durQ.any fun e => e.line == pa / 64 && !e.sealed) = true) (q : Nat) :
    (s.durPut pa b).durByte q = if q = pa then b else s.durByte q := by
  simp only [State.canonical, Bool.and_eq_true] at h
  obtain ⟨⟨-, hlines⟩, hsealed⟩ := h
  obtain ⟨e, he, hopen⟩ := List.any_eq_true.1 hany
  simp only [Bool.and_eq_true, beq_iff_eq, Bool.not_eq_true'] at hopen
  rw [State.durPut, if_pos hany]
  simp only [State.durByte, State.durEntry]
  rw [findRev?_map (fun x => by split <;> rfl)]
  by_cases hq : q / 64 = pa / 64
  · have hep : (e.line == q / 64) = true := by simp [hopen.1, hq]
    obtain ⟨x, hx⟩ := Option.isSome_iff_exists.1 (isSome_findRev? (p := fun x : DurEntry => x.line == q / 64) he hep)
    obtain ⟨hmem, hline⟩ := findRev?_some hx
    have hlen : x.data.length = 64 := by simpa using List.all_eq_true.1 hlines x hmem
    rw [hx, Option.map_some]
    simp only [beq_iff_eq.1 hline, hq, open_of_newest hsealed he hep hopen.2 hx, beq_self_eq_true, Bool.not_false, Bool.and_self, if_true]
    rw [getD_set _ (by rw [hlen]; exact Nat.mod_lt _ (by decide))]
    simp only [show q % 64 = pa % 64 ↔ q = pa by omega]
  · rw [if_neg fun h => hq (by rw [h])]
    cases hx : s.durQ.findRev? fun x => x.line == q / 64 with
    | none => rfl
    | some x =>
      have hline : x.line = q / 64 := by simpa using (findRev?_some hx).2
      simp [hline, hq]

/-- R342: a line with no open entry takes a new one of its bytes as they are. -/
theorem State.durByte_durPut_new (hany : (s.durQ.any fun e => e.line == pa / 64 && !e.sealed) = false) (q : Nat) :
    (s.durPut pa b).durByte q = if q = pa then b else s.durByte q := by
  simp only [State.canonical, Bool.and_eq_true] at h
  obtain ⟨⟨⟨-, hmedia⟩, -⟩, -⟩ := h
  have hold : ∀ k, s.durMakeRoom.durByte k = s.durByte k := s.durByte_durMakeRoom hmedia
  rw [State.durPut, if_neg (by rw [hany]; exact Bool.false_ne_true), State.durByte, State.durEntry]
  simp only [findRev?_concat, beq_iff_eq]
  by_cases hq : q / 64 = pa / 64
  · simp only [hq, if_true]
    rw [getD_set _ (by simpa using Nat.mod_lt pa (by decide))]
    simp only [show q % 64 = pa % 64 ↔ q = pa by omega, hold]
    simp [Nat.mod_lt q (show 64 > 0 by decide), show pa / 64 * 64 + q % 64 = q by omega]
  · simp only [Ne.symm hq, if_false]
    rw [if_neg fun h => hq (by rw [h]), ← hold]
    rfl

theorem State.durByte_durPut (q : Nat) : (s.durPut pa b).durByte q = if q = pa then b else s.durByte q := by
  cases hany : s.durQ.any fun e => e.line == pa / 64 && !e.sealed with
  | true => exact State.durByte_durPut_open h b hany q
  | false => exact State.durByte_durPut_new h b hany q

end

@[simp] theorem State.mem_durPut (s : State) (pa : Nat) (b : BitVec 8) : (s.durPut pa b).mem = s.mem := by
  unfold State.durPut
  dsimp only
  split
  · rfl
  · exact s.mem_durMakeRoom

/-! ### A byte of local memory is written -/

/-- R281: a byte of local memory that is written reads as written, and every other as before. -/
theorem State.byteAt_putByte {s : State} (h : s.canonical = true) {pa : Nat} (b : BitVec 8)
    (hp : place pa = .main ∨ place pa = .durable) (q : Nat) :
    (s.putByte pa b).byteAt q = if q = pa then b else s.byteAt q := by
  have hwf : s.mem.wf = true := by
    simp only [State.canonical, Bool.and_eq_true] at h
    exact h.1.1.1
  obtain hp | hp := hp
  · simp only [State.putByte, hp]
    by_cases hq : q = pa
    · subst hq
      simp [State.byteAt, hp, Memory.get_set_same q b hwf]
    · rw [if_neg hq]
      exact State.byteAt_congr (Memory.get_set_other _ _ _ _ hq) rfl
  · simp only [State.putByte, hp]
    by_cases hq : q = pa
    · subst hq
      simp [State.byteAt, hp, State.durByte_durPut h]
    · rw [if_neg hq]
      exact State.byteAt_congr (by rw [State.mem_durPut]) (by rw [State.durByte_durPut h, if_neg hq])

theorem exec_writeQueueToMedia (s : State) : exec .writeQueueToMedia s = .next s.drainOldest := rfl

/-- Settles O58: a write by the place of its byte; and the media hold what the oldest entry held. -/
theorem durableBytesSurviveTheirQueue : Obligations.DurableBytesSurviveTheirQueue := by
  unfold Obligations.DurableBytesSurviveTheirQueue
  intro s hs
  refine ⟨fun pa b hp => ⟨?same, fun q hq => ?other⟩, fun t ht q => ?media⟩
  case same => rw [State.byteAt_putByte hs b hp, if_pos rfl]
  case other => rw [State.byteAt_putByte hs b hp, if_neg hq]
  case media =>
    have hwf : s.media.wf = true := by
      simp only [State.canonical, Bool.and_eq_true] at hs
      exact hs.1.1.2
    cases (exec_writeQueueToMedia s).symm.trans ht
    exact State.byteAt_congr (by rw [State.mem_drainOldest]) (State.durByte_drainOldest hwf q)

end Sys2Proof.Machine
end

section
/-! SUPPORT. Memory events, one lemma for each form that O32 speaks of (R281, R310, R315, R322, R329, R333, R335, R342 to R349). -/

namespace Sys2Proof.Machine

/-! ### Accesses at their home (R281, R315) -/

section
variable {id : Nat} {s : State} {a : Access} (hf : (s.accs.find? fun a => a.id == id) = some a) (hm : s.mayPerform a = true)
include hf hm

theorem exec_accessPerformAtHome (hu : a.unpopulated = false) :
    exec (.accessPerformAtHome id) s = .next (match a.home with
      | .spad c => s.performSpad a c
      | .main => s.performMain a
      | .durable => s.performMain a
      | .device => s.performDevice a
      | .remote l => s.performRemote a l.toNat) := by
  change execAccessPerformAtHome id s = _
  simp only [execAccessPerformAtHome, hf, hm, hu, Bool.not_true, Bool.false_eq_true, if_false] <;> rfl

theorem exec_accessPerformAtHome_unpopulated (hu : a.unpopulated = true) :
    exec (.accessPerformAtHome id) s = .fault .unpopulatedAddress := by
  change execAccessPerformAtHome id s = _
  simp only [execAccessPerformAtHome, hf, hm, hu, Bool.not_true, Bool.false_eq_true, if_false, if_true]

end

/-! ### Walks (R310, R315) -/

section
variable {core facet hn : Nat} {s : State} {p : Handle} (hp : (s.facet core facet).pendingH hn = some p)
  (hz : (s.geode (geodeOf core)).frozen = false) {t : State}
  (ht : t = s.meetWalk (s.facet core facet).pasid p.va.toNat (geodeOf core))
include hp hz ht

/-- The row of a walk that ends: the pending handle takes what the walk found. -/
theorem exec_walkEnd_leaf {l : Leaf} (hw : t.walk (s.facet core facet).pasid p.va.toNat = .ok l) {u : State}
    (hu : u = t.modFacet core facet fun f => f.mapHandles (· == hn) fun x => if x == p then l.handle p.va.toNat p.r p.w else x) :
    exec (.walkEnd core facet hn) s
      = .next (if l.grants p.r p.w then u.modGeode (geodeOf core) fun g => g.fill (s.facet core facet).pasid p.va.toNat l else u) := by
  subst ht hu
  change execWalkEnd core facet hn s = _
  simp only [execWalkEnd, hp, hz, hw, Bool.false_eq_true, if_false]

theorem exec_walkEnd_faulted {c : BitVec 4} (hw : t.walk (s.facet core facet).pasid p.va.toNat = .error c) :
    exec (.walkEnd core facet hn) s
      = .next (t.modFacet core facet fun f =>
          f.mapHandles (· == hn) fun x => if x == p then Handle.faulted p.va.toNat c else x) := by
  subst ht
  change execWalkEnd core facet hn s = _
  simp only [execWalkEnd, hp, hz, hw, Bool.false_eq_true, if_false]

end

/-! ### Revocation (R322) -/

/-- R322: a pinned handle on a core, or in a fossil, matches the request. -/
def State.pinnedBy (s : State) (q : InvalArg) : Bool :=
  let pinned (k : Core) : Bool := k.facets.any fun f => f.2.resident && f.2.pins q
  s.cores.any (fun k => pinned k.2) || s.fossils.any fun x => x.used && x.cores.any fun k => pinned k.2

theorem State.pinnedBy_iff {s : State} {q : InvalArg} : s.pinnedBy q = true ↔
    (s.cores.any fun k => k.2.facets.any fun f => f.2.resident && f.2.pins q) = true
      ∨ (s.fossils.any fun x => x.used && x.cores.any fun k => k.2.facets.any fun f => f.2.resident && f.2.pins q) = true :=
  Bool.or_eq_true_iff

/-- The request's own fields and its count change no pin. -/
theorem State.pinnedBy_countPkg_devPut (s : State) (a hi lo v ev n : Nat) (q : InvalArg) :
    ((s.devPut a hi lo v).countPkg ev n).pinnedBy q = s.pinnedBy q := by
  obtain ⟨hcores, hfossils⟩ := State.holds_countPkg (s.devPut a hi lo v) ev n
  rw [State.pinnedBy, hcores, hfossils]
  rfl

section
variable (v : BitVec 64) {s t : State} (ht : t = s.devPut (aMmr + 0x10) 23 0 (wbits v 23 0))
include ht

theorem exec_invalGo_overrun (h : s.inval.isSome = true ∨ wbits v 3 2 = 3) :
    exec (.invalGo v) s = .next (t.devPut (aMmr + 0x18) 2 2 1) := by
  have hrun : (t.inval.isSome || decide (wbits v 3 2 = 3)) = true := by
    rw [ht]
    simpa using h
  subst ht
  change execInvalGo v s = _
  rw [execInvalGo, State.invalGo]
  exact congrArg Host.Outcome.next (if_pos hrun)

section
variable {u : State} {q : InvalArg} (hi : s.inval = none) (hv : wbits v 3 2 ≠ 3) (hu : u = t.countPkg 0x04 1) (hq : q = u.invalArg v)
include hi hv hu hq

/-- R322: a request that finds none in progress is refused where a pinned page matches, and else revokes. -/
theorem exec_invalGo_pinned (h : s.pinnedBy q = true) : exec (.invalGo v) s = .next (u.devPut (aMmr + 0x18) 1 1 1) := by
  have hrun : ¬(t.inval.isSome || decide (wbits v 3 2 = 3)) = true := by
    rw [ht]
    simpa [hi] using hv
  have hpin : u.pinnedBy q = true := by
    rw [hu, ht, State.pinnedBy_countPkg_devPut, h]
  subst ht hu hq
  change execInvalGo v s = _
  rw [execInvalGo, State.invalGo]
  exact congrArg Host.Outcome.next ((if_neg hrun).trans (if_pos hpin))

theorem exec_invalGo_revokes (h : s.pinnedBy q = false) :
    ∃ w, exec (.invalGo v) s = .next w ∧ w.inval.isSome = true
      ∧ w.dev = ((u.devPut (aMmr + 0x18) 1 1 0).devPut (aMmr + 0x18) 0 0 1).dev := by
  have hrun : ¬(t.inval.isSome || decide (wbits v 3 2 = 3)) = true := by
    rw [ht]
    simpa [hi] using hv
  have hpin : ¬u.pinnedBy q = true := by
    rw [hu, ht, State.pinnedBy_countPkg_devPut, h]
    exact Bool.false_ne_true
  subst ht hu hq
  have hgo : s.invalGo v = _ := (if_neg hrun).trans (if_neg hpin)
  refine ⟨s.invalGo v, rfl, ?_⟩
  rw [hgo]
  exact ⟨rfl, rfl⟩

end

end

theorem exec_invalComplete {s : State} {ids : List Nat} (hi : s.inval = some ids) (ha : (s.accs.any fun a => ids.contains a.id) = false) :
    exec .invalComplete s = .next ({ s with inval := none }.devPut (aMmr + 0x18) 0 0 0) := by
  change execInvalComplete s = _
  simp only [execInvalComplete, hi, ha, Bool.false_eq_true, if_false]

/-! ### Refresh and the patrols (R329, R335, R349) -/

section
variable {vein chan : Nat} {s : State} (hv : vein < 8) (hc : chan < 64) {bal : Int}
  (hb : bal = sextNat (s.devFld (aVein vein + 0x100 + 8 * chan) 7 0) 8)
include hv hc hb

/-- R329: the row of a refresh of a channel that there is. -/
theorem exec_refresh (due waiting : Bool) : exec (.refresh vein chan due waiting) s = .next (
    if due then
      if bal ≤ -8 then s.doRefresh vein chan bal true
      else if waiting then s.devPut (aVein vein + 0x100 + 8 * chan) 7 0 (wrapInt (bal - 1) 8)
      else s.doRefresh vein chan bal false
    else if !waiting && decide (bal < 8) then s.doRefresh vein chan (bal + 1) false
    else s) := by
  subst hb
  change execRefresh vein chan due waiting s = _
  rw [execRefresh, if_neg (by omega)]

end

theorem exec_patrolVisit {vein : Nat} (f : Found) {s : State} (hv : vein < 8) (hon : s.devFld (aVein vein + 0x40) 0 0 ≠ 0) :
    exec (.patrolVisit vein f) s
      = .next ((s.patrol (32 * s.devFld (aVein vein + 0x40) 38 5) f).scrubNext (aVein vein + 0x40) (2 ^ 31)) := by
  change execPatrolVisit vein f s = _
  have hgo : ¬(8 ≤ vein ∨ s.devFld (aVein vein + 0x40) 0 0 = 0) := fun h => h.elim (fun h => by omega) hon
  exact congrArg Host.Outcome.next (if_neg hgo)

theorem exec_durablePatrolVisit (f : Found) {s : State} (hon : s.devFld (unitBase 8 + 0x40) 0 0 ≠ 0) :
    exec (.durablePatrolVisit f) s
      = .next ((s.patrol (2 ^ 40 + 64 * s.devFld (unitBase 8 + 0x40) 38 5) f).scrubNext (unitBase 8 + 0x40) (2 ^ 34)) :=
  congrArg Host.Outcome.next (if_neg hon)

theorem exec_logcntPop {unit : Nat} {s : State} (hu : unit ≤ 8) :
    exec (.logcntPop unit) s = .next { s with logs := s.logs.set unit ((s.logs.get unit []).drop 1) } :=
  congrArg Host.Outcome.next (if_pos hu)

/-! ### Seals and the hold-up domain (R343, R344, R347) -/

theorem State.drainOldest_cons {s : State} {e : DurEntry} {r : List DurEntry} (h : s.durQ = e :: r) :
    s.drainOldest = { s.toMedia e with durQ := r } := by
  rw [State.drainOldest, h]

theorem exec_sealConfirm {s : State} {q : SealReq}
    (h : (s.seals.find? fun q => q.host || !s.frozenTask q.core q.facet q.launch) = some q) :
    exec .sealConfirm s = .next (s.sealStep q) := by
  change execSealConfirm s = _
  rw [execSealConfirm, h]

theorem exec_hpbarGo {s : State} (h : s.devFld aDstat 0 0 ≠ 1) :
    exec .hpbarGo s = .next { s.devPut aDstat 0 0 1 with seals := s.seals ++ [{ host := true }] } :=
  congrArg Host.Outcome.next (if_neg h)

theorem exec_holdupTest (ok : Bool) (s : State) : exec (.holdupTest ok) s = .next (s.devPut aDstat 1 1 (if ok then 0 else 1)) := rfl

/-- Settles O32: each event by its lemma above. -/
theorem memoryEventsFollowTheirRule : Obligations.MemoryEventsFollowTheirRule := by
  unfold Obligations.MemoryEventsFollowTheirRule
  refine ⟨fun _ _ _ => exec_accessPerformAtHome, ?walk, ?inval, fun _ _ => exec_invalComplete, ?refresh, fun _ f _ => exec_patrolVisit f,
    fun f _ => exec_durablePatrolVisit f, fun _ _ => exec_logcntPop, ?media, fun _ _ => exec_sealConfirm, fun _ => exec_hpbarGo,
    exec_holdupTest, fun _ _ _ => exec_accessPerformAtHome_unpopulated⟩
  case walk =>
    rintro core facet hn s t u p _ hp hz rfl ht
    refine ⟨fun l hw hu => ⟨fun hg => ?_, fun hg => ?_⟩, fun c => exec_walkEnd_faulted hp hz ht⟩
    · rw [exec_walkEnd_leaf hp hz ht hw hu, if_pos hg]
    · rw [exec_walkEnd_leaf hp hz ht hw hu, hg]
      rfl
  case inval =>
    intro v s t u q pinned ht hu hq hpin
    obtain rfl : pinned = fun k => k.facets.any fun f => f.2.resident && f.2.pins q := funext hpin
    refine ⟨exec_invalGo_overrun v ht, fun hi hv => ⟨fun h => exec_invalGo_pinned v ht hi hv hu hq (State.pinnedBy_iff.2 h),
      fun hk hf => ?_⟩⟩
    have hnone : s.pinnedBy q = false := (Bool.or_eq_false_iff).2 ⟨hk, hf⟩
    obtain ⟨w, hexec, hbusy, hdev⟩ := exec_invalGo_revokes v ht hi hv hu hq hnone
    refine ⟨w, hexec, hbusy, ?busy, ?refused⟩
    all_goals rw [State.devFld, State.devGet, hdev]
    case busy => exact State.devFld_devPut_same _ _ 0 1 (by decide)
    case refused => exact (State.devFld_devPut_apart _ _ 1 (by decide)).trans (State.devFld_devPut_same _ _ 1 0 (by decide))
  case refresh =>
    intro vein chan s bal hv hc hb
    have hrow := exec_refresh hv hc hb
    refine ⟨fun h w => ?_, fun h => ?_, fun h => ?_, fun h => ?_⟩
    · rw [hrow, if_pos rfl, if_pos h]
    · rw [hrow, if_pos rfl, if_neg (by omega), if_pos rfl]
    · rw [hrow, if_pos rfl, if_neg (by omega)]
      rfl
    · rw [hrow]
      simp [h]
  case media =>
    intro s e r hq
    rw [exec_writeQueueToMedia, State.drainOldest_cons hq]

end Sys2Proof.Machine
end

section
/-! SUPPORT. A store at local main memory that meets no error (R281, R282, R332): the bytes that it writes, and what else its words'
counters, the mirrored ranges (R351), the slots' NOTIFY words (R356) and hotness (R327) leave as it is. -/

namespace Sys2Proof.Machine

/-! ### Bytes merged into a memory -/

/-- Writes of bytes, one after the other, each of its own bits (R230). -/
def Memory.merge (m : Memory) (ws : List ByteWrite) : Memory := ws.foldl (fun m w => m.set w.addr (mergeByte (m.get w.addr) w)) m

/-- R230: a write that comes twice writes what it writes once. -/
@[simp] theorem mergeByte_mergeByte (old : BitVec 8) (w : ByteWrite) : mergeByte (mergeByte old w) w = mergeByte old w := by
  ext i hi
  simp only [mergeByte, BitVec.getElem_or, BitVec.getElem_and, BitVec.getElem_not]
  cases old[i] <;> cases w.bits[i] <;> simp

theorem Memory.get_merge_other {ws : List ByteWrite} {q : Nat} (hq : ∀ w ∈ ws, w.addr ≠ q) (m : Memory) :
    (m.merge ws).get q = m.get q := by
  induction ws generalizing m with
  | nil => rfl
  | cons x r ih =>
    obtain ⟨hx, hr⟩ := List.forall_mem_cons.1 hq
    exact (ih hr _).trans (Memory.get_set_other _ _ _ _ (Ne.symm hx))

/-- A byte that one write of the list speaks of holds the bits of that write. -/
theorem Memory.get_merge {ws : List ByteWrite} {w : ByteWrite} (hw : w ∈ ws) (hone : ∀ x ∈ ws, x.addr = w.addr → x = w) {m : Memory}
    (h : m.wf = true) : (m.merge ws).get w.addr = mergeByte (m.get w.addr) w := by
  induction ws generalizing m with
  | nil => exact absurd hw List.not_mem_nil
  | cons x r ih =>
    obtain ⟨hx, hr⟩ := List.forall_mem_cons.1 hone
    have hset : (m.set x.addr (mergeByte (m.get x.addr) x)).wf = true := Memory.wf_set _ _ h
    change Memory.get (Memory.merge (m.set x.addr _) r) w.addr = _
    by_cases hwr : w ∈ r
    · rw [ih hwr hr hset]
      by_cases hxw : x.addr = w.addr
      · rw [hx hxw, Memory.get_set_same _ _ h, mergeByte_mergeByte]
      · rw [Memory.get_set_other _ _ _ _ (Ne.symm hxw)]
    · obtain rfl : w = x := (List.mem_cons.1 hw).resolve_right hwr
      rw [Memory.get_merge_other (fun y hy hyw => hwr (hr y hy hyw ▸ hy)), Memory.get_set_same _ _ h]

/-! ### The words that bytes touch -/

theorem mem_insertChan {g h : Nat} {l : List Nat} : h ∈ insertChan g l ↔ h = g ∨ h ∈ l := by
  induction l with
  | nil => simp [insertChan]
  | cons x r ih =>
    unfold insertChan
    split
    · exact List.mem_cons
    · rw [List.mem_cons, ih, List.mem_cons, or_left_comm]

/-- The words of a request are those of its bytes. -/
theorem mem_grains {g : Nat} {pas : List Nat} : g ∈ grains pas ↔ ∃ pa ∈ pas, grainBase pa = g := by
  have hfold : ∀ l acc : List Nat, g ∈ l.foldl (fun l g => insertChan g l) acc ↔ g ∈ l ∨ g ∈ acc := fun l => by
    induction l with
    | nil => simp
    | cons x r ih =>
      intro acc
      rw [List.foldl_cons, ih, mem_insertChan, List.mem_cons]
      tauto
  rw [grains, hfold, List.mem_eraseDups, List.mem_map]
  simp

/-- The writes of a request in the order in which its words are written. -/
def wordByWord (ws : List ByteWrite) : List ByteWrite :=
  (grains (ws.map (·.addr))).flatMap fun g => ws.filter fun x => grainBase x.addr == g

@[simp] theorem mem_wordByWord {ws : List ByteWrite} {w : ByteWrite} : w ∈ wordByWord ws ↔ w ∈ ws := by
  simp only [wordByWord, List.mem_flatMap, List.mem_filter, beq_iff_eq, mem_grains, List.mem_map]
  exact ⟨fun ⟨_, _, hw, _⟩ => hw, fun hw => ⟨_, ⟨_, ⟨w, hw, rfl⟩, rfl⟩, hw, rfl⟩⟩

theorem place_eq_main {pa : Nat} : place pa = .main ↔ pa < 0x8000000000 := by
  unfold place
  repeat' split
  all_goals simp only [reduceCtorEq, false_iff, true_iff]; omega

/-- The word of a byte of main memory lies in main memory. -/
theorem place_grainBase {pa : Nat} (h : place pa = .main) : place (grainBase pa) = .main := by
  rw [place_eq_main] at h ⊢
  exact (Nat.div_mul_le_self _ _).trans_lt h

/-! ### What stands besides main memory -/

/-- A state in which a store has left `m` in main memory: it has no error that the first had not, hotness counts where it did, and the
same accesses are outstanding. -/
structure State.LeavesMem (s : State) (m : Memory) (t : State) : Prop where
  stored : t.stored = { s.stored with mem := m }
  hot : ∀ v, t.devGet (aVein v + 0x38) = s.devGet (aVein v + 0x38)
  accs : t.accs = s.accs

namespace State.LeavesMem

variable {s t : State} {m : Memory}

theorem start (s : State) : s.LeavesMem s.mem s := ⟨rfl, fun _ => rfl, rfl⟩

/-- A change of neither the memories nor the registers nor the accesses. -/
theorem of_stored (h : s.LeavesMem m t) {u : State} (hs : u.stored = t.stored) (hd : u.dev = t.dev) (ha : u.accs = t.accs) :
    s.LeavesMem m u :=
  ⟨hs.trans h.stored, fun v => by rw [State.devGet, hd]; exact h.hot v, ha.trans h.accs⟩

theorem memPoison (h : s.LeavesMem m t) : t.memPoison = s.memPoison := (congrArg State.memPoison h.stored :)
theorem flaws (h : s.LeavesMem m t) : t.flaws = s.flaws := (congrArg State.flaws h.stored :)
theorem mem (h : s.LeavesMem m t) : t.mem = m := (congrArg State.mem h.stored :)

/-- The bytes of such a state. -/
theorem byteAt (h : s.LeavesMem m t) (q : Nat) : t.byteAt q = if place q = .main then m.get q else s.byteAt q := by
  have hstored : t.byteAt q = ({ s.stored with mem := m } : State).byteAt q := by rw [← h.stored]; rfl
  rw [hstored]
  unfold State.byteAt
  cases place q <;> rfl

theorem foldl {α : Type} {g : State → α → State} (hg : ∀ t a, s.LeavesMem m t → s.LeavesMem m (g t a)) (l : List α)
    (h : s.LeavesMem m t) : s.LeavesMem m (l.foldl g t) := by
  induction l generalizing t with
  | nil => exact h
  | cons a l ih => exact ih (hg t a h)

/-! ### Counters (R339) -/

theorem devPut (h : s.LeavesMem m t) {a : Nat} (ha : ∀ v, aVein v + 0x38 ≠ a) (hi lo x : Nat) : s.LeavesMem m (t.devPut a hi lo x) :=
  ⟨h.stored, fun v => (State.devGet_devPut_other _ _ _ _ _ _ (ha v)).trans (h.hot v), h.accs⟩

theorem countAt (h : s.LeavesMem m t) {a : Nat} (ha : ∀ v, aVein v + 0x38 ≠ a + 8) (ev n : Nat) : s.LeavesMem m (t.countAt a ev n) := by
  unfold State.countAt
  generalize 2 ^ 48 = full
  dsimp only
  repeat' split
  · exact (h.devPut ha _ _ _).devPut ha _ _ _
  · exact h.devPut ha _ _ _
  · exact h

theorem count (h : s.LeavesMem m t) {base counters : Nat} (hb : ∀ v, ∀ k < counters, aVein v + 0x38 ≠ base + 16 * k + 8) (ev n : Nat) :
    s.LeavesMem m (t.count base counters ev n) := by
  unfold State.count
  have hk : ∀ k ∈ upto counters, k < counters := fun k => List.mem_range.1
  generalize upto counters = l at hk
  induction l generalizing t with
  | nil => exact h
  | cons k l ih =>
    obtain ⟨hk, hl⟩ := List.forall_mem_cons.1 hk
    exact ih (h.countAt (fun v => hb v k hk) ev n) hl

theorem countVein (h : s.LeavesMem m t) (v ev n : Nat) : s.LeavesMem m (t.countVein v ev n) :=
  h.count (fun w k hk => by unfold aVein; omega) ev n

theorem countPkg (h : s.LeavesMem m t) (ev n : Nat) : s.LeavesMem m (t.countPkg ev n) :=
  h.count (fun w k hk => by unfold aVein aPkgCnt; omega) ev n

theorem countRead (h : s.LeavesMem m t) (g : Nat) : s.LeavesMem m (t.countRead g) := by
  unfold State.countRead
  split
  · exact h.countVein _ _ _
  · exact h

/-! ### The mirror and the NOTIFY words (R351, R356) -/

theorem mirQ (h : s.LeavesMem m t) (q : List MirWrite) : s.LeavesMem m { t with mirQ := q } := h.of_stored rfl rfl rfl

theorem tookPort (h : s.LeavesMem m t) : s.LeavesMem m t.tookPort := by
  have hnext : s.LeavesMem m { t with nextId := t.nextId + 1 } := h.of_stored rfl rfl rfl
  exact hnext.countPkg _ _

theorem mirPort (h : s.LeavesMem m t) : s.LeavesMem m t.mirPort := by
  unfold State.mirPort
  split
  · exact (h.mirQ _).tookPort
  · exact h

theorem mirrorWord (h : s.LeavesMem m t) (word : Nat) (w : Author) : s.LeavesMem m (t.mirrorWord word w) := by
  unfold State.mirrorWord
  split
  · exact (h.mirQ _).mirPort
  · repeat' split
    · exact h
    · exact h.mirQ _
    · exact h

theorem notify (h : s.LeavesMem m t) : s.LeavesMem m t.notify := h.of_stored rfl rfl rfl

/-! ### Main memory and its words (R281, R332) -/

/-- Writes of main memory, byte after byte. -/
theorem putBytes (h : s.LeavesMem m t) {ws : List ByteWrite} (hp : ∀ w ∈ ws, place w.addr = .main) :
    s.LeavesMem (m.merge ws) (ws.foldl (fun t x => t.putByte x.addr (mergeByte (t.byteAt x.addr) x)) t) := by
  induction ws generalizing m t with
  | nil => exact h
  | cons x r ih =>
    obtain ⟨hx, hr⟩ := List.forall_mem_cons.1 hp
    refine ih ?_ hr
    have hbyte : t.byteAt x.addr = m.get x.addr := by rw [h.byteAt, if_pos hx]
    simp only [State.putByte, hx, hbyte]
    refine ⟨?_, h.hot, h.accs⟩
    have hstored : ({ t with mem := t.mem.set x.addr (mergeByte (m.get x.addr) x) } : State).stored
        = { t.stored with mem := t.mem.set x.addr (mergeByte (m.get x.addr) x) } := rfl
    rw [hstored, h.stored, h.mem]

/-- Where no error stands, none is forgotten. -/
theorem forgetFlaw (h : s.LeavesMem m t) (hf : s.flaws = []) (g : Nat) : s.LeavesMem m (t.forgetFlaw g) := by
  have hnone : t.flaws = [] := h.flaws.trans hf
  have hsame : (t.forgetFlaw g).stored = t.stored := by simp [State.stored, State.forgetFlaw, hnone]
  exact h.of_stored hsame rfl rfl

section
variable (hf : s.flaws = []) (hp : s.memPoison = [])
include hf hp

/-- Nor is poison cleared where no word has any. -/
theorem cleanWord (h : s.LeavesMem m t) {g : Nat} (hg : place g = .main) : s.LeavesMem m (t.cleanWord g) := by
  have hnone : (t.forgetFlaw g).memPoison = [] := h.memPoison.trans hp
  have hsame : (t.cleanWord g).stored = (t.forgetFlaw g).stored := by simp [State.stored, State.cleanWord, hg, hnone]
  refine (h.forgetFlaw hf g).of_stored hsame ?_ ?_ <;> simp only [State.cleanWord, hg]

/-- R332: the writes of a word that meets no error, merged into it. -/
theorem putGrain (h : s.LeavesMem m t) {g : Nat} (hg : place g = .main) {ws : List ByteWrite} (hw : ∀ w ∈ ws, place w.addr = .main)
    (tol tpol : Bool) (w : Who) : s.LeavesMem (m.merge ws) (t.putGrain g ws tol tpol w) := by
  have hclean : ∀ {u : State}, s.LeavesMem m u → u.poisoned g = false := fun hu => by
    simp [State.poisoned, hg, hu.memPoison, hp]
  unfold State.putGrain
  extract_lets n full whole old u bad x y c z
  have hu : s.LeavesMem m u := by
    unfold u
    split
    · exact h.forgetFlaw hf g
    · rw [State.meetAt_noFlaw (h.flaws.trans hf)]
      exact h
  have hx : x = u := by simp [x, bad, hclean hu]
  have hy : s.LeavesMem (m.merge ws) y := by
    unfold y
    rw [hx]
    exact hu.putBytes hw
  have hz : s.LeavesMem (m.merge ws) z := by
    have hc : s.LeavesMem (m.merge ws) c := hy.countVein _ _ _
    unfold z
    repeat' split
    · exact hc
    · exact (hc.countRead g).countVein _ _ _
    · exact hy
  split
  · exact hz.cleanWord hf hp hg
  · simpa [old, hclean h] using hz

/-- R281: the writes of a request at main memory, word by word. -/
theorem storeWords (h : s.LeavesMem m t) {ws : List ByteWrite} (hw : ∀ w ∈ ws, place w.addr = .main) (tol tpol : Bool) (w : Who)
    (by' : Author) :
    s.LeavesMem (m.merge (wordByWord ws)) (t.storeWords ws [] tol tpol w by') := by
  have hmain : ∀ g ∈ grains (ws.map (·.addr)), place g = .main := fun g hg => by
    obtain ⟨pa, hpa, rfl⟩ := mem_grains.1 hg
    obtain ⟨x, hx, rfl⟩ := List.mem_map.1 hpa
    exact place_grainBase (hw x hx)
  unfold State.storeWords wordByWord
  refine State.LeavesMem.notify ?_
  generalize grains (ws.map (·.addr)) = gs at hmain
  induction gs generalizing m t with
  | nil => exact h
  | cons g gs ih =>
    obtain ⟨hg, hgs⟩ := List.forall_mem_cons.1 hmain
    rw [List.flatMap_cons, Memory.merge, List.foldl_append, List.foldl_cons]
    refine ih ?_ hgs
    have hput := h.putGrain hf hp hg (ws := ws.filter fun x => grainBase x.addr == g)
      (fun x hx => hw x (List.mem_filter.1 hx).1) tol tpol w
    exact hput.mirrorWord _ _

end

/-- R327: with hotness off a request counts nowhere. -/
theorem hot_off (h : s.LeavesMem m t) (hoff : ∀ v < 8, s.devFld (aVein v + 0x38) 0 0 = 0) (pas : List Nat) (w : Who) :
    t.hot pas w = t := by
  have hblock : ∀ b, t.hotBlock b w = t := fun b => by
    have hvein : veinOf (65536 * b) < 8 := Nat.mod_lt _ (by decide)
    have hzero : t.devFld (aVein (veinOf (65536 * b)) + 0x38) 0 0 = 0 := by
      rw [State.devFld, h.hot]
      exact hoff _ hvein
    exact if_pos hzero
  exact List.foldl_fixed' hblock _

end State.LeavesMem

/-! ### The store -/

/-- Settles O60: the store leaves its bytes merged into main memory, which holds each once. -/
theorem storeAtHomeWritesItsBytesOnly : Obligations.StoreAtHomeWritesItsBytesOnly := by
  unfold Obligations.StoreAtHomeWritesItsBytesOnly
  intro id s a ws hfind hmay hhome hop hnodup hmain hcanon hpoison hflaws _ hhot
  have hpop : a.unpopulated = false := by
    simp only [Access.unpopulated, hhome, hop, AccessOp.addrs, List.any_eq_false, List.forall_mem_map]
    exact fun w hw => by simp [hmain w hw]
  have hid : a.id = id := by simpa using List.find?_some hfind
  have hwf : (s.dropAccess a.id).mem.wf = true := by
    simp only [State.canonical, Bool.and_eq_true] at hcanon
    exact hcanon.1.1.1
  have hstore := State.LeavesMem.storeWords (s := s.dropAccess a.id) hflaws hpoison (.start _) hmain a.tol a.tpol
    (whoFacet a.core a.pasid) a.author
  refine ⟨(s.dropAccess a.id).storeWords ws [] a.tol a.tpol (whoFacet a.core a.pasid) a.author, ?perform, fun w hw => ?written,
    fun q hq => ?other, ?gone⟩
  case perform =>
    rw [exec_accessPerformAtHome hfind hmay hpop, hhome]
    simp only [State.performMain, hop, State.storeMain]
    rw [hstore.hot_off hhot]
  case written =>
    have hone : ∀ x ∈ ws, x.addr = w.addr → x = w := fun x hx => List.inj_on_of_nodup_map hnodup hx hw
    rw [hstore.byteAt, if_pos (hmain w hw), Memory.get_merge (mem_wordByWord.2 hw) (fun x hx => hone x (mem_wordByWord.1 hx)) hwf]
    simp only [State.byteAt, hmain w hw]
    rfl
  case other =>
    rw [hstore.byteAt]
    split
    · next hp =>
      rw [Memory.get_merge_other fun x hx hxq => hq (List.mem_map.2 ⟨x, mem_wordByWord.1 hx, hxq⟩)]
      simp only [State.byteAt, hp]
      rfl
    · rfl
  case gone =>
    rw [hstore.accs, hid]
    simp [State.dropAccess]

end Sys2Proof.Machine
end

section
/-! SUPPORT. Handles (R310, R312, R318 to R320): the order of the checks of an access, and the rows of the operations that use one. -/

namespace Sys2Proof.Machine

/-- The first check of a list that fails is the trap; where it holds, the others decide. -/
theorem firstTrap_need_cons (ok : Bool) (x : TrapInfo) (l : List (Option TrapInfo)) :
    firstTrap (need ok x :: l) = if ok = false then some x else firstTrap l := by
  cases ok <;> rfl

/-- An operation whose guard and sources have good parity fails the checks of its entry only. -/
theorem State.issueTrap_of_parity {s : State} {i : Instr} (hg : s.guard i.guard = true) (hp : s.parityTrap i true = none) :
    s.issueTrap i = s.entryTrap i := by
  simp only [State.issueTrap, hg, hp, if_true]
  cases h : s.entryTrap i <;> rfl

/-- The entry of an access through a handle has the handle's checks and no others. -/
theorem State.entryTrap_of_hUse {s : State} {i : Instr} {u : HUse} (h : s.hUse i = some u) : s.entryTrap i = hTrap i u := by
  unfold State.hUse at h
  split at h
  case h_7 => contradiction
  all_goals
    obtain rfl := Option.some.inj h
    rfl

/-- R312, R320: the checks of a handle, each reached where those before it hold. -/
theorem hTrap_eq (i : Instr) (u : HUse) :
    hTrap i u
      = if u.h.valid = false then some (trapOf i .handleFault 0 u.hn.toNat u.h.fcode.toNat)
        else if (u.rd = true ∧ u.h.r = false) ∨ (u.wr = true ∧ u.h.w = false) then some (trapOf i .handleFault 0 u.hn.toNat 2)
        else if u.h.inPage u.ea u.n = false then some (trapOf i .handleFault 0 u.hn.toNat 5)
        else if u.h.dev = true ∧ (u.devForm = false ∨ u.ea % 8 ≠ 0) then some (trapOf i .handleFault 0 u.hn.toNat 7)
        else none := by
  have hperm : ((!u.rd || u.h.r) && (!u.wr || u.h.w)) = false ↔ (u.rd = true ∧ u.h.r = false) ∨ (u.wr = true ∧ u.h.w = false) := by
    cases u.rd <;> cases u.h.r <;> simp
  have hdev : (!u.h.dev || u.devForm && u.ea % 8 == 0) = false ↔ u.h.dev = true ∧ (u.devForm = false ∨ u.ea % 8 ≠ 0) := by
    cases u.h.dev <;> cases u.devForm <;> simp
  simp only [hTrap, firstTrap_need_cons, hperm, hdev]
  rfl

/-- Settles O54: with good parity the issue check is that of the handle, whose checks come in their order. -/
theorem handleChecksComeInOrder : Obligations.HandleChecksComeInOrder := by
  unfold Obligations.HandleChecksComeInOrder
  intro i s u hu hg hp
  rw [State.issueTrap_of_parity hg hp, State.entryTrap_of_hUse hu, hTrap_eq]

/-- Settles O23: each row is the shared frame around the access that leaves the core or the handle that is issued. -/
theorem handleAccessesLeaveTheCore : Obligations.HandleAccessesLeaveTheCore := by
  unfold Obligations.HandleAccessesLeaveTheCore
  refine ⟨fun _ _ _ _ _ _ _ _ => slotOp_ready, fun _ _ _ _ _ _ _ _ => slotOp_ready, fun _ _ _ _ _ _ _ _ _ => slotOp_ready,
    fun _ _ _ _ _ _ _ _ _ _ => slotOp_ready, fun _ _ _ _ _ _ _ _ _ => slotOp_ready, fun _ _ _ _ _ _ => slotOp_ready,
    fun _ _ _ _ _ => slotOp_ready, fun _ _ _ => slotOp_ready⟩

end Sys2Proof.Machine
end

section
/-! SUPPORT. Entries of a page table (R307, R313 to R315): what each gives the walk that reads it. -/

namespace Sys2Proof.Machine

/-- R315: what the walk does with an entry that it could read: it ends with a code or a leaf, or goes on in the next table. -/
def State.follow (s : State) (va lvl : Nat) : Except (BitVec 4) (Leaf ⊕ Nat) → Except (BitVec 4) Leaf
  | .error c => .error c
  | .ok (.inl leaf) => .ok leaf
  | .ok (.inr next) => s.walkFrom va lvl next

/-- R313, R315: a walk reads the entry of its table that the address selects at the level. -/
theorem State.walkFrom_succ (s : State) {va lvl table pa : Nat}
    (h : pa = table + 8 * (va / 2 ^ (levelBits lvl).1 % 2 ^ (levelBits lvl).2)) :
    s.walkFrom va (lvl + 1) table
      = if s.poisoned pa then .error 6 else s.follow va lvl (entryAt lvl (s.numAt pa 8)) := by
  subst h
  rfl

/-! ### One entry (R307, R314, R315) -/

section
variable {lvl e : Nat}

theorem entryAt_invalid (h : e.testBit 0 = false) : entryAt lvl e = .error 1 := by
  simp [entryAt, h]

/-- The size of page that a leaf at a level below 3 gives. -/
theorem leafSize_eq (h : lvl < 3) : (if lvl = 0 then 0 else if lvl = 1 then 1 else 2) = BitVec.ofNat 2 lvl := by
  interval_cases lvl <;> rfl

section
variable (hv : e.testBit 0 = true) (hl : e.testBit 1 = true)
include hv hl

theorem entryAt_badLeaf
    (h : 3 ≤ lvl ∨ 256 * nbits e 47 8 % 2 ^ pageBits (BitVec.ofNat 2 lvl) ≠ 0 ∨ (e.testBit 7 = false ∧ nbits e 63 48 ≠ 0)
      ∨ (e.testBit 7 = false ∧ place (256 * nbits e 47 8) = .hole)
      ∨ (place (256 * nbits e 47 8) = .device ∧ (e.testBit 7 = true ∨ lvl ≠ 0))) :
    entryAt lvl e = .error 3 := by
  by_cases hlvl : 3 ≤ lvl
  · simp [entryAt, hv, hl, hlvl]
  · simp only [entryAt, hv, hl, leafSize_eq (Nat.lt_of_not_le hlvl)]
    rcases h with h | h | ⟨hr, h⟩ | ⟨hr, h⟩ | ⟨hd, h⟩
    · exact absurd h hlvl
    · simp [h]
    · simp [hr, h]
    · simp [hr, h]
    · rcases h with h | h <;> simp [hd, h]

theorem entryAt_leaf (hlvl : lvl < 3) (halign : 256 * nbits e 47 8 % 2 ^ pageBits (BitVec.ofNat 2 lvl) = 0)
    (hlocal : e.testBit 7 = false → nbits e 63 48 = 0 ∧ place (256 * nbits e 47 8) ≠ .hole)
    (hdev : place (256 * nbits e 47 8) = .device → e.testBit 7 = false ∧ lvl = 0) :
    entryAt lvl e = .ok (.inl
      { psize := BitVec.ofNat 2 lvl, r := e.testBit 2, w := e.testBit 3, tol := e.testBit 4, tpol := e.testBit 5, pin := e.testBit 6
        rem := e.testBit 7, dev := !e.testBit 7 && place (256 * nbits e 47 8) == .device
        frame := BitVec.ofNat 32 (256 * nbits e 47 8 / 65536), lode := BitVec.ofNat 16 (nbits e 63 48) }) := by
  have hrem : (!e.testBit 7 && nbits e 63 48 != 0) = false := by
    cases h : e.testBit 7
    · simp [(hlocal h).1]
    · rfl
  have hhole : (!e.testBit 7 && place (256 * nbits e 47 8) == .hole) = false := by
    cases h : e.testBit 7
    · simp [(hlocal h).2]
    · rfl
  have hbig : (place (256 * nbits e 47 8) == .device && (e.testBit 7 || lvl != 0)) = false := by
    cases h : place (256 * nbits e 47 8) == .device
    · rfl
    · obtain ⟨hr, h0⟩ := hdev (eq_of_beq h)
      simp [hr, h0]
  simp only [entryAt, hv, hl, leafSize_eq hlvl, halign, Nat.not_le.2 hlvl, hrem, hhole, hbig]
  rfl

end

section
variable (hv : e.testBit 0 = true) (ht : e.testBit 1 = false)
include hv ht

theorem entryAt_badTable
    (h : lvl = 0 ∨ e.testBit 7 = true ∨ nbits e 63 48 ≠ 0 ∨ place (256 * nbits e 47 8) ≠ .main
      ∨ 256 * nbits e 47 8 % (if lvl = 1 then 256 else 4096) ≠ 0) :
    entryAt lvl e = .error 3 := by
  simp only [entryAt, hv, ht]
  rcases h with h | h | h | h | h <;> simp [h]

theorem entryAt_table (hlvl : lvl ≠ 0) (hr : e.testBit 7 = false) (h0 : nbits e 63 48 = 0) (hm : place (256 * nbits e 47 8) = .main)
    (halign : 256 * nbits e 47 8 % (if lvl = 1 then 256 else 4096) = 0) :
    entryAt lvl e = .ok (.inr (256 * nbits e 47 8)) := by
  simp [entryAt, hv, ht, hlvl, hr, h0, hm, halign]

end

end

/-- R307: the frame number of a leaf, from its address. -/
theorem leafFrame_eq (e : Nat) : (BitVec.ofNat 32 (256 * nbits e 47 8 / 65536)).toNat = nbits e 47 16 := by
  simp only [nbits, BitVec.toNat_ofNat]
  omega

theorem leafLode_eq (e : Nat) : (BitVec.ofNat 16 (nbits e 63 48)).toNat = nbits e 63 48 := by
  simp only [nbits, BitVec.toNat_ofNat]
  omega

/-- Settles O56: a poisoned entry ends the walk, and one that is read gives it what its fields say. -/
theorem pageWalkEndsWithItsCode : Obligations.PageWalkEndsWithItsCode := by
  unfold Obligations.PageWalkEndsWithItsCode
  intro s va lvl table pa e hpa he
  rw [State.walkFrom_succ s hpa, ← he]
  refine ⟨fun hp => if_pos hp, fun hp => ?_⟩
  rw [hp, if_neg Bool.false_ne_true]
  refine ⟨fun hv => ?invalid, fun hv hl h => ?badLeaf, fun hv ht h => ?badTable, ?leaf, fun hv ht hlvl hr h0 hm halign => ?table⟩
  case invalid => rw [entryAt_invalid hv, State.follow]
  case badLeaf => rw [entryAt_badLeaf hv hl h, State.follow]
  case badTable => rw [entryAt_badTable hv ht h, State.follow]
  case leaf =>
    rintro p rfl hv hl hlvl halign hlocal hdev
    rw [entryAt_leaf hv hl hlvl halign hlocal hdev, State.follow]
    exact ⟨_, rfl, rfl, rfl, rfl, rfl, rfl, rfl, rfl, rfl, leafLode_eq _, leafFrame_eq _⟩
  case table => rw [entryAt_table hv ht hlvl hr h0 hm halign, State.follow]

end Sys2Proof.Machine
end

section
/-! SUPPORT. Revocation (R322, R326): what an accepted request makes of handles, facets, cores and cached leaves. -/

namespace Sys2Proof.Machine

/-- R322: a handle of an address space after a request. -/
def Handle.revoked (h : Handle) (q : InvalArg) (pasid : BitVec 20) : Handle :=
  if h.valid && q.matches pasid h then { h with valid := false, fcode := 4 } else h

/-- R322: a facet after a request: its handles in flight and in replay are met too. -/
def Facet.revoked (f : Facet) (q : InvalArg) : Facet := f.mapHandles (fun _ => true) (·.revoked q f.pasid)

/-- R322: a core after a request. -/
def Core.revoked (k : Core) (q : InvalArg) : Core := { k with facets := k.facets.map fun f => (f.1, f.2.revoked q) }

/-- R322: a geode after a request: no cached leaf is left that matches. -/
def Geode.revoked (g : Geode) (q : InvalArg) : Geode := { g with tcache := g.tcache.filter fun e => !q.leafMatches e }

/-- A table whose values are all changed gives the changed value, one of no key too where its default is kept. -/
theorem Tbl.get_map {α : Type} (t : Tbl α) (k : Nat) {d : α} {g : α → α} (hd : g d = d) :
    Tbl.get (t.map fun e => (e.1, g e.2)) k d = g (Tbl.get t k d) := by
  induction t with
  | nil => exact hd.symm
  | cons e r ih =>
    simp only [List.map_cons, Tbl.get, ih]
    split <;> rfl

theorem Facet.handle_revoked (f : Facet) (q : InvalArg) (hn : Nat) :
    (f.revoked q).h.get hn {} = (f.h.get hn {}).revoked q f.pasid :=
  Tbl.get_map f.h hn (g := (·.revoked q f.pasid)) rfl

theorem Core.facet_revoked (k : Core) (q : InvalArg) (n : Nat) : (k.revoked q).facet n = (k.facet n).revoked q :=
  Tbl.get_map k.facets n (g := (·.revoked q)) rfl

theorem Geode.leafMatches_revoked (g : Geode) {q : InvalArg} {e : TLeaf} (h : e ∈ (g.revoked q).tcache) : q.leafMatches e = false := by
  simpa using (List.mem_filter.1 h).2

section
variable {v : BitVec 64} {s u : State} {q : InvalArg} (hi : s.inval = none) (hv : wbits v 3 2 ≠ 3)
  (hu : u = (s.devPut (aMmr + 0x10) 23 0 (wbits v 23 0)).countPkg 0x04 1) (hq : q = u.invalArg v) (hpin : s.pinnedBy q = false)
include hi hv hu hq hpin

/-- R322: an accepted request changes every core and geode, and beside them two fields and the accesses it waits for. -/
theorem State.invalGo_accepted : ∃ ids, s.invalGo v
    = { (u.devPut (aMmr + 0x18) 1 1 0).devPut (aMmr + 0x18) 0 0 1 with
        cores := s.cores.map fun k => (k.1, k.2.revoked q)
        geodes := s.geodes.map fun g => (g.1, g.2.revoked q)
        inval := some ids } := by
  have hrun : ¬((s.devPut (aMmr + 0x10) 23 0 (wbits v 23 0)).inval.isSome || decide (wbits v 3 2 = 3)) = true := by
    simpa [hi] using hv
  have hbeside : u.beside = s.beside := by
    rw [hu, State.countPkg_beside, State.devPut_beside]
  have hcores : u.cores = s.cores := show u.beside.cores = s.beside.cores by rw [hbeside]
  have hgeodes : u.geodes = s.geodes := show u.beside.geodes = s.beside.geodes by rw [hbeside]
  have hnone : ¬u.pinnedBy q = true := by
    rw [hu, State.pinnedBy_countPkg_devPut, hpin]
    exact Bool.false_ne_true
  rw [← hcores, ← hgeodes, State.invalGo]
  dsimp only
  rw [if_neg hrun, ← hu, ← hq]
  exact ⟨_, if_neg hnone⟩

theorem State.mem_invalGo_accepted : (s.invalGo v).mem = s.mem := by
  obtain ⟨ids, hgo⟩ := State.invalGo_accepted hi hv hu hq hpin
  have hstored : u.stored = s.stored := by
    rw [hu, ((State.SameTables.start _).countPkg 0x04 1).stored]
    rfl
  rw [hgo]
  exact show u.stored.mem = s.stored.mem by rw [hstored]

end

/-- Settles O57: the request changes each facet, each handle of it and each geode by its own. -/
theorem revocationInvalidatesMatchingHandles : Obligations.RevocationInvalidatesMatchingHandles := by
  unfold Obligations.RevocationInvalidatesMatchingHandles
  intro v s t u q hi hv hu hq hcores hfossils ht
  have hpin : s.pinnedBy q = false := Bool.or_eq_false_iff.2 ⟨hcores, hfossils⟩
  obtain rfl : s.invalGo v = t := Host.Outcome.next.inj ht
  obtain ⟨ids, hgo⟩ := State.invalGo_accepted hi hv hu hq hpin
  refine ⟨fun c n hn => ?handle, fun g e he => ?leaf, State.mem_invalGo_accepted hi hv hu hq hpin⟩
  case handle =>
    have hcore : (s.invalGo v).core c = (s.core c).revoked q := by
      rw [hgo]
      exact Tbl.get_map s.cores c (g := (·.revoked q)) rfl
    rw [State.facet, hcore, Core.facet_revoked, Facet.handle_revoked]
    rfl
  case leaf =>
    have hgeode : (s.invalGo v).geode g = (s.geode g).revoked q := by
      rw [hgo]
      exact Tbl.get_map s.geodes g (g := (·.revoked q)) rfl
    rw [hgeode] at he
    exact Geode.leafMatches_revoked _ he

end Sys2Proof.Machine
end

section
/-! SUPPORT. Mirrored ranges, one lemma for each form that O33 speaks of (R330, R350 to R353, R448, R450). -/

namespace Sys2Proof.Machine

/-! ### Enabling, disabling and the end of the first copy (R350, R352) -/

section
variable {k : Nat} {s : State} (hk : k < 16)
include hk

theorem exec_mirrorEnable_refused (he : s.mirEn k ≠ 1) (hr : s.mirRefused k = true) :
    exec (.mirrorEnable k) s = .next (s.devPut (aMir k + 0x10) 3 3 1) := by
  change execMirrorEnable k s = _
  rw [execMirrorEnable, if_neg (by omega), if_pos hr]

theorem exec_mirrorEnable (he : s.mirEn k ≠ 1) (hr : s.mirRefused k = false) :
    exec (.mirrorEnable k) s
      = .next ({ (s.devPut (aMir k + 0x10) 0 0 1).devPut (aMir k + 0x10) 2 1 1 with mirPos := s.mirPos.del k }.mirSend k) := by
  change execMirrorEnable k s = _
  rw [execMirrorEnable, if_neg (by omega), hr, if_neg Bool.false_ne_true]

theorem exec_mirrorDisable (he : s.mirEn k ≠ 0) :
    exec (.mirrorDisable k) s
      = .next { (s.devPut (aMir k + 0x10) 0 0 0).devPut (aMir k + 0x10) 2 1 0 with
          mirQ := s.mirQ.filter fun w => w.k != k, repairs := s.repairs.filter fun x => x.k != k } := by
  change execMirrorDisable k s = _
  rw [execMirrorDisable, if_neg (by omega)]
  rfl

theorem exec_mirrorSyncComplete (hs : s.mirState k = 1) (hc : s.mirCopied k = true) :
    exec (.mirrorSyncComplete k) s = .next (s.devPut (aMir k + 0x10) 2 1 2) :=
  congrArg Host.Outcome.next (if_pos ⟨hk, hs, hc⟩)

end

/-- EN of a range reads as it was written, whatever is written to STATE then. -/
theorem State.mirEn_devPut_devPut (s : State) (k en st : Nat) :
    ((s.devPut (aMir k + 0x10) 0 0 en).devPut (aMir k + 0x10) 2 1 st).mirEn k = en % 2 :=
  (State.devFld_devPut_apart _ _ st (by decide)).trans (State.devFld_devPut_same _ _ 0 en (by decide))

theorem State.mirState_devPut (s : State) (k st : Nat) : (s.devPut (aMir k + 0x10) 2 1 st).mirState k = st % 4 :=
  State.devFld_devPut_same _ _ 1 st (by decide)

/-! ### The oldest mirror write (R351, R448, R450) -/

section
variable {k : Nat} {s t : State} {w : MirWrite} (hs : s.mirState k = 1 ∨ s.mirState k = 2)
  (hw : (s.mirQ.find? fun w => w.k == k) = some w)
include hs hw

theorem exec_mirrorWriteAck_waits {r : PortReq} (hp : w.port = some r) (hf : s.lineFirst r = false) :
    exec (.mirrorWriteAck k) s = .next s := by
  change execMirrorWriteAck k s = _
  simp only [execMirrorWriteAck, hs, hw, hp, hf, if_true, Bool.not_false]

theorem exec_mirrorWriteAck_answered (ht : t = { s with mirQ := s.mirQ.erase w }) {r : PortReq} (hp : w.port = some r)
    (hf : s.lineFirst r = true) :
    exec (.mirrorWriteAck k) s
      = .next (if w.sync then (t.portAnswered r).mirSend k else t.portAnswered r).mirPort := by
  subst ht
  change execMirrorWriteAck k s = _
  simp only [execMirrorWriteAck, hs, hw, hp, hf, if_true, Bool.not_true, Bool.false_eq_true, if_false]

theorem exec_mirrorWriteAck_routeless {c : Nat} (hp : w.port = none) (hr : s.route (s.mirLode k) w.addr = .fail c) :
    exec (.mirrorWriteAck k) s = .next ((s.fabErr (s.mirLode k) c).mirBreak k) := by
  change execMirrorWriteAck k s = _
  simp only [execMirrorWriteAck, hs, hw, hp, hr, if_true]

theorem exec_mirrorWriteAck_routed (hp : w.port = none) (hr : s.route (s.mirLode k) w.addr = .away) :
    exec (.mirrorWriteAck k) s = .next s.mirPort := by
  change execMirrorWriteAck k s = _
  simp only [execMirrorWriteAck, hs, hw, hp, hr, if_true]

end

/-! ### A partner that cannot be reached (R352, R450) -/

/-- The log of a failure is none of a range's registers. -/
theorem State.mirState_fabErr (s : State) {k : Nat} (hk : k < 16) (lode cause : Nat) :
    (s.fabErr lode cause).mirState k = s.mirState k := by
  have ha : aMir k + 0x10 ≠ 0x800000C0C00 := by
    unfold aMir
    omega
  simp only [State.mirState, State.devFld, State.fabErr, State.devAdd, State.devGet_devPut_other _ _ _ _ _ _ ha]

section
variable {k : Nat} {s : State} (hk : k < 16) (hs : s.mirState k = 1 ∨ s.mirState k = 2)
include hk hs

theorem exec_mirrorPartnerUnreachable :
    exec (.mirrorPartnerUnreachable k) s = .next ((s.fabErr (s.mirLode k) (s.lostCause k)).mirBreak k) :=
  congrArg Host.Outcome.next (if_pos ⟨hk, hs⟩)

theorem State.mirBreak_eq :
    s.mirBreak k = { s.devPut (aMir k + 0x10) 2 1 3 with
      mirQ := s.mirQ.map fun w => if w.k == k then { w with port := none } else w
      repairs := s.repairs.filter fun x => x.k != k } :=
  if_pos ⟨hk, hs⟩

theorem State.mirState_mirBreak : (s.mirBreak k).mirState k = 3 := by
  rw [State.mirBreak_eq hk hs]
  exact State.mirState_devPut s k 3

/-- R352: the port of no write of a broken range is held. -/
theorem State.port_mirBreak : ∀ w ∈ (s.mirBreak k).mirQ, w.k = k → w.port = none := by
  rw [State.mirBreak_eq hk hs]
  simp only [List.forall_mem_map]
  intro w _
  split
  · exact fun _ => rfl
  · next h => exact fun hw => absurd (beq_iff_eq.2 hw) h

end

/-! ### Repairs (R330, R353, R450) -/

/-- R353, R450: a repair whose read has its answer ends: the word takes the partner's value, or the read failed there. -/
def State.repairEnds (s : State) (x : Repair) : Option (BitVec 256) → State
  | some d => s.repairMade x (leBytes 32 d.toNat)
  | none => s.repairFails x 1

section
variable {k word : Nat} {s : State} (hk : s.repairable (32 * word) = some k)
include hk

theorem exec_mirrorRepair_routeless {c : Nat} (d : Option (BitVec 256)) (hr : s.repairRoute (s.repairOf k word) = .fail c) :
    exec (.mirrorRepair k word d) s = .next (s.repairFails (s.repairOf k word) c) := by
  change execMirrorRepair k word d s = _
  simp [execMirrorRepair, hk, hr]

section
variable (hr : ∀ c, s.repairRoute (s.repairOf k word) ≠ .fail c) {r : PortReq} (hp : s.repairReq (s.repairOf k word) = some r)
include hr hp

theorem exec_mirrorRepair_routed (d : Option (BitVec 256)) : exec (.mirrorRepair k word d) s
    = .next (if s.lineFirst r then
        ((if (s.repairOf k word).port.isNone then s.tookPort else s).portAnswered r).repairEnds (s.repairOf k word) d
      else s) := by
  change execMirrorRepair k word d s = _
  cases hroute : s.repairRoute (s.repairOf k word) with
  | fail c => exact absurd hroute (hr c)
  | here | away =>
    simp only [execMirrorRepair, hk, hroute, hp, bne_self_eq_false, Bool.false_eq_true, if_false]
    cases s.lineFirst r <;> cases d <;> rfl

theorem exec_mirrorRepair_answered (hf : s.lineFirst r = true) (d : Option (BitVec 256)) :
    exec (.mirrorRepair k word d) s
      = .next (((if (s.repairOf k word).port.isNone then s.tookPort else s).portAnswered r).repairEnds (s.repairOf k word) d) := by
  rw [exec_mirrorRepair_routed hk hr hp, if_pos hf]

theorem exec_mirrorRepair_waits (hf : s.lineFirst r = false) (d : Option (BitVec 256)) : exec (.mirrorRepair k word d) s = .next s := by
  rw [exec_mirrorRepair_routed hk hr hp, hf, if_neg Bool.false_ne_true]

end

end

/-- Settles O33: each event by its lemma above. -/
theorem mirrorEventsFollowTheirState : Obligations.MirrorEventsFollowTheirState := by
  unfold Obligations.MirrorEventsFollowTheirState
  refine ⟨fun k s hk he => ⟨exec_mirrorEnable_refused hk he, fun hr t ht => ?enabled⟩, fun k s hk he => ?disabled,
    fun _ _ => exec_mirrorSyncComplete, fun k s t w hs hw ht => ?ack, fun k s hk hs => ?lost, fun k word d r s t hk hr hp hf ht => ?repaired,
    fun k word s x hk hx => ?repair, fun s t x c ht => ?fails⟩
  case enabled =>
    subst ht
    exact ⟨exec_mirrorEnable hk he hr, s.mirEn_devPut_devPut k 1 1, State.mirState_devPut _ k 1⟩
  case disabled => exact ⟨_, exec_mirrorDisable hk he, s.mirEn_devPut_devPut k 0 0, State.mirState_devPut _ k 0, rfl⟩
  case ack =>
    refine ⟨fun r hp => ⟨exec_mirrorWriteAck_waits hs hw hp, fun hf hy => ?_, fun hf hy => ?_⟩, fun c => exec_mirrorWriteAck_routeless hs hw,
      exec_mirrorWriteAck_routed hs hw⟩
    all_goals
      rw [exec_mirrorWriteAck_answered hs hw ht hp hf, hy]
      rfl
  case lost =>
    have hs' : (s.fabErr (s.mirLode k) (s.lostCause k)).mirState k = 1 ∨ (s.fabErr (s.mirLode k) (s.lostCause k)).mirState k = 2 := by
      rwa [State.mirState_fabErr s hk]
    exact ⟨_, exec_mirrorPartnerUnreachable hk hs, rfl, State.mirState_mirBreak hk hs', State.port_mirBreak hk hs'⟩
  case repaired =>
    rw [exec_mirrorRepair_answered hk hr hp hf, ht]
    rfl
  case repair =>
    subst hx
    refine ⟨fun h => if_pos h, fun h => if_neg (by rw [h]; exact Bool.false_ne_true), fun c d => exec_mirrorRepair_routeless hk d,
      fun hr r hp => ⟨fun hf => exec_mirrorRepair_answered hk hr hp hf none, exec_mirrorRepair_waits hk hr hp⟩⟩
  case fails =>
    subst ht
    refine ⟨fun h => if_pos h, fun h => if_neg (by rw [h]; exact Bool.false_ne_true)⟩

end Sys2Proof.Machine
end

section
/-! SUPPORT. The form of the memories that every step keeps (R342, R343, log entry 5), and what spares them. Every function `f` of the model
from states to states has one lemma: `spares_f` where it leaves main memory, the media and the durable write queue as they are, and
`listed_f` where it writes them and keeps their form. -/

namespace Sys2Proof.Machine

/-- The length of an entry's data and its seal. -/
def DurEntry.shape (e : DurEntry) : Nat × Bool := (e.data.length, e.sealed)

/-- Main memory and the media are listed in canonical form; every entry of the durable write queue is a whole line, and none is sealed
behind one that is not. -/
structure MemForm (mem media : Memory) (q : List DurEntry) : Prop where
  mem : mem.wf = true
  media : media.wf = true
  lines : ∀ x ∈ q.map DurEntry.shape, x.1 = 64
  seals : (q.map DurEntry.shape).Pairwise fun x y => y.2 = true → x.2 = true

/-- The memories of a state have their form. -/
@[simp] abbrev State.Listed (s : State) : Prop := MemForm s.mem s.media s.durQ

/-- A state after a change that leaves its memories as they are. -/
@[simp] abbrev State.Spares (s t : State) : Prop := t.mem = s.mem ∧ t.media = s.media ∧ t.durQ = s.durQ

/-- R343: the entries behind the sealed ones are open where none is sealed behind an open one. -/
theorem pairwise_sealed_iff (q : List DurEntry) :
    (q.map DurEntry.shape).Pairwise (fun x y => y.2 = true → x.2 = true) ↔ ∀ e ∈ q.dropWhile (·.sealed), e.sealed = false := by
  induction q with
  | nil => simp
  | cons e r ih =>
    rw [List.map_cons, List.pairwise_cons, ih]
    cases he : e.sealed with
    | true => simp [DurEntry.shape, he]
    | false =>
      rw [List.dropWhile_cons_of_neg (by simp [he])]
      have hsub : ∀ x ∈ r.dropWhile (·.sealed), x ∈ r := fun x hx => (List.dropWhile_sublist _).subset hx
      simp only [DurEntry.shape, List.forall_mem_map, List.forall_mem_cons, he, Bool.false_eq_true, imp_false, Bool.not_eq_true, true_and]
      exact ⟨fun h => h.1, fun h => ⟨h, fun x hx => h x (hsub x hx)⟩⟩

/-- The statement's own form of the invariant. -/
theorem State.canonical_iff (s : State) : s.canonical = true ↔ s.Listed := by
  simp only [State.canonical, Bool.and_eq_true, List.all_eq_true, beq_iff_eq, Bool.not_eq_true', ← pairwise_sealed_iff]
  refine ⟨fun ⟨⟨⟨h1, h2⟩, h3⟩, h4⟩ => ⟨h1, h2, List.forall_mem_map.2 h3, h4⟩,
    fun h => ⟨⟨⟨h.mem, h.media⟩, List.forall_mem_map.1 h.lines⟩, h.seals⟩⟩

theorem State.Spares.trans {s t u : State} (h : s.Spares t) (k : t.Spares u) : s.Spares u :=
  ⟨k.1.trans h.1, k.2.1.trans h.2.1, k.2.2.trans h.2.2⟩

theorem State.Spares.listed {s t : State} (k : s.Spares t) (h : s.Listed) : t.Listed := by
  obtain ⟨hmem, hmedia, hq⟩ := k
  rwa [State.Listed, hmem, hmedia, hq]

/-- A row answers no state whose memories have lost their form. -/
def OutListed (o : Out) : Prop := ∀ t, o = .next t → t.Listed

@[simp] theorem outListed_next (t : State) : OutListed (.next t) ↔ t.Listed :=
  ⟨fun h => h t rfl, fun h u hu => by cases hu; exact h⟩

@[simp] theorem outListed_fault (f : Fault) : OutListed (.fault f) := fun _ h => nomatch h

@[simp] theorem outListed_refused (r : Refusal) : OutListed (.refused r) := fun _ h => nomatch h

@[simp] theorem State.mem_ite (p : Prop) [Decidable p] (s t : State) : (if p then s else t).mem = if p then s.mem else t.mem :=
  apply_ite State.mem p s t

@[simp] theorem State.media_ite (p : Prop) [Decidable p] (s t : State) : (if p then s else t).media = if p then s.media else t.media :=
  apply_ite State.media p s t

@[simp] theorem State.durQ_ite (p : Prop) [Decidable p] (s t : State) : (if p then s else t).durQ = if p then s.durQ else t.durQ :=
  apply_ite State.durQ p s t

@[simp] theorem memForm_ite (p : Prop) [Decidable p] (m m' d d' : Memory) (q q' : List DurEntry) :
    MemForm (if p then m else m') (if p then d else d') (if p then q else q') ↔ if p then MemForm m d q else MemForm m' d' q' := by
  split <;> exact Iff.rfl

theorem State.spares_modCore (s : State) (c : Nat) (g : Core → Core) : s.Spares (s.modCore c g) := ⟨rfl, rfl, rfl⟩

theorem State.spares_modFacet (s : State) (c n : Nat) (g : Facet → Facet) : s.Spares (s.modFacet c n g) := ⟨rfl, rfl, rfl⟩

theorem State.spares_devSet (s : State) (a : Nat) (v : BitVec 64) : s.Spares (s.devSet a v) := ⟨rfl, rfl, rfl⟩

theorem State.spares_devPut (s : State) (a hi lo v : Nat) : s.Spares (s.devPut a hi lo v) := ⟨rfl, rfl, rfl⟩

theorem State.spares_modMe (s : State) (g : Facet → Facet) : s.Spares (s.modMe g) := ⟨rfl, rfl, rfl⟩

theorem State.spares_modHere (s : State) (g : Core → Core) : s.Spares (s.modHere g) := ⟨rfl, rfl, rfl⟩

theorem State.listed_ite {p : Prop} [Decidable p] {s t : State} (hs : s.Listed) (ht : t.Listed) : (if p then s else t).Listed := by
  split
  · exact hs
  · exact ht

theorem State.spares_foldl {α : Type} {g : State → α → State} (h : ∀ (s : State) a, s.Spares (g s a)) (l : List α) (s : State) :
    s.Spares (l.foldl g s) :=
  ⟨foldl_keeps State.mem g (fun s a => (h s a).1) l s, foldl_keeps State.media g (fun s a => (h s a).2.1) l s,
    foldl_keeps State.durQ g (fun s a => (h s a).2.2) l s⟩

theorem State.listed_foldl {α : Type} {g : State → α → State} (h : ∀ (s : State) a, s.Listed → (g s a).Listed) (l : List α)
    {s : State} (hs : s.Listed) : (l.foldl g s).Listed := by
  induction l generalizing s with
  | nil => exact hs
  | cons a l ih => exact ih (h s a hs)

end Sys2Proof.Machine
end

section
/-! SUPPORT. What spares the memories: the functions that write neither main memory, nor the media, nor the durable write queue. -/

namespace Sys2Proof.Machine

@[simp] theorem State.spares_forgetFlaw (s : State) (pa : Nat) : s.Spares (s.forgetFlaw pa) := by simp [State.forgetFlaw]

@[simp] theorem State.spares_countAt (s : State) (a ev n : Nat) : s.Spares (s.countAt a ev n) := by simp [State.countAt]

@[simp] theorem State.spares_count (s : State) (base : Nat) (counters ev n : Nat) : s.Spares (s.count base counters ev n) := by
  simp [State.count, State.spares_foldl]

@[simp] theorem State.spares_countCore (s : State) (c ev n : Nat) : s.Spares (s.countCore c ev n) := by simp [State.countCore]

@[simp] theorem State.spares_countVein (s : State) (v ev n : Nat) : s.Spares (s.countVein v ev n) := by simp [State.countVein]

@[simp] theorem State.spares_countRead (s : State) (g : Nat) : s.Spares (s.countRead g) := by simp [State.countRead]

@[simp] theorem State.spares_writtenBack (s : State) (g : Nat) : s.Spares (s.writtenBack g) := by simp [State.writtenBack]

@[simp] theorem State.spares_countPkg (s : State) (ev n : Nat) : s.Spares (s.countPkg ev n) := by simp [State.countPkg]

@[simp] theorem State.spares_tookPort (s : State) : s.Spares (s.tookPort) := by simp [State.tookPort]

@[simp] theorem State.spares_portAnswered (s : State) (r : PortReq) : s.Spares (s.portAnswered r) := by simp [State.portAnswered]

@[simp] theorem State.spares_fabErr (s : State) (lode cause : Nat) : s.Spares (s.fabErr lode cause) := by simp [State.fabErr]

@[simp] theorem State.spares_mirPort (s : State) : s.Spares (s.mirPort) := by
  unfold State.mirPort
  split <;> simp

@[simp] theorem State.spares_mirrorWord (s : State) (word : Nat) (w : Author) : s.Spares (s.mirrorWord word w) := by
  unfold State.mirrorWord
  dsimp only
  repeat' split
  all_goals simp

@[simp] theorem State.spares_notify (s : State) : s.Spares (s.notify) := by simp [State.notify]

@[simp] theorem State.spares_forward (t : State) (pa n : Nat) : t.Spares (t.forward pa n) := by simp [State.forward, State.spares_foldl]

@[simp] theorem State.spares_interruptHost (s : State) (a : Nat) : s.Spares (s.interruptHost a) := by simp [State.interruptHost]

@[simp] theorem State.spares_logReport (s : State) (r : Report) : s.Spares (s.logReport r).1 := by
  unfold State.logReport
  dsimp only
  split <;> split <;> simp

@[simp] theorem State.spares_subst (s : State) (pa : Nat) : s.Spares (s.subst pa) := by simp [State.subst]

@[simp] theorem State.spares_askRepair (s : State) (k g kind req : Nat) (sym : BitVec 7) : s.Spares (s.askRepair k g kind req sym) := by
  simp [State.askRepair]

@[simp] theorem State.spares_countWords (s : State) (pa n ev : Nat) : s.Spares (s.countWords pa n ev) := by simp [State.countWords]

@[simp] theorem State.spares_upset (s : State) (pa : Nat) (sym : Option (BitVec 7)) : s.Spares (s.upset pa sym) := by simp [State.upset]

@[simp] theorem State.spares_countWalk (s : State) (pasid : BitVec 20) (va : Nat) : s.Spares (s.countWalk pasid va) := by
  simp [State.countWalk, State.spares_foldl]

@[simp] theorem State.spares_withdraw (s : State) (c fn : Nat) : s.Spares (s.withdraw c fn) := by simp [State.withdraw]

@[simp] theorem State.spares_sendFrame (s : State) (c fn lode pa : Nat) (bs : List (BitVec 8)) :
    s.Spares (s.sendFrame c fn lode pa bs) := by simp [State.sendFrame]

@[simp] theorem State.spares_offer (s : State) (i : Instr) : s.Spares (s.offer i) := by
  unfold State.offer
  dsimp only
  repeat' split
  all_goals simp

@[simp] theorem State.spares_noteSpadErr (s : State) (c : Nat) (offs : List Nat) : s.Spares (s.noteSpadErr c offs) := by
  simp [State.noteSpadErr, State.spares_foldl]

@[simp] theorem State.spares_invalGo (s : State) (v : BitVec 64) : s.Spares (s.invalGo v) := by simp [State.invalGo]

@[simp] theorem State.spares_doRefresh (s : State) (v c : Nat) (bal : Int) (forced : Bool) : s.Spares (s.doRefresh v c bal forced) := by
  simp [State.doRefresh]

@[simp] theorem State.spares_scrubNext (s : State) (a n : Nat) : s.Spares (s.scrubNext a n) := by simp [State.scrubNext]

@[simp] theorem State.spares_updateBar (s : State) (c o : Nat) (dPend dIn dOut : Int) : s.Spares (s.updateBar c o dPend dIn dOut) := by
  simp [State.updateBar]

@[simp] theorem State.spares_linesGo (s : State) (held : List PortReq) (pas : List (Nat × Nat)) :
    s.Spares (s.linesGo held pas).2.2 := by
  unfold State.linesGo
  dsimp only
  split
  · simp
  · exact State.spares_foldl State.spares_portAnswered _ _

@[simp] theorem State.spares_bulkLock (s : State) (c : BulkCmd) : s.Spares (s.bulkLock c) := by simp [State.bulkLock]

@[simp] theorem State.spares_engineGo (s : State) (held : List PortReq) (cs : List Cell) : s.Spares (s.engineGo held cs).2.2 :=
  s.spares_linesGo held (awayPas cs)

@[simp] theorem State.spares_countSpans (s : State) (pasid : BitVec 20) (cut : Bool) (va : Nat) (first : Bool) (l : List Span) :
    s.Spares (s.countSpans pasid cut va first l) := by
  have hwalk : ∀ (t : State) (p : Prop) [Decidable p] (va : Nat), t.Spares (if p then t.countWalk pasid va else t) :=
    fun t p _ va => by simp
  induction l generalizing s va first with
  | nil => exact hwalk s _ va
  | cons x r ih => exact (hwalk s _ va).trans (ih _ _ _)

@[simp] theorem State.spares_countPages (s : State) (pasid : BitVec 20) (w : Bool) (va : Int) (n : Nat) (first : Bool) :
    s.Spares (s.countPages pasid w va n first) := by
  simp [State.countPages]

@[simp] theorem State.spares_feedDone (s : State) (c : Nat) (tgt : FeedTarget) (x : EngineCmd) (status : BitVec 8) :
    s.Spares (s.feedDone c tgt x status) := by simp [State.feedDone]

@[simp] theorem State.spares_feedBytes (s : State) (c : Nat) (tgt : FeedTarget) (x : EngineCmd) (bs : List FByte) (left : Nat) :
    s.Spares (s.feedBytes c tgt x bs left) := by simp [State.feedBytes]

@[simp] theorem State.spares_feedRows (s : State) (c : Nat) (tgt : FeedTarget) (x : EngineCmd) (rb rows : Nat)
    (ready : Nat → Bool) (at' : Nat → Nat → Nat × Nat) :
    s.Spares (s.feedRows c tgt x rb rows ready at') := by simp [State.feedRows]

@[simp] theorem State.spares_localDone (s : State) (c : Nat) (x : EngineCmd) (moved : List FByte) (status : BitVec 8) :
    s.Spares (s.localDone c x moved status) := by simp [State.localDone]

@[simp] theorem State.spares_runLcopy (s : State) (c : Nat) (x : EngineCmd) (src dst rb rows : Nat) (sp dp : Int) :
    s.Spares (s.runLcopy c x src dst rb rows sp dp) := by simp [State.runLcopy]

@[simp] theorem State.spares_runIfetch (s : State) (c : Nat) (x : EngineCmd) (src dst words : Nat) (bank : Bool) :
    s.Spares (s.runIfetch c x src dst words bank) := by simp [State.runIfetch]

@[simp] theorem State.spares_bandDone (s : State) (c b : Nat) (o : BandOp) (bd : Band) (status : BitVec 8) :
    s.Spares (s.bandDone c b o bd status) := by simp [State.bandDone]

@[simp] theorem State.spares_modBulk (s : State) (e : Nat) (f : Bulk → Bulk) : s.Spares (s.modBulk e f) := by simp [State.modBulk]

@[simp] theorem State.spares_bulkStop (s : State) (e : Nat) (c : BulkCmd) (st : BitVec 8) : s.Spares (s.bulkStop e c st) := by
  simp [State.bulkStop]

@[simp] theorem State.spares_countSide (s : State) (c : BulkCmd) (side r o n : Nat) : s.Spares (s.countSide c side r o n) := by
  simp [State.countSide]

@[simp] theorem State.spares_unlockAll (s : State) (id : Nat) : s.Spares (s.unlockAll id) := by simp [State.unlockAll]

@[simp] theorem State.spares_modOp (s : State) (core facet id : Nat) (g : OrderEntry → OrderEntry) :
    s.Spares (s.modOp core facet id g) := by simp [State.modOp]

@[simp] theorem State.spares_countdown (s : State) (c : BulkCmd) (k : Nat) : s.Spares (s.countdown c k) := by
  unfold State.countdown
  split <;> simp

@[simp] theorem State.spares_endCancelled (s : State) (c : BulkCmd) : s.Spares (s.endCancelled c) := by simp [State.endCancelled]

@[simp] theorem State.spares_drainEnded (s : State) (e : Nat) : s.Spares (s.drainEnded e) := by simp [State.drainEnded, State.spares_foldl]

@[simp] theorem State.spares_mirBreak (s : State) (k : Nat) : s.Spares (s.mirBreak k) := by simp [State.mirBreak]

@[simp] theorem State.spares_dropRepair (s : State) (word : Nat) : s.Spares (s.dropRepair word) := by simp [State.dropRepair]

@[simp] theorem State.spares_markLost (s : State) (launch : Nat) : s.Spares (s.markLost launch) := by
  unfold State.markLost
  split <;> simp

@[simp] theorem State.spares_dropMsgs (s : State) (c launch ord : Nat) : s.Spares (s.dropMsgs c launch ord) := by simp [State.dropMsgs]

@[simp] theorem State.spares_settle (s : State) (c fn : Nat) : s.Spares (s.settle c fn) := by simp [State.settle]

@[simp] theorem State.spares_atSwitch (s : State) : s.Spares (s.atSwitch) := by
  unfold State.atSwitch
  dsimp only
  repeat' split
  all_goals simp

@[simp] theorem State.spares_stall (s : State) : s.Spares (s.stall) := by simp [State.stall]

@[simp] theorem State.spares_pass (s : State) (b : Fetched) : s.Spares (s.pass b) := by simp [State.pass]

@[simp] theorem State.spares_readScope (s : State) : s.Spares (s.readScope) := by simp [State.readScope]

@[simp] theorem State.spares_reach (s : State) : s.Spares (s.reach) := by simp [State.reach]

@[simp] theorem State.spares_holdHere (s : State) : s.Spares (s.holdHere) := by simp [State.holdHere]

@[simp] theorem State.spares_asRun (s : State) (c fn : Nat) : s.Spares (s.asRun c fn) := by simp [State.asRun]

@[simp] theorem State.spares_select (s : State) (c fn : Nat) : s.Spares (s.select c fn) := by simp [State.select]

@[simp] theorem State.spares_dropWindows (s : State) (launch g : Nat) : s.Spares (s.dropWindows launch g) := by
  unfold State.dropWindows
  split
  · simp
  · split <;> simp

@[simp] theorem State.spares_leaves (s : State) (g launch task : Nat) : s.Spares (s.leaves g launch task) := by simp [State.leaves]

@[simp] theorem State.spares_vacate (s : State) (c fn : Nat) : s.Spares (s.vacate c fn) := by simp [State.vacate]

@[simp] theorem State.spares_tasksDone (s : State) (launch : Nat) (ts : List Nat) (st : BitVec 16) :
    s.Spares (s.tasksDone launch ts st) := by
  unfold State.tasksDone
  split <;> simp

@[simp] theorem State.spares_endTask (s : State) (c fn : Nat) : s.Spares (s.endTask c fn) := by simp [State.endTask]

@[simp] theorem State.spares_sysWrites (s : State) (l : Latch) : s.Spares (s.sysWrites l).1 := by
  unfold State.sysWrites
  split
  · simp
  · split <;> simp

@[simp] theorem State.spares_frameFails (s : State) (c fn lode cause : Nat) : s.Spares (s.frameFails c fn lode cause) :=
  (s.spares_fabErr lode cause).trans (State.spares_modFacet _ c fn _)

@[simp] theorem State.spares_returnGo (s : State) (c fn : Nat) : s.Spares (s.returnGo c fn).2 := by
  unfold State.returnGo
  extract_lets f
  split
  · split
    · simp
    · split
      · simp
      · extract_lets ls go t t'
        have ht : s.Spares t := (s.spares_linesGo _ _).trans (State.spares_modFacet _ _ _ _)
        split
        · simp
        · split
          · exact ht
          · dsimp only
            split
            · exact ht.trans (State.spares_frameFails t' _ _ _ _)
            · exact ht
  · simp

@[simp] theorem State.spares_committed (s : State) (core : Nat) : s.Spares (s.committed core) := by
  unfold State.committed
  extract_lets fn l s1 s2 s3 s4
  have h2 : s.Spares s2 := State.spares_modMe s1 _
  have h3 : s.Spares s3 := (h2.trans (s2.spares_settle core fn)).trans (State.spares_modMe _ fun f => f.continueAt l)
  have h4 : s.Spares s4 := (h3.trans (s3.spares_modHere _)).trans (State.spares_countCore _ _ _ _)
  exact h4.trans (s4.spares_countCore _ _ _)

@[simp] theorem State.spares_dropAccess (s : State) (id : Nat) : s.Spares (s.dropAccess id) := by simp [State.dropAccess]

@[simp] theorem State.spares_modTask (s : State) (c fn launch : Nat) (g : Facet → Facet) : s.Spares (s.modTask c fn launch g) := by
  simp [State.modTask]

@[simp] theorem State.spares_supply (s : State) (a : Access) (w : RegWrite) (flags : BitVec 6) (poison : Bool) :
    s.Spares (s.supply a w flags poison) := by simp [State.supply]

@[simp] theorem State.spares_atSpad (s : State) (a : Access) (c : Nat) : s.Spares (s.atSpad a c) := by
  unfold State.atSpad
  split <;> simp

@[simp] theorem State.spares_performSpad (s : State) (a : Access) (c : Nat) : s.Spares (s.performSpad a c) := by simp [State.performSpad]

@[simp] theorem State.spares_modSlot (s : State) (k : Nat) (f : QSlot → QSlot) : s.Spares (s.modSlot k f) := by simp [State.modSlot]

@[simp] theorem State.spares_malformed (s : State) (k : Nat) (e : ImageErr) : s.Spares (s.malformed k e) := by simp [State.malformed]

@[simp] theorem State.spares_openLaunch (s : State) (k : Nat) (ws : List (BitVec 64)) (kn : Kernel) (ck : Option Nat) :
    s.Spares (s.openLaunch k ws kn ck) := by simp [State.openLaunch]

@[simp] theorem State.spares_sigsPort (s : State) (k : Nat) : s.Spares (s.sigsPort k) := by
  unfold State.sigsPort
  split <;> simp

@[simp] theorem State.spares_resumeTask (s : State) (l : Launch) (of c fn : Nat) (t : CkTask) : s.Spares (s.resumeTask l of c fn t) := by
  simp [State.resumeTask]

@[simp] theorem State.spares_killBulk (s : State) (c fn launch : Nat) (e : Nat) : s.Spares (s.killBulk c fn launch e) := by
  unfold State.killBulk
  dsimp only
  repeat' split
  all_goals simp

@[simp] theorem State.spares_killTask (s : State) (c fn : Nat) : s.Spares (s.killTask c fn) := by simp [State.killTask, State.spares_foldl]

@[simp] theorem State.spares_unpack (s : State) (f : Fossil) (re : Core → Core) : s.Spares (s.unpack f re) := by simp [State.unpack]

/-- R306: the accesses of a frozen task perform in its scratchpads. -/
@[simp] theorem State.spares_performFrozen (s : State) (i c fn launch : Nat) : s.Spares (s.performFrozen i c fn launch) := by
  unfold State.performFrozen
  split
  · simp
  · next f _ =>
    refine .trans (s.spares_unpack f id) (.trans (State.spares_foldl (fun t a => ?_) _ _) ⟨rfl, rfl, rfl⟩)
    split
    · split <;> simp
    · simp

@[simp] theorem State.spares_killFrozen (s : State) (i c fn : Nat) (st : BitVec 16) : s.Spares (s.killFrozen i c fn st) := by
  unfold State.killFrozen
  dsimp only
  repeat' split
  all_goals simp [State.spares_foldl]

@[simp] theorem State.spares_killLaunch (s : State) (id : Nat) : s.Spares (s.killLaunch id) := by
  unfold State.killLaunch
  dsimp only
  repeat' split
  all_goals simp [State.spares_foldl]

@[simp] theorem State.spares_finishItem (s : State) (c fn : Nat) (it : Item) (flags : BitVec 6) (err : Option TrapCause) :
    s.Spares (s.finishItem c fn it flags err) := by simp [State.finishItem]

@[simp] theorem State.spares_runDrain (s : State) (c fn : Nat) (it : Item) (mode : BitVec 3) (fmt : BitVec 5) (col row rows : Nat)
    (z : Bool) : s.Spares (s.runDrain c fn it mode fmt col row rows z) := by simp [State.runDrain]

@[simp] theorem State.spares_runUcode (s : State) (c fn : Nat) (it : Item) (ix n off : Nat) : s.Spares (s.runUcode c fn it ix n off) := by
  unfold State.runUcode
  dsimp only
  split <;> simp

@[simp] theorem State.spares_runStat (s : State) (c fn : Nat) (it : Item) (clear : Bool) (off : Nat) :
    s.Spares (s.runStat c fn it clear off) := by simp [State.runStat]

@[simp] theorem State.spares_startItem (s : State) (c fn : Nat) (it : Item) : s.Spares (s.startItem c fn it) := by
  unfold State.startItem
  split <;> simp

@[simp] theorem State.spares_setInv (s : State) (v : Invocation) : s.Spares (s.setInv v) := by simp [State.setInv]

@[simp] theorem State.spares_microFail (s : State) (v : Invocation) (c : TrapCause) : s.Spares (s.microFail v c) := by
  simp [State.microFail]

@[simp] theorem State.spares_spend (s : State) (g n : Nat) : s.Spares (s.spend g n) := by simp [State.spend]

@[simp] theorem State.spares_windowPasses (s : State) (g : Nat) : s.Spares (s.windowPasses g) := by simp [State.windowPasses]

@[simp] theorem State.spares_noBallast (s : State) (g : Nat) : s.Spares (s.noBallast g) := by simp [State.noBallast]

@[simp] theorem State.spares_runPass (s : State) (v : Invocation) (sparse ovr : Bool) : s.Spares (s.runPass v sparse ovr) := by
  unfold State.runPass
  dsimp only
  repeat' split
  all_goals simp

@[simp] theorem State.spares_runPop (s : State) (v : Invocation) (isA : Bool) : s.Spares (s.runPop v isA) := by simp [State.runPop]

@[simp] theorem State.spares_runAcc (s : State) (v : Invocation) (x : Int) : s.Spares (s.runAcc v x) := by simp [State.runAcc]

@[simp] theorem State.spares_runScale (s : State) (v : Invocation) (x : Int) : s.Spares (s.runScale v x) := by simp [State.runScale]

@[simp] theorem State.spares_runSync (s : State) (v : Invocation) (x : Nat) : s.Spares (s.runSync v x) := by simp [State.runSync]

@[simp] theorem State.spares_devCount (s : State) (a n : Nat) : s.Spares (s.devCount a n) := by simp [State.devCount]

@[simp] theorem State.spares_account (s : State) (r : EpochReport) : s.Spares (s.account r) := by simp [State.account, State.spares_foldl]

@[simp] theorem State.spares_packageStep (s : State) (r : EpochReport) : s.Spares (s.packageStep r) := by
  unfold State.packageStep
  split <;> simp

@[simp] theorem State.spares_unlimit (s : State) : s.Spares (s.unlimit) := by simp [State.unlimit, State.spares_foldl]

@[simp] theorem State.spares_countFossils (s : State) (p : Nat) : s.Spares (s.countFossils p) := by simp [State.countFossils]

@[simp] theorem State.spares_modFossil (s : State) (i : Nat) (f : Fossil → Fossil) : s.Spares (s.modFossil i f) := by simp [State.modFossil]

@[simp] theorem State.spares_killFossil (s : State) (i : Nat) (f : Fossil) (st : BitVec 16) : s.Spares (s.killFossil i f st) := by
  simp [State.killFossil, State.spares_foldl]

@[simp] theorem State.spares_goOffline (s : State) (g : Nat) : s.Spares (s.goOffline g) := by simp [State.goOffline, State.spares_foldl]

@[simp] theorem State.spares_takeSpare (s : State) (g slot : Nat) : s.Spares (s.takeSpare g slot) := by simp [State.takeSpare]

@[simp] theorem State.spares_modFacetsOf (s : State) (id : Nat) (f : Facet → Facet) : s.Spares (s.modFacetsOf id f) := by
  simp [State.modFacetsOf]

@[simp] theorem State.spares_policyActed (s : State) (p last fallback : Nat) : s.Spares (s.policyActed p last fallback) := by
  simp [State.policyActed]

@[simp] theorem State.spares_noteWindows (s : State) (l : Launch) : s.Spares (s.noteWindows l) := by
  simp [State.noteWindows, State.spares_foldl]

@[simp] theorem State.spares_extendMeas (s : State) (k : Nat) (data : List (BitVec 8)) : s.Spares (s.extendMeas k data) := by
  simp [State.extendMeas, State.spares_foldl]

@[simp] theorem State.spares_counterWrite (s : State) (a off : Nat) (v : BitVec 64) : s.Spares (s.counterWrite a off v) := by
  simp [State.counterWrite]

@[simp] theorem State.spares_portWrite (s : State) (k : Nat) (v : BitVec 64) : s.Spares (s.portWrite k v) := by simp [State.portWrite]

@[simp] theorem State.spares_levelWrite (s : State) (a : Nat) (v : BitVec 64) : s.Spares (s.levelWrite a v) := by simp [State.levelWrite]

@[simp] theorem State.spares_hostDone (s : State) (core : Nat) (bs : List (BitVec 8)) (faulted : Bool) (mem : Option (Nat × Nat)) :
    s.Spares (s.hostDone core bs faulted mem) := by simp [State.hostDone]

@[simp] theorem State.spares_holdRow (s : State) (r : HeldRow) : s.Spares (s.holdRow r) := by simp [State.holdRow]

@[simp] theorem State.spares_endAccess (s : State) (a : Access) : s.Spares (s.endAccess a) := by
  unfold State.endAccess
  split <;> simp

@[simp] theorem State.spares_failAccess (s : State) (a : Access) (cause : Nat) : s.Spares (s.failAccess a cause) := by
  simp [State.failAccess]

@[simp] theorem State.spares_answer (s : State) (a : Access) : s.Spares (s.answer a) := by
  unfold State.answer
  dsimp only
  split <;> simp

@[simp] theorem State.spares_fabErrs (s : State) (rs : List PortReq) (cause : Nat) : s.Spares (s.fabErrs rs cause) := by
  simp [State.fabErrs, State.spares_foldl]

@[simp] theorem State.spares_failAccs (s : State) (hit : PortReq → Bool) (cause : Nat) : s.Spares (s.failAccs hit cause) := by
  simp [State.failAccs, State.spares_foldl]

@[simp] theorem State.spares_failCores (s : State) (hit : PortReq → Bool) (cause : Nat) : s.Spares (s.failCores hit cause) := by
  simp [State.failCores]

@[simp] theorem State.spares_failMirror (s : State) (hit : PortReq → Bool) (cause : Nat) : s.Spares (s.failMirror hit cause) := by
  simp [State.failMirror, State.spares_foldl]

@[simp] theorem State.spares_failSignals (s : State) (hit : PortReq → Bool) (cause : Nat) : s.Spares (s.failSignals hit cause) := by
  simp [State.failSignals]

@[simp] theorem State.spares_failPcie (s : State) (hit : PortReq → Bool) (cause : Nat) : s.Spares (s.failPcie hit cause) := by
  simp [State.failPcie]

@[simp] theorem State.spares_answered (s : State) (ok : Bool) (bs : List (BitVec 8)) : s.Spares (s.answered ok bs) := by
  simp [State.answered]

@[simp] theorem State.spares_telemetryRead (s : State) (a : Nat) : s.Spares (s.telemetryRead a) := by simp [State.telemetryRead]

@[simp] theorem State.spares_measureSlot (s : State) (slot : Bool) : s.Spares (s.measureSlot slot) := by simp [State.measureSlot]

@[simp] theorem State.spares_bootManifest (s : State) : s.Spares (s.bootManifest) := by
  unfold State.bootManifest
  split <;> simp

@[simp] theorem State.spares_trainPorts (s : State) : s.Spares (s.trainPorts) := by simp [State.trainPorts, State.spares_foldl]

@[simp] theorem State.spares_raiseFused (s : State) : s.Spares (s.raiseFused) := by simp [State.raiseFused]

@[simp] theorem State.spares_nature (s : State) : s.Spares (s.nature) := by
  unfold State.nature
  dsimp only
  repeat' split
  all_goals simp

@[simp] theorem State.spares_standing (s t : State) : s.Spares (s.standing t) := by simp [State.standing]

end Sys2Proof.Machine
end

section
/-! SUPPORT. The form of the memories is kept: bytes written and the entries of the durable write queue (R342, R343). -/

namespace Sys2Proof.Machine

/-- Entries that keep their length and their seal keep the form. -/
theorem MemForm.of_shape {m d : Memory} {q r : List DurEntry} (h : MemForm m d q)
    (hr : r.map DurEntry.shape = q.map DurEntry.shape) : MemForm m d r :=
  ⟨h.mem, h.media, hr ▸ h.lines, hr ▸ h.seals⟩

theorem MemForm.map {m d : Memory} {q : List DurEntry} (h : MemForm m d q) {g : DurEntry → DurEntry} (hg : ∀ e, (g e).shape = e.shape) :
    MemForm m d (q.map g) :=
  h.of_shape (by simp [hg])

theorem MemForm.modify {m d : Memory} {q : List DurEntry} (h : MemForm m d q) (i : Nat) {g : DurEntry → DurEntry}
    (hg : ∀ e, (g e).shape = e.shape) : MemForm m d (q.modify i g) := by
  refine h.of_shape (List.ext_getElem (by simp) fun k _ _ => ?_)
  simp only [List.getElem_map, List.getElem_modify]
  split
  · exact hg _
  · rfl

/-- R343: entries that are all sealed have none behind an open one. -/
theorem MemForm.seal {m d : Memory} {q : List DurEntry} (h : MemForm m d q) :
    MemForm m d (q.map fun e => { e with sealed := true }) := by
  refine ⟨h.mem, h.media, ?_, ?_⟩
  · rw [List.map_map]
    exact List.forall_mem_map.2 fun e he => List.forall_mem_map.1 h.lines e he
  · rw [List.map_map, List.pairwise_map]
    exact List.pairwise_of_forall fun _ _ _ => rfl

/-- R342: the oldest entry leaves the queue. -/
theorem MemForm.tail {m d : Memory} {e : DurEntry} {r : List DurEntry} (h : MemForm m d (e :: r)) : MemForm m d r :=
  ⟨h.mem, h.media, (List.forall_mem_cons.1 h.lines).2, (List.pairwise_cons.1 h.seals).2⟩

/-- R342: an open entry joins the queue behind the others. -/
theorem MemForm.concat {m d : Memory} {q : List DurEntry} (h : MemForm m d q) {e : DurEntry} (hl : e.data.length = 64)
    (ho : e.sealed = false) : MemForm m d (q ++ [e]) := by
  refine ⟨h.mem, h.media, ?_, ?_⟩
  · rw [List.map_append]
    exact List.forall_mem_append.2 ⟨h.lines, List.forall_mem_singleton.2 hl⟩
  · rw [List.map_append, List.pairwise_append]
    exact ⟨h.seals, List.pairwise_singleton _ _, fun x _ y hy hs => by simp_all [DurEntry.shape]⟩

@[simp] theorem State.toMedia_durQ (s : State) (e : DurEntry) : (s.toMedia e).durQ = s.durQ := by simp only [State.toMedia]

@[simp] theorem State.listed_toMedia {s : State} (h : s.Listed) (e : DurEntry) : (s.toMedia e).Listed := by
  rw [State.Listed, State.toMedia_mem, State.toMedia_media, State.toMedia_durQ]
  exact ⟨h.mem, Memory.wf_put _ _ h.media, h.lines, h.seals⟩

@[simp] theorem State.listed_drainOldest {s : State} (h : s.Listed) : s.drainOldest.Listed := by
  unfold State.drainOldest
  split
  · exact h
  · next e r hq =>
    have ht := State.listed_toMedia h e
    rw [State.Listed, State.toMedia_durQ, hq] at ht
    simpa only [State.Listed] using ht.tail

@[simp] theorem State.listed_durMakeRoom {s : State} (h : s.Listed) : s.durMakeRoom.Listed := by
  unfold State.durMakeRoom
  split
  · exact h
  · exact State.listed_drainOldest h

@[simp] theorem State.listed_durPut {s : State} (h : s.Listed) (pa : Nat) (b : BitVec 8) : (s.durPut pa b).Listed := by
  unfold State.durPut
  extract_lets line merge s1 old
  split
  · refine MemForm.map h fun e => ?_
    split
    · simp [merge, DurEntry.shape]
    · rfl
  · exact (State.listed_durMakeRoom h).concat (by simp [merge, old]) rfl

@[simp] theorem State.listed_putByte {s : State} (h : s.Listed) (pa : Nat) (b : BitVec 8) : (s.putByte pa b).Listed := by
  unfold State.putByte
  split
  · exact ⟨Memory.wf_set pa b h.mem, h.media, h.lines, h.seals⟩
  · exact State.listed_durPut h pa b
  · exact h

@[simp] theorem State.listed_putRaw {s : State} (h : s.Listed) (pa : Nat) (bs : List (BitVec 8)) : (s.putRaw pa bs).Listed := by
  induction bs generalizing s pa with
  | nil => exact h
  | cons b r ih => exact ih (State.listed_putByte h pa b) (pa + 1)

@[simp] theorem State.listed_setDurBad {s : State} (h : s.Listed) (line : Nat) (b : Bool) : (s.setDurBad line b).Listed := by
  unfold State.setDurBad
  split
  · unfold modNewest
    split
    · exact MemForm.modify h _ fun _ => rfl
    · exact h
  · exact h

end Sys2Proof.Machine
end

section
/-! SUPPORT. The form of the memories is kept: the errors met, the error rings and the words that the hardware writes and merges (R277 to
R288, R308 to R310). -/

namespace Sys2Proof.Machine

@[simp] theorem State.listed_poisonWord {s : State} (h : s.Listed) (pa : Nat) : (s.poisonWord pa).Listed := by
  unfold State.poisonWord
  split <;> simp [h]

@[simp] theorem State.listed_cleanWord {s : State} (h : s.Listed) (pa : Nat) : (s.cleanWord pa).Listed := by
  unfold State.cleanWord
  split <;> simp [h]

@[simp] theorem State.listed_repaired {s : State} (h : s.Listed) (k word : Nat) (bs : List (BitVec 8)) : (s.repaired k word bs).Listed := by
  simp [State.repaired, h]

@[simp] theorem State.listed_finds {s : State} (h : s.Listed) (g : Nat) (f : Found) (kind req : Nat) :
    (s.finds g f kind req).1.Listed := by
  unfold State.finds
  extract_lets t
  have ht : t.Listed := (s.spares_forgetFlaw g).listed h
  split
  · exact ht
  · dsimp only
    split <;> simp [ht]
  · split
    · simp [h]
    · simp [ht]

@[simp] theorem State.listed_findAt {s : State} (h : s.Listed) (pa kind req : Nat) : (s.findAt pa kind req).1.Listed := by
  unfold State.findAt
  split
  · split <;> simp [h]
  · exact h

@[simp] theorem State.listed_mergeWord {s : State} (h : s.Listed) (g : Nat) (tol tpol : Bool) (req : Nat) :
    (s.mergeWord g tol tpol req).1.Listed := by
  unfold State.mergeWord
  extract_lets x t
  have hx : x.1.Listed := State.listed_findAt h g 1 req
  have ht : t.Listed := by
    unfold t
    split <;> simp [hx]
  split
  · simp [ht]
  · exact ht

@[simp] theorem State.listed_writeOwn {s : State} (h : s.Listed) (pa : Nat) (bs : List (BitVec 8)) (tol tpol : Bool) (req : Nat) :
    (s.writeOwn pa bs tol tpol req).1.Listed := by
  have hmerge : ∀ (l : List Nat) (x : State × List Report), x.1.Listed → (l.foldl (fun (x : State × List Report) g =>
      ((x.1.mergeWord g tol tpol req).1, x.2 ++ (x.1.mergeWord g tol tpol req).2)) x).1.Listed := fun l => by
    induction l with
    | nil => exact fun _ hx => hx
    | cons g l ih => exact fun x hx => ih _ (State.listed_mergeWord hx g tol tpol req)
  unfold State.writeOwn
  split
  · exact h
  · refine (State.spares_forward _ _ _).listed (State.listed_foldl (fun t a ht => State.listed_cleanWord ht a) _ ?_)
    exact (State.spares_countWords _ _ _ _).listed (State.listed_putRaw (hmerge _ _ h) pa bs)

@[simp] theorem State.listed_ringWrite {s : State} (h : s.Listed) (a least : Nat) (bs : List (BitVec 8)) :
    (s.ringWrite a least bs).1.Listed := by
  unfold State.ringWrite
  dsimp only
  split
  · exact h
  · split <;> simp [h]

@[simp] theorem State.listed_meqWrite {s : State} (h : s.Listed) (kind vein slot seq addr : Nat) :
    (s.meqWrite kind vein slot seq addr).1.Listed := by
  unfold State.meqWrite
  dsimp only
  split <;> simp [h]

theorem State.listed_reportIn (n : Nat) {s : State} (h : s.Listed) (r : Report) : (s.reportIn n r).Listed := by
  induction n generalizing s r with
  | zero => exact h
  | succ n ih =>
    have hlog : (s.logReport r).1.Listed := (s.spares_logReport r).listed h
    unfold State.reportIn
    dsimp only
    split
    · exact State.listed_foldl (fun t r ht => ih ht r) _ (State.listed_meqWrite hlog _ _ _ _ _)
    · exact hlog

@[simp] theorem State.listed_reports {s : State} (h : s.Listed) (rs : List Report) : (s.reports rs).Listed :=
  State.listed_foldl (fun _ r ht => State.listed_reportIn _ ht r) rs h

@[simp] theorem State.listed_report {s : State} (h : s.Listed) (pa kind sym req : Nat) : (s.report pa kind sym req).Listed := by
  simp [State.report, h]

@[simp] theorem State.listed_meqPost {s : State} (h : s.Listed) (kind vein slot seq addr : Nat) :
    (s.meqPost kind vein slot seq addr).Listed := by simp [State.meqPost, h]

@[simp] theorem State.listed_ringPost {s : State} (h : s.Listed) (a least : Nat) (ws : List Nat) : (s.ringPost a least ws).Listed := by
  simp [State.ringPost, h]

@[simp] theorem State.listed_foundBad {s : State} (h : s.Listed) (g kind req : Nat) (sym : BitVec 7) :
    (s.foundBad g kind req sym).Listed := by simp [State.foundBad, h]

@[simp] theorem State.listed_meet {s : State} (h : s.Listed) (g : Nat) (f : Found) (kind req : Nat) : (s.meet g f kind req).Listed := by
  simp [State.meet, h]

@[simp] theorem State.listed_meetAt {s : State} (h : s.Listed) (pa kind req : Nat) : (s.meetAt pa kind req).Listed := by
  simp [State.meetAt, h]

@[simp] theorem State.listed_meetAll {s : State} (h : s.Listed) (req : Nat) (l : List Nat) : (s.meetAll req l).Listed :=
  State.listed_foldl (fun _ pa ht => State.listed_meetAt ht pa 1 req) l h

@[simp] theorem State.listed_meetRun {s : State} (h : s.Listed) (pa n req : Nat) : (s.meetRun pa n req).Listed := by simp [State.meetRun, h]

@[simp] theorem State.listed_meetRange {s : State} (h : s.Listed) (pa n req : Nat) : (s.meetRange pa n req).Listed := by
  simp [State.meetRange, h]

@[simp] theorem State.listed_putOwn {s : State} (h : s.Listed) (pa : Nat) (bs : List (BitVec 8)) (tol tpol : Bool) :
    (s.putOwn pa bs tol tpol).Listed := by simp [State.putOwn, h]

@[simp] theorem State.listed_putOwnNum {s : State} (h : s.Listed) (pa n v : Nat) (tol tpol : Bool) :
    (s.putOwnNum pa n v tol tpol).Listed := by simp [State.putOwnNum, h]

@[simp] theorem State.listed_heqPost {s : State} (h : s.Listed) (part kind slot code idx : Nat) (w1 : BitVec 64) :
    (s.heqPost part kind slot code idx w1).Listed := by simp [State.heqPost, h]

@[simp] theorem State.listed_meetWords {s : State} (h : s.Listed) (req : Nat) (l : List Nat) : (s.meetWords req l).Listed := by
  induction l generalizing s with
  | nil => exact h
  | cons pa r ih =>
    have hmeet := State.listed_meetAt h pa 1 req
    unfold State.meetWords
    split
    · exact hmeet
    · exact ih hmeet

@[simp] theorem State.listed_meetEntries {s : State} (h : s.Listed) (pasid : BitVec 20) (va req : Nat) :
    (s.meetEntries pasid va req).Listed := by simp [State.meetEntries, h]

@[simp] theorem State.listed_meetWalk {s : State} (h : s.Listed) (pasid : BitVec 20) (va req : Nat) : (s.meetWalk pasid va req).Listed := by
  simp [State.meetWalk, h]

end Sys2Proof.Machine
end

section
/-! SUPPORT. The form of the memories is kept: the trap frame, parking and the trap (R383 to R392). -/

namespace Sys2Proof.Machine

@[simp] theorem State.listed_putFrame {s : State} (h : s.Listed) (k : Core) (f : Facet) (pa : Nat) (cause info : BitVec 64)
    (clock : Nat) : (s.putFrame k f pa cause info clock).Listed := by
  have hraw := State.listed_putRaw h pa (frameBytes k f s.freeCtr cause info clock)
  refine (State.spares_forward _ _ _).listed (State.listed_foldl (fun t r ht => ?_) _
    (State.listed_foldl (fun t i ht => State.listed_cleanWord ht (pa + 32 * i)) _ ((State.spares_countWords _ _ _ _).listed hraw)))
  split
  · exact State.listed_poisonWord ht _
  · exact ht

@[simp] theorem State.listed_writeFrame {s : State} (h : s.Listed) (c fn : Nat) (cause info : BitVec 64) (clock : Nat) :
    (s.writeFrame c fn cause info clock).1.Listed := by
  unfold State.writeFrame
  dsimp only
  split <;> simp [h]

@[simp] theorem State.listed_park {s : State} (h : s.Listed) (c fn : Nat) (code : Nat) : (s.park c fn code).Listed := by
  unfold State.park
  exact State.listed_heqPost (s := (s.modFacet c fn _).modCore c _) h _ _ _ _ _ _

@[simp] theorem State.listed_takeTrapOf {s : State} (h : s.Listed) (c fn : Nat) (t : TrapInfo) : (s.takeTrapOf c fn t).Listed := by
  unfold State.takeTrapOf
  extract_lets f s1 k f1
  split
  · exact State.listed_park h _ _ _
  · have hw : (s1.writeFrame c fn t.word t.info f1.progClock).1.Listed :=
      State.listed_writeFrame (s := s1) (State.listed_meetWalk h _ _ _) _ _ _ _ _
    split
    next s2 ok hs2 =>
    rw [hs2] at hw
    extract_lets page s3
    have h3 : s3.Listed := hw
    split
    · exact State.listed_park h3 _ _ _
    · split
      · exact State.listed_park h3 _ _ _
      · split
        · exact State.listed_park h3 _ _ _
        · exact h3

@[simp] theorem State.listed_takeTrap {s : State} (h : s.Listed) (t : TrapInfo) : (s.takeTrap t).Listed := by simp [State.takeTrap, h]

@[simp] theorem State.listed_parkRequest {s : State} (h : s.Listed) (c fn : Nat) : (s.parkRequest c fn).Listed := by
  unfold State.parkRequest
  extract_lets f s1 f1
  split
  · exact State.listed_park (s := s.modFacet c fn _) h _ _ _
  · have hw : (s1.writeFrame c fn 0 0 f1.progClock).1.Listed :=
      State.listed_writeFrame (s := s1) (State.listed_meetWalk h _ _ _) _ _ _ _ _
    split
    next s2 ok hs2 =>
    rw [hs2] at hw
    exact State.listed_park (s := s2.modFacet c fn _) hw _ _ _

@[simp] theorem State.listed_meetPlace {s : State} (h : s.Listed) (req : Nat) (p : Option FramePlace) : (s.meetPlace req p).Listed := by
  unfold State.meetPlace
  split
  · exact State.listed_foldl (fun t i ht => State.listed_meetRange ht _ _ _) _ h
  · exact h

@[simp] theorem State.listed_meetFrame {s : State} (h : s.Listed) (c fn : Nat) : (s.meetFrame c fn).Listed := by simp [State.meetFrame, h]

@[simp] theorem State.listed_returnFrom {s : State} (h : s.Listed) (c fn : Nat) : (s.returnFrom c fn).Listed := by
  have hm : (s.meetFrame c fn).Listed := State.listed_meetFrame h c fn
  unfold State.returnFrom
  dsimp only
  split
  · exact State.listed_park hm _ _ _
  · split
    · exact State.listed_park ((State.spares_modFacet _ _ _ _).listed hm) _ _ _
    · exact ((State.spares_modCore _ _ _).trans (State.spares_modFacet _ _ _ _)).listed hm

end Sys2Proof.Machine
end

section
/-! SUPPORT. The form of the memories is kept: stores and atomics at home, translation's events and patrol (R307, R322, R281). -/

namespace Sys2Proof.Machine

@[simp] theorem State.listed_readGrain {s : State} (h : s.Listed) (g : Nat) (w : Who) : (s.readGrain g w).Listed := by
  simp [State.readGrain, h]

@[simp] theorem State.listed_noteGrain {s : State} (h : s.Listed) (g : Nat) (tol : Bool) (w : Who) : (s.noteGrain g tol w).Listed := by
  simp [State.noteGrain, h]

@[simp] theorem State.listed_noteWords {s : State} (h : s.Listed) (pas : List Nat) (tol : Bool) (w : Who) :
    (s.noteWords pas tol w).Listed := by simp +contextual [State.noteWords, h, State.listed_foldl]

@[simp] theorem State.listed_putGrain {s : State} (h : s.Listed) (g : Nat) (ws : List ByteWrite) (tol tpol : Bool) (w : Who) :
    (s.putGrain g ws tol tpol w).Listed := by
  unfold State.putGrain
  extract_lets n full whole old s1 bad s2 s3 s4 s5
  have h1 : s1.Listed := by
    unfold s1
    split <;> simp [h]
  have h2 : s2.Listed := by
    unfold s2
    split <;> simp [h1]
  have h3 : s3.Listed := State.listed_foldl (fun t x ht => State.listed_putByte ht _ _) _ h2
  have h5 : s5.Listed := by
    unfold s5 s4
    repeat' split
    all_goals simp [h3]
  split
  · simp [h5]
  · split <;> simp [h5]

@[simp] theorem State.listed_storeWords {s : State} (h : s.Listed) (ws : List ByteWrite) (bad : List Nat) (tol tpol : Bool) (w : Who)
    (by' : Author) : (s.storeWords ws bad tol tpol w by').Listed := by
  refine (State.spares_notify _).listed (State.listed_foldl (fun t g ht => ?_) _ h)
  refine (State.spares_mirrorWord _ _ _).listed ?_
  split <;> simp [ht]

@[simp] theorem State.listed_hotBlock {s : State} (h : s.Listed) (b : Nat) (w : Who) : (s.hotBlock b w).Listed := by
  unfold State.hotBlock
  extract_lets v hb
  split
  · exact h
  · refine State.listed_foldl (fun u k hu => ?_) _ h
    split
    · extract_lets at' t c t1 t2
      have ht : t.Listed := State.listed_meetAt hu at' 1 w.req
      have h1 : t1.Listed := (t.spares_countRead at').listed ht
      have h2 : t2.Listed := State.listed_storeWords ht _ _ _ _ _ _
      repeat' split
      all_goals simp [h1, h2]
    · exact hu

@[simp] theorem State.listed_hot {s : State} (h : s.Listed) (pas : List Nat) (w : Who) : (s.hot pas w).Listed := by
  simp +contextual [State.hot, h, State.listed_foldl]

@[simp] theorem State.listed_storeMain {s : State} (h : s.Listed) (ws : List ByteWrite) (tol tpol : Bool) (w : Who) (by' : Author) :
    (s.storeMain ws tol tpol w by').Listed := by simp [State.storeMain, h]

@[simp] theorem State.listed_atomicMain {s : State} (h : s.Listed) (pa n : Nat) (op : BitVec 4) (t : BitVec 5) (mode : BitVec 3)
    (opd cmp : Nat) (tol tpol : Bool) (w : Who) (by' : Author) :
    (s.atomicMain pa n op t mode opd cmp tol tpol w by').1.Listed := by
  have hm : (s.meetAt pa 1 w.req).Listed := State.listed_meetAt h pa 1 w.req
  have hc : ((s.meetAt pa 1 w.req).countRead pa).Listed := (State.spares_countRead _ pa).listed hm
  unfold State.atomicMain
  dsimp only
  split
  · refine State.listed_hot ?_ _ _
    split
    · exact State.listed_report hc _ _ _ _
    · exact hc
  · exact State.listed_storeMain hm _ _ _ _ _

theorem listed_execWalkEnd {s : State} (h : s.Listed) (core facet hn : Nat) : OutListed (execWalkEnd core facet hn s) := by
  unfold execWalkEnd
  dsimp only
  repeat' split
  all_goals simp [h]

theorem listed_execInvalGo {s : State} (h : s.Listed) (v : BitVec 64) : OutListed (execInvalGo v s) := by simp [execInvalGo, h]

theorem listed_execInvalComplete {s : State} (h : s.Listed) : OutListed (execInvalComplete s) := by
  unfold execInvalComplete
  split <;> simp [h]

theorem listed_execRefresh {s : State} (h : s.Listed) (vein chan : Nat) (due waiting : Bool) :
    OutListed (execRefresh vein chan due waiting s) := by simp [execRefresh, h]

@[simp] theorem State.listed_patrol {s : State} (h : s.Listed) (pa : Nat) (f : Found) : (s.patrol pa f).Listed := by simp [State.patrol, h]

theorem listed_execPatrolVisit {s : State} (h : s.Listed) (vein : Nat) (f : Found) : OutListed (execPatrolVisit vein f s) := by
  simp [execPatrolVisit, h]

theorem listed_execDurablePatrolVisit {s : State} (h : s.Listed) (f : Found) : OutListed (execDurablePatrolVisit f s) := by
  simp [execDurablePatrolVisit, h]

theorem listed_execLogcntPop {s : State} (h : s.Listed) (unit : Nat) : OutListed (execLogcntPop unit s) := by simp [execLogcntPop, h]

end Sys2Proof.Machine
end

section
/-! SUPPORT. The form of the memories is kept: the engines of a core and the bulk engines (R211 to R262). -/

namespace Sys2Proof.Machine

theorem listed_execEngineOperationComplete {s : State} (h : s.Listed) (core facet : Nat) :
    OutListed (execEngineOperationComplete core facet s) := by simp [execEngineOperationComplete, h]

theorem listed_execCompletionRecordPost {s : State} (h : s.Listed) (core facet : Nat) :
    OutListed (execCompletionRecordPost core facet s) := by simp [execCompletionRecordPost, h]

@[simp] theorem State.listed_meetGrains {s : State} (h : s.Listed) (pasid : BitVec 20) (req k va : Nat) :
    (s.meetGrains pasid req k va).Listed := by
  induction k generalizing s va with
  | zero => exact h
  | succ k ih =>
    have hmeet := State.listed_meetEntries h pasid va req
    unfold State.meetGrains
    dsimp only
    split
    · exact ih hmeet _
    · exact hmeet

@[simp] theorem State.listed_meetPages {s : State} (h : s.Listed) (pasid : BitVec 20) (va : Int) (n req : Nat) :
    (s.meetPages pasid va n req).Listed := by simp [State.meetPages, h]

@[simp] theorem State.listed_noteCells {s : State} (h : s.Listed) (cs : List Cell) (w : Who) : (s.noteCells cs w).Listed := by
  have hspad : ((spadCores cs).foldl (fun s c => s.noteSpadErr c (spadOffs cs c)) s).Listed :=
    (State.spares_foldl (fun t c => t.spares_noteSpadErr c _) _ s).listed h
  exact State.listed_noteWords (State.listed_noteWords hspad _ _ _) _ _ _

@[simp] theorem State.listed_putCells {s : State} (h : s.Listed) (cs : List (Cell × FByte)) (w : Who) : (s.putCells cs w).Listed := by
  unfold State.putCells
  extract_lets mem put s1 sps
  have hput : ∀ (t : State) a b, t.Listed → (put t a b).Listed := fun t a b ht => State.listed_storeWords ht _ _ _ _ _ _
  have h1 : s1.Listed := hput _ _ _ (hput _ _ _ (hput _ _ _ (hput _ _ _ h)))
  exact (State.spares_foldl (fun t c => t.spares_modCore c _) _ _).listed h1

@[simp] theorem State.listed_feedShale {s : State} (h : s.Listed) (c : Nat) (tgt : FeedTarget) (x : EngineCmd) (va blocks : Nat)
    (ty : BitVec 5) (sm : Nat) : (s.feedShale c tgt x va blocks ty sm).Listed := by
  unfold State.feedShale
  extract_lets f r go n s1 s2 r' s3 s4 st y s5 m bs y' s6
  have hgo : go.2.2.Listed := (s.spares_engineGo _ _).listed h
  have h1 : s1.Listed := (State.spares_countPages _ _ _ _ _ _).listed (State.listed_meetPages hgo _ _ _ _)
  have h3 : s3.Listed := State.listed_hot (State.listed_noteCells h1 _ _) _ _
  have h4 : s4.Listed := by
    unfold s4
    split
    · exact (s3.spares_fabErr _ _).listed h3
    · exact h3
  have h5 : s5.Listed := (s4.spares_modCore _ _).listed h4
  have h6 : s6.Listed := (s.spares_modCore _ _).listed h
  split
  · split
    · exact (State.spares_modCore _ _ _).listed hgo
    · split
      · exact (s5.spares_feedDone _ _ _ _).listed h5
      · exact h5
  · split
    · exact h
    · split
      · exact (s6.spares_feedDone _ _ _ _).listed h6
      · exact h6

theorem listed_execFifoAppend {s : State} (h : s.Listed) (core : Nat) (tgt : FeedTarget) : OutListed (execFifoAppend core tgt s) := by
  unfold execFifoAppend
  dsimp only
  repeat' split
  all_goals simp [h]

theorem listed_execLocalFeederCommandStart {s : State} (h : s.Listed) (core : Nat) : OutListed (execLocalFeederCommandStart core s) := by
  unfold execLocalFeederCommandStart
  rw [outListed_next]
  repeat' split
  all_goals simp [h]

@[simp] theorem State.listed_bandRow {s : State} (h : s.Listed) (c b : Nat) (bd : Band) (o : BandOp) : (s.bandRow c b bd o).Listed := by
  unfold State.bandRow
  extract_lets k f i off win ps va w s1 a cs go sf sm bs o' bd' st
  split
  · exact h
  · have h1 : s1.Listed := State.listed_meetPages h _ _ _ _
    have hgo : go.2.2.Listed := (State.spares_engineGo _ _ _).listed h1
    have hm : sm.Listed :=
      State.listed_hot (State.listed_noteCells ((State.spares_countPages _ _ _ _ _ _).listed hgo) _ _) _ _
    have ht : st.Listed := (sm.spares_modCore _ _).listed hm
    split
    · refine (State.spares_bandDone _ _ _ _ _ _).listed ?_
      split <;> simp [sf, h1]
    · split
      · exact hgo
      · split
        · exact (State.spares_bandDone _ _ _ _ _ _).listed ht
        · exact ht

theorem listed_execBandRowArrival {s : State} (h : s.Listed) (core band : Nat) : OutListed (execBandRowArrival core band s) := by
  unfold execBandRowArrival
  dsimp only
  split <;> simp [h]

@[simp] theorem State.listed_meetSide {s : State} (h : s.Listed) (c : BulkCmd) (side r o n req : Nat) :
    (s.meetSide c side r o n req).Listed := by simp [State.meetSide, h]

@[simp] theorem State.listed_bulkMove {s : State} (h : s.Listed) (e : Nat) (c : BulkCmd) (b : Bulk) : (s.bulkMove e c b).Listed := by
  unfold State.bulkMove
  extract_lets n w s1 src dst cs go m s2 bs s3 s4 touched s5 s6 s7 bad
  have h1 : s1.Listed := State.listed_meetSide (State.listed_meetSide h _ _ _ _ _ _) _ _ _ _ _ _
  have hgo : go.2.2.Listed := (s1.spares_engineGo _ _).listed h1
  have h2 : s2.Listed :=
    State.listed_noteCells (((State.spares_countSide _ _ _ _ _ _).trans (State.spares_countSide _ _ _ _ _ _)).listed hgo) _ _
  have h3 : s3.Listed := by
    unfold s3
    split
    · exact (s2.spares_modCore _ _).listed h2
    · exact h2
  have h5 : s5.Listed := State.listed_hot (State.listed_hot (State.listed_putCells h3 _ _) _ _) _ _
  have h7 : s7.Listed := ((s5.spares_countPkg _ _).trans (s6.spares_modBulk _ _)).listed h5
  split
  · exact h1
  · split
    · exact h1
    · split
      · exact (State.spares_modBulk _ _ _).listed hgo
      · split
        · refine (State.spares_bulkStop _ _ _ _).listed ?_
          split
          · exact (s7.spares_fabErr _ _).listed h7
          · exact h7
        · split
          · exact (State.spares_bulkStop _ _ _ _).listed h7
          · exact h7

@[simp] theorem State.listed_bulkHostEnd {s : State} (h : s.Listed) (e : Nat) (c : BulkCmd) (b : Bulk) : (s.bulkHostEnd e c b).Listed := by
  unfold State.bulkHostEnd
  extract_lets s1 s2
  have h2 : s2.Listed := h
  split
  · exact State.listed_meqPost h2 _ _ _ _ _
  · exact h2

@[simp] theorem State.listed_bulkEnd {s : State} (h : s.Listed) (e : Nat) : (s.bulkEnd e).Listed := by
  unfold State.bulkEnd
  dsimp only
  split <;> simp [h]

theorem listed_execBulkEngineTakeCommand {s : State} (h : s.Listed) (e : Nat) : OutListed (execBulkEngineTakeCommand e s) := by
  unfold execBulkEngineTakeCommand
  dsimp only
  repeat' split
  all_goals simp [h]

theorem listed_execEngineCountdown {s : State} (h : s.Listed) (e : Nat) : OutListed (execEngineCountdown e s) := by
  unfold execEngineCountdown
  dsimp only
  split <;> simp [h]

theorem listed_execHostBulkGo {s : State} (h : s.Listed) (e : Nat) (v : BitVec 64) : OutListed (execHostBulkGo e v s) := by
  simp [execHostBulkGo, h]

end Sys2Proof.Machine
end

section
/-! SUPPORT. The form of the memories is kept: the durable write queue and the mirror (R342 to R353). -/

namespace Sys2Proof.Machine

theorem listed_execWriteQueueToMedia {s : State} (h : s.Listed) : OutListed (execWriteQueueToMedia s) :=
  (outListed_next _).2 (State.listed_drainOldest h)

@[simp] theorem State.listed_sealDone {s : State} (h : s.Listed) (q : SealReq) : (s.sealDone q).Listed := by
  unfold State.sealDone
  extract_lets s1
  have h1 : s1.Listed := MemForm.map h fun e => by split <;> rfl
  split
  · exact (s1.spares_devPut _ _ _ _).listed h1
  · exact (s1.spares_modFacet _ _ _).listed h1

/-- R343: a barrier seals every entry. -/
@[simp] theorem State.listed_sealStep {s : State} (h : s.Listed) (q : SealReq) : (s.sealStep q).Listed := by
  unfold State.sealStep
  extract_lets s1
  have h1 : s1.Listed := by
    unfold s1
    split
    · exact h
    · exact MemForm.seal h
  split
  · exact h1
  · exact State.listed_sealDone (s := { s1 with seals := s1.seals.erase q }) h1 q

theorem listed_execSealConfirm {s : State} (h : s.Listed) : OutListed (execSealConfirm s) := by
  unfold execSealConfirm
  split <;> simp [h]

theorem listed_execHpbarGo {s : State} (h : s.Listed) : OutListed (execHpbarGo s) := by simp [execHpbarGo, h]

theorem listed_execHoldupTest {s : State} (h : s.Listed) (ok : Bool) : OutListed (execHoldupTest ok s) := by simp [execHoldupTest, h]

@[simp] theorem State.listed_drainQueue {s : State} (h : s.Listed) (drained : Bool) : (s.drainQueue drained).Listed := by
  have hsealed : ((s.durQ.filter (·.sealed)).foldl State.toMedia s).Listed :=
    State.listed_foldl (fun t e ht => State.listed_toMedia ht e) _ h
  unfold State.drainQueue
  split
  · exact ⟨hsealed.mem, hsealed.media, by simp, .nil⟩
  · split
    · exact ⟨h.mem, h.media, by simp, .nil⟩
    · exact ⟨h.mem, rfl, by simp, .nil⟩

@[simp] theorem State.listed_mirSend {s : State} (h : s.Listed) (k : Nat) : (s.mirSend k).Listed := by simp [State.mirSend, h]

theorem listed_execMirrorEnable {s : State} (h : s.Listed) (k : Nat) : OutListed (execMirrorEnable k s) := by simp [execMirrorEnable, h]

theorem listed_execMirrorDisable {s : State} (h : s.Listed) (k : Nat) : OutListed (execMirrorDisable k s) := by simp [execMirrorDisable, h]

theorem listed_execMirrorSyncComplete {s : State} (h : s.Listed) (k : Nat) : OutListed (execMirrorSyncComplete k s) := by
  simp [execMirrorSyncComplete, h]

theorem listed_execMirrorWriteAck {s : State} (h : s.Listed) (k : Nat) : OutListed (execMirrorWriteAck k s) := by
  unfold execMirrorWriteAck
  dsimp only
  repeat' split
  all_goals simp [h]

theorem listed_execMirrorPartnerUnreachable {s : State} (h : s.Listed) (k : Nat) : OutListed (execMirrorPartnerUnreachable k s) := by
  simp [execMirrorPartnerUnreachable, h]

@[simp] theorem State.listed_repairFails {s : State} (h : s.Listed) (x : Repair) (c : Nat) : (s.repairFails x c).Listed := by
  simp [State.repairFails, h]

@[simp] theorem State.listed_repairMade {s : State} (h : s.Listed) (x : Repair) (bs : List (BitVec 8)) : (s.repairMade x bs).Listed := by
  simp [State.repairMade, h]

@[simp] theorem State.listed_repairAnswer {s : State} (h : s.Listed) (x : Repair) (r : PortReq) : (s.repairAnswer x r).Listed := by
  simp [State.repairAnswer, h]

@[simp] theorem State.listed_repairGo {s : State} (h : s.Listed) (word : Nat) : (s.repairGo word).Listed := by
  unfold State.repairGo
  repeat' split
  all_goals simp [h]

theorem listed_execMirrorRepair {s : State} (h : s.Listed) (k word : Nat) (partner : Option (BitVec 256)) :
    OutListed (execMirrorRepair k word partner s) := by
  unfold execMirrorRepair
  dsimp only
  repeat' split
  all_goals simp [h]

end Sys2Proof.Machine
end

section
/-! SUPPORT. The form of the memories is kept: bundles, commits and the ring (R32, R43, R238, R382). -/

namespace Sys2Proof.Machine

theorem listed_execRingMessageArrival {s : State} (h : s.Listed) (geode id : Nat) : OutListed (execRingMessageArrival geode id s) := by
  unfold execRingMessageArrival
  dsimp only
  split <;> simp [h]

theorem listed_execTsyncMeetingComplete {s : State} (h : s.Listed) (geode launch : Nat) (mask : BitVec 16) :
    OutListed (execTsyncMeetingComplete geode launch mask s) := by simp [execTsyncMeetingComplete, h, State.spares_foldl]

theorem listed_execResultLanding {s : State} (h : s.Listed) (core facet : Nat) : OutListed (execResultLanding core facet s) := by
  simp [execResultLanding, h]

theorem State.listed_coveredError {s t : State} (h : s.Listed) {b : Fetched} (ht : s.coveredError b = some t) : t.Listed := by
  unfold State.coveredError at ht
  split at ht
  · cases ht
  · split at ht
    · cases ht
    · cases ht
      exact (State.spares_modFacet _ _ _ _).listed (State.listed_takeTrap ((s.spares_modMe _).listed h) _)

theorem State.listed_tryIssueFrom {s : State} (h : s.Listed) {back : State → State} (hb : (back s).Listed) (b : Fetched) :
    (State.tryIssueFrom back s b).Listed := by
  unfold State.tryIssueFrom
  split
  · simp [h]
  · split
    · exact State.listed_takeTrap (s := (back s).modGeode _ _) hb _
    · split
      · exact State.listed_takeTrap hb _
      · split
        · exact (State.spares_stall _).listed ((State.spares_countCore _ _ _ _).listed
            ((State.spares_foldl (fun t i => t.spares_offer i) _ _).listed h))
        · split
          · next t ht => exact State.listed_coveredError h ht
          · simp [h]

@[simp] theorem State.listed_tryIssue {s : State} (h : s.Listed) (b : Fetched) : (s.tryIssue b).Listed := State.listed_tryIssueFrom h h b

@[simp] theorem State.listed_issueHere {s : State} (h : s.Listed) : (s.issueHere).Listed := by
  unfold State.issueHere
  dsimp only
  split <;> simp [h]

@[simp] theorem State.listed_aside {s : State} (h : s.Listed) (c fn : Nat) {act : State → State}
    (ha : ∀ t : State, t.Listed → (act t).Listed) : (s.aside c fn act).Listed := by
  have hact := ha (s.asRun c fn) ((s.spares_asRun c fn).listed h)
  simpa [State.aside] using hact

@[simp] theorem State.listed_offerHeld {s : State} (h : s.Listed) (c : Nat) : (s.offerHeld c).Listed := by
  refine State.listed_foldl (fun t fn ht => ?_) _ h
  split
  · refine State.listed_aside ht c fn fun u hu => ?_
    split
    · simp [hu]
    · exact (State.spares_foldl State.spares_offer _ u).listed hu
  · exact ht

@[simp] theorem State.listed_latchSwitches {s : State} (h : s.Listed) (g : Nat) : (s.latchSwitches g).Listed := by
  refine State.listed_foldl (fun t k ht => State.listed_foldl (fun u fn hu => ?_) _ ht) _ h
  dsimp only
  split
  · exact State.listed_aside hu _ _ fun _ hv => hv
  · exact hu

theorem listed_execBundleIssue {s : State} (h : s.Listed) (core : Nat) : OutListed (execBundleIssue core s) := by simp [execBundleIssue, h]

theorem listed_execFacetSwitch {s : State} (h : s.Listed) (core : Nat) : OutListed (execFacetSwitch core s) := by
  unfold execFacetSwitch
  dsimp only
  repeat' split
  all_goals simp [h]

theorem listed_execQuantumExpiry {s : State} (h : s.Listed) (core : Nat) : OutListed (execQuantumExpiry core s) := by
  unfold execQuantumExpiry
  split <;> simp [h]

@[simp] theorem State.listed_afterCommit {s : State} (h : s.Listed) (c fn : Nat) (l : Latch) : (s.afterCommit c fn l).Listed := by
  unfold State.afterCommit
  repeat' split
  all_goals simp [h]

theorem listed_execBundleCommit {s : State} (h : s.Listed) (core : Nat) : OutListed (execBundleCommit core s) := by
  simp [execBundleCommit, h]

@[simp] theorem State.listed_parkReplay {s : State} (h : s.Listed) (c fn : Nat) : (s.parkReplay c fn).Listed := by
  simp [State.parkReplay, h]

theorem listed_execTimingErrorReplay {s : State} (h : s.Listed) (core : Nat) : OutListed (execTimingErrorReplay core s) := by
  simp [execTimingErrorReplay, h]

theorem listed_execResume {s : State} (h : s.Listed) (core facet : Nat) : OutListed (execResume core facet s) := by simp [execResume, h]

theorem listed_execEnter {s : State} (h : s.Listed) (core facet : Nat) : OutListed (execEnter core facet s) := by simp [execEnter, h]

theorem listed_execParkreq {s : State} (h : s.Listed) (core facet : Nat) : OutListed (execParkreq core facet s) := by simp [execParkreq, h]

end Sys2Proof.Machine
end

section
/-! SUPPORT. The form of the memories is kept: queue slots, packets and launches (R354 to R369). -/

namespace Sys2Proof.Machine

theorem State.listed_meetImage (counts : Bool) {s : State} (h : s.Listed) (pasid : BitVec 20) (fuel va n : Nat) :
    (State.meetImage counts s pasid fuel va n).Listed := by
  induction fuel generalizing s va n with
  | zero => exact h
  | succ fuel ih =>
    unfold State.meetImage
    extract_lets k t
    have ht : t.Listed := by
      unfold t
      split
      · exact State.listed_meetWalk h _ _ _
      · exact State.listed_meetEntries h _ _ _
    split
    · exact h
    · split
      · exact ht
      · refine ih ?_ _ _
        split
        · exact State.listed_meetRange ht _ _ _
        · exact State.listed_meetRun ht _ _ _

@[simp] theorem State.listed_meetBytes {s : State} (h : s.Listed) (pasid : BitVec 20) (va n : Nat) : (s.meetBytes pasid va n).Listed :=
  State.listed_meetImage true h _ _ _ _

theorem State.listed_meetRanges (counts : Bool) {s : State} (h : s.Listed) (pasid : BitVec 20) (va : Nat) :
    (State.meetRanges counts s pasid va).Listed :=
  State.listed_foldl (fun _ _ ht => State.listed_meetImage counts ht _ _ _ _) _ h

@[simp] theorem State.listed_meetKernel {s : State} (h : s.Listed) (pasid : BitVec 20) (va : Nat) : (s.meetKernel pasid va).Listed :=
  State.listed_meetRanges _ (State.listed_meetRanges _ (State.listed_meetRanges _ h _ _) _ _) _ _

@[simp] theorem State.listed_readOwn {s : State} (h : s.Listed) (pa n : Nat) : (s.readOwn pa n).Listed := by simp [State.readOwn, h]

@[simp] theorem State.listed_slotPost {s : State} (h : s.Listed) (k kind code idx : Nat) : (s.slotPost k kind code idx).Listed := by
  simp [State.slotPost, h]

@[simp] theorem State.listed_slotErr {s : State} (h : s.Listed) (k code idx : Nat) : (s.slotErr k code idx).Listed := by
  unfold State.slotErr
  extract_lets q s1 w s2 s3
  have h2 : s2.Listed := State.listed_putOwnNum (State.listed_meetRange h _ _ _) _ _ _ _ _
  exact State.listed_slotPost (s := s3) ((s2.spares_modSlot k _).listed h2) _ _ _ _

theorem listed_execMap {s : State} (h : s.Listed) (slot : Nat) : OutListed (execMap slot s) := by simp [execMap, h]

theorem listed_execUnmap {s : State} (h : s.Listed) (slot : Nat) : OutListed (execUnmap slot s) := by simp [execUnmap, h]

theorem listed_execUnmapComplete {s : State} (h : s.Listed) (slot : Nat) : OutListed (execUnmapComplete slot s) := by
  simp [execUnmapComplete, h]

@[simp] theorem State.listed_readRecord {s : State} (h : s.Listed) (i : Nat) : (s.readRecord i).1.Listed := by
  unfold State.readRecord
  split <;> simp [h]

@[simp] theorem State.listed_startLaunch {s : State} (h : s.Listed) (k : Nat) (ws : List (BitVec 64)) : (s.startLaunch k ws).Listed := by
  unfold State.startLaunch
  extract_lets q s1 sig
  split
  · exact (s.spares_malformed _ _).listed h
  · have h1 : s1.Listed := State.listed_ite h (State.listed_meetWalk h _ _ _)
    clear_value sig
    split
    · exact (s1.spares_malformed _ _).listed h1
    · extract_lets s2
      have h2 : s2.Listed := State.listed_meetKernel ((s1.spares_modSlot _ _).listed h1) _ _
      split
      · exact (s2.spares_malformed _ _).listed h2
      · extract_lets n s3 ck rd s4
        have h3 : s3.Listed := State.listed_ite h2 (State.listed_meetWalk h2 _ _ _)
        have h4 : s4.Listed := by
          unfold s4 rd
          clear_value ck
          split
          · exact State.listed_readRecord h3 _
          · exact h3
        clear_value s4 rd ck
        split
        · exact (s4.spares_malformed _ _).listed h4
        · refine State.listed_ite ((s4.spares_malformed _ _).listed h4) (State.listed_ite ((s4.spares_modSlot _ _).listed h4) ?_)
          exact State.listed_ite ((s4.spares_modSlot _ _).listed h4) ((s4.spares_openLaunch _ _ _ _).listed h4)

@[simp] theorem State.listed_startWait {s : State} (h : s.Listed) (k : Nat) (ws : List (BitVec 64)) : (s.startWait k ws).Listed := by
  simp +contextual [State.startWait, h, State.listed_foldl]

@[simp] theorem State.listed_startSignal {s : State} (h : s.Listed) (k : Nat) (ws : List (BitVec 64)) : (s.startSignal k ws).Listed := by
  unfold State.startSignal
  dsimp only
  repeat' split
  all_goals simp [h]

theorem listed_execPacketStart {s : State} (h : s.Listed) (slot : Nat) : OutListed (execPacketStart slot s) := by
  unfold execPacketStart
  dsimp only
  repeat' split
  all_goals simp [h]

@[simp] theorem State.listed_readSignal {s : State} (h : s.Listed) (x : Signal) : (s.readSignal x).Listed := by
  unfold State.readSignal
  dsimp only
  repeat' split
  all_goals simp [h]

@[simp] theorem State.listed_pollWait {s : State} (h : s.Listed) (k : Nat) : (s.pollWait k).Listed := by
  simp +contextual [State.pollWait, h, State.listed_foldl]

theorem listed_execWaitPacketSatisfied {s : State} (h : s.Listed) (slot : Nat) : OutListed (execWaitPacketSatisfied slot s) := by
  unfold execWaitPacketSatisfied
  dsimp only
  split <;> simp [h]

@[simp] theorem State.listed_placeSeg {s : State} (h : s.Listed) (id : Nat) (l : Launch) (c : Nat) (e : BitVec 64 × BitVec 64) :
    (s.placeSeg id l c e).Listed := by
  unfold State.placeSeg
  dsimp only
  repeat' split
  all_goals simp [h]

@[simp] theorem State.listed_placeData {s : State} (h : s.Listed) (l : Launch) (c : Nat) (ps : List Nat) (e : BitVec 64 × BitVec 64) :
    (s.placeData l c ps e).Listed := by
  unfold State.placeData
  dsimp only
  split <;> simp [h]

@[simp] theorem State.listed_placeCore {s : State} (h : s.Listed) (id : Nat) (l : Launch) (c γ κ : Nat) :
    (s.placeCore id l c γ κ).Listed := by
  unfold State.placeCore
  extract_lets kn k ps s1 s2 s3 s4 s5 nv nc ncores s6 rec? s7 s8
  have h1 : s1.Listed := by
    unfold s1
    split <;> exact h
  have h2 : s2.Listed := (s1.spares_modCore _ _).listed h1
  have h3 : s3.Listed := State.listed_foldl (fun t e ht => State.listed_placeSeg ht _ _ _ _) _ h2
  have h4 : s4.Listed := State.listed_foldl (fun t e ht => State.listed_placeData ht _ _ _ _) _ h3
  have h5 : s5.Listed := (s4.spares_modCore _ _).listed h4
  have h6 : s6.Listed := by
    unfold s6
    split
    · exact State.listed_readRecord h5 _
    · exact h5
  have h7 : s7.Listed := by
    unfold s7
    split
    · exact (s6.spares_modCore _ _).listed h6
    · exact h6
  have h8 : s8.Listed := (s7.spares_modCore _ _).listed h7
  refine State.listed_foldl (fun t f ht => ?_) _ h8
  extract_lets vb cb task fn t1
  have ht1 : t1.Listed := (t.spares_modCore _ _).listed ht
  split
  · exact ht
  · split
    · exact (t1.spares_resumeTask _ _ _ _ _).listed ht1
    · exact ht1

@[simp] theorem State.listed_placeGeode {s : State} (h : s.Listed) (id : Nat) (l : Launch) (g : Nat) : (s.placeGeode id l g).Listed := by
  simp +contextual [State.placeGeode, h, State.listed_foldl]

theorem listed_execLaunchDispatch {s : State} (h : s.Listed) (slot : Nat) : OutListed (execLaunchDispatch slot s) := by
  unfold execLaunchDispatch
  dsimp only
  repeat' split
  all_goals simp +contextual [h, State.listed_foldl]

theorem listed_execTokenRefill {s : State} (h : s.Listed) (p : Nat) : OutListed (execTokenRefill p s) := by simp [execTokenRefill, h]

@[simp] theorem State.listed_writeSignal {s : State} (h : s.Listed) (x : Signal) : (s.writeSignal x).Listed := by
  unfold State.writeSignal
  split
  · simp [h]
  · split <;> simp [h]
  · simp [h]

theorem listed_execPacketCompletion {s : State} (h : s.Listed) (slot : Nat) : OutListed (execPacketCompletion slot s) := by
  unfold execPacketCompletion
  rw [outListed_next]
  extract_lets q ws ty l st sigs told s1 ridx s2 src s3 s4
  have ht : told.Listed := State.listed_putOwnNum h _ _ _ _ _
  have h1 : s1.Listed := by
    refine State.listed_foldl (fun t x hu => State.listed_writeSignal hu x) _ ?_
    split
    · exact h
    · exact ht
  have h2 : s2.Listed := State.listed_putOwnNum h1 _ _ _ _ _
  have h3 : s3.Listed := by simpa [s3, src] using h2
  have h4 : s4.Listed := by
    unfold s4
    split
    · exact State.listed_slotPost h3 _ _ _ _
    · exact h3
  split
  · exact h
  · split
    · split
      · exact (told.spares_sigsPort _).listed ht
      · exact h
    · split
      · exact h
      · split
        · exact State.listed_slotErr h4 _ _ _
        · split
          · exact State.listed_slotErr h4 _ _ _
          · exact h4

theorem listed_execWatchdogExpiry {s : State} (h : s.Listed) (core facet : Nat) : OutListed (execWatchdogExpiry core facet s) := by
  simp [execWatchdogExpiry, h]

theorem listed_execKill {s : State} (h : s.Listed) (slot : Nat) : OutListed (execKill slot s) := by
  unfold execKill
  dsimp only
  split <;> simp [h]

end Sys2Proof.Machine
end

section
/-! SUPPORT. The form of the memories is kept: micro-operations, matrix items and power (R204 to R207, R410 to R421). -/

namespace Sys2Proof.Machine

/-- R207: a micro-operation has its effect on the running invocation, or none. -/
theorem listed_microOp {s : State} (h : s.Listed) {e : Invocation → State} (he : ∀ v, s.Spares (e v)) : OutListed (microOp s e) := by
  unfold microOp
  rw [outListed_next]
  split
  · split
    · exact h
    · exact (he _).listed h
  · exact h

theorem listed_execMatrixItemRun {s : State} (h : s.Listed) (core : Nat) : OutListed (execMatrixItemRun core s) := by
  unfold execMatrixItemRun
  dsimp only
  repeat' split
  all_goals simp [h]

theorem listed_execFrequencyStep {s : State} (h : s.Listed) (geode : Nat) : OutListed (execFrequencyStep geode s) := by
  simp [execFrequencyStep, h]

@[simp] theorem State.listed_peqPost {s : State} (h : s.Listed) (p kind geo old new value : Nat) :
    (s.peqPost p kind geo old new value).Listed := by simp [State.peqPost, h]

@[simp] theorem State.listed_peqGeode {s : State} (h : s.Listed) (g kind old new value : Nat) :
    (s.peqGeode g kind old new value).Listed := by
  unfold State.peqGeode
  split <;> simp [h]

@[simp] theorem State.listed_partLevel {s : State} (h : s.Listed) (p : Nat) : (s.partLevel p).Listed := by
  unfold State.partLevel
  split
  · exact h
  · exact State.listed_peqPost (s := s.devPut _ _ _ _) h _ _ _ _ _ _

@[simp] theorem State.listed_thermalStep {s : State} (h : s.Listed) (r : EpochReport) (g : Nat) : (s.thermalStep r g).Listed := by
  unfold State.thermalStep
  extract_lets temp warn s1 t1 t2
  have hs : s1.Listed := h
  have h1 : t1.Listed := hs
  have h2 : t2.Listed := hs
  split
  · split
    · exact h1
    · exact State.listed_peqGeode h1 _ _ _ _ _
  · split
    · split
      · exact State.listed_peqGeode h2 _ _ _ _ _
      · exact h2
    · exact hs

@[simp] theorem State.listed_grant {s : State} (h : s.Listed) (g : Nat) : (s.grant g).Listed := by
  unfold State.grant
  extract_lets old new t
  have ht : t.Listed := h
  split
  · exact ht
  · exact State.listed_peqGeode ht _ _ _ _ _

theorem listed_execEpochEnd {s : State} (h : s.Listed) (r : EpochReport) : OutListed (execEpochEnd r s) := by
  unfold execEpochEnd
  rw [outListed_next]
  extract_lets s1 s2 s3 s4 s5
  have h2 : s2.Listed := State.listed_foldl (fun t p ht => State.listed_partLevel ht p) _ ((s.spares_account r).listed h)
  have h3 : s3.Listed := (s2.spares_packageStep r).listed h2
  have h4 : s4.Listed := State.listed_foldl (fun t g ht => State.listed_thermalStep ht r g) _ h3
  have h5 : s5.Listed := State.listed_foldl (fun t g ht => State.listed_latchSwitches ht g) _ h4
  exact State.listed_foldl (fun t g ht => State.listed_grant ht g) _ h5

theorem listed_execTemperatureCritical {s : State} (h : s.Listed) (geode : Nat) (temp : BitVec 8) :
    OutListed (execTemperatureCritical geode temp s) :=
  (outListed_next _).2 (State.listed_ite h (State.listed_peqGeode (s := s.devPut (aGstat geode) 23 16 temp.toNat) h _ _ _ _ _))

theorem listed_execCurrentReport {s : State} (h : s.Listed) (amps : List Nat) (other : Nat) :
    OutListed (execCurrentReport amps other s) := by simp +contextual [execCurrentReport, h, State.spares_foldl, State.listed_foldl]

theorem listed_execActivityWindow {s : State} (h : s.Listed) (geode later : Nat) : OutListed (execActivityWindow geode later s) := by
  simp [execActivityWindow, h]

theorem listed_execBallastPass {s : State} (h : s.Listed) (geode : Nat) (on : Bool) : OutListed (execBallastPass geode on s) := by
  simp [execBallastPass, h]

end Sys2Proof.Machine
end

section
/-! SUPPORT. The form of the memories is kept: fossils, checkpoints, sparing and the pre-emption policy (R397 to R407). -/

namespace Sys2Proof.Machine

@[simp] theorem State.listed_putFossilHeader {s : State} (h : s.Listed) (f : Fossil) : (s.putFossilHeader f).Listed := by
  simp [State.putFossilHeader, h]

@[simp] theorem State.listed_takeFossil {s : State} (h : s.Listed) (f : Fossil) : (s.takeFossil f).Listed := by simp [State.takeFossil, h]

@[simp] theorem State.listed_freezeInto {s : State} (h : s.Listed) (g : Nat) (reason : BitVec 2) (pa : Nat) (spare : Option SpareSlot) :
    (s.freezeInto g reason pa spare).Listed := by simp [State.freezeInto, h]

theorem listed_execGeodeFreeze {s : State} (h : s.Listed) (geode : Nat) (reason : BitVec 2) :
    OutListed (execGeodeFreeze geode reason s) := by
  unfold execGeodeFreeze
  rw [outListed_next]
  repeat' split
  all_goals simp [h]

theorem listed_execSparingSequence {s : State} (h : s.Listed) (geode : Nat) (spare : Option SpareSlot) :
    OutListed (execSparingSequence geode spare s) := by
  have hfreeze : ∀ r pa, ((s.devPut (aGeodeMap geode) 7 6 1).freezeInto geode r pa spare).Listed :=
    fun r pa => State.listed_freezeInto ((s.spares_devPut _ _ _ _).listed h) _ _ _ _
  unfold execSparingSequence
  rw [outListed_next]
  extract_lets test reason
  refine State.listed_ite h ?_
  split
  · exact hfreeze _ _
  · exact State.listed_ite h (hfreeze _ _)
  · exact h
  · refine State.listed_ite h ((State.spares_foldl (fun t p => ?_) _ _).listed ((s.spares_goOffline geode).listed h))
    exact (t.spares_killTask _ _).trans (State.spares_tasksDone _ _ _ _)

theorem listed_execFossilWriteComplete {s : State} (h : s.Listed) (i : Nat) : OutListed (execFossilWriteComplete i s) := by
  unfold execFossilWriteComplete
  dsimp only
  repeat' split
  all_goals simp [h]

@[simp] theorem State.listed_rewalk {s : State} (h : s.Listed) (g : Nat) (pasid : BitVec 20) (hn : Handle) :
    (s.rewalk g pasid hn).Listed := by
  unfold State.rewalk
  extract_lets s1
  have h1 : s1.Listed := State.listed_meetWalk h _ _ _
  split
  · split <;> exact h1
  · exact h1

@[simp] theorem State.listed_restoreFossil {s : State} (h : s.Listed) (i : Nat) (f : Fossil) : (s.restoreFossil i f).Listed := by
  unfold State.restoreFossil
  extract_lets g out src s1 xs s2 re s3 s4
  have h2 : s2.Listed := State.listed_foldl (fun t x ht => State.listed_foldl (fun u hn hu => State.listed_rewalk hu g _ hn) _ ht) _
    (s := s1) h
  have h3 : s3.Listed := (s2.spares_unpack f _).listed h2
  have h4 : s4.Listed := by
    unfold s4
    split
    · exact (s3.spares_devPut _ _ _ _).listed h3
    · exact h3
  exact State.listed_putFossilHeader ((State.spares_countFossils _ _).listed ((s4.spares_modFossil _ _).listed h4)) _

@[simp] theorem State.listed_readFossil {s : State} (h : s.Listed) (f : Fossil) : (s.readFossil f).Listed := by simp [State.readFossil, h]

theorem listed_execFossilRestore {s : State} (h : s.Listed) (i : Nat) : OutListed (execFossilRestore i s) := by
  unfold execFossilRestore
  split <;> simp [h]

@[simp] theorem State.listed_putRecordHeader {s : State} (h : s.Listed) (r : Ckpt) (crc : BitVec 32) :
    (s.putRecordHeader r crc).Listed := by simp [State.putRecordHeader, h]

@[simp] theorem State.listed_putRecord {s : State} (h : s.Listed) (r : Ckpt) : (s.putRecord r).Listed := by simp [State.putRecord, h]

@[simp] theorem State.listed_markRecord {s : State} (h : s.Listed) (i : Nat) (st : BitVec 2) : (s.markRecord i st).Listed := by
  unfold State.markRecord
  split <;> simp [h]

@[simp] theorem State.listed_failRecord {s : State} (h : s.Listed) (id : Nat) (l : Launch) : (s.failRecord id l).Listed := by
  unfold State.failRecord
  split <;> simp [h]

@[simp] theorem State.listed_checkpointFails {s : State} (h : s.Listed) (id : Nat) : (s.checkpointFails id).Listed := by
  unfold State.checkpointFails
  split
  · exact h
  · next l _ =>
    extract_lets p src s1 s2 gs freezable
    have h1 : s1.Listed := State.listed_failRecord h id l
    have h2 : s2.Listed := (s1.spares_modFacetsOf id _).listed h1
    have h3 : ∀ x y, (s2.policyActed p x y).Listed := fun x y => (s2.spares_policyActed p x y).listed h2
    split
    · refine State.listed_foldl (fun t g ht => ?_) _ (h3 3 1)
      split <;> simp [ht]
    · exact (State.spares_killLaunch _ _).listed (h3 4 1)

theorem listed_execCheckpointRequest {s : State} (h : s.Listed) (slot : Nat) : OutListed (execCheckpointRequest slot s) := by
  unfold execCheckpointRequest
  dsimp only
  split <;> simp [h]

@[simp] theorem State.listed_saveRecord {s : State} (h : s.Listed) (id : Nat) (l : Launch) : (s.saveRecord id l).Listed := by
  simp [State.saveRecord, h]

@[simp] theorem State.listed_endSave {s : State} (h : s.Listed) (id i : Nat) : (s.endSave id i).Listed := by
  simp [State.endSave, h, State.spares_foldl]

theorem listed_execCheckpointSave {s : State} (h : s.Listed) (slot : Nat) : OutListed (execCheckpointSave slot s) := by
  unfold execCheckpointSave
  dsimp only
  repeat' split
  all_goals simp [h]

theorem listed_execCheckpointTimeout {s : State} (h : s.Listed) (slot : Nat) : OutListed (execCheckpointTimeout slot s) := by
  unfold execCheckpointTimeout
  dsimp only
  split <;> simp [h]

@[simp] theorem State.listed_act {s : State} (h : s.Listed) (slot g : Nat) (a : Action) : (s.act slot g a).Listed := by
  cases a
  case drain => exact h
  case kill => exact (State.spares_foldl State.spares_killLaunch _ _).listed h
  case freeze =>
    simp only [State.act]
    split <;> simp [h]
  case checkpoint =>
    refine State.listed_foldl (fun t i ht => ?_) _ h
    split
    · exact ht
    · split
      · exact ht
      · extract_lets u
        have hu : u.Listed := ht
        split <;> simp [hu]

theorem listed_execPreemptionPolicy {s : State} (h : s.Listed) (slot geode : Nat) : OutListed (execPreemptionPolicy slot geode s) := by
  simp [execPreemptionPolicy, h]

end Sys2Proof.Machine
end

section
/-! SUPPORT. The form of the memories is kept: firmware, tests and the registers of the device (R423 to R442). -/

namespace Sys2Proof.Machine

theorem listed_execExtctlGo {s : State} (h : s.Listed) (v : BitVec 64) (fw : Bool) : OutListed (execExtctlGo v fw s) := by
  simp [execExtctlGo, h]

theorem listed_execAttestationReport {s : State} (h : s.Listed) (nonce : BitVec 384) (pa : Nat) :
    OutListed (execAttestationReport nonce pa s) := by simp [execAttestationReport, h]

theorem listed_execEnvelopeReceive {s : State} (h : s.Listed) (e : Envelope) (mgmt : Bool) : OutListed (execEnvelopeReceive e mgmt s) := by
  simp [execEnvelopeReceive, h]

theorem listed_execManifestReplace {s : State} (h : s.Listed) (digests : List (BitVec 384)) (svn : BitVec 16) (payload : List (BitVec 8)) :
    OutListed (execManifestReplace digests svn payload s) := by
  unfold execManifestReplace
  split <;> simp [h]

theorem listed_execInFieldTest {s : State} (h : s.Listed) (t : ScanTest) : OutListed (execInFieldTest t s) := by
  unfold execInFieldTest
  rw [outListed_next]
  extract_lets die bad pass id
  split
  · exact h
  · extract_lets s1 spares out s2
    have h1 : s1.Listed := (s.spares_extendMeas _ _).listed h
    have h2 : s2.Listed := (s1.spares_devSet _ _).listed h1
    have hput : ∀ (u : State) (l : List Nat) (a v : Nat), u.Listed → ({ u with failedSlots := l }.devPut a 27 24 v).Listed :=
      fun _ _ _ _ hu => hu
    split
    · exact h
    · split
      · exact h2
      · split
        · exact hput _ _ _ _ h2
        · split
          · exact hput _ _ _ _ h2
          · exact h2

theorem listed_execGeodeMapWrite {s : State} (h : s.Listed) (n : Nat) (v : BitVec 32) (fw : Bool) :
    OutListed (execGeodeMapWrite n v fw s) := by simp [execGeodeMapWrite, h]

theorem listed_execLodeIdWrite {s : State} (h : s.Listed) (v : BitVec 64) (fw : Bool) : OutListed (execLodeIdWrite v fw s) := by
  simp [execLodeIdWrite, h]

theorem listed_after {o : Out} (ho : OutListed o) {s : State} (h : s.Listed) : (after o s).Listed := by
  unfold after
  split
  · exact ho _ rfl
  · exact h

@[simp] theorem State.listed_mirRegWrite {s : State} (h : s.Listed) (k off : Nat) (v : BitVec 64) : (s.mirRegWrite k off v).Listed := by
  unfold State.mirRegWrite
  extract_lets a off? s1 s2
  split
  · exact State.listed_ite h h
  · exact State.listed_ite h h
  · have h1 : s1.Listed := State.listed_ite h h
    have h2 : s2.Listed := State.listed_ite h1 h1
    exact State.listed_ite (listed_after (listed_execMirrorEnable h2 k) h2) (listed_after (listed_execMirrorDisable h2 k) h2)
  · exact h

@[simp] theorem State.listed_slotRegWrite {s : State} (h : s.Listed) (k off : Nat) (v : BitVec 64) (fw : Bool) :
    (s.slotRegWrite k off v fw).Listed := by
  unfold State.slotRegWrite
  extract_lets free one s1
  split
  · split <;> simp [h]
  · have h1 : s1.Listed := by
      unfold s1
      split <;> simp [h]
    split
    · exact listed_after (listed_execMap h1 k) h1
    · exact listed_after (listed_execUnmap h1 k) h1
    · exact listed_after (listed_execKill h1 k) h1
    · exact h1
  · exact h

@[simp] theorem State.listed_parkWrite {s : State} (h : s.Listed) (c fn : Nat) (v : BitVec 64) : (s.parkWrite c fn v).Listed := by
  unfold State.parkWrite
  split
  · exact listed_after (listed_execResume h c fn) h
  · exact listed_after (listed_execEnter h c fn) h
  · exact listed_after (listed_execParkreq h c fn) h
  · exact h

@[simp] theorem State.listed_bulkWrite {s : State} (h : s.Listed) (e off : Nat) (v : BitVec 64) : (s.bulkWrite e off v).Listed := by
  have hgo : (after (execHostBulkGo e v s) s).Listed := listed_after (listed_execHostBulkGo h e v) h
  exact State.listed_ite (State.listed_ite h h) (State.listed_ite h (State.listed_ite h (State.listed_ite (State.listed_ite hgo h) h)))

@[simp] theorem State.listed_regWrite {s : State} (h : s.Listed) (a : Nat) (v : BitVec 64) (fw : Bool) : (s.regWrite a v fw).Listed := by
  have hmap : ∀ (t : State) (n : Nat) (u : BitVec 32), t.Listed → (after (execGeodeMapWrite n u fw t) t).Listed :=
    fun t n u ht => listed_after (listed_execGeodeMapWrite ht n u fw) ht
  unfold State.regWrite
  refine State.listed_ite (listed_after (listed_execLodeIdWrite h _ _) h) ?_
  refine State.listed_ite (hmap _ _ _ (hmap _ _ _ h)) ?_
  refine State.listed_ite (State.listed_ite ((s.spares_invalGo _).listed h) h) ?_
  refine State.listed_ite (State.listed_ite h h) ?_
  refine State.listed_ite (State.listed_ite (listed_after (listed_execHpbarGo h) h) h) ?_
  refine State.listed_ite (State.listed_mirRegWrite h _ _ _) ?_
  refine State.listed_ite (State.listed_slotRegWrite h _ _ _ _) ?_
  refine State.listed_ite (State.listed_ite ((s.spares_levelWrite _ _).listed h) h) ?_
  refine State.listed_ite (listed_after (listed_execExtctlGo h _ _) h) ?_
  refine State.listed_ite (State.listed_ite ((s.spares_portWrite _ _).listed h) h) ?_
  refine State.listed_ite (State.listed_parkWrite h _ _ _) ?_
  refine State.listed_ite (State.listed_bulkWrite h _ _ _) ?_
  split
  · exact (s.spares_counterWrite _ _ _).listed h
  · split
    · exact State.listed_ite (listed_after (listed_execLogcntPop h _) h) h
    · exact State.listed_ite h h

@[simp] theorem State.listed_hostStore {s : State} (h : s.Listed) (core pa : Nat) (bs : List (BitVec 8)) :
    (s.hostStore core pa bs).Listed := by simp [State.hostStore, h]

@[simp] theorem State.listed_hostLoad {s : State} (h : s.Listed) (core pa n : Nat) : (s.hostLoad core pa n).Listed := by
  simp [State.hostLoad, h]

@[simp] theorem State.listed_hostAccess {s : State} (h : s.Listed) (addr : Nat) (v : HostAccess) (fw : Bool) :
    (s.hostAccess addr v fw).Listed := by
  have hd : ∀ t : State, t.Listed → ∀ bs b, (t.hostDone v.core bs b).Listed := fun t ht _ _ => (t.spares_hostDone _ _ _ _).listed ht
  unfold State.hostAccess
  extract_lets core
  refine State.listed_ite h (State.listed_ite (State.listed_ite (hd s h _ _) ?_) ?_)
  · obtain ⟨c, v | bs | n⟩ := v
    · exact hd _ (State.listed_regWrite h _ _ _) _ _
    · exact hd s h _ _
    · rcases n with _ | _ | _ | _ | _ | _ | _ | _ | _ | n <;> exact hd s h _ _
  · split
    · exact State.listed_hostStore h _ _ _
    · exact State.listed_hostStore h _ _ _
    · exact State.listed_hostLoad h _ _ _

theorem listed_execRegisterWrite {s : State} (h : s.Listed) (addr : Nat) (v : HostAccess) (fw : Bool) :
    OutListed (execRegisterWrite addr v fw s) := by simp [execRegisterWrite, h]

end Sys2Proof.Machine
end

section
/-! SUPPORT. The form of the memories is kept: accesses at home, the fabric and the host's link (R443 to R454). -/

namespace Sys2Proof.Machine

@[simp] theorem State.listed_performMain {s : State} (h : s.Listed) (a : Access) : (s.performMain a).Listed := by
  unfold State.performMain
  split <;> simp [h]

@[simp] theorem State.listed_performDevice {s : State} (h : s.Listed) (a : Access) : (s.performDevice a).Listed := by
  unfold State.performDevice
  split <;> simp [h]

@[simp] theorem State.listed_performRemote {s : State} (h : s.Listed) (a : Access) (lode : Nat) : (s.performRemote a lode).Listed := by
  unfold State.performRemote
  dsimp only
  repeat' split
  all_goals simp [h]

theorem listed_execAccessPerformAtHome {s : State} (h : s.Listed) (id : Nat) : OutListed (execAccessPerformAtHome id s) := by
  unfold execAccessPerformAtHome
  split
  · exact (outListed_next s).2 h
  · split
    · exact (outListed_next s).2 h
    · split
      · exact outListed_fault _
      · rw [outListed_next]
        split
        · exact (s.spares_performSpad _ _).listed h
        · exact State.listed_performMain h _
        · exact State.listed_performMain h _
        · exact State.listed_performDevice h _
        · exact State.listed_performRemote h _ _

@[simp] theorem State.listed_failBulk {s : State} (h : s.Listed) (hit : PortReq → Bool) (cause : Nat) : (s.failBulk hit cause).Listed := by
  refine State.listed_foldl (fun t e ht => ?_) _ h
  dsimp only
  split
  · split <;> simp [ht]
  · exact ht

@[simp] theorem State.listed_failRepairs {s : State} (h : s.Listed) (hit : PortReq → Bool) (cause : Nat) :
    (s.failRepairs hit cause).Listed := by simp +contextual [State.failRepairs, h, State.listed_foldl]

@[simp] theorem State.listed_failReqs {s : State} (h : s.Listed) (hit : PortReq → Bool) (cause : Nat) : (s.failReqs hit cause).Listed := by
  simp [State.failReqs, h]

theorem listed_execFabricTimeout {s : State} (h : s.Listed) (id : Nat) : OutListed (execFabricTimeout id s) := by
  simp [execFabricTimeout, h]

theorem listed_execFabricError {s : State} (h : s.Listed) (lode : BitVec 16) (cause : BitVec 4) :
    OutListed (execFabricError lode cause s) := by
  unfold execFabricError
  split <;> simp [h]

@[simp] theorem State.listed_failPort {s : State} (h : s.Listed) (k : Nat) : (s.failPort k).Listed :=
  State.listed_failReqs (s := s.devPut (aPort k) 2 1 3) h _ _

theorem listed_execFlitCrcError {s : State} (h : s.Listed) (k : Nat) : OutListed (execFlitCrcError k s) := by simp [execFlitCrcError, h]

theorem listed_execPortTrain {s : State} (h : s.Listed) (k lanes gbps : Nat) : OutListed (execPortTrain k lanes gbps s) := by
  simp [execPortTrain, h]

@[simp] theorem State.listed_inbound {s : State} (h : s.Listed) (r : FabricRequest) : (s.inbound r).Listed := by
  unfold State.inbound
  split <;> simp [h]

theorem listed_execFabricRequestArrival {s : State} (h : s.Listed) (r : FabricRequest) : OutListed (execFabricRequestArrival r s) := by
  simp [execFabricRequestArrival, h]

theorem listed_execPcieLinkTrain {s : State} (h : s.Listed) (lanes gts : Nat) : OutListed (execPcieLinkTrain lanes gts s) := by
  simp [execPcieLinkTrain, h]

@[simp] theorem State.listed_pcieMove {s : State} (h : s.Listed) (r : PcieRequest) (cs : List Cell) : (s.pcieMove r cs).Listed := by
  unfold State.pcieMove
  split <;> simp [h]

@[simp] theorem State.listed_pcieGo {s : State} (h : s.Listed) (x : PcieOut) (new : Bool) : (s.pcieGo x new).2.2.Listed := by
  have ha : ∀ t : State, t.Listed → (t.answered false []).Listed := fun t ht => (t.spares_answered _ _).listed ht
  unfold State.pcieGo
  extract_lets r n
  split
  · exact ha s h
  · extract_lets s1 s2 sp y go
    have h1 : s1.Listed := State.listed_meetPages h _ _ _ _
    have h2 : s2.Listed := by
      unfold s2
      split
      · exact (s1.spares_countPages _ _ _ _ _).listed h1
      · exact h1
    have hgo : go.2.2.Listed := (s2.spares_engineGo _ _).listed h2
    split
    · exact ha s2 h2
    · split
      · exact ha _ ((s2.spares_fabErr _ _).listed h2)
      · split
        · exact State.listed_pcieMove hgo _ _
        · exact hgo

theorem listed_execPcieInboundRequest {s : State} (h : s.Listed) (r : PcieRequest) : OutListed (execPcieInboundRequest r s) := by
  have hgo := State.listed_pcieGo h { req := r } true
  unfold execPcieInboundRequest
  rw [outListed_next]
  dsimp only
  split <;> exact hgo

@[simp] theorem State.listed_pcieAway {s : State} (h : s.Listed) : s.pcieAway.Listed := by
  unfold State.pcieAway
  split
  · exact h
  · exact State.listed_pcieGo h _ _

end Sys2Proof.Machine
end

section
/-! SUPPORT. The form of the memories is kept: management frames, power-good and bring-up (R346, R456 to R465). -/

namespace Sys2Proof.Machine

theorem listed_execManagementFrame {s : State} (h : s.Listed) (f : MgmtFrame) : OutListed (execManagementFrame f s) := by
  cases f
  case envelope e => exact listed_execEnvelopeReceive h e true
  case attest nonce => exact (outListed_next _).2 ((State.spares_answered _ _ _).listed h)
  case telemetry a =>
    refine (outListed_next _).2 ?_
    split <;> simp [h]

@[simp] theorem State.listed_heldRow {s : State} (h : s.Listed) : s.heldRow.Listed := by
  unfold State.heldRow
  split
  · exact h
  · next i _ =>
    extract_lets t
    have ht : t.Listed := h
    split
    · exact State.listed_hostAccess ht _ _ _
    · exact (t.spares_telemetryRead _).listed ht
    · exact ht

/-- R346, R456: of the memories a package without power keeps the media alone. -/
theorem listed_execPowerGoodDeassert {s : State} (h : s.Listed) (drained : Bool) : OutListed (execPowerGoodDeassert drained s) := by
  unfold execPowerGoodDeassert
  rw [outListed_next]
  split
  · exact h
  · exact ⟨rfl, (State.listed_drainQueue h drained).media, by simp [State.reset], .nil⟩

@[simp] theorem State.listed_bootWrites {s : State} (h : s.Listed) (step : Nat) : (s.bootWrites step).Listed := by
  refine State.listed_foldl (fun t x ht => ?_) _ (s := { s with freeCtr := s.freeCtr + 1 }) h
  split
  · exact State.listed_regWrite ht _ _ _
  · exact ht

theorem State.listed_bringUpStep {s t : State} (h : s.Listed) {holdup : Bool} {k : Nat} (ht : s.bringUpStep holdup k = some t) :
    t.Listed := by
  unfold State.bringUpStep at ht
  split at ht
  · obtain ⟨b, -, rfl⟩ := Option.map_eq_some_iff.1 ht
    exact (State.spares_measureSlot _ _).listed h
  all_goals obtain rfl := Option.some.inj ht
  · exact ⟨rfl, h.media, h.lines, h.seals⟩
  · exact h
  · simp [h]
  · simp [h]
  · simp [h]
  · exact h

theorem State.listed_bringUp {s : State} (h : s.Listed) (fails : Option Nat) (holdup : Bool) (n k : Nat) :
    (s.bringUp fails holdup n k).Listed := by
  induction n generalizing s k with
  | zero => exact h
  | succ n ih =>
    unfold State.bringUp
    split
    · next t ht =>
      split at ht
      · cases ht
      · have h1 : t.Listed := State.listed_bringUpStep h ht
        exact ih (s := { t with bootStep := k }) h1 _
    · exact h

@[simp] theorem State.listed_powerUp {s : State} (h : s.Listed) (fails : Option Nat) (holdup : Bool) : (s.powerUp fails holdup).Listed :=
  State.listed_bringUp (s := { s with powered := true, recovery := false, bootStep := 0, pgood := none }) h _ _ _ _

theorem listed_execPowerGoodAssert {s : State} (h : s.Listed) (fails : Option Nat) (holdup : Bool) :
    OutListed (execPowerGoodAssert fails holdup s) := by simp [execPowerGoodAssert, h]

theorem listed_execWakePin {s : State} (h : s.Listed) (level : Bool) : OutListed (execWakePin level s) := by
  unfold execWakePin
  dsimp only
  split <;> simp [h]

end Sys2Proof.Machine
end

section
/-! SUPPORT. Every instruction of the table, every work of the hardware and every step keeps the form of the memories (log entries 5
and 9). -/

namespace Sys2Proof.Machine

/-- A framed state has the memories of the one before it. -/
theorem State.Frames.spares {e : Reach} {s t : State} (h : s.Frames e t) : s.Spares t := by
  have ho := h.outside
  simp only [State.outside, Prod.mk.injEq] at ho
  exact ho.2

/-- R51, R53: a slot operation that runs its effect on a listed state answers one. -/
theorem listed_exec_slot {i : Instr} {s : State} (hi : i.slot?.isSome = true) (h : s.Listed) : OutListed (exec i s) := by
  obtain ⟨t, ht⟩ := exec_slot hi s
  rw [ht]
  obtain he | ⟨x, -, he⟩ | ⟨-, he⟩ | ⟨hr, he⟩ := slotOp_cases i s t <;> rw [he, outListed_next]
  · exact h
  · exact State.listed_takeTrap h x
  · exact (s.spares_offer i).listed h
  · obtain ⟨u, hu, hf⟩ := exec_frames hi hr
    obtain rfl : u = t := by simpa [hu] using ht.trans he
    exact hf.spares.listed h

theorem listed_execZero {s : State} (h : s.Listed) : OutListed (execZero s) := by
  refine listed_microOp h fun v => ?_
  split
  · exact (s.spares_modHere _).trans (State.spares_setInv _ _)
  · exact s.spares_microFail _ _

theorem listed_execMicroLoop {s : State} (h : s.Listed) (tgt : BitVec 10) (ctr : BitVec 1) (val : BitVec 16) (src : BitVec 2) :
    OutListed (execMicroLoop tgt ctr val src s) := by
  refine listed_microOp h fun v => ?_
  split
  · exact s.spares_microFail _ _
  · exact s.spares_setInv _

theorem listed_execJump {s : State} (h : s.Listed) (tgt : BitVec 10) : OutListed (execJump tgt s) := by
  refine listed_microOp h fun v => ?_
  split
  · exact s.spares_microFail _ _
  · exact s.spares_setInv _

/-- Every row of the table. -/
theorem listed_exec {s : State} (h : s.Listed) (i : Instr) : OutListed (exec i s) := by
  by_cases hi : i.slot?.isSome = true
  · exact listed_exec_slot hi h
  cases i
  -- micro-operations
  case nop => exact listed_microOp h fun v => s.spares_setInv _
  case popA => exact listed_microOp h fun v => s.spares_runPop _ _
  case popB => exact listed_microOp h fun v => s.spares_runPop _ _
  case pass => exact listed_microOp h fun v => s.spares_runPass _ _ _
  case passSp => exact listed_microOp h fun v => s.spares_runPass _ _ _
  case acc => exact listed_microOp h fun v => s.spares_runAcc _ _
  case zero => exact listed_execZero h
  case shift => exact listed_microOp h fun v => s.spares_setInv _
  case microLoop tgt ctr val src => exact listed_execMicroLoop h tgt ctr val src
  case jump tgt => exact listed_execJump h tgt
  case microEnd => exact listed_microOp h fun v => s.spares_setInv _
  case scale => exact listed_microOp h fun v => s.spares_runScale _ _
  case wit => exact listed_microOp h fun v => s.spares_setInv _
  case sync => exact listed_microOp h fun v => s.spares_runSync _ _
  -- events
  case bundleIssue core => exact listed_execBundleIssue h core
  case bundleCommit core => exact listed_execBundleCommit h core
  case resultLanding core facet => exact listed_execResultLanding h core facet
  case timingErrorReplay core => exact listed_execTimingErrorReplay h core
  case watchdogExpiry core facet => exact listed_execWatchdogExpiry h core facet
  case quantumExpiry core => exact listed_execQuantumExpiry h core
  case facetSwitch core => exact listed_execFacetSwitch h core
  case matrixItemRun core => exact listed_execMatrixItemRun h core
  case ballastPass geode on => exact listed_execBallastPass h geode on
  case tsyncMeetingComplete geode launch mask => exact listed_execTsyncMeetingComplete h geode launch mask
  case engineOperationComplete core facet => exact listed_execEngineOperationComplete h core facet
  case completionRecordPost core facet => exact listed_execCompletionRecordPost h core facet
  case fifoAppend core tgt => exact listed_execFifoAppend h core tgt
  case bandRowArrival core band => exact listed_execBandRowArrival h core band
  case bulkEngineTakeCommand e => exact listed_execBulkEngineTakeCommand h e
  case hostBulkGo e v => exact listed_execHostBulkGo h e v
  case engineCountdown e => exact listed_execEngineCountdown h e
  case ringMessageArrival geode id => exact listed_execRingMessageArrival h geode id
  case accessPerformAtHome id => exact listed_execAccessPerformAtHome h id
  case walkEnd core facet hn => exact listed_execWalkEnd h core facet hn
  case invalGo v => exact listed_execInvalGo h v
  case invalComplete => exact listed_execInvalComplete h
  case refresh vein chan due waiting => exact listed_execRefresh h vein chan due waiting
  case patrolVisit vein f => exact listed_execPatrolVisit h vein f
  case durablePatrolVisit f => exact listed_execDurablePatrolVisit h f
  case logcntPop unit => exact listed_execLogcntPop h unit
  case writeQueueToMedia => exact listed_execWriteQueueToMedia h
  case sealConfirm => exact listed_execSealConfirm h
  case hpbarGo => exact listed_execHpbarGo h
  case holdupTest ok => exact listed_execHoldupTest h ok
  case powerGoodDeassert drained => exact listed_execPowerGoodDeassert h drained
  case powerGoodAssert fails holdup => exact listed_execPowerGoodAssert h fails holdup
  case mirrorEnable k => exact listed_execMirrorEnable h k
  case mirrorDisable k => exact listed_execMirrorDisable h k
  case mirrorSyncComplete k => exact listed_execMirrorSyncComplete h k
  case mirrorWriteAck k => exact listed_execMirrorWriteAck h k
  case mirrorPartnerUnreachable k => exact listed_execMirrorPartnerUnreachable h k
  case mirrorRepair k word partner => exact listed_execMirrorRepair h k word partner
  case map slot => exact listed_execMap h slot
  case unmap slot => exact listed_execUnmap h slot
  case unmapComplete slot => exact listed_execUnmapComplete h slot
  case kill slot => exact listed_execKill h slot
  case packetStart slot => exact listed_execPacketStart h slot
  case launchDispatch slot => exact listed_execLaunchDispatch h slot
  case waitPacketSatisfied slot => exact listed_execWaitPacketSatisfied h slot
  case packetCompletion slot => exact listed_execPacketCompletion h slot
  case tokenRefill p => exact listed_execTokenRefill h p
  case preemptionPolicy slot geode => exact listed_execPreemptionPolicy h slot geode
  case geodeFreeze geode reason => exact listed_execGeodeFreeze h geode reason
  case fossilWriteComplete k => exact listed_execFossilWriteComplete h k
  case fossilRestore k => exact listed_execFossilRestore h k
  case checkpointRequest slot => exact listed_execCheckpointRequest h slot
  case checkpointSave slot => exact listed_execCheckpointSave h slot
  case checkpointTimeout slot => exact listed_execCheckpointTimeout h slot
  case resume core facet => exact listed_execResume h core facet
  case enter core facet => exact listed_execEnter h core facet
  case parkreq core facet => exact listed_execParkreq h core facet
  case geodeMapWrite n v fw => exact listed_execGeodeMapWrite h n v fw
  case lodeIdWrite v fw => exact listed_execLodeIdWrite h v fw
  case sparingSequence geode spare => exact listed_execSparingSequence h geode spare
  case epochEnd r => exact listed_execEpochEnd h r
  case frequencyStep geode => exact listed_execFrequencyStep h geode
  case temperatureCritical geode temp => exact listed_execTemperatureCritical h geode temp
  case currentReport amps other => exact listed_execCurrentReport h amps other
  case activityWindow geode busy => exact listed_execActivityWindow h geode busy
  case extctlGo v fw => exact listed_execExtctlGo h v fw
  case attestationReport nonce pa => exact listed_execAttestationReport h nonce pa
  case envelopeReceive e mgmt => exact listed_execEnvelopeReceive h e mgmt
  case manifestReplace digests svn payload => exact listed_execManifestReplace h digests svn payload
  case inFieldTest t => exact listed_execInFieldTest h t
  case portTrain k lanes gbps => exact listed_execPortTrain h k lanes gbps
  case flitCrcError k => exact listed_execFlitCrcError h k
  case fabricRequestArrival r => exact listed_execFabricRequestArrival h r
  case fabricTimeout id => exact listed_execFabricTimeout h id
  case pcieInboundRequest r => exact listed_execPcieInboundRequest h r
  case managementFrame f => exact listed_execManagementFrame h f
  case registerWrite addr v fw => exact listed_execRegisterWrite h addr v fw
  case localFeederCommandStart core => exact listed_execLocalFeederCommandStart h core
  case fabricError lode cause => exact listed_execFabricError h lode cause
  case wakePin level => exact listed_execWakePin h level
  case pcieLinkTrain lanes gts => exact listed_execPcieLinkTrain h lanes gts
  -- every other row stands in a slot
  all_goals exact absurd rfl hi

/-- Every work of the hardware's own. -/
theorem listed_work {s : State} (h : s.Listed) (w : Work) : OutListed (w.run s) := by
  cases w with
  | switch c => exact listed_execFacetSwitch h c
  | quantum c => exact listed_execQuantumExpiry h c
  | item c => exact listed_execMatrixItemRun h c
  | meeting g l m => exact listed_execTsyncMeetingComplete h g l m
  | opDone c f => exact listed_execEngineOperationComplete h c f
  | record c f => exact listed_execCompletionRecordPost h c f
  | fifo c t => exact listed_execFifoAppend h c t
  | feeder c => exact listed_execLocalFeederCommandStart h c
  | bandRow c b => exact listed_execBandRowArrival h c b
  | bulkTake e => exact listed_execBulkEngineTakeCommand h e
  | countdown e => exact listed_execEngineCountdown h e
  | commit c => exact listed_execBundleCommit h c
  | arrival g i => exact listed_execRingMessageArrival h g i
  | access i => exact listed_execAccessPerformAtHome h i
  | walk c f n => exact listed_execWalkEnd h c f n
  | invalDone => exact listed_execInvalComplete h
  | toMedia => exact listed_execWriteQueueToMedia h
  | sealed => exact listed_execSealConfirm h
  | mirAck k => exact listed_execMirrorWriteAck h k
  | mirCopied k => exact listed_execMirrorSyncComplete h k
  | repair w => exact (outListed_next _).2 (State.listed_repairGo h w)
  | pcieAway => exact (outListed_next _).2 (State.listed_pcieAway h)
  | heldRow => exact (outListed_next _).2 (State.listed_heldRow h)
  | resume c f => exact listed_execResume h c f
  | start k => exact listed_execPacketStart h k
  | dispatch k => exact listed_execLaunchDispatch h k
  | waitDone k => exact listed_execWaitPacketSatisfied h k
  | finish k => exact listed_execPacketCompletion h k
  | unmapped k => exact listed_execUnmapComplete h k
  | fossilDone i => exact listed_execFossilWriteComplete h i
  | restore i => exact listed_execFossilRestore h i
  | save k => exact listed_execCheckpointSave h k
  | frequency g => exact listed_execFrequencyStep h g
  | policy k g => exact listed_execPreemptionPolicy h k g

/-- R353: a row that stands leaves the state before it. -/
theorem State.listed_attempt {s : State} (h : s.Listed) {row : State → Out} (hr : ∀ t : State, t.Listed → OutListed (row t)) :
    OutListed (s.attempt row) := by
  have hrow := hr { s with stands := false } h
  unfold State.attempt
  split
  · next t ht =>
    rw [ht, outListed_next] at hrow
    rw [outListed_next]
    split
    · exact h
    · split <;> exact hrow
  · exact hrow

/-- Log entry 9: the operations that a row releases. -/
theorem listed_runDue (n : Nat) {s : State} (h : s.Listed) : OutListed (runDue n s) := by
  induction n generalizing s with
  | zero => exact (outListed_next s).2 h
  | succ n ih =>
    unfold runDue
    split
    · exact (outListed_next s).2 h
    · next i r _ =>
      have hi := listed_exec (s := { s with due := r }) h i
      split
      · next t ht => exact ih (hi t ht)
      · exact hi

theorem listed_finish {o : Out} (h : OutListed o) : OutListed (finish o) := by
  cases o with
  | next s => exact listed_runDue _ (h s rfl)
  | fault f => exact outListed_fault f
  | refused r => exact outListed_refused r

theorem listed_background {s : State} (h : s.Listed) : OutListed (background s) := by
  have hn := (s.spares_nature).listed h
  unfold background
  extract_lets s1
  have h1 : s1.Listed := hn
  clear_value s1
  split
  · next i r _ =>
    split
    · exact State.listed_attempt h1 fun t ht => listed_finish (listed_exec (s := { t with inputs := r }) ht i)
    · exact (outListed_next _).2 h1
  · split
    · next w r _ => exact State.listed_attempt (s := { s1 with agenda := r }) h1 fun t ht => listed_finish (listed_work ht w)
    · exact (outListed_next _).2 h1

theorem listed_step {s : State} (h : s.Listed) : OutListed (step s) := by
  unfold step
  split
  · exact listed_background (s := { s with turn := false }) h
  · split
    · next c _ =>
      exact State.listed_attempt (s := { s with turn := true, lastCore := c }) h fun t ht => listed_finish (listed_exec ht (.bundleIssue c))
    · exact (outListed_next _).2 h
/-- Settles O43: every function that a step runs leaves the memories and the durable write queue as they are, or writes them through
operations that keep their form. -/
theorem stepKeepsMemoriesCanonical : Obligations.StepKeepsMemoriesCanonical := by
  unfold Obligations.StepKeepsMemoriesCanonical
  intro s t hs ht
  exact t.canonical_iff.2 (listed_step (s.canonical_iff.1 hs) t ht)

end Sys2Proof.Machine
end

section
/-! SUPPORT. What lasts whatever the hardware writes to memory of its own: the registers of power, trust, the ports and the cores (R395,
R422, R439, R444), and the slots but for what a notification changes (R355, R356). -/

namespace Sys2Proof.Machine

/-- A register that no write of memory, no report, and no event counter of the package or of a vein changes. -/
abbrev lastingReg (a : Nat) : Prop := aPower ≤ a ∧ a < aVein 0

/-- A slot without what a NOTIFY write changes of it. -/
def QSlot.settled (q : QSlot) : QSlot := { q with widx := 0, forceErr := false }

/-- The registers and the slots that a write of memory leaves as they are. -/
def State.lasting (s : State) : (Nat → BitVec 64) × (Nat → QSlot) :=
  (fun a => if lastingReg a then s.devGet a else 0, fun k => (s.qslot k).settled)

theorem State.devFld_of_lasting {s t : State} (h : t.lasting = s.lasting) {a : Nat} (ha : lastingReg a) (hi lo : Nat) :
    t.devFld a hi lo = s.devFld a hi lo := by
  have hd : t.devGet a = s.devGet a := by simpa only [State.lasting, if_pos ha] using congrFun (congrArg Prod.fst h) a
  rw [State.devFld, hd, State.devFld]

theorem State.settled_of_lasting {s t : State} (h : t.lasting = s.lasting) (k : Nat) : (t.qslot k).settled = (s.qslot k).settled :=
  congrFun (congrArg Prod.snd h) k

theorem State.devPut_lasting (s : State) (hi lo v : Nat) {a : Nat} (h : ¬lastingReg a) : (s.devPut a hi lo v).lasting = s.lasting := by
  refine Prod.ext (funext fun b => ?_) rfl
  by_cases hb : lastingReg b
  · have hne : b ≠ a := fun he => h (he ▸ hb)
    simp only [State.lasting, State.devGet_devPut_other _ _ _ _ _ _ hne]
  · simp only [State.lasting, if_neg hb]

theorem State.devAdd_lasting (s : State) (hi lo v : Nat) {a : Nat} (h : ¬lastingReg a) : (s.devAdd a hi lo v).lasting = s.lasting :=
  s.devPut_lasting _ _ _ h

/-- The error units' registers lie apart. -/
theorem unitReg_not_lasting (u : Nat) {k : Nat} (hk : k < 64) : ¬lastingReg (unitBase u + k) := by
  unfold unitBase
  simp only [lastingReg, aPower, aVein]
  split <;> omega

/-- R355: a slot after a write of its NOTIFY word. -/
def State.notified (s : State) (q : QSlot) : QSlot :=
  if q.state == 0 then q
  else
    let w := BitVec.ofNat 32 (s.numAt q.qaddr.toNat 4)
    { q with widx := w, forceErr := q.forceErr || decide (2 ^ q.log2 < (w - q.ridx).toNat) }

theorem State.settled_notified (s : State) (q : QSlot) : (s.notified q).settled = q.settled := by
  unfold State.notified
  split <;> rfl

@[simp] theorem State.interruptHost_lasting (s : State) (a : Nat) : (s.interruptHost a).lasting = s.lasting := rfl

@[simp] theorem State.forgetFlaw_lasting (s : State) (pa : Nat) : (s.forgetFlaw pa).lasting = s.lasting := rfl

@[simp] theorem State.notify_lasting (s : State) : s.notify.lasting = s.lasting := by
  refine Prod.ext rfl (funext fun k => ?_)
  have hmap : s.notify.slots = s.slots.map fun e => (e.1, s.notified e.2) :=
    List.map_congr_left fun e _ => by
      unfold State.notified
      split <;> rfl
  show (s.notify.slots.get k {}).settled = (s.slots.get k {}).settled
  rw [hmap, Tbl.get_map _ _ rfl, State.settled_notified]

@[simp] theorem State.toMedia_lasting (s : State) (e : DurEntry) : (s.toMedia e).lasting = s.lasting := by
  have hmedia : ∀ (t : State) (m : Memory) (k p : List Nat),
      ({ t with media := m, mediaKnown := k, durPoison := p } : State).lasting = t.lasting := fun _ _ _ _ => rfl
  exact hmedia _ _ _ _

@[simp] theorem State.durMakeRoom_lasting (s : State) : s.durMakeRoom.lasting = s.lasting := by
  have k : ∀ (t : State) (q : List DurEntry), ({ t with durQ := q } : State).lasting = t.lasting := fun _ _ => rfl
  have h : s.drainOldest.lasting = s.lasting := by
    unfold State.drainOldest
    split
    · rfl
    · rw [k, State.toMedia_lasting]
  unfold State.durMakeRoom
  by_cases c : s.durQ.length < Config.durableEntries
  · rw [if_pos c]
  · rw [if_neg c, h]

@[simp] theorem State.durPut_lasting (s : State) (pa : Nat) (b : BitVec 8) : (s.durPut pa b).lasting = s.lasting := by
  unfold State.durPut
  dsimp only
  split
  · rfl
  · have k : ∀ (t : State) (q : List DurEntry), ({ t with durQ := q } : State).lasting = t.lasting := fun _ _ => rfl
    rw [k, State.durMakeRoom_lasting]

@[simp] theorem State.putByte_lasting (s : State) (pa : Nat) (b : BitVec 8) : (s.putByte pa b).lasting = s.lasting := by
  unfold State.putByte
  split
  · rfl
  · simp
  · rfl

@[simp] theorem State.putRaw_lasting (bs : List (BitVec 8)) (s : State) (pa : Nat) : (s.putRaw pa bs).lasting = s.lasting := by
  induction bs generalizing s pa with
  | nil => rfl
  | cons b r ih => rw [State.putRaw, ih, State.putByte_lasting]

@[simp] theorem State.setDurBad_lasting (s : State) (line : Nat) (b : Bool) : (s.setDurBad line b).lasting = s.lasting := by
  unfold State.setDurBad
  split <;> rfl

@[simp] theorem State.cleanWord_lasting (s : State) (pa : Nat) : (s.cleanWord pa).lasting = s.lasting := by
  unfold State.cleanWord
  dsimp only
  split
  · rfl
  · simp
  · rfl

@[simp] theorem State.poisonWord_lasting (s : State) (pa : Nat) : (s.poisonWord pa).lasting = s.lasting := by
  unfold State.poisonWord
  split
  · split <;> rfl
  · simp
  · rfl

theorem State.countAt_lasting (s : State) {a : Nat} (ev n : Nat) (h : ¬lastingReg (a + 8)) : (s.countAt a ev n).lasting = s.lasting := by
  unfold State.countAt
  dsimp only
  split
  · split <;> simp [State.devPut_lasting _ _ _ _ h]
  · rfl

theorem State.count_lasting (s : State) {base counters : Nat} (ev n : Nat) (h : base + 16 * counters ≤ aPower ∨ aVein 0 ≤ base) :
    (s.count base counters ev n).lasting = s.lasting := by
  refine foldl_keeps_of_mem State.lasting _ _ (fun k hk t => t.countAt_lasting ev n ?_) s
  have hk' : k < counters := by simpa [upto] using hk
  simp only [lastingReg, aPower, aVein] at h ⊢
  omega

@[simp] theorem State.countVein_lasting (s : State) (v ev n : Nat) : (s.countVein v ev n).lasting = s.lasting :=
  s.count_lasting ev n (Or.inr (by simp only [aVein]; omega))

@[simp] theorem State.countPkg_lasting (s : State) (ev n : Nat) : (s.countPkg ev n).lasting = s.lasting :=
  s.count_lasting ev n (Or.inl (by decide))

@[simp] theorem State.countRead_lasting (s : State) (g : Nat) : (s.countRead g).lasting = s.lasting := by
  unfold State.countRead
  split <;> simp

@[simp] theorem State.writtenBack_lasting (s : State) (g : Nat) : (s.writtenBack g).lasting = s.lasting := by
  unfold State.writtenBack
  split <;> simp

@[simp] theorem State.tookPort_lasting (s : State) : s.tookPort.lasting = s.lasting := by
  rw [State.tookPort, State.countPkg_lasting]; rfl

@[simp] theorem State.mirPort_lasting (s : State) : s.mirPort.lasting = s.lasting := by
  unfold State.mirPort
  split
  · rw [State.tookPort_lasting]; rfl
  · rfl

@[simp] theorem State.mirrorWord_lasting (s : State) (word : Nat) (w : Author) : (s.mirrorWord word w).lasting = s.lasting := by
  unfold State.mirrorWord
  split
  · rw [State.mirPort_lasting]; rfl
  · split
    · rfl
    · split <;> rfl

@[simp] theorem State.forward_lasting (s : State) (pa n : Nat) : (s.forward pa n).lasting = s.lasting := by
  unfold State.forward
  rw [State.notify_lasting]
  split
  · exact foldl_keeps State.lasting _ (fun _ _ => State.mirrorWord_lasting _ _ _) _ _
  · rfl

@[simp] theorem State.subst_lasting (s : State) (pa : Nat) : (s.subst pa).lasting = s.lasting := by
  unfold State.subst
  dsimp only
  split <;> simp [s.devAdd_lasting _ _ _ (unitReg_not_lasting (unitOf pa) (by decide : 0x30 < 64))]

@[simp] theorem State.countWords_lasting (s : State) (pa n ev : Nat) : (s.countWords pa n ev).lasting = s.lasting := by
  unfold State.countWords
  dsimp only
  repeat' split
  all_goals simp

@[simp] theorem State.logReport_lasting (s : State) (r : Report) : (s.logReport r).1.lasting = s.lasting := by
  have h0 : ¬lastingReg (unitBase (unitOf r.pa)) := unitReg_not_lasting (k := 0) _ (by decide)
  have h8 : ¬lastingReg (unitBase (unitOf r.pa) + 8) := unitReg_not_lasting _ (by decide)
  have h16 : ¬lastingReg (unitBase (unitOf r.pa) + 16) := unitReg_not_lasting _ (by decide)
  have hlogs : ∀ (t : State) (l : Tbl (List LogEntry)), ({ t with logs := l } : State).lasting = t.lasting := fun _ _ => rfl
  unfold State.logReport
  dsimp only
  repeat' split
  all_goals simp only [hlogs, State.devAdd_lasting _ _ _ _ h8, State.countVein_lasting, State.devPut_lasting _ _ _ _ h0,
    State.devPut_lasting _ _ _ _ h16]

@[simp] theorem State.askRepair_lasting (s : State) (k g kind req : Nat) (sym : BitVec 7) :
    (s.askRepair k g kind req sym).lasting = s.lasting := rfl

@[simp] theorem State.finds_lasting (s : State) (g : Nat) (f : Found) (kind req : Nat) : (s.finds g f kind req).1.lasting = s.lasting := by
  have hc : ¬lastingReg (aCecnt g) := by
    simp only [lastingReg, aCecnt, aVein]
    omega
  unfold State.finds
  dsimp only
  repeat' split
  all_goals simp [State.devPut_lasting _ _ _ _ hc]

@[simp] theorem State.findAt_lasting (s : State) (pa kind req : Nat) : (s.findAt pa kind req).1.lasting = s.lasting := by
  unfold State.findAt
  split
  · split <;> simp
  · rfl

@[simp] theorem State.mergeWord_lasting (s : State) (g : Nat) (tol tpol : Bool) (req : Nat) :
    (s.mergeWord g tol tpol req).1.lasting = s.lasting := by
  unfold State.mergeWord
  dsimp only
  repeat' split
  all_goals simp

@[simp] theorem State.writeOwn_lasting (s : State) (pa : Nat) (bs : List (BitVec 8)) (tol tpol : Bool) (req : Nat) :
    (s.writeOwn pa bs tol tpol req).1.lasting = s.lasting := by
  have h : ∀ (l : List Nat) (x : State × List Report), (l.foldl (fun (x : State × List Report) g =>
      ((x.1.mergeWord g tol tpol req).1, x.2 ++ (x.1.mergeWord g tol tpol req).2)) x).1.lasting = x.1.lasting :=
    fun l x => foldl_keeps (fun x : State × List Report => x.1.lasting)
      (fun x g => ((x.1.mergeWord g tol tpol req).1, x.2 ++ (x.1.mergeWord g tol tpol req).2))
      (fun y g => State.mergeWord_lasting y.1 g tol tpol req) l x
  have c : ∀ (l : List Nat) (t : State), (l.foldl State.cleanWord t).lasting = t.lasting :=
    fun l t => foldl_keeps State.lasting _ (fun _ _ => State.cleanWord_lasting _ _) l t
  unfold State.writeOwn
  split
  · rfl
  · simp only [State.forward_lasting, c, State.countWords_lasting, State.putRaw_lasting, h]

theorem State.ringWrite_lasting (s : State) {a : Nat} (least : Nat) (bs : List (BitVec 8)) (h : a + 16 < aPower) :
    (s.ringWrite a least bs).1.lasting = s.lasting := by
  have ha : ¬lastingReg (a + 16) := fun hl => by
    simp only [lastingReg, aPower] at h hl
    omega
  unfold State.ringWrite
  dsimp only
  split
  · rfl
  · split <;> simp [State.devAdd_lasting _ _ _ _ ha]

@[simp] theorem State.meqWrite_lasting (s : State) (kind vein slot seq addr : Nat) :
    (s.meqWrite kind vein slot seq addr).1.lasting = s.lasting := by
  unfold State.meqWrite
  dsimp only
  split <;> simp [State.ringWrite_lasting (h := (by decide : aMmr + 0x20 + 16 < aPower))]

@[simp] theorem State.reportIn_lasting (n : Nat) (s : State) (r : Report) : (s.reportIn n r).lasting = s.lasting := by
  induction n generalizing s r with
  | zero => rfl
  | succ n ih =>
    unfold State.reportIn
    dsimp only
    split
    · rw [foldl_keeps State.lasting _ (fun s r => ih s r), State.meqWrite_lasting, State.logReport_lasting]
    · exact State.logReport_lasting _ _

@[simp] theorem State.reports_lasting (s : State) (rs : List Report) : (s.reports rs).lasting = s.lasting :=
  foldl_keeps State.lasting _ (fun _ _ => State.reportIn_lasting _ _ _) rs s

theorem State.ringPost_lasting (s : State) {a : Nat} (least : Nat) (ws : List Nat) (h : a + 16 < aPower) :
    (s.ringPost a least ws).lasting = s.lasting := by
  simp [State.ringPost, s.ringWrite_lasting _ _ h]

@[simp] theorem State.meetAt_lasting (s : State) (pa kind req : Nat) : (s.meetAt pa kind req).lasting = s.lasting := by
  simp [State.meetAt]

@[simp] theorem State.meetAll_lasting (s : State) (req : Nat) (l : List Nat) : (s.meetAll req l).lasting = s.lasting :=
  foldl_keeps State.lasting _ (fun _ _ => State.meetAt_lasting _ _ _ _) l s

@[simp] theorem State.meetRange_lasting (s : State) (pa n req : Nat) : (s.meetRange pa n req).lasting = s.lasting := by
  rw [State.meetRange, State.countWords_lasting, State.meetRun, State.meetAll_lasting]

@[simp] theorem State.putOwn_lasting (s : State) (pa : Nat) (bs : List (BitVec 8)) (tol tpol : Bool) :
    (s.putOwn pa bs tol tpol).lasting = s.lasting := by
  simp [State.putOwn]

end Sys2Proof.Machine
end

section
/-! SUPPORT. Power events, one lemma for each form that O36 speaks of (R345, R346, R410 to R421, R456). -/

namespace Sys2Proof.Machine

/-! ### Frequency steps -/

/-- R410: a geode is noted to be on its way to its target, or to be there. -/
def State.noteMoving (s : State) (geode : Nat) (b : Bool) : State :=
  if (s.geode geode).changing = b then s else s.modGeode geode fun e => { e with changing := b }

@[simp] theorem State.devFld_noteMoving (s : State) (geode : Nat) (b : Bool) (a hi lo : Nat) :
    (s.noteMoving geode b).devFld a hi lo = s.devFld a hi lo := by
  unfold State.noteMoving
  split <;> rfl

@[simp] theorem State.changing_noteMoving (s : State) (geode : Nat) (b : Bool) : ((s.noteMoving geode b).geode geode).changing = b := by
  unfold State.noteMoving
  split
  · assumption
  · simp

section
variable {s : State} {geode : Nat} (hg : geode < 40)
include hg

theorem exec_frequencyStep_up (h : s.devFld (aGstat geode) 8 3 < s.targetCode geode) :
    exec (.frequencyStep geode) s
      = .next (((s.devPut (aGstat geode) 41 32 (s.voltage (s.targetCode geode))).devPut (aGstat geode) 8 3
          (s.devFld (aGstat geode) 8 3 + 1)).noteMoving geode (s.devFld (aGstat geode) 8 3 + 1 != s.targetCode geode)) := by
  show execFrequencyStep geode s = _
  simp only [execFrequencyStep, if_neg (Nat.not_le.2 hg), if_pos h]
  rfl

theorem exec_frequencyStep_down (h : s.targetCode geode < s.devFld (aGstat geode) 8 3) :
    exec (.frequencyStep geode) s
      = .next ((if s.devFld (aGstat geode) 8 3 - 1 = s.targetCode geode then
            (s.devPut (aGstat geode) 8 3 (s.devFld (aGstat geode) 8 3 - 1)).devPut (aGstat geode) 41 32 (s.voltage (s.targetCode geode))
          else s.devPut (aGstat geode) 8 3 (s.devFld (aGstat geode) 8 3 - 1)).noteMoving geode
            (s.devFld (aGstat geode) 8 3 - 1 != s.targetCode geode)) := by
  have hv : (s.devPut (aGstat geode) 8 3 (s.devFld (aGstat geode) 8 3 - 1)).voltage (s.targetCode geode)
      = s.voltage (s.targetCode geode) := by
    unfold State.voltage State.devFld
    rw [State.devGet_devPut_other]
    simp only [aGstat, aPower]
    omega
  show execFrequencyStep geode s = _
  simp only [execFrequencyStep, if_neg (Nat.not_le.2 hg), if_neg (Nat.not_lt_of_gt h), if_pos h, hv]
  rfl

theorem exec_frequencyStep_there (h : s.targetCode geode = s.devFld (aGstat geode) 8 3) :
    exec (.frequencyStep geode) s = .next ((s.devPut (aGstat geode) 41 32 (s.voltage (s.targetCode geode))).noteMoving geode false) := by
  show execFrequencyStep geode s = _
  simp only [execFrequencyStep, if_neg (Nat.not_le.2 hg), h, if_neg (Nat.lt_irrefl _)]
  rfl

/-- R410: one code a step; the voltage rises before the first step up and falls after the last step down. -/
theorem exec_frequencyStep :
    ∃ t, exec (.frequencyStep geode) s = .next t
      ∧ (s.devFld (aGstat geode) 8 3 < s.targetCode geode → s.devFld (aGstat geode) 8 3 < 63 →
        t.devFld (aGstat geode) 8 3 = s.devFld (aGstat geode) 8 3 + 1
          ∧ t.devFld (aGstat geode) 41 32 = s.voltage (s.targetCode geode) % 1024)
      ∧ (s.targetCode geode < s.devFld (aGstat geode) 8 3 →
        t.devFld (aGstat geode) 8 3 = s.devFld (aGstat geode) 8 3 - 1
          ∧ (s.targetCode geode + 1 < s.devFld (aGstat geode) 8 3 → t.devFld (aGstat geode) 41 32 = s.devFld (aGstat geode) 41 32)
          ∧ (s.targetCode geode + 1 = s.devFld (aGstat geode) 8 3 →
              t.devFld (aGstat geode) 41 32 = s.voltage (s.targetCode geode) % 1024))
      ∧ (s.targetCode geode = s.devFld (aGstat geode) 8 3 →
        t.devFld (aGstat geode) 8 3 = s.targetCode geode ∧ t.devFld (aGstat geode) 41 32 = s.voltage (s.targetCode geode) % 1024
          ∧ (t.geode geode).changing = false) := by
  have hcode (u : State) (v : Nat) : (u.devPut (aGstat geode) 8 3 v).devFld (aGstat geode) 8 3 = v % 2 ^ 6 :=
    u.devFld_devPut_same _ _ _ (by decide)
  have hvolt (u : State) (v : Nat) : (u.devPut (aGstat geode) 41 32 v).devFld (aGstat geode) 41 32 = v % 2 ^ 10 :=
    u.devFld_devPut_same _ _ _ (by decide)
  have hcode' (u : State) (v : Nat) : (u.devPut (aGstat geode) 41 32 v).devFld (aGstat geode) 8 3 = u.devFld (aGstat geode) 8 3 :=
    u.devFld_devPut_apart _ _ (by decide)
  have hvolt' (u : State) (v : Nat) : (u.devPut (aGstat geode) 8 3 v).devFld (aGstat geode) 41 32 = u.devFld (aGstat geode) 41 32 :=
    u.devFld_devPut_apart _ _ (by decide)
  have hc : s.devFld (aGstat geode) 8 3 < 2 ^ 6 := Nat.mod_lt _ (by decide)
  rcases Nat.lt_trichotomy (s.devFld (aGstat geode) 8 3) (s.targetCode geode) with h | h | h
  · refine ⟨_, exec_frequencyStep_up hg h, fun _ h63 => ?_, fun hd => absurd h (Nat.not_lt_of_gt hd),
      fun he => absurd he.symm (Nat.ne_of_lt h)⟩
    simp only [State.devFld_noteMoving, hcode, hvolt', hvolt]
    omega
  · refine ⟨_, exec_frequencyStep_there hg h.symm, fun hu => absurd h (Nat.ne_of_lt hu),
      fun hd => absurd h (Nat.ne_of_gt hd), fun _ => ?_⟩
    simp [hcode', hvolt, h]
  · refine ⟨_, exec_frequencyStep_down hg h, fun hu => absurd h (Nat.not_lt_of_gt hu), fun _ => ?_,
      fun he => absurd he (Nat.ne_of_lt h)⟩
    rw [State.devFld_noteMoving, State.devFld_noteMoving]
    split
    · next hl =>
      rw [hcode', hcode, hvolt]
      exact ⟨by omega, fun _ => by omega, fun _ => rfl⟩
    · next hl =>
      rw [hcode, hvolt']
      exact ⟨by omega, fun _ => rfl, fun _ => by omega⟩

end

/-! ### The current limiter -/

theorem State.geodePart_lt (s : State) (g : Nat) : s.geodePart g < 8 := Nat.mod_lt _ (by decide)

theorem State.lt_of_partOf {s : State} {g p : Nat} (h : s.partOf g = some p) : p < 8 := by
  unfold State.partOf at h
  split at h
  · cases h
    exact s.geodePart_lt g
  · cases h

theorem State.lt_of_mem_partsOf {s : State} {gs : List Nat} {p : Nat} (h : p ∈ s.partsOf gs) : p < 8 := by
  obtain ⟨g, -, hg⟩ := List.mem_filterMap.1 (List.mem_eraseDups.1 h)
  exact State.lt_of_partOf hg

theorem State.peqPost_lasting (s : State) {p : Nat} (hp : p < 8) (kind geo old new value : Nat) :
    (s.peqPost p kind geo old new value).lasting = s.lasting :=
  s.ringPost_lasting _ _ (by simp only [aPart, aPower]; omega)

theorem State.peqPost_inside (s : State) (p kind geo old new value : Nat) : (s.peqPost p kind geo old new value).inside = s.inside :=
  s.ringPost_inside _ _ _

/-- R417, R420: a record of the rail current to the ring of every partition of some geodes. -/
def State.railRecords (s : State) (gs : List Nat) (kind sum : Nat) : State :=
  (s.partsOf gs).foldl (fun t p => t.peqPost p kind 63 0 0 sum) s

/-- R420: such records change no register of the power block and no geode. -/
theorem State.railRecords_keep (gs : List Nat) (kind sum : Nat) (s : State) :
    (s.railRecords gs kind sum).lasting = s.lasting ∧ (s.railRecords gs kind sum).inside = s.inside :=
  ⟨foldl_keeps_of_mem State.lasting _ _ (fun _ hm t => t.peqPost_lasting (State.lt_of_mem_partsOf hm) _ _ _ _ _) s,
    foldl_keeps State.inside _ (fun t p => t.peqPost_inside p _ _ _ _ _) _ s⟩

/-- R417: the geodes of the highest current. -/
def hottest (amps : List Nat) : List Nat := (upto 40).filter fun g => amps[g]? == some ((amps.take 40).foldl max 0)

/-- The geodes of states that agree inside. -/
theorem State.geode_of_inside {s t : State} (h : t.inside = s.inside) (g : Nat) : t.geode g = s.geode g := by
  have e : t.geodes = s.geodes := congrArg Prod.snd h
  rw [State.geode, State.geode, e]

/-- R417: the hold on some geodes. -/
def State.limit (s : State) (gs : List Nat) : State := gs.foldl (fun t g => t.modGeode g fun e => { e with limited := true }) s

theorem State.limited_limit (s : State) (gs : List Nat) (g : Nat) :
    ((s.limit gs).geode g).limited = ((s.geode g).limited || gs.contains g) := by
  unfold State.limit
  induction gs generalizing s with
  | nil => simp
  | cons h r ih =>
    rw [List.foldl_cons, ih]
    by_cases hg : g = h
    · simp [hg]
    · simp [State.geode_modGeode_other _ _ _ _ hg, hg]

/-- R417: no geode is held when the hold ends. -/
theorem State.limited_unlimit (s : State) {g : Nat} (hg : g < 40) : (s.unlimit.geode g).limited = false := by
  have key : ∀ (l : List Nat) (t : State), g ∈ l ∨ (t.geode g).limited = false →
      ((l.foldl (fun s g => if (s.geode g).limited then s.modGeode g fun e => { e with limited := false } else s) t).geode g).limited
        = false := by
    intro l
    induction l with
    | nil => exact fun t h => h.resolve_left List.not_mem_nil
    | cons x l ih =>
      intro t h
      refine ih _ ?_
      by_cases hx : g = x
      · right
        subst hx
        beta_reduce
        split
        · simp
        · next hl => simpa using hl
      · refine (h.imp_left fun hm => (List.mem_cons.1 hm).resolve_left hx).imp_right fun hl => ?_
        beta_reduce
        split
        · rwa [State.geode_modGeode_other _ _ _ _ hx]
        · exact hl
  exact key _ _ (Or.inl (by simpa [upto] using hg))

section
variable {amps : List Nat} {other ilim sum : Nat} {s : State} (hi : ilim = s.devFld (aPower + 0x48) 29 18)
  (hs : sum = (amps.take 40).sum + other) (hle : sum ≤ ilim)
include hi hs hle

theorem exec_currentReport_quiet (hh : s.devFld (aPower + 0x60) 12 12 = 0) (hq : 100 * sum < 95 * ilim) :
    exec (.currentReport amps other) s = .next (s.devPut (aPower + 0x60) 11 0 sum) := by
  have hf : (s.devPut (aPower + 0x60) 11 0 sum).devFld (aPower + 0x60) 12 12 = 0 := by
    rw [State.devFld_devPut_apart _ _ _ (by decide), hh]
  show execCurrentReport amps other s = _
  simp [execCurrentReport, ← hi, ← hs, Nat.not_lt.2 hle, hf, Nat.not_le.2 hq]

/-- R417: from 95 percent of the limit on the geodes of the highest current are held. -/
theorem exec_currentReport_holds (hh : s.devFld (aPower + 0x60) 12 12 = 0) (hq : 95 * ilim ≤ 100 * sum) :
    ∃ t, exec (.currentReport amps other) s = .next t ∧ t.devFld (aPower + 0x60) 12 12 = 1
      ∧ ∀ g < 40, amps[g]? = some ((amps.take 40).foldl max 0) → (t.geode g).limited = true := by
  have hf : (s.devPut (aPower + 0x60) 11 0 sum).devFld (aPower + 0x60) 12 12 = 0 := by
    rw [State.devFld_devPut_apart _ _ _ (by decide), hh]
  have he : exec (.currentReport amps other) s
      = .next ((((((s.devPut (aPower + 0x60) 11 0 sum).limit (hottest amps)).devPut (aPower + 0x60) 12 12 1).devAdd (aPower + 0x60) 63 32
          1)).railRecords (hottest amps) 2 sum) := by
    show execCurrentReport amps other s = _
    simp only [execCurrentReport, ← hi, ← hs, if_neg (Nat.not_lt.2 hle), hf, hq]
    rfl
  obtain ⟨hlast, hin⟩ := State.railRecords_keep (hottest amps) 2 sum
    ((((s.devPut (aPower + 0x60) 11 0 sum).limit (hottest amps)).devPut (aPower + 0x60) 12 12 1).devAdd (aPower + 0x60) 63 32 1)
  refine ⟨_, he, ?_, fun g hg ha => ?_⟩
  · rw [State.devFld_of_lasting hlast (by decide)]
    exact (State.devFld_devPut_apart _ _ _ (by decide)).trans (State.devFld_devPut_same _ _ _ _ (by decide))
  · rw [State.geode_of_inside hin]
    exact (State.limited_limit _ _ g).trans (by simp [hottest, upto, hg, ha])

/-- R417: at 90 percent of the limit the hold ends. -/
theorem exec_currentReport_releases (hh : s.devFld (aPower + 0x60) 12 12 = 1) (hq : 100 * sum ≤ 90 * ilim) :
    ∃ t, exec (.currentReport amps other) s = .next t ∧ t.devFld (aPower + 0x60) 12 12 = 0
      ∧ ∀ g < 40, (t.geode g).limited = false := by
  have hf : (s.devPut (aPower + 0x60) 11 0 sum).devFld (aPower + 0x60) 12 12 = 1 := by
    rw [State.devFld_devPut_apart _ _ _ (by decide), hh]
  have he : exec (.currentReport amps other) s
      = .next (((s.devPut (aPower + 0x60) 11 0 sum).unlimit.devPut (aPower + 0x60) 12 12 0).railRecords
          ((upto 40).filter fun g => ((s.devPut (aPower + 0x60) 11 0 sum).geode g).limited) 3 sum) := by
    show execCurrentReport amps other s = _
    simp only [execCurrentReport, ← hi, ← hs, if_neg (Nat.not_lt.2 hle), hf, hq]
    rfl
  obtain ⟨hlast, hin⟩ := State.railRecords_keep ((upto 40).filter fun g => ((s.devPut (aPower + 0x60) 11 0 sum).geode g).limited) 3 sum
    ((s.devPut (aPower + 0x60) 11 0 sum).unlimit.devPut (aPower + 0x60) 12 12 0)
  refine ⟨_, he, ?_, fun g hg => ?_⟩
  · rw [State.devFld_of_lasting hlast (by decide), State.devFld_devPut_same _ _ _ _ (by decide), Nat.zero_mod]
  · rw [State.geode_of_inside (hin.trans (State.devPut_inside _ _ _ _ _)), State.limited_unlimit _ hg]

end

/-! ### Activity -/

theorem State.arr_spend (s : State) (g n c : Nat) :
    ((s.spend g n).core c).arr = if geodeOf c = g then (s.core c).arr - n else (s.core c).arr := by
  show (Tbl.get (s.cores.map fun k => if geodeOf k.1 == g then (k.1, { k.2 with arr := k.2.arr - n }) else k) c {}).arr = _
  rw [State.core]
  induction s.cores with
  | nil => simp
  | cons e r ih =>
    simp only [List.map_cons, Tbl.get, beq_iff_eq] at ih ⊢
    by_cases hc : e.1 = c
    · by_cases hg : geodeOf c = g <;> simp [hc, hg]
    · by_cases hg : geodeOf e.1 = g <;> simp [hc, hg, ih]

/-- R418: the activity moves by at most the ramp step, and what it spends leaves the passes of the geode's cores. -/
theorem exec_activityWindow {geode : Nat} (later : Nat) (s : State) (hg : geode < 40) :
    exec (.activityWindow geode later) s
      = .next ((s.spend geode (min (s.windowBusy geode later) (s.rampTop geode))).modGeode geode fun e =>
          { e with activity := max ((s.geode geode).activity - s.rstep) (min (s.rampTop geode) (s.windowBusy geode later)) }) :=
  congrArg Host.Outcome.next (if_neg (Nat.not_le.2 hg))

/-! ### Power-good -/

/-- The firmware slots' images, and the update that waits. -/
def State.images (s : State) : Option Envelope × Option Envelope × Option Bool := (s.fwA, s.fwB, s.update)

theorem State.images_drainQueue (s : State) (drained : Bool) : (s.drainQueue drained).images = s.images := by
  have h := foldl_keeps State.images State.toMedia (fun t e => by simp only [State.images, State.toMedia]) (s.durQ.filter (·.sealed)) s
  unfold State.drainQueue
  split
  · exact h
  · split <;> rfl

/-- R346: power-down keeps the media, the fuses and the firmware, and says whether the drain was complete. -/
theorem exec_powerGoodDeassert (drained : Bool) {s : State} (h : s.powered = true) :
    ∃ t, exec (.powerGoodDeassert drained) s = .next t ∧ t.powered = false ∧ t.accepting = false ∧ t.cores = [] ∧ t.mem = []
      ∧ t.durQ = [] ∧ t.launches = [] ∧ t.pgood = none
      ∧ t.media = (s.drainQueue drained).media ∧ t.devFld aDstat 3 2 = (if s.drainSound drained then 1 else 2)
      ∧ t.fwA = s.fwA ∧ t.fwB = s.fwB ∧ t.update = s.update := by
  have hi := s.images_drainQueue drained
  simp only [State.images, Prod.mk.injEq] at hi
  refine ⟨_, congrArg Host.Outcome.next (if_neg (by simp [h])), rfl, rfl, rfl, rfl, rfl, rfl, rfl, rfl, ?_, hi⟩
  rw [State.devFld, State.devGet, Tbl.find_set_other _ _ _ _ (by decide)]
  cases s.drainSound drained <;> rfl

/-- Settles O36: one lemma for each event, from its row and the fields that it writes. -/
theorem powerEventsFollowTheirRule : Obligations.PowerEventsFollowTheirRule := by
  unfold Obligations.PowerEventsFollowTheirRule
  refine ⟨fun _ _ => rfl, fun _ s hg => exec_frequencyStep (s := s) hg, ?critical,
    fun _ _ _ hle hh hq => exec_currentReport_quiet rfl rfl hle hh hq,
    fun _ _ _ hle hh hq => exec_currentReport_holds rfl rfl hle hh hq, fun _ _ _ hle hh hq => exec_currentReport_releases rfl rfl hle hh hq,
    ?ballast, ?activity, fun d _ h => exec_powerGoodDeassert d h, ?assert⟩
  case critical =>
    intro geode temp s hg ht
    exact congrArg Host.Outcome.next (if_neg (by omega))
  case ballast =>
    intro geode on s hg hon
    refine ⟨_, congrArg Host.Outcome.next (if_neg ?_), ?_⟩
    · cases on
      · simp [hg]
      · simp [hg, hon rfl]
    · rw [State.devFld_devPut_same _ _ _ _ (by decide)]
      cases on <;> rfl
  case activity =>
    rintro geode later n s hg rfl
    have htop : s.rampTop geode = min 256 ((s.geode geode).activity + s.rstep) := rfl
    have hact : ∀ t : State, ∀ a, ((t.modGeode geode fun e => { e with activity := a }).geode geode).activity = a := fun t a => by simp
    refine ⟨_, exec_activityWindow later s hg, ?_, ?_, fun c hc => ?_, fun c hc => ?_, ?_⟩
    · rw [hact]; omega
    · rw [hact]; omega
    · exact (State.arr_spend s geode _ c).trans (if_pos hc)
    · exact (State.arr_spend s geode _ c).trans (if_neg hc)
    · rw [hact, State.windowBusy]; omega
  case assert =>
    intro fails holdup s hp
    refine ⟨fun hw => ?_, fun hw => ?_⟩
    · exact congrArg Host.Outcome.next ((if_neg (by simp [hp])).trans (if_pos hw))
    · exact congrArg Host.Outcome.next ((if_neg (by simp [hp])).trans (if_neg (by simp [hw])))

end Sys2Proof.Machine
end

section
/-! SUPPORT. Fabric and PCIe events, one lemma for each form that O38 speaks of (R443 to R454). -/

namespace Sys2Proof.Machine

/-- A key that was dropped has no value. -/
theorem Tbl.find_del_same {α : Type} (t : Tbl α) (k : Nat) : (t.del k).find k = none := by
  unfold Tbl.del
  induction t with
  | nil => rfl
  | cons e r ih =>
    by_cases h : e.1 = k <;> simpa [Tbl.find, h] using ih

theorem Tbl.get_del_same {α : Type} (t : Tbl α) (k : Nat) (d : α) : (t.del k).get k d = d := by
  unfold Tbl.del
  induction t with
  | nil => rfl
  | cons e r ih =>
    by_cases h : e.1 = k <;> simpa [Tbl.get, h] using ih

/-! ### The accesses that failures end -/

/-- The accesses of states that agree beside memory. -/
theorem State.accs_of_beside {s t : State} (h : t.beside = s.beside) : t.accs = s.accs :=
  show t.beside.accs = s.beside.accs by rw [h]

@[simp] theorem State.ringPost_beside (s : State) (a least : Nat) (ws : List Nat) : (s.ringPost a least ws).beside = s.beside := by
  simp [State.ringPost]

@[simp] theorem State.meqPost_beside (s : State) (kind vein slot seq addr : Nat) :
    (s.meqPost kind vein slot seq addr).beside = s.beside := by simp [State.meqPost]

@[simp] theorem State.foundBad_beside (s : State) (g kind req : Nat) (sym : BitVec 7) : (s.foundBad g kind req sym).beside = s.beside := by
  simp [State.foundBad, State.report]

@[simp] theorem State.fabErrs_beside (s : State) (rs : List PortReq) (cause : Nat) : (s.fabErrs rs cause).beside = s.beside :=
  foldl_keeps State.beside (fun (t : State) (r : PortReq) => t.fabErr r.lode cause) (fun _ _ => rfl) rs s

@[simp] theorem State.accs_fabErrs (s : State) (rs : List PortReq) (cause : Nat) : (s.fabErrs rs cause).accs = s.accs :=
  State.accs_of_beside (s.fabErrs_beside rs cause)

@[simp] theorem State.accs_foundBad (s : State) (g kind req : Nat) (sym : BitVec 7) : (s.foundBad g kind req sym).accs = s.accs :=
  State.accs_of_beside (s.foundBad_beside g kind req sym)

@[simp] theorem State.accs_modTask (s : State) (c fn launch : Nat) (g : Facet → Facet) : (s.modTask c fn launch g).accs = s.accs := by
  unfold State.modTask
  repeat' split
  all_goals rfl

/-- R450: an access that ends is outstanding no more. -/
@[simp] theorem State.accs_endAccess (s : State) (a : Access) : (s.endAccess a).accs = s.accs.filter fun b => b.id != a.id := by
  unfold State.endAccess
  split <;> simp [State.supply, State.dropAccess]

/-- R445: the accesses that remain are those that `hit` names no request of. -/
theorem State.accs_failAccs (s : State) (hit : PortReq → Bool) (cause : Nat) :
    ((s.failAccs hit cause).accs.any fun a => a.ports.any hit) = false := by
  have key : ∀ (l : List Access) (t : State),
      (l.foldl (fun s a => (s.fabErrs (a.ports.filter hit) cause).endAccess a) t).accs
        = t.accs.filter fun b => l.all fun a => b.id != a.id := by
    intro l
    induction l with
    | nil => simp
    | cons a l ih =>
      intro t
      rw [List.foldl_cons, ih, State.accs_endAccess, State.accs_fabErrs, List.filter_filter]
      simp only [List.all_cons, Bool.and_comm]
  rw [State.failAccs, key, List.any_eq_false]
  intro b hb hp
  obtain ⟨hb, hl⟩ := List.mem_filter.1 hb
  simpa using List.all_eq_true.1 hl b (List.mem_filter.2 ⟨hb, hp⟩)

@[simp] theorem State.accs_bulkEnd (s : State) (e : Nat) : (s.bulkEnd e).accs = s.accs := by
  have hpost : ∀ (t : State) (b : Bulk) (c : BulkCmd), (t.bulkHostEnd e c b).accs = t.accs := fun t b c => by
    unfold State.bulkHostEnd
    dsimp only
    split
    · exact State.accs_of_beside (State.meqPost_beside _ _ _ _ _ _)
    · rfl
  unfold State.bulkEnd
  dsimp only
  split
  · split
    · split
      · exact hpost _ _ _
      · rfl
    · rfl
  · rfl

@[simp] theorem State.accs_failBulk (s : State) (hit : PortReq → Bool) (cause : Nat) : (s.failBulk hit cause).accs = s.accs := by
  refine foldl_keeps State.accs _ (fun t e => ?_) _ s
  dsimp only
  split
  · split
    · rw [State.accs_bulkEnd]
      exact t.accs_fabErrs _ _
    · rfl
  · rfl

@[simp] theorem State.accs_failCores (s : State) (hit : PortReq → Bool) (cause : Nat) : (s.failCores hit cause).accs = s.accs :=
  s.accs_fabErrs _ _

@[simp] theorem State.accs_failMirror (s : State) (hit : PortReq → Bool) (cause : Nat) : (s.failMirror hit cause).accs = s.accs := by
  refine foldl_keeps State.accs _ (fun t w => ?_) _ s
  unfold State.mirBreak
  split <;> rfl

@[simp] theorem State.accs_repairFails (s : State) (x : Repair) (c : Nat) : (s.repairFails x c).accs = s.accs := by
  have hdrop : ((s.dropRepair x.word).fabErr (s.mirLode x.k) c).accs = s.accs := rfl
  unfold State.repairFails
  generalize (s.dropRepair x.word).fabErr (s.mirLode x.k) c = t at hdrop
  dsimp only
  split
  · exact hdrop
  · exact (State.accs_foundBad _ _ _ _ _).trans hdrop

@[simp] theorem State.accs_failRepairs (s : State) (hit : PortReq → Bool) (cause : Nat) : (s.failRepairs hit cause).accs = s.accs :=
  foldl_keeps State.accs _ (fun t x => t.accs_repairFails x cause) _ s

@[simp] theorem State.accs_failSignals (s : State) (hit : PortReq → Bool) (cause : Nat) : (s.failSignals hit cause).accs = s.accs := by
  simp only [State.failSignals, State.accs_fabErrs]

@[simp] theorem State.accs_failPcie (s : State) (hit : PortReq → Bool) (cause : Nat) : (s.failPcie hit cause).accs = s.accs := by
  unfold State.failPcie
  split
  · exact s.accs_fabErrs _ _
  · rfl

/-- R445, R450: no access is left with a request unanswered that has failed. -/
theorem State.accs_failReqs (s : State) (hit : PortReq → Bool) (cause : Nat) :
    ((s.failReqs hit cause).accs.any fun a => a.ports.any fun r => hit r && !r.done) = false := by
  have h := s.accs_failAccs (fun r => !r.done && hit r) cause
  simpa only [State.failReqs, State.accs_failPcie, State.accs_failSignals, State.accs_failRepairs, State.accs_failMirror,
    State.accs_failCores, State.accs_failBulk, Bool.and_comm] using h

/-! ### The oldest request to a lode -/

/-- R450: a request to a lode that was accepted before every other is the oldest. -/
theorem oldestTo_eq_some {lode : Nat} {rs : List PortReq} {r : PortReq} (hr : r ∈ rs) (hl : r.lode = lode)
    (hfirst : ∀ q ∈ rs, q.lode = lode → q = r ∨ r.seq < q.seq) : oldestTo lode rs = some r := by
  have key : ∀ (l : List PortReq) (b : Option PortReq), (∀ q ∈ l, q.lode = lode → q = r ∨ r.seq < q.seq) →
      (∀ q, b = some q → q = r ∨ r.seq < q.seq) → r ∈ l ∨ b = some r →
      l.foldl (fun b r => if r.lode != lode then b else match b with | some q => if r.seq < q.seq then some r else b | none => some r) b
        = some r := by
    intro l
    induction l with
    | nil => exact fun b _ _ h => h.resolve_left List.not_mem_nil
    | cons x l ih =>
      intro b hl' hb hm
      rw [List.foldl_cons]
      have hx := hl' x (List.mem_cons_self ..)
      refine ih _ (fun q hq => hl' q (List.mem_cons_of_mem _ hq)) (fun q hq => ?_) ?_
      · grind
      · grind
  exact key rs none hfirst (fun _ h => nomatch h) (Or.inl hr)

/-- R450: no request goes to the lode. -/
theorem oldestTo_eq_none {lode : Nat} {rs : List PortReq} (h : ∀ q ∈ rs, q.lode ≠ lode) : oldestTo lode rs = none := by
  unfold oldestTo
  induction rs with
  | nil => rfl
  | cons q r ih =>
    obtain ⟨hq, hr⟩ := List.forall_mem_cons.1 h
    simpa [hq] using ih hr

/-! ### Retries -/

/-- R444, R445: what a resent flit adds to the registers of its port. -/
def State.retried (s : State) (k : Nat) : State :=
  ((s.devPut (aPort k) 31 16 (min 0xFFFF (s.devFld (aPort k) 31 16 + 1))).devPut (aPort k) 47 32
    (min 0xFFFF ((s.devPut (aPort k) 31 16 (min 0xFFFF (s.devFld (aPort k) 31 16 + 1))).devFld (aPort k) 47 32 + 1))).countPkg 0x06 1

theorem exec_flitCrcError {k : Nat} {s : State} (hk : k < 24) (h : s.devFld (aPort k) 2 1 = 2) :
    exec (.flitCrcError k) s
      = .next (if (s.retried k).flitRuns.get k 0 + 1 < 32 then
            { s.retried k with flitRuns := (s.retried k).flitRuns.set k ((s.retried k).flitRuns.get k 0 + 1) }
          else { s.retried k with flitRuns := (s.retried k).flitRuns.del k }.failPort k) :=
  congrArg Host.Outcome.next (if_neg (by simp [hk, h]))

@[simp] theorem State.flitRuns_retried (s : State) (k : Nat) : (s.retried k).flitRuns = s.flitRuns :=
  show (s.retried k).beside.flitRuns = s.flitRuns by rw [State.retried, State.countPkg_beside]; rfl

theorem lastingReg_aPort {k : Nat} (hk : k < 24) : lastingReg (aPort k) := by
  simp only [lastingReg, aPower, aPort, aVein]
  omega

/-- R444: a resent flit counts in CRC and in RETRY, which saturate; the state of its port stands. -/
theorem State.devFld_retried (s : State) {k : Nat} (hk : k < 24) :
    (s.retried k).devFld (aPort k) 31 16 = min 0xFFFF (s.devFld (aPort k) 31 16 + 1)
      ∧ (s.retried k).devFld (aPort k) 47 32 = min 0xFFFF (s.devFld (aPort k) 47 32 + 1)
      ∧ (s.retried k).devFld (aPort k) 2 1 = s.devFld (aPort k) 2 1 := by
  unfold State.retried
  simp only [State.devFld_of_lasting (State.countPkg_lasting _ _ _) (lastingReg_aPort hk)]
  refine ⟨?_, ?_, ?_⟩
  · rw [State.devFld_devPut_apart _ _ _ (by decide), State.devFld_devPut_same _ _ _ _ (by decide)]
    omega
  · rw [State.devFld_devPut_same _ _ _ _ (by decide), State.devFld_devPut_apart _ _ _ (by decide)]
    omega
  · rw [State.devFld_devPut_apart _ _ _ (by decide), State.devFld_devPut_apart _ _ _ (by decide)]

/-! ### Inbound requests -/

section
variable {requester : BitVec 16} {va : BitVec 64} {len n : Nat} {w : Option (List (BitVec 8))} {s t u : State} {pasid : BitVec 20}
  {cs : List Cell} {ps : List PortReq} {go : Bool} (hp : Config.requesterPasid requester = some pasid)
  (hn : n = (w.map List.length).getD len) (ht : t = (s.meetPages pasid va.toNat n whoHost.req).countPages pasid w.isSome va.toNat n true)
  (hs : (t.spansAt pasid w.isSome va.toNat n).2 = false) (hc : t.cellsOf (t.spansAt pasid w.isSome va.toNat n).1 = (cs, none))
  (hg : t.engineGo [] cs = (ps, go, u))
include hp hn ht hs hc hg

/-- R454: a request of a requester with an address space, all of whose bytes are mapped, moves them once no port is in the way, and waits
for its ports else. -/
theorem exec_pcieInboundRequest_mapped :
    exec (.pcieInboundRequest ⟨requester, va, w, len⟩) s
      = .next (if go then u.pcieMove ⟨requester, va, w, len⟩ cs
          else { u with pcieOut := u.pcieOut ++ [{ req := ⟨requester, va, w, len⟩, ports := ps }] }) := by
  have hgo : s.pcieGo { req := ⟨requester, va, w, len⟩ } true
      = if go then ([], true, u.pcieMove ⟨requester, va, w, len⟩ cs) else (ps, go, u) := by
    subst hn ht
    cases w <;> simp only [Option.map_none, Option.map_some, Option.getD_none, Option.getD_some] at hs hc hg
    all_goals simp only [State.pcieGo, hp, if_true, hs, hc, hg, Bool.false_eq_true, if_false]
  refine congrArg Host.Outcome.next ?_
  simp only [hgo]
  cases go <;> rfl

end

/-- Settles O38: one lemma for each event, from its row and the branch that its conditions choose. -/
theorem fabricEventsServeTheirRequests : Obligations.FabricEventsServeTheirRequests := by
  unfold Obligations.FabricEventsServeTheirRequests
  refine ⟨?reads, ?writes, ?atomics, ?refused, ?pcieRead, ?pcieWrite, ?pcieNone, ?train, ?retry, ?fails, ?timeout, ?error⟩
  case reads =>
    rintro lode pa n s t ha rfl
    show Host.Outcome.next ((s.inbound _).countPkg 0x05 1) = _
    simp only [State.inbound, ha, Bool.not_true, Bool.false_eq_true, if_false]
  case writes =>
    intro lode pa bs s ha
    refine ⟨?_, fun poison => ?_⟩
    all_goals
      show Host.Outcome.next ((s.inbound _).countPkg 0x05 1) = _
      simp only [State.inbound, ha, Bool.not_true, Bool.false_eq_true, if_false]
  case atomics =>
    rintro lode pa op t mode opd cmp s x ha rfl
    show Host.Outcome.next ((s.inbound _).countPkg 0x05 1) = _
    simp only [State.inbound, ha, Bool.not_true, Bool.false_eq_true, if_false]
  case refused =>
    intro r s
    refine ⟨fun n ho ha => ?_, fun bs ho ha => ?_, fun bs p ho ha => ?_, fun op t mode opd cmp ho ha => ?_⟩
    all_goals
      show Host.Outcome.next ((s.inbound r).countPkg 0x05 1) = _
      simp only [State.inbound, ho, ha, Bool.not_false, if_true]
  case pcieRead =>
    rintro requester va len s t u v pasid cs ps go hp ht hs hc hg rfl
    have h := exec_pcieInboundRequest_mapped (w := none) hp rfl ht hs hc hg
    exact ⟨fun hgo => h.trans (by rw [hgo]; rfl), fun hgo => h.trans (by rw [hgo]; rfl)⟩
  case pcieWrite =>
    rintro requester va len bs s t u pasid cs ps go hp ht hs hc hg
    have h := exec_pcieInboundRequest_mapped (w := some bs) (len := len) hp rfl ht hs hc hg
    exact ⟨fun hgo => h.trans (by rw [hgo]; rfl), fun hgo => h.trans (by rw [hgo]; rfl)⟩
  case pcieNone =>
    intro r s hp
    refine congrArg Host.Outcome.next ?_
    simp only [State.pcieGo, hp, if_true]
  case train =>
    intro k lanes gbps s hk h0 h3
    exact congrArg Host.Outcome.next (if_neg (by simp [hk, h0, h3]))
  case retry =>
    intro k s hk h hn
    obtain ⟨hcrc, hretry, hstate⟩ := s.devFld_retried hk
    refine ⟨_, (exec_flitCrcError hk h).trans (congrArg Host.Outcome.next (if_pos (by simpa using hn))), ?_, hcrc, hretry,
      hstate.trans h⟩
    simp
  case fails =>
    intro k s hk h hn
    obtain ⟨hcrc, hretry, -⟩ := s.devFld_retried hk
    exact ⟨{ s.retried k with flitRuns := (s.retried k).flitRuns.del k },
      (exec_flitCrcError hk h).trans (congrArg Host.Outcome.next (if_neg (by simp [hn]))), Tbl.get_del_same _ _ _, hcrc, hretry⟩
  case timeout => exact fun id s => ⟨rfl, s.accs_failReqs _ 4⟩
  case error =>
    intro lode cause s hc
    refine ⟨fun r hr hl hfirst => ?_, fun hnone => ?_⟩
    · show execFabricError lode cause s = _
      simp only [execFabricError, oldestTo_eq_some hr hl hfirst, if_pos hc]
    · show execFabricError lode cause s = _
      simp only [execFabricError, oldestTo_eq_none hnone]

end Sys2Proof.Machine
end

section
/-! SUPPORT. The events of the queues, one lemma for each form that O34 speaks of (R354 to R371). -/

namespace Sys2Proof.Machine

/-! ### Slots -/

@[simp] theorem State.qslot_modSlot_same (s : State) (k : Nat) (f : QSlot → QSlot) : (s.modSlot k f).qslot k = f (s.qslot k) :=
  Tbl.get_set_same _ _ _ _

/-- R358: MAP takes the header of a free slot. -/
theorem exec_map {slot : Nat} {s : State} (hk : slot < 64) (h : (s.qslot slot).state = 0) {u : State} {w : Nat → BitVec 64}
    (hu : u = s.readOwn ((s.qslot slot).header 0) 32) (hw : ∀ off, w off = u.ownWord ((s.qslot slot).header off))
    (hring : ringBad (s.qslot slot).qaddr.toNat (4096 * wbits (w 0x10) 47 12) (wbits (w 0x10) 3 0) = false) (heq : w 0 = w 8) :
    exec (.map slot) s = .next (u.modSlot slot fun q =>
      { q with state := 1, widx := (w 0).truncate 32, ridx := (w 8).truncate 32, log2 := wbits (w 0x10) 3 0
               base := 4096 * wbits (w 0x10) 47 12, pasid := (w 0x18).truncate 20
               cur := none, finished := false, forceErr := false }) := by
  subst hu
  simp only [hw] at hring heq ⊢
  show execMap slot s = _
  simp [execMap, Nat.not_le.2 hk, h, hring, heq]

/-! ### What a record of the queue's errors leaves -/

theorem State.slotPost_lasting (s : State) (k kind code idx : Nat) : (s.slotPost k kind code idx).lasting = s.lasting :=
  s.ringPost_lasting _ _ (by
    have := (s.qslot k).part.isLt
    simp only [aPart, aPower]
    omega)

@[simp] theorem State.slotPost_beside (s : State) (k kind code idx : Nat) : (s.slotPost k kind code idx).beside = s.beside :=
  s.ringPost_beside _ _ _

@[simp] theorem State.putOwnNum_lasting (s : State) (pa n v : Nat) (tol tpol : Bool) : (s.putOwnNum pa n v tol tpol).lasting = s.lasting :=
  s.putOwn_lasting _ _ _ _

@[simp] theorem State.putOwnNum_beside (s : State) (pa n v : Nat) (tol tpol : Bool) : (s.putOwnNum pa n v tol tpol).beside = s.beside :=
  s.putOwn_beside _ _ _ _

@[simp] theorem State.meetAt_beside (s : State) (pa kind req : Nat) : (s.meetAt pa kind req).beside = s.beside := by simp [State.meetAt]

@[simp] theorem State.meetRange_beside (s : State) (pa n req : Nat) : (s.meetRange pa n req).beside = s.beside := by
  rw [State.meetRange, State.countWords_beside, State.meetRun, State.meetAll]
  exact foldl_keeps State.beside _ (fun _ _ => State.meetAt_beside _ _ _ _) _ s

/-- A slot's packet and its place: the packet in progress, its signals and the number of the next. -/
def QSlot.packet (q : QSlot) : Option (List (BitVec 64)) × List Signal × BitVec 32 := (q.cur, q.sigs, q.ridx)

theorem State.packet_of_lasting {s t : State} (h : t.lasting = s.lasting) (k : Nat) : (t.qslot k).packet = (s.qslot k).packet :=
  show (t.qslot k).settled.packet = (s.qslot k).settled.packet by rw [State.settled_of_lasting h k]

/-- R355: the error of a queue changes no packet and no launch. -/
theorem State.slotErr_keeps (s : State) (k code idx : Nat) :
    ((s.slotErr k code idx).qslot k).packet = (s.qslot k).packet ∧ (s.slotErr k code idx).launches = s.launches := by
  unfold State.slotErr
  extract_lets q s1 w s2 s3
  have h2 : s2.lasting = s.lasting := (State.putOwnNum_lasting _ _ _ _ _ _).trans (State.meetRange_lasting _ _ _ _)
  have hb : s2.beside = s.beside := (State.putOwnNum_beside _ _ _ _ _ _).trans (State.meetRange_beside _ _ _ _)
  clear_value s2
  have h3 : (s3.qslot k).packet = (s2.qslot k).packet := by
    unfold s3
    rw [State.qslot_modSlot_same]
    rfl
  have hl : s3.launches = s2.launches := rfl
  clear_value s3
  exact ⟨((State.packet_of_lasting (s3.slotPost_lasting k 2 code idx) k).trans h3).trans (State.packet_of_lasting h2 k),
    ((State.launches_of_beside (s3.slotPost_beside k 2 code idx)).trans hl).trans (State.launches_of_beside hb)⟩

/-- R371: a slot whose packet has ended: no packet, no signals, and the launch gone. -/
def State.ended (s : State) (k : Nat) (ridx : BitVec 32) (launch : Nat) : Prop :=
  (s.qslot k).packet = (none, [], ridx) ∧ s.launches.find launch = none

theorem State.ended_slotErr {s : State} {k launch : Nat} {ridx : BitVec 32} (h : s.ended k ridx launch) (code idx : Nat) :
    (s.slotErr k code idx).ended k ridx launch := by
  obtain ⟨hp, hl⟩ := s.slotErr_keeps k code idx
  exact ⟨hp.trans h.1, hl ▸ h.2⟩

theorem State.ended_slotPost {s : State} {k launch : Nat} {ridx : BitVec 32} (h : s.ended k ridx launch) (kind code idx : Nat) :
    (s.slotPost k kind code idx).ended k ridx launch :=
  ⟨(State.packet_of_lasting (s.slotPost_lasting k kind code idx) k).trans h.1,
    State.launches_of_beside (s.slotPost_beside k kind code idx) ▸ h.2⟩

/-- R371: once its signals have their acknowledgements a packet that may complete ends: RIDX is one more and its launch is gone. -/
theorem exec_packetCompletion {slot : Nat} {s : State} (hc : s.canComplete slot = true)
    (hw : (s.qslot slot).sigs.any s.sigWaits = false) (hf : s.sigsFirst (s.qslot slot).sigs = true) :
    ∃ t, exec (.packetCompletion slot) s = .next t ∧ t.ended slot ((s.qslot slot).ridx + 1) (s.qslot slot).launch := by
  refine ⟨_, rfl, ?_⟩
  extract_lets q ws ty l st sigs told s1 ridx s2 src s3 s4
  have hw' : ¬sigs.any s.sigWaits = true := by
    unfold sigs
    split
    · simp
    · simp [q, hw]
  have hf' : ¬(!s.sigsFirst sigs) = true := by
    unfold sigs
    split
    · simp [State.sigsFirst]
    · simp [q, hf]
  rw [if_neg (by simp [hc]), if_neg hw', if_neg hf']
  clear_value s2 l st
  have h3 : s3.ended slot ridx q.launch := by
    refine ⟨?_, Tbl.find_del_same _ _⟩
    exact congrArg QSlot.packet (Tbl.get_set_same s2.slots slot
      { s2.qslot slot with ridx := ridx, cur := none, finished := false, launch := 0, sigs := [] } {})
  have h4 : s4.ended slot ridx q.launch := by
    unfold s4
    split
    · exact State.ended_slotPost h3 _ _ _
    · exact h3
  clear_value s4
  split
  · exact State.ended_slotErr h4 _ _
  · split
    · exact State.ended_slotErr h4 _ _
    · exact h4

/-- R355, R360: a mapped slot that is free and has a packet pending takes it, and acts by its type. -/
theorem exec_packetStart {slot : Nat} {s t : State} {ws : List (BitVec 64)} (hk : slot < 64) (h : (s.qslot slot).state = 1)
    (hc : (s.qslot slot).cur = none) (ha : s.accepting = true) (he : (s.qslot slot).forceErr = false)
    (hx : (s.qslot slot).widx ≠ (s.qslot slot).ridx)
    (hws : ws = (upto 8).map fun i => (s.readOwn (s.qslot slot).packetPa 64).ownWord ((s.qslot slot).packetPa + 8 * i))
    (ht : t = (s.readOwn (s.qslot slot).packetPa 64).modSlot slot fun q =>
      { q with cur := some ws, sigs := [], launch := 0, finished := false, status := 0, err := 0 }) :
    exec (.packetStart slot) s
      = .next (if wbits (pw ws 0) 7 0 = 1 then t.startLaunch slot ws
          else if wbits (pw ws 0) 7 0 = 2 then t.startWait slot ws
          else if wbits (pw ws 0) 7 0 = 3 then t.startSignal slot ws
          else t.malformed slot .limit) := by
  show execPacketStart slot s = _
  unfold execPacketStart
  extract_lets q u ws' v
  obtain rfl : ws' = ws := hws.symm
  obtain rfl : v = t := ht.symm
  clear_value v ws'
  rw [if_neg (by simp [q, Nat.not_le.2 hk, h, hc, ha]), if_neg (by simp [q, he]), if_neg (by simp [q, hx])]
  congr 1
  generalize wbits (pw ws' 0) 7 0 = ty
  split
  · simp
  · simp
  · simp
  · next h1 h2 h3 => rw [if_neg h1, if_neg h2, if_neg h3]

/-- Settles O34: one lemma for each event, from its row and the branch that its conditions choose. -/
theorem queueEventsServeTheirSlot : Obligations.QueueEventsServeTheirSlot := by
  unfold Obligations.QueueEventsServeTheirSlot
  refine ⟨?map, ?unmap, ?unmapped, ?kill, ?start, ?launch, ?dispatch, ?wait, ?complete, ?refill, ?policy⟩
  case map =>
    intro slot s u w hk h hu hw
    obtain ⟨t, ht⟩ : ∃ t, exec (.map slot) s = .next t := ⟨_, rfl⟩
    refine ⟨t, ht, fun hring heq => ?_⟩
    obtain rfl := Host.Outcome.next.inj (ht.symm.trans (exec_map hk h hu hw hring heq))
    simp
  case unmap =>
    intro slot s h
    refine congrArg Host.Outcome.next (if_pos ?_)
    simpa using h
  case unmapped =>
    intro slot s h hc
    refine congrArg Host.Outcome.next (if_neg ?_)
    simp [h, hc]
  case kill =>
    intro slot s ws hc hf
    refine ⟨fun ht => ?_, fun ht => ?_⟩
    all_goals
      show execKill slot s = _
      simp [execKill, hc, hf, ht]
  case start =>
    rintro slot s u t ws hk h hc ha he hx rfl rfl rfl
    have hrun := exec_packetStart hk h hc ha he hx rfl rfl
    refine ⟨fun hty => ?_, fun hty => ?_, fun hty => ?_, fun hty => ?_⟩
    · rw [hrun, if_pos hty]
    · rw [hrun, if_neg (by omega), if_pos hty]
    · rw [hrun, if_neg (by omega), if_neg (by omega), if_pos hty]
    · rw [hrun, if_neg (by omega), if_neg (by omega), if_neg (by omega)]
  case launch =>
    rintro k s t ws kn hok h3 rfl hk hck hr hon
    unfold State.startLaunch
    simp [hok, h3, hk, hck, hr, hon]
  case dispatch =>
    rintro slot s t l hl hn rfl
    show execLaunchDispatch slot s = _
    simp [execLaunchDispatch, hl, hn]
  case wait =>
    rintro slot s t ws hc ht hf hw hs rfl
    refine ⟨s.pollWait slot, ?_, ?_⟩
    · show execWaitPacketSatisfied slot s = _
      simp [execWaitPacketSatisfied, hc, ht, hf, hw, hs]
    · exact congrArg QSlot.finished (Tbl.get_set_same _ slot _ _)
  case complete =>
    intro slot s ws hc hcur hw hf
    obtain ⟨t, he, hp, hl⟩ := exec_packetCompletion hc hw hf
    simp only [QSlot.packet, Prod.mk.injEq] at hp
    obtain ⟨h1, h2, h3⟩ := hp
    exact ⟨t, he, h1, h3, h2, hl⟩
  case refill =>
    intro p s hp
    refine ⟨_, congrArg Host.Outcome.next (if_neg (Nat.not_le.2 hp)), ?_, ?_, ?_⟩
    · rw [State.devFld_devPut_same _ _ _ _ (by decide)]
      have : s.devFld (aPart p + 8) 31 16 < 2 ^ 16 := Nat.mod_lt _ (by decide)
      omega
    · exact State.devFld_devPut_apart _ _ _ (by decide)
    · exact State.devFld_devPut_apart _ _ _ (by decide)
  case policy =>
    rintro slot geode s t l a hg hm hl rfl rfl
    show execPreemptionPolicy slot geode s = _
    simp [execPreemptionPolicy, Nat.not_le.2 hg, hm, hl]

end Sys2Proof.Machine
end

section
/-! SUPPORT. Bytes that the hardware writes read as written, whatever poison and counts do beside (R281, R330, R342, R349). -/

namespace Sys2Proof.Machine

/-! ### Little-endian bytes -/

theorem leBytes_eq_map (n v : Nat) : leBytes n v = (upto n).map fun k => BitVec.ofNat 8 (v / 2 ^ (8 * k)) := by
  induction n generalizing v with
  | zero => rfl
  | succ n ih =>
    rw [leBytes, ih, upto, upto, List.range_succ_eq_map, List.map_cons, List.map_map]
    refine congrArg₂ List.cons (by simp) (List.map_congr_left fun k _ => ?_)
    simp only [Function.comp, Nat.div_div_eq_div_mul]
    rw [show 8 * k.succ = 8 + 8 * k by omega, Nat.pow_add]

/-- A run of bytes of a number is a field of it. -/
theorem leNat_bytes (n v j : Nat) :
    leNat ((upto n).map fun k => BitVec.ofNat 8 (v / 2 ^ (8 * (j + k)))) = v / 2 ^ (8 * j) % 2 ^ (8 * n) := by
  rw [← leNat_leBytes, leBytes_eq_map]
  refine congrArg leNat (List.map_congr_left fun k _ => ?_)
  rw [Nat.div_div_eq_div_mul, ← Nat.pow_add, Nat.mul_add]

/-- Of lists of one length that follow each other every element stands at its place. -/
theorem getElem?_flatMap_range {α : Type} {w : Nat} {g : Nat → List α} (hg : ∀ i, (g i).length = w) {n i k : Nat} (hi : i < n)
    (hk : k < w) : ((List.range n).flatMap g)[w * i + k]? = (g i)[k]? := by
  have hlen : ∀ m, ((List.range m).flatMap g).length = w * m := fun m => by
    induction m with
    | zero => simp
    | succ m ih => rw [List.range_succ, List.flatMap_append, List.length_append, ih]; simp [hg, Nat.mul_succ]
  induction n with
  | zero => exact absurd hi (Nat.not_lt_zero i)
  | succ n ih =>
    rw [List.range_succ, List.flatMap_append, List.flatMap_singleton]
    obtain hlt | rfl := Nat.lt_succ_iff_lt_or_eq.1 hi
    · have hin : w * i + k < w * n := by
        have := Nat.mul_le_mul_left w (Nat.succ_le_of_lt hlt)
        rw [Nat.mul_succ] at this
        omega
      rw [List.getElem?_append_left (by rw [hlen]; exact hin), ih hlt]
    · rw [List.getElem?_append_right (by rw [hlen]; omega), hlen, Nat.add_sub_cancel_left]

/-! ### Consecutive bytes -/

/-- A byte outside those that are written stands. -/
theorem State.byteAt_putRaw_other {s : State} (h : s.Listed) {pa : Nat} {bs : List (BitVec 8)} {q : Nat}
    (hp : ∀ i < bs.length, place (pa + i) = .main ∨ place (pa + i) = .durable) (hq : q < pa ∨ pa + bs.length ≤ q) :
    (s.putRaw pa bs).byteAt q = s.byteAt q := by
  induction bs generalizing s pa with
  | nil => rfl
  | cons b r ih =>
    rw [List.length_cons] at hp hq
    have hr : ∀ i < r.length, place (pa + 1 + i) = .main ∨ place (pa + 1 + i) = .durable := fun i hi => by
      rw [Nat.add_assoc, Nat.add_comm 1]
      exact hp _ (by omega)
    rw [State.putRaw, ih (State.listed_putByte h _ _) hr (by omega),
      State.byteAt_putByte (s.canonical_iff.2 h) b (by simpa using hp 0 (by omega)), if_neg (by omega)]

/-- Every byte that is written reads as written. -/
theorem State.byteAt_putRaw {s : State} (h : s.Listed) {pa : Nat} {bs : List (BitVec 8)}
    (hp : ∀ i < bs.length, place (pa + i) = .main ∨ place (pa + i) = .durable) {i : Nat} {b : BitVec 8} (hb : bs[i]? = some b) :
    (s.putRaw pa bs).byteAt (pa + i) = b := by
  induction bs generalizing s pa i with
  | nil => cases hb
  | cons a r ih =>
    rw [List.length_cons] at hp
    have hr : ∀ i < r.length, place (pa + 1 + i) = .main ∨ place (pa + 1 + i) = .durable := fun i hi => by
      rw [Nat.add_assoc, Nat.add_comm 1]
      exact hp _ (by omega)
    have hl := State.listed_putByte h pa a
    cases i with
    | zero =>
      obtain rfl : a = b := by simpa using hb
      rw [State.putRaw, State.byteAt_putRaw_other hl hr (by omega), Nat.add_zero,
        State.byteAt_putByte (s.canonical_iff.2 h) a (by simpa using hp 0 (by omega)), if_pos rfl]
    | succ i =>
      have := ih hl hr (i := i) (by simpa using hb)
      rwa [State.putRaw, show pa + (i + 1) = pa + 1 + i by omega]

/-! ### Poison (R330, R342, R349) -/

theorem modNewest_concat (line : Nat) (f : DurEntry → DurEntry) (q : List DurEntry) (e : DurEntry) :
    modNewest line f (q ++ [e]) = if e.line = line then q ++ [f e] else modNewest line f q ++ [e] := by
  unfold modNewest
  rw [List.reverse_append, List.reverse_singleton, List.singleton_append, List.findIdx?_cons, List.length_append, List.length_singleton]
  by_cases he : e.line = line
  · have hlast : q.length + 1 - 1 - 0 = q.length := by omega
    simp only [he, beq_self_eq_true, if_true, hlast]
    refine List.ext_getElem (by simp) fun k h1 h2 => ?_
    rw [List.getElem_modify]
    simp only [List.length_append, List.length_singleton] at h2
    by_cases hk : k = q.length
    · subst hk; simp
    · rw [if_neg (Ne.symm hk), List.getElem_append_left (by omega), List.getElem_append_left (by omega)]
  · simp only [beq_eq_false_iff_ne.2 he, Bool.false_eq_true, if_false, he]
    cases hx : q.reverse.findIdx? fun e => e.line == line with
    | none => rfl
    | some i =>
      have hi : i < q.length := by
        have := (List.findIdx?_eq_some_iff_findIdx_eq.1 hx).1
        simpa using this
      have hidx : q.length + 1 - 1 - (i + 1) = q.length - 1 - i := by omega
      simp only [Option.map_some, hidx]
      refine List.ext_getElem (by simp) fun k h1 h2 => ?_
      simp only [List.length_append, List.length_singleton, List.length_modify] at h2
      rw [List.getElem_modify]
      by_cases hk : k = q.length
      · subst hk
        rw [if_neg (by omega)]
        simp
      · rw [List.getElem_append_left (by omega), List.getElem_append_left (by simp; omega), List.getElem_modify]

/-- R342: a change of the newest entry of a line is found there, and nowhere else. -/
theorem findRev?_modNewest {f : DurEntry → DurEntry} (hf : ∀ e, (f e).line = e.line) (line l : Nat) (q : List DurEntry) :
    (modNewest line f q).findRev? (fun e => e.line == l)
      = (q.findRev? fun e => e.line == l).map fun e => if l = line then f e else e := by
  induction q using List.reverseRecOn with
  | nil => rfl
  | append_singleton q e ih =>
    rw [modNewest_concat, findRev?_concat]
    by_cases he : e.line = line
    · rw [if_pos he, findRev?_concat, hf]
      by_cases hl : e.line = l
      · simp [hl, ← he]
      · have hne : l ≠ line := fun h => hl (he.trans h.symm)
        simp [hl, hne]
    · rw [if_neg he, findRev?_concat, ih]
      by_cases hl : e.line = l
      · have hne : l ≠ line := fun h => he (hl.trans h)
        simp [hl, hne]
      · simp [hl]

section
variable (s : State) (line : Nat) (b : Bool)

@[simp] theorem State.memPoison_setDurBad : (s.setDurBad line b).memPoison = s.memPoison := by
  unfold State.setDurBad
  split <;> rfl

theorem State.durEntry_setDurBad (l : Nat) :
    (s.setDurBad line b).durEntry l = (s.durEntry l).map fun e => if l = line then { e with poison := b } else e := by
  unfold State.setDurBad
  split
  · exact findRev?_modNewest (f := fun e => { e with poison := b }) (fun _ => rfl) line l s.durQ
  · next hnone =>
    refine Eq.trans (b := s.durEntry l) rfl ?_
    by_cases hl : l = line
    · rw [hl, Option.not_isSome_iff_eq_none.1 hnone, Option.map_none]
    · simp [hl]

/-- R342: poison changes no byte. -/
@[simp] theorem State.durByte_setDurBad (q : Nat) : (s.setDurBad line b).durByte q = s.durByte q := by
  have hmedia : (s.setDurBad line b).mediaByte q = s.mediaByte q := by
    unfold State.setDurBad
    split <;> rfl
  unfold State.durByte
  rw [State.durEntry_setDurBad, hmedia]
  cases s.durEntry (q / 64) with
  | none => rfl
  | some e => by_cases h : q / 64 = line <;> simp [h]

/-- R349: the poison of a line is that of its newest value. -/
theorem State.durBad_setDurBad (l : Nat) : (s.setDurBad line b).durBad l = if l = line then b else s.durBad l := by
  unfold State.durBad
  rw [State.durEntry_setDurBad]
  cases he : s.durEntry l with
  | some e => by_cases h : l = line <;> simp [h]
  | none =>
    unfold State.setDurBad
    by_cases h : l = line
    · subst h
      simp only [he, Option.isSome_none, Bool.false_eq_true, if_false, Option.map_none, if_true]
      cases b <;> simp
    · simp only [Option.map_none, h, if_false]
      split
      · rfl
      · cases b <;> simp [h]

end

/-- The bytes of states that agree in main memory and the durable tier. -/
theorem State.byteAt_of_same {s t : State} (hm : t.mem = s.mem) (hd : t.durByte = s.durByte) : t.byteAt = s.byteAt :=
  funext fun _ => State.byteAt_congr (by rw [hm]) (by rw [hd])

@[simp] theorem State.byteAt_setDurBad (s : State) (line : Nat) (b : Bool) : (s.setDurBad line b).byteAt = s.byteAt := by
  refine State.byteAt_of_same ?_ (funext fun q => s.durByte_setDurBad line b q)
  unfold State.setDurBad
  split <;> rfl

@[simp] theorem State.byteAt_poisonWord (s : State) (a : Nat) : (s.poisonWord a).byteAt = s.byteAt := by
  unfold State.poisonWord
  split
  · split <;> rfl
  · simp
  · rfl

@[simp] theorem State.byteAt_cleanWord (s : State) (a : Nat) : (s.cleanWord a).byteAt = s.byteAt := by
  unfold State.cleanWord
  dsimp only
  split
  · rfl
  · exact State.byteAt_setDurBad _ _ _
  · rfl

/-- A word that is poisoned already stays so. -/
theorem State.poisoned_poisonWord {s : State} {q : Nat} (h : s.poisoned q = true) (a : Nat) : (s.poisonWord a).poisoned q = true := by
  unfold State.poisonWord
  split
  · split
    · exact h
    · revert h
      unfold State.poisoned
      split
      · exact fun h => by simpa using Or.inr (by simpa using h)
      · exact id
      · exact id
  · revert h
    unfold State.poisoned
    split
    · exact fun h => by rwa [State.memPoison_setDurBad]
    · refine fun h => ?_
      rw [State.durBad_setDurBad]
      split
      · rfl
      · exact h
    · exact id
  · exact h

/-- R330: a word of local memory that is marked is poisoned. -/
theorem State.poisoned_poisonWord_same (s : State) {a : Nat} (h : place a = .main ∨ place a = .durable) :
    (s.poisonWord a).poisoned a = true := by
  obtain h | h := h
  · simp only [State.poisonWord, State.poisoned, h]
    split
    · assumption
    · simp
  · simp only [State.poisonWord, State.poisoned, h]
    rw [State.durBad_setDurBad, if_pos rfl]

section
variable {s : State} {q : Nat} (hq : place q = .main)
include hq

/-- In main memory poison is a word's. -/
theorem State.poisoned_of_poisonWord {a : Nat} (h : (s.poisonWord a).poisoned q = true) : s.poisoned q = true ∨ a / 32 = q / 32 := by
  revert h
  unfold State.poisonWord
  split
  · split
    · exact Or.inl
    · simp only [State.poisoned, hq, List.contains_cons, Bool.or_eq_true, beq_iff_eq]
      exact fun h => h.symm.imp_right Eq.symm
  · exact fun h => Or.inl (by simpa only [State.poisoned, hq, State.memPoison_setDurBad] using h)
  · exact Or.inl

theorem State.poisoned_cleanWord {a : Nat} (h : (s.cleanWord a).poisoned q = true) :
    s.poisoned q = true ∧ (place a = .main → a / 32 ≠ q / 32) := by
  revert h
  unfold State.cleanWord
  dsimp only
  split
  · next ha =>
    simp only [State.poisoned, hq, State.forgetFlaw, List.contains_iff_mem, List.mem_filter, bne_iff_ne, ne_eq]
    exact fun h => ⟨h.1, fun _ he => h.2 he.symm⟩
  · next ha =>
    simp only [State.poisoned, hq, State.memPoison_setDurBad]
    exact fun h => ⟨h, fun hp => by rw [ha] at hp; cases hp⟩
  · next hn _ =>
    exact fun h => ⟨h, fun hp => absurd hp hn⟩

end

/-! ### What forwarding leaves (R351, R356) -/

theorem State.stored_countPkg (s : State) (ev n : Nat) : (s.countPkg ev n).stored = s.stored :=
  ((State.SameTables.start s).countPkg ev n).stored

theorem State.stored_mirPort (s : State) : s.mirPort.stored = s.stored := by
  unfold State.mirPort
  split
  · exact (State.stored_countPkg _ _ _).trans rfl
  · rfl

theorem State.stored_mirrorWord (s : State) (word : Nat) (w : Author) : (s.mirrorWord word w).stored = s.stored := by
  unfold State.mirrorWord
  split
  · exact (State.stored_mirPort _).trans rfl
  · split
    · rfl
    · split <;> rfl

theorem State.stored_forward (s : State) (pa n : Nat) : (s.forward pa n).stored = s.stored := by
  unfold State.forward
  refine Eq.trans (b := State.stored (if _ then _ else _)) rfl ?_
  split
  · exact foldl_keeps State.stored _ (fun t i => t.stored_mirrorWord _ _) _ s
  · rfl

theorem State.byteAt_stored (s : State) : s.stored.byteAt = s.byteAt := rfl

theorem State.byteAt_of_stored {s t : State} (h : t.stored = s.stored) : t.byteAt = s.byteAt := by
  rw [← State.byteAt_stored, h, State.byteAt_stored]

theorem State.poisoned_of_stored {s t : State} (h : t.stored = s.stored) : t.poisoned = s.poisoned := by
  rw [← State.poisoned_stored, h, State.poisoned_stored]

end Sys2Proof.Machine
end

section
/-! SUPPORT. The words of a trap frame, field by field (R390). -/

namespace Sys2Proof.Machine

/-! ### Fields of a number -/

theorem getLsbD_ofNat_eq {x i n : Nat} {b : Bool} (hi : i < 64) (h : x / 2 ^ i % 2 = n) (hb : n = b.toNat) :
    (BitVec.ofNat 64 x).getLsbD i = b := by
  rw [BitVec.getLsbD_ofNat, decide_eq_true hi, Bool.true_and, Nat.testBit_eq_decide_div_mod_eq, h, hb]
  cases b <;> rfl

theorem wbits_ofNat {x : Nat} (hx : x < 2 ^ 64) (hi lo : Nat) : wbits (BitVec.ofNat 64 x) hi lo = x / 2 ^ lo % 2 ^ (hi + 1 - lo) := by
  rw [wbits, nbits, BitVec.toNat_ofNat, Nat.mod_eq_of_lt hx]

theorem ite_two_pow (b : Bool) (k : Nat) : (if b then 2 ^ k else 0) = 2 ^ k * b.toNat := by
  cases b <;> simp

/-- A sum of powers of two has the bits that it is summed from. -/
theorem guardSum_bits (b : Nat → Bool) (n : Nat) :
    (List.range n).foldl (fun a k => a + if b k then 2 ^ k else 0) 0 < 2 ^ n
      ∧ ∀ k < n, ((List.range n).foldl (fun a k => a + if b k then 2 ^ k else 0) 0).testBit k = b k := by
  induction n with
  | zero => simp
  | succ n ih =>
    obtain ⟨hlt, hbit⟩ := ih
    simp only [List.range_succ, List.foldl_append, List.foldl_cons, List.foldl_nil]
    generalize (List.range n).foldl (fun a k => a + if b k then 2 ^ k else 0) 0 = x at hlt hbit
    rw [ite_two_pow, Nat.add_comm]
    have hb : (b n).toNat ≤ 1 := Bool.toNat_le _
    refine ⟨?_, fun k hk => ?_⟩
    · have := Nat.mul_le_mul_left (2 ^ n) hb
      rw [Nat.pow_succ]
      omega
    · rw [Nat.testBit_two_pow_mul_add _ hlt]
      split
      · next h => exact hbit k h
      · next h =>
        rw [show k - n = 0 by omega, show k = n by omega]
        cases b n <;> rfl

section
variable (k : Core) (f : Facet) (ctr : Nat) (cause info : BitVec 64) (clock : Nat)

/-! ### Registers -/

theorem frameWord_y {n : Nat} (hn : n < 4) (hr : f.replayed (.y n) = false) :
    BitVec.ofNat 64 (frameWord k f ctr cause info clock (0x160 + 8 * n)) = f.y.get n 0 := by
  have hx : (0x160 + 8 * n - 0x160) / 8 = n := by omega
  unfold frameWord
  repeat rw [if_neg (by omega)]
  rw [if_pos (by omega), hx, Facet.frameY, hr]
  simp

theorem frameWord_q {n : Nat} (hn : n < 8) (hr : f.replayed (.q n) = false) :
    BitVec.ofNat 64 (frameWord k f ctr cause info clock (0x180 + 8 * n)) = f.q.get n 0 := by
  have hx : (0x180 + 8 * n - 0x180) / 8 = n := by omega
  unfold frameWord
  repeat rw [if_neg (by omega)]
  rw [if_pos (by omega), hx, Facet.frameQ, hr]
  simp

theorem frameWord_d {n : Nat} (hn : n < 16) (hr : f.replayed (.d n) = false) :
    BitVec.ofNat 64 (frameWord k f ctr cause info clock (0x1C0 + 8 * n)) = f.d.get n 0 := by
  have hx : (0x1C0 + 8 * n - 0x1C0) / 8 = n := by omega
  unfold frameWord
  repeat rw [if_neg (by omega)]
  rw [if_pos (by omega), hx, Facet.frameD, hr]
  simp

theorem frameWord_s {n : Nat} (h1 : 1 ≤ n) (hn : n < 64) (hr : f.replayed (.s n) = false) :
    BitVec.ofNat 64 (frameWord k f ctr cause info clock (0x400 + 8 * n)) = f.s.get n 0 := by
  have hx : (0x400 + 8 * n - 0x400) / 8 = n := by omega
  unfold frameWord
  repeat rw [if_neg (by omega)]
  rw [if_pos (by omega), if_neg (by omega), hx, Facet.frameS, hr]
  simp

/-- Two address registers share a word. -/
theorem frameWord_x {n : Nat} (hn : n < 32) (hr : f.replayed (.x n) = false) :
    frameWord k f ctr cause info clock (0x240 + 8 * (n / 2)) / 2 ^ (8 * (4 * (n % 2))) % 2 ^ (8 * 4) = (f.x.get n 0).toNat := by
  have hx : (0x240 + 8 * (n / 2) - 0x240) / 4 = 2 * (n / 2) := by omega
  have hlt : ∀ m, f.frameX ctr m < 2 ^ 32 := fun m => BitVec.isLt _
  have hn' : f.frameX ctr n = (f.x.get n 0).toNat := by
    rw [Facet.frameX, hr]
    rfl
  unfold frameWord
  repeat rw [if_neg (by omega)]
  rw [if_pos (by omega), hx, ← hn']
  dsimp only
  have h0 := hlt (2 * (n / 2))
  have h1 := hlt (2 * (n / 2) + 1)
  obtain he | he : n = 2 * (n / 2) ∨ n = 2 * (n / 2) + 1 := by omega
  · rw [show n % 2 = 0 by omega, show f.frameX ctr n = f.frameX ctr (2 * (n / 2)) from congrArg _ he]
    omega
  · rw [show n % 2 = 1 by omega, show f.frameX ctr n = f.frameX ctr (2 * (n / 2) + 1) from congrArg _ he]
    omega

/-- R7, R390: m0 stands as all ones. -/
theorem frameWord_m0 : frameWord k f ctr cause info clock 0x2C0 = 2 ^ 64 - 1 ∧ frameWord k f ctr cause info clock 0x2C8 = 2 ^ 64 - 1 := by
  constructor <;> simp [frameWord]

theorem frameWord_m {n : Nat} (h1 : 1 ≤ n) (hn : n < 16) (hr : f.replayed (.m n) = false) :
    BitVec.ofNat 64 (frameWord k f ctr cause info clock (0x2C0 + 16 * n)) = (f.m.get n 0).extractLsb' 0 64
      ∧ BitVec.ofNat 64 (frameWord k f ctr cause info clock (0x2C8 + 16 * n)) = (f.m.get n 0).extractLsb' 64 64 := by
  have hlow : (0x2C0 + 16 * n - 0x2C0) / 16 = n := by omega
  have hhigh : (0x2C8 + 16 * n - 0x2C0) / 16 = n := by
    rw [show 0x2C8 + 16 * n - 0x2C0 = 8 + 16 * n from by omega]
    omega
  have hm : f.frameM ctr n = (f.m.get n 0).toNat := by
    rw [Facet.frameM, hr]
    rfl
  constructor <;> unfold frameWord
  · repeat rw [if_neg (by omega)]
    rw [if_pos (by omega), hlow]
    dsimp only
    rw [if_pos (by omega), if_neg (by omega), hm]
    refine BitVec.eq_of_toNat_eq ?_
    simp
  · repeat rw [if_neg (by omega)]
    rw [if_pos (by omega), hhigh]
    dsimp only
    rw [if_neg (by omega), if_neg (by omega), hm]
    refine BitVec.eq_of_toNat_eq ?_
    simp [Nat.shiftRight_eq_div_pow]

/-- R308: the words of a handle's image. -/
theorem frameWord_h {n : Nat} (hn : n < 32) (hr : f.replayed (.h n) = false) :
    frameWord k f ctr cause info clock (0x600 + 16 * n) = (f.h.get n {}).word0
      ∧ frameWord k f ctr cause info clock (0x608 + 16 * n) = (f.h.get n {}).va.toNat := by
  have hlow : (0x600 + 16 * n - 0x600) / 16 = n := by omega
  have hhigh : (0x608 + 16 * n - 0x600) / 16 = n := by
    rw [show 0x608 + 16 * n - 0x600 = 8 + 16 * n from by omega]
    omega
  have hh : f.frameH ctr n = f.h.get n {} := by
    rw [Facet.frameH, hr]
    rfl
  constructor <;> unfold frameWord
  · repeat rw [if_neg (by omega)]
    rw [if_pos (by omega), hlow]
    dsimp only
    rw [if_pos (by omega), hh]
  · repeat rw [if_neg (by omega)]
    rw [if_pos (by omega), hhigh]
    dsimp only
    rw [if_neg (by omega), hh]

/-- R143: the guards, g0 true. -/
theorem frameWord_g {w : BitVec 64} (hw : w = BitVec.ofNat 64 (frameWord k f ctr cause info clock 0x48)) :
    w.getLsbD 0 = true ∧ (∀ n, 1 ≤ n → n < 8 → f.replayed (.g n) = false → w.getLsbD n = f.g.getLsbD n)
      ∧ wbits w 63 8 = 0 := by
  obtain ⟨hlt, hbit⟩ :=
    guardSum_bits (fun n => if n = 0 then true else if f.replayed (.g n) then Config.freeBool ctr n else f.g.getLsbD n) 8
  have hg : frameWord k f ctr cause info clock 0x48 = (List.range 8).foldl (fun a n =>
      a + if (if n = 0 then true else if f.replayed (.g n) then Config.freeBool ctr n else f.g.getLsbD n) then 2 ^ n else 0) 0 := rfl
  rw [hw, hg]
  generalize (List.range 8).foldl _ 0 = x at hlt hbit
  have hx : ∀ n < 8, (BitVec.ofNat 64 x).getLsbD n
      = if n = 0 then true else if f.replayed (.g n) then Config.freeBool ctr n else f.g.getLsbD n := fun n hn => by
    rw [BitVec.getLsbD_ofNat, hbit n hn, decide_eq_true (by omega), Bool.true_and]
  refine ⟨hx 0 (by decide), fun n h1 h8 hr => ?_, ?_⟩
  · rw [hx n h8, if_neg (by omega), hr]
    rfl
  · rw [wbits_ofNat (by omega)]
    omega

/-! ### Control -/

theorem frameWord_cause : frameWord k f ctr cause info clock 0x00 = cause.toNat := rfl
theorem frameWord_info : frameWord k f ctr cause info clock 0x08 = info.toNat := rfl
theorem frameWord_resume : frameWord k f ctr cause info clock 0x10 = codeAddr f.bank f.pc := rfl

/-- R144: a loop-stack entry at or above the depth stands as zero. -/
theorem frameWord_noLoop {n : Nat} (hn : n < 6) (hd : f.lsDepth ≤ n) :
    frameWord k f ctr cause info clock (0x80 + 16 * n) = 0 ∧ frameWord k f ctr cause info clock (0x88 + 16 * n) = 0 := by
  have hlow : (0x80 + 16 * n - 0x80) / 16 = n := by omega
  have hhigh : (0x88 + 16 * n - 0x80) / 16 = n := by omega
  have hl : f.loopAt n = {} := if_neg (by omega)
  constructor <;> unfold frameWord
  · repeat rw [if_neg (by omega)]
    rw [if_pos (by omega), hlow, hl]
    dsimp only
    rw [if_pos (by omega)]
    rfl
  · repeat rw [if_neg (by omega)]
    rw [if_pos (by omega), hhigh, hl]
    dsimp only
    rw [if_neg (by omega)]
    rfl

theorem frameWord_loop {n : Nat} (hn : n < 6) (hd : n < f.lsDepth) :
    frameWord k f ctr cause info clock (0x80 + 16 * n) = (f.lstk.get n {}).wordA.toNat
      ∧ frameWord k f ctr cause info clock (0x88 + 16 * n) = (f.lstk.get n {}).count.toNat := by
  have hlow : (0x80 + 16 * n - 0x80) / 16 = n := by omega
  have hhigh : (0x88 + 16 * n - 0x80) / 16 = n := by omega
  have hl : f.loopAt n = f.lstk.get n {} := if_pos hd
  constructor <;> unfold frameWord
  · repeat rw [if_neg (by omega)]
    rw [if_pos (by omega), hlow, hl]
    dsimp only
    rw [if_pos (by omega)]
  · repeat rw [if_neg (by omega)]
    rw [if_pos (by omega), hhigh, hl]
    dsimp only
    rw [if_neg (by omega)]

theorem frameWord_merr {n : Nat} (hn : n < 16) :
    BitVec.ofNat 64 (frameWord k f ctr cause info clock (0xE0 + 8 * n))
      = (match f.merr[n]? with | none => 0 | some c => BitVec.ofNat 64 (2 ^ 5 + c.code)) := by
  have hx : (0xE0 + 8 * n - 0xE0) / 8 = n := by omega
  unfold frameWord
  repeat rw [if_neg (by omega)]
  rw [if_pos (by omega), hx]
  cases f.merr[n]? with
  | none => rfl
  | some c => exact congrArg (BitVec.ofNat 64) (Nat.add_comm _ _)

theorem frameWord_rbase_none (h : f.rbase = none) : frameWord k f ctr cause info clock 0x50 = 2 ^ 63 := by
  simp [frameWord, h]

theorem frameWord_rbase_some {b : Nat} (h : f.rbase = some b) : frameWord k f ctr cause info clock 0x50 = b % 2 ^ 63 := by
  simp [frameWord, h]

/-- R390: the reserved words are zero. -/
theorem frameWord_reserved {o : Nat} (h : 0x58 ≤ o ∧ o < 0x80 ∨ 0x3C0 ≤ o ∧ o < 0x400 ∨ 0x800 ≤ o) :
    frameWord k f ctr cause info clock o = 0 := by
  unfold frameWord
  repeat rw [if_neg (by omega)]

end

/-- R144: the fields of LSTKk.A. -/
theorem LoopEntry.wordA_fields (e : LoopEntry) :
    wbits e.wordA 14 0 = e.start % 2 ^ 15 ∧ e.wordA.getLsbD 15 = e.bank ∧ wbits e.wordA 31 16 = e.stop % 2 ^ 16
      ∧ e.wordA.getLsbD 32 = e.rot ∧ wbits e.wordA 34 33 = e.stages.toNat ∧ wbits e.wordA 63 35 = 0 := by
  have hs := e.stages.isLt
  have hb : e.bank.toNat ≤ 1 := Bool.toNat_le _
  have hr : e.rot.toNat ≤ 1 := Bool.toNat_le _
  have hw : e.wordA = BitVec.ofNat 64 (e.start % 32768 + 2 ^ 15 * e.bank.toNat + e.stop % 65536 * 2 ^ 16 + 2 ^ 32 * e.rot.toNat
      + e.stages.toNat * 2 ^ 33) := by
    rw [LoopEntry.wordA, ite_two_pow, ite_two_pow]
  have field : ∀ hi lo, wbits e.wordA hi lo = _ := fun hi lo => by rw [hw, wbits_ofNat (by omega)]
  rw [field, field, field, field, hw]
  refine ⟨?_, getLsbD_ofNat_eq (by decide) ?_ rfl, ?_, getLsbD_ofNat_eq (by decide) ?_ rfl, ?_, ?_⟩ <;> omega

/-- R308: the fields of the first word of a handle's image. -/
theorem Handle.word0_fields (h : Handle) {a : BitVec 64} (ha : a = BitVec.ofNat 64 h.word0) :
    (a.getLsbD 0 = h.valid ∧ a.getLsbD 1 = h.pend ∧ a.getLsbD 2 = h.pin ∧ a.getLsbD 3 = h.sys ∧ a.getLsbD 4 = h.r ∧
        a.getLsbD 5 = h.w ∧ a.getLsbD 6 = h.tol ∧ a.getLsbD 7 = h.tpol ∧ a.getLsbD 10 = h.rem ∧ a.getLsbD 11 = h.dev)
      ∧ (wbits a 9 8 = h.psize.toNat ∧ wbits a 15 12 = h.fcode.toNat ∧ wbits a 47 16 = h.frame.toNat
        ∧ wbits a 63 48 = h.lode.toNat) := by
  have b0 : h.valid.toNat ≤ 1 := Bool.toNat_le _
  have b1 : h.pend.toNat ≤ 1 := Bool.toNat_le _
  have b2 : h.pin.toNat ≤ 1 := Bool.toNat_le _
  have b3 : h.sys.toNat ≤ 1 := Bool.toNat_le _
  have b4 : h.r.toNat ≤ 1 := Bool.toNat_le _
  have b5 : h.w.toNat ≤ 1 := Bool.toNat_le _
  have b6 : h.tol.toNat ≤ 1 := Bool.toNat_le _
  have b7 : h.tpol.toNat ≤ 1 := Bool.toNat_le _
  have b10 : h.rem.toNat ≤ 1 := Bool.toNat_le _
  have b11 : h.dev.toNat ≤ 1 := Bool.toNat_le _
  have hp := h.psize.isLt
  have hc := h.fcode.isLt
  have hf := h.frame.isLt
  have hl := h.lode.isLt
  subst ha
  simp only [Handle.word0, ite_two_pow]
  refine ⟨⟨?_, ?_, ?_, ?_, ?_, ?_, ?_, ?_, ?_, ?_⟩, ?_, ?_, ?_, ?_⟩
  iterate 10 exact getLsbD_ofNat_eq (by decide) (by omega) rfl
  all_goals
    rw [wbits_ofNat (by omega)]
    omega

end Sys2Proof.Machine
end

section
/-! SUPPORT. A frame in local memory as trap entry leaves it (R384 to R386, R390). -/

namespace Sys2Proof.Machine

/-! ### Its place (R384) -/

/-- A frame lies in one region of the memory map. -/
theorem place_add {pa o : Nat} (ha : pa % 4096 = 0) (ho : o < 4096) : place (pa + o) = place pa := by
  have hmain : pa + o < 0x8000000000 ↔ pa < 0x8000000000 := by omega
  have hdur : 0x10000000000 ≤ pa + o ∧ pa + o < 0x20000000000 ↔ 0x10000000000 ≤ pa ∧ pa < 0x20000000000 := by omega
  have hdev : 0x80000000000 ≤ pa + o ∧ pa + o < 0x80100000000 ↔ 0x80000000000 ≤ pa ∧ pa < 0x80100000000 := by omega
  simp only [place, hmain, hdur, hdev]

theorem pageBits_ge (ps : BitVec 2) : 12 ≤ pageBits ps := by
  unfold pageBits
  split
  · decide
  · split <;> decide

theorem Leaf.pa_aligned (l : Leaf) {va : Nat} (h : va % 4096 = 0) : l.pa va % 4096 = 0 := by
  have hm : va % 2 ^ pageBits l.psize % 4096 = 0 := by
    rw [Nat.mod_mod_of_dvd va (Nat.pow_dvd_pow 2 (pageBits_ge l.psize)), h]
  rw [Leaf.pa]
  omega

theorem State.leafPa_some {s : State} {l : Leaf} {va pa : Nat} (h : s.leafPa l va = some pa) :
    pa = l.pa va ∧ (place pa = .main ∨ place pa = .durable) := by
  unfold State.leafPa at h
  dsimp only at h
  split at h
  · next hp =>
    cases h
    rw [Bool.and_eq_true, Bool.or_eq_true (place _ == _), beq_iff_eq, beq_iff_eq] at hp
    exact ⟨rfl, hp.2⟩
  · cases h

/-- R384: a frame in local memory is aligned and lies in main memory or on the durable tier. -/
theorem State.framePlace_here {s : State} {f : Facet} {pa : Nat} (h : s.framePlace f = some (.here pa)) :
    pa % 4096 = 0 ∧ (place pa = .main ∨ place pa = .durable) := by
  unfold State.framePlace at h
  split at h
  · next l _ =>
    split at h
    · cases h
    · next hal =>
      split at h
      · next q hq =>
        cases h
        obtain ⟨hpa, hplace⟩ := State.leafPa_some hq
        refine ⟨?_, hplace⟩
        rw [hpa]
        have hal : (l.pin = true ∧ l.w = true) ∧ f.tframe.toNat % 4096 = 0 := by simpa using hal
        exact l.pa_aligned hal.2
      · split at h <;> cases h
  · cases h

/-! ### Its bytes (R390) -/

/-- The 512 words of a frame at `pa` stand in memory, byte by byte. -/
def State.holdsWords (t : State) (pa : Nat) (word : Nat → Nat) : Prop :=
  ∀ j < 512, ∀ b < 8, t.byteAt (pa + (8 * j + b)) = BitVec.ofNat 8 (word (8 * j) / 2 ^ (8 * b))

section
variable {s : State} (k : Core) (f : Facet) {pa : Nat} (cause info : BitVec 64) (clock : Nat)

/-- R342, R351: poison, counts and forwarding change no byte of a frame. -/
theorem State.byteAt_putFrame :
    (s.putFrame k f pa cause info clock).byteAt = (s.putRaw pa (frameBytes k f s.freeCtr cause info clock)).byteAt := by
  unfold State.putFrame
  extract_lets s1 s2
  have h1 : s1.byteAt = (s.putRaw pa (frameBytes k f s.freeCtr cause info clock)).byteAt :=
    State.byteAt_of_stored ((State.SameTables.start _).countWords _ _ _).stored
  have h2 : s2.byteAt = s1.byteAt := foldl_keeps State.byteAt _ (fun t i => t.byteAt_cleanWord _) _ _
  rw [State.byteAt_of_stored (State.stored_forward _ _ _), foldl_keeps State.byteAt _ (fun t r => ?_), h2, h1]
  split
  · exact State.byteAt_poisonWord _ _
  · rfl

theorem State.putFrame_holdsWords (hs : s.Listed) (ha : pa % 4096 = 0) (hp : place pa = .main ∨ place pa = .durable) :
    (s.putFrame k f pa cause info clock).holdsWords pa (frameWord k f s.freeCtr cause info clock) := by
  intro j hj b hb
  have hlen : (frameBytes k f s.freeCtr cause info clock).length = 4096 := by
    rw [frameBytes, List.length_flatMap]
    simp only [length_leBytes, List.map_const', List.sum_replicate, upto, List.length_range]
    rfl
  rw [State.byteAt_putFrame]
  refine State.byteAt_putRaw hs (fun i hi => ?_) ?_
  · rw [place_add ha (by omega)]
    exact hp
  · rw [frameBytes, upto, getElem?_flatMap_range (fun i => length_leBytes _ _) hj hb, leBytes_eq_map, List.getElem?_map, upto,
      List.getElem?_range hb, Option.map_some]

end

/-! ### Its words -/

namespace State.holdsWords

variable {t : State} {pa : Nat} {word : Nat → Nat}

/-- Bytes of one word read as a field of it. -/
theorem numAt (h : t.holdsWords pa word) {j b n : Nat} (hj : j < 512) (hn : b + n ≤ 8) :
    t.numAt (pa + (8 * j + b)) n = word (8 * j) / 2 ^ (8 * b) % 2 ^ (8 * n) := by
  rw [State.numAt, State.bytesAt, ← leNat_bytes]
  refine congrArg leNat (List.map_congr_left fun k hk => ?_)
  have hk : k < n := List.mem_range.1 hk
  rw [show pa + (8 * j + b) + k = pa + (8 * j + (b + k)) by omega, h j hj (b + k) (by omega)]

theorem frameNum (h : t.holdsWords pa word) {off : Nat} (h8 : off % 8 = 0) (hoff : off < 4096) :
    t.frameNum (.here pa) off = BitVec.ofNat 64 (word off) := by
  have he : off = 8 * (off / 8) + 0 := by omega
  have hn := h.numAt (j := off / 8) (b := 0) (n := 8) (by omega) (by omega)
  rw [← he, ← Nat.add_zero (8 * (off / 8)), ← he] at hn
  refine BitVec.eq_of_toNat_eq ?_
  rw [State.frameNum, State.frameNumAt, hn]
  simp

theorem byteAt_zero (h : t.holdsWords pa word) {o : Nat} (ho : o < 4096) (hw : word (8 * (o / 8)) = 0) : t.byteAt (pa + o) = 0 := by
  have := h (o / 8) (by omega) (o % 8) (by omega)
  rwa [Nat.div_add_mod, hw, Nat.zero_div] at this

end State.holdsWords

/-! ### Its registers (R386) -/

/-- R386: the registers undefined at trap entry are those with a result on its way. -/
theorem Facet.replayed_trapped {f : Facet} {x : TrapInfo} {r : RegId} : (f.trapped x).replayed r = false ↔ f.flight r = [] := by
  have h : (f.trapped x).replayed r = ((f.landings.any fun l => l.write.id == r) && true) := rfl
  rw [h, Bool.and_true, Facet.flight, List.filter_eq_nil_iff, List.any_eq_false]

/-- R390: a frame holds the fields of the facet that takes the trap. -/
theorem State.holdsWords.holdsFrame {t : State} {pa ctr : Nat} {k : Core} {f : Facet} {x : TrapInfo}
    (h : t.holdsWords pa (frameWord k (f.trapped x) ctr x.word x.info f.clock)) :
    t.holdsFrame pa (k.sysAt f.bank f.pc) f x.word x.info := by
  have hnum : ∀ {off : Nat}, off % 8 = 0 → off < 4096 → t.frameNum (.here pa) off
      = BitVec.ofNat 64 (frameWord k (f.trapped x) ctr x.word x.info f.clock off) := h.frameNum
  have hrep : ∀ {r : RegId}, f.flight r = [] → (f.trapped x).replayed r = false := Facet.replayed_trapped.2
  have hreg : ∀ {off : Nat} {v : BitVec 64}, off % 8 = 0 → off < 4096 →
      frameWord k (f.trapped x) ctr x.word x.info f.clock off = v.toNat → t.frameNum (.here pa) off = v := fun h8 ho hv => by
    rw [hnum h8 ho, hv, BitVec.ofNat_toNat, BitVec.setWidth_eq]
  have hzero : ∀ {off : Nat}, off % 8 = 0 → off < 4096 → frameWord k (f.trapped x) ctr x.word x.info f.clock off = 0 →
      t.frameNum (.here pa) off = 0 := fun h8 ho hv => hreg h8 ho hv
  unfold State.holdsFrame
  extract_lets w
  refine ⟨⟨hreg (by decide) (by decide) (frameWord_cause ..), hreg (by decide) (by decide) (frameWord_info ..),
    (hnum (by decide) (by decide)).trans (congrArg _ (frameWord_resume ..)), hnum (by decide) (by decide), ?fstate,
    (hnum (by decide) (by decide)).trans (BitVec.ofNat_toNat _ _), hreg (by decide) (by decide) rfl,
    hreg (by decide) (by decide) rfl, hreg (by decide) (by decide) rfl⟩, ?guards,
    ?ring, ?loops,
    fun n hn => (hnum (by omega) (by omega)).trans (frameWord_merr _ _ _ _ _ _ hn),
    fun n hn hf => (hnum (by omega) (by omega)).trans (frameWord_y _ _ _ _ _ _ hn (hrep hf)),
    fun n hn hf => (hnum (by omega) (by omega)).trans (frameWord_q _ _ _ _ _ _ hn (hrep hf)),
    fun n hn hf => (hnum (by omega) (by omega)).trans (frameWord_d _ _ _ _ _ _ hn (hrep hf)), ?addresses, ?mask0, ?masks,
    ⟨hzero (by decide) (by decide) rfl, fun n h1 hn hf => (hnum (by omega) (by omega)).trans (frameWord_s _ _ _ _ _ _ h1 hn (hrep hf))⟩,
    ?handles, ?reserved⟩
  case fstate =>
    have hw : frameWord k (f.trapped x) ctr x.word x.info f.clock 0x20 = (fstate k (f.trapped x)).toNat := rfl
    refine (hreg (by decide) (by decide) hw).trans (congrArg (BitVec.ofNat 64) ?_)
    show (if f.bank then 1 else 0) + f.lsDepth * 2 + f.rotBase * 16 + (if k.sysAt f.bank f.pc then 256 else 0) = _
    rw [Nat.mul_comm f.lsDepth, Nat.mul_comm f.rotBase]
    rfl
  case guards =>
    obtain ⟨h0, hg, hz⟩ := frameWord_g k (f.trapped x) ctr x.word x.info f.clock (hnum (by decide) (by decide))
    exact ⟨h0, fun n h1 h8 hf => hg n h1 h8 (hrep hf), hz⟩
  case ring =>
    have hw : w 0x50 = _ := hnum (by decide) (by decide)
    rw [hw]
    cases hr : f.rbase with
    | none =>
      rw [frameWord_rbase_none k (f.trapped x) ctr x.word x.info f.clock hr]
      exact BitVec.ofNat_pow 64 2 63
    | some b => rw [frameWord_rbase_some k (f.trapped x) ctr x.word x.info f.clock hr]
  case loops =>
    refine fun n hn => ⟨fun hd => ?_, fun e hd he => ?_⟩
    · obtain ⟨hA, hC⟩ := frameWord_noLoop k (f.trapped x) ctr x.word x.info f.clock hn hd
      exact ⟨hzero (by omega) (by omega) hA, hzero (by omega) (by omega) hC⟩
    · obtain ⟨hA, hC⟩ := frameWord_loop k (f.trapped x) ctr x.word x.info f.clock hn hd
      have hwA : w (0x80 + 16 * n) = e.wordA := he ▸ hreg (by omega) (by omega) hA
      have hwC : w (0x88 + 16 * n) = e.count := he ▸ hreg (by omega) (by omega) hC
      rw [hwA]
      exact ⟨hwC, e.wordA_fields⟩
  case addresses =>
    intro n hn hf
    have hx := h.numAt (j := 72 + n / 2) (b := 4 * (n % 2)) (n := 4) (by omega) (by omega)
    rw [show 8 * (72 + n / 2) = 0x240 + 8 * (n / 2) by omega, frameWord_x _ _ _ _ _ _ hn (hrep hf)] at hx
    rwa [show pa + 0x240 + 4 * n = pa + (0x240 + 8 * (n / 2) + 4 * (n % 2)) by omega]
  case mask0 =>
    obtain ⟨hlow, hhigh⟩ := frameWord_m0 k (f.trapped x) ctr x.word x.info f.clock
    exact ⟨(hnum (by decide) (by decide)).trans (congrArg _ hlow), (hnum (by decide) (by decide)).trans (congrArg _ hhigh)⟩
  case masks =>
    intro n h1 hn hf
    obtain ⟨hlow, hhigh⟩ := frameWord_m k (f.trapped x) ctr x.word x.info f.clock h1 hn (hrep hf)
    exact ⟨(hnum (by omega) (by omega)).trans hlow, (hnum (by omega) (by omega)).trans hhigh⟩
  case handles =>
    intro n hn hf d hd a ha
    obtain ⟨hlow, hhigh⟩ := frameWord_h k (f.trapped x) ctr x.word x.info f.clock hn (hrep hf)
    have hd : (f.trapped x).h.get n {} = d := hd
    rw [hd] at hlow hhigh
    obtain ⟨hbits, hfields⟩ := d.word0_fields (a := a) (ha ▸ (hnum (by omega) (by omega)).trans (congrArg _ hlow))
    exact ⟨hbits, hfields, (hnum (by omega) (by omega)).trans ((congrArg _ hhigh).trans (BitVec.ofNat_toNat _ _))⟩
  case reserved =>
    exact fun o ho => h.byteAt_zero (by omega) (frameWord_reserved _ _ _ _ _ _ (by omega))

/-! ### Its poison (R330, R349, R390) -/

section
variable {s : State} {pa : Nat}

/-- Words that are cleaned are clean, and no word becomes poisoned. -/
theorem State.poisoned_cleanWords {q : Nat} (hq : place q = .main) (l : List Nat)
    (h : (l.foldl (fun t i => t.cleanWord (pa + 32 * i)) s).poisoned q = true) :
    ∀ i ∈ l, place (pa + 32 * i) = .main → (pa + 32 * i) / 32 ≠ q / 32 := by
  induction l using List.reverseRecOn with
  | nil => exact fun i hi => absurd hi List.not_mem_nil
  | append_singleton l j ih =>
    rw [List.foldl_append, List.foldl_cons, List.foldl_nil] at h
    obtain ⟨hbefore, hj⟩ := State.poisoned_cleanWord hq h
    intro i hi
    obtain hi | hi := List.mem_append.1 hi
    · exact ih hbefore i hi
    · rw [List.mem_singleton.1 hi]
      exact hj

/-- R390: the words of registers that are read with failing parity. -/
def State.poisonRegs (s : State) (pa : Nat) (rs : List RegId) : State :=
  rs.foldl (fun s r => match frameOff r with | some o => s.poisonWord (pa + o) | none => s) s

theorem State.poisonRegs_concat (rs : List RegId) (r : RegId) :
    s.poisonRegs pa (rs ++ [r])
      = match frameOff r with | some o => (s.poisonRegs pa rs).poisonWord (pa + o) | none => s.poisonRegs pa rs := by
  rw [State.poisonRegs, List.foldl_append]
  rfl

theorem State.poisoned_poisonRegs {rs : List RegId} {r : RegId} {o : Nat} (hr : r ∈ rs) (ho : frameOff r = some o)
    (hp : place (pa + o) = .main ∨ place (pa + o) = .durable) : (s.poisonRegs pa rs).poisoned (pa + o) = true := by
  induction rs using List.reverseRecOn with
  | nil => exact absurd hr List.not_mem_nil
  | append_singleton rs a ih =>
    rw [State.poisonRegs_concat]
    obtain hr | hr := List.mem_append.1 hr
    · split
      · exact State.poisoned_poisonWord (ih hr) _
      · exact ih hr
    · rw [← List.mem_singleton.1 hr, ho]
      exact State.poisoned_poisonWord_same _ hp

theorem State.poisoned_of_poisonRegs {rs : List RegId} {q : Nat} (hq : place q = .main) (h : (s.poisonRegs pa rs).poisoned q = true) :
    s.poisoned q = true ∨ ∃ r ∈ rs, ∃ o, frameOff r = some o ∧ (pa + o) / 32 = q / 32 := by
  induction rs using List.reverseRecOn with
  | nil => exact Or.inl h
  | append_singleton rs a ih =>
    rw [State.poisonRegs_concat] at h
    have hrest : (s.poisonRegs pa rs).poisoned q = true →
        s.poisoned q = true ∨ ∃ r ∈ rs ++ [a], ∃ o, frameOff r = some o ∧ (pa + o) / 32 = q / 32 := fun h =>
      (ih h).imp_right fun ⟨r, hr, ho⟩ => ⟨r, List.mem_append_left _ hr, ho⟩
    split at h
    · next o ho =>
      obtain h | h := State.poisoned_of_poisonWord hq h
      · exact hrest h
      · exact Or.inr ⟨a, by simp, o, ho, h⟩
    · exact hrest h

theorem State.poisoned_putFrame (k : Core) (f : Facet) (cause info : BitVec 64) (clock : Nat) :
    ∃ u : State, (s.putFrame k f pa cause info clock).poisoned
      = (((upto 128).foldl (fun t i => t.cleanWord (pa + 32 * i)) u).poisonRegs pa (f.poison.filter fun r => !f.replayed r)).poisoned :=
  ⟨_, State.poisoned_of_stored (State.stored_forward _ _ _)⟩

/-- R390: of a frame in local memory the words of the registers that were read with failing parity are poisoned. -/
theorem State.poisonsFrame_putFrame (k : Core) {f : Facet} {x : TrapInfo} (cause info : BitVec 64) (clock : Nat) (ha : pa % 4096 = 0)
    (hp : place pa = .main ∨ place pa = .durable) : (s.putFrame k (f.trapped x) pa cause info clock).poisonsFrame pa f := by
  obtain ⟨u, hu⟩ := s.poisoned_putFrame (pa := pa) k (f.trapped x) cause info clock
  have hmem : ∀ {r}, r ∈ (f.trapped x).poison.filter (fun r => !(f.trapped x).replayed r) ↔ r ∈ f.poison ∧ f.flight r = [] := by
    intro r
    rw [List.mem_filter, Bool.not_eq_true', Facet.replayed_trapped]
    rfl
  unfold State.poisonsFrame
  rw [hu]
  refine ⟨fun r hr hf o ho hlt => State.poisoned_poisonRegs (hmem.2 ⟨hr, hf⟩) ho ?_, fun hmain i hi hno => ?_⟩
  · rw [place_add ha hlt]
    exact hp
  · have hq : place (pa + 32 * i) = .main := (place_add ha (by omega)).trans hmain
    refine Bool.eq_false_iff.2 fun hbad => ?_
    obtain hbad | ⟨r, hr, o, ho, he⟩ := State.poisoned_of_poisonRegs hq hbad
    · exact State.poisoned_cleanWords hq _ hbad i (List.mem_range.2 hi) hq rfl
    · obtain ⟨hr, hf⟩ := hmem.1 hr
      exact hno r hr hf o ho (by omega)

end

/-! ### Trap entry (R384, R390) -/

section
variable {s : State} {c n : Nat} (x : TrapInfo) {pa : Nat}
  (hw : (s.meetWalk (s.facet c n).pasid (s.facet c n).tframe.toNat (geodeOf c)).framePlace (s.facet c n) = some (.here pa))
include hw

/-- R384: a trap whose frame lies in local memory writes it there. -/
theorem State.trapWrite_here :
    (s.trapWrite c n x).1 = (s.trapped c n x).putFrame ((s.trapped c n x).core c) ((s.facet c n).trapped x) pa x.word x.info
      (s.facet c n).clock := by
  have hplace : (s.trapped c n x).framePlace ((s.trapped c n x).facet c n) = some (.here pa) := by
    rw [State.facet_trapped]
    exact (((State.SameTables.start _).modFacet _ _ _).framePlace rfl rfl).trans hw
  rw [State.trapWrite, State.writeFrame]
  rw [show ((s.trapped c n x).core c).facet n = (s.trapped c n x).facet c n from rfl, hplace, State.facet_trapped]
  rfl

/-- R390: the frame that trap entry leaves in local memory, and which of its words are poisoned. -/
theorem State.frame_takeTrapOf (hs : s.Listed) (t : State) (ht : t.stored = (s.trapWrite c n x).1.stored) :
    t.holdsFrame pa ((s.core c).sysAt (s.facet c n).bank (s.facet c n).pc) (s.facet c n) x.word x.info
      ∧ t.poisonsFrame pa (s.facet c n) := by
  obtain ⟨ha, hp⟩ := State.framePlace_here hw
  have hl : (s.trapped c n x).Listed := (State.spares_modFacet _ _ _ _).listed (State.listed_meetWalk hs _ _ _)
  rw [State.trapWrite_here x hw] at ht
  have hcore : ∀ b pc, ((s.trapped c n x).core c).sysAt b pc = (s.core c).sysAt b pc := fun b pc => by
    rw [State.trapped, State.core_modFacet_same, State.core_meetWalk]
    rfl
  constructor
  · rw [← hcore]
    refine State.holdsWords.holdsFrame (ctr := (s.trapped c n x).freeCtr) fun j hj b hb => ?_
    rw [State.byteAt_of_stored ht]
    exact State.putFrame_holdsWords _ _ _ _ _ hl ha hp j hj b hb
  · unfold State.poisonsFrame
    rw [State.poisoned_of_stored ht]
    exact State.poisonsFrame_putFrame _ _ _ _ ha hp

end

end Sys2Proof.Machine
end

section
/-! PROOF. O51: trap entry (R382, R384 to R386, R388, R390, R393, R394). -/

namespace Sys2Proof.Machine

/-! ### The facet that traps -/

section
variable {f u : Facet} {x : TrapInfo} {ok : Bool}

/-- R384 to R386: a facet whose trap is recorded and whose results are moved to replay; `ok` says whether its frame was written. -/
def Facet.recordsTrap (u f : Facet) (x : TrapInfo) (ok : Bool) : Prop :=
  u.tcause = x.word ∧ u.tinfo = x.info ∧ u.frameOk = ok ∧ u.replay = f.landings ∧ u.landings = [] ∧ u.progClock = f.clock

theorem Facet.recordsTrap_trapped (f : Facet) (x : TrapInfo) (ok : Bool) (page : Option Handle) :
    { f.trapped x with frameOk := ok, framePage := page }.recordsTrap f x ok := ⟨rfl, rfl, rfl, rfl, rfl, rfl⟩

theorem Facet.recordsTrap.enterHandler (h : u.recordsTrap f x ok) : u.enterHandler.recordsTrap f x ok := h

/-- R385: s1 holds TFRAME and s2 TCAUSE. -/
theorem Facet.s_enterHandler (f : Facet) :
    f.enterHandler.s.get 1 0 = f.tframe ∧ f.enterHandler.s.get 2 0 = f.tcause
      ∧ ∀ k, k ≠ 1 → k ≠ 2 → f.enterHandler.s.get k 0 = f.s.get k 0 :=
  ⟨(Tbl.get_set_other _ _ _ _ _ (by decide)).trans (Tbl.get_set_same _ _ _ _), Tbl.get_set_same _ _ _ _,
    fun _ h1 h2 => (Tbl.get_set_other _ _ _ _ _ h2).trans (Tbl.get_set_other _ _ _ _ _ h1)⟩

end

section
variable {s : State} {c n : Nat} (x : TrapInfo)

/-- R384: in a handler a trap parks the facet and records nothing. -/
theorem State.takeTrapOf_handler (hi : (s.facet c n).intrap = true) : s.takeTrapOf c n x = s.park c n 0x21 := if_pos hi

theorem State.facet_framed_eq :
    ∃ page, (s.framed c n x).facet c n = { (s.facet c n).trapped x with frameOk := (s.trapWrite c n x).2, framePage := page } :=
  ⟨_, State.facet_framed s c n x⟩

theorem State.recordsTrap_framed : ((s.framed c n x).facet c n).recordsTrap (s.facet c n) x (s.trapWrite c n x).2 := by
  obtain ⟨page, h⟩ := State.facet_framed_eq (s := s) (c := c) (n := n) x
  rw [h]
  exact Facet.recordsTrap_trapped _ _ _ _

theorem State.recordsTrap_park {v : State} {f : Facet} {ok : Bool} (h : (v.facet c n).recordsTrap f x ok) (code : Nat) :
    ((v.park c n code).facet c n).recordsTrap f x ok := by
  rw [State.facet_park]
  exact h

section
variable (hi : (s.facet c n).intrap = false)
include hi

/-- R384 to R386: outside a handler every trap is recorded, whether it enters or parks. -/
theorem State.recordsTrap_takeTrapOf : ((s.takeTrapOf c n x).facet c n).recordsTrap (s.facet c n) x (s.trapWrite c n x).2 := by
  have h := State.recordsTrap_framed (s := s) (c := c) (n := n) x
  rw [State.takeTrapOf_program x hi]
  split
  · exact State.recordsTrap_park x h _
  split
  · exact State.recordsTrap_park x h _
  split
  · exact State.recordsTrap_park x h _
  · rw [State.facet_modFacet_same]
    exact h.enterHandler

/-- R393: a trap that parks outside a handler leaves the facet outside. -/
theorem State.parks_framed {t : State} {code : Nat} (ht : t = (s.framed c n x).park c n code) :
    (t.facet c n).parked = true ∧ (t.facet c n).parkCode = BitVec.ofNat 8 code ∧ (t.facet c n).intrap = false := by
  obtain ⟨page, h⟩ := State.facet_framed_eq (s := s) (c := c) (n := n) x
  rw [ht, State.facet_park, h]
  exact ⟨rfl, rfl, hi⟩

/-- R384, R385: entering the handler leaves the memory that the frame step left. -/
theorem State.stored_takeTrapOf_enters (hp : x.parks = false) (hb : tbaseOk (s.core c) (s.facet c n) = true)
    (hw : (s.trapWrite c n x).2 = true) : (s.takeTrapOf c n x).stored = (s.trapWrite c n x).1.stored := by
  rw [State.takeTrapOf_program x hi, hp, State.tbaseOk_trapped, hb, hw]
  exact (((State.SameTables.start _).modFacet _ _ _).modFacet _ _ _).stored

end
end

/-- Settles O51: the conditions of R384 are taken in turn, and the frame is read back word by word. -/
theorem trapEntryFollowsItsConditions : Obligations.TrapEntryFollowsItsConditions := by
  unfold Obligations.TrapEntryFollowsItsConditions
  rintro s t w c n _ _ x rfl rfl rfl rfl
  refine ⟨fun hi => ?handler, fun hi => ?program⟩
  case handler =>
    rw [State.takeTrapOf_handler x hi, State.facet_park]
    exact ⟨rfl, rfl, rfl, rfl, rfl⟩
  have hprog := State.takeTrapOf_program x hi
  rw [State.tbaseOk_trapped, State.trapWrite_written] at hprog
  obtain ⟨hcause, hinfo, hok, hreplay, hland, hclock⟩ := State.recordsTrap_takeTrapOf x hi
  rw [State.trapWrite_written] at hok
  refine ⟨hcause, hinfo, hok, hreplay, hland, hclock, fun hp => ?_, fun hp hb => ?_, fun hp hb hw => ?_, fun hp hb hw => ?enters⟩
  · rw [if_pos hp] at hprog
    exact State.parks_framed x hi hprog
  · rw [if_neg (by simp [hp]), if_pos (by simp [hb])] at hprog
    exact State.parks_framed x hi hprog
  · rw [if_neg (by simp [hp]), if_neg (by simp [hb]), if_pos (by simp [hw])] at hprog
    exact State.parks_framed x hi hprog
  case enters =>
    have hwritten : (s.trapWrite c n x).2 = true := by rw [State.trapWrite_written, hw]
    have hstored := State.stored_takeTrapOf_enters x hi hp hb hwritten
    have hframe := fun (hs : s.canonical = true) pa hpa =>
      State.frame_takeTrapOf x (pa := pa) hpa ((State.canonical_iff s).1 hs) _ hstored
    rw [State.facet_takeTrapOf_enters s c n x hi hp hb hw]
    obtain ⟨page, hf⟩ := State.facet_framed_eq (s := s) (c := c) (n := n) x
    obtain ⟨h1, h2, hs⟩ := ((s.framed c n x).facet c n).s_enterHandler
    rw [hf] at h1 h2 hs ⊢
    exact ⟨rfl, rfl, rfl, rfl, rfl, h1, h2, hs, hframe⟩

end Sys2Proof.Machine
end
